-- ==== Sys2Proof/Word.lean ====
section
/-!
DEFINITION. The word types of the model: bytes, 32-bit and 64-bit registers, and the type of sparse tables.
-/

namespace Sys2Proof

/-- One byte of memory, of a register or of a message. -/
abbrev Byte := BitVec 8

/-- A 32-bit register or free-running ring count (R345). -/
abbrev Word32 := BitVec 32

/-- A 64-bit register (R331: every register is 64 bits wide). -/
abbrev Word64 := BitVec 64

/-- A sparse table: keys strictly ascending, and no entry equal to the table's default value, so that
equal tables are equal data. -/
abbrev Tab (α : Type) := List (Nat × α)

end Sys2Proof
end

