-- ==== Sys2Proof/Config.lean ====
section
/-!
DEFINITION. What an implementation fixes and the spec leaves open: opaque constants and functions with
no body, so that no proof can see a value of one. Each is named in a row of the assumption log.
-/

namespace Sys2Proof.Config

/-- The `n`-th free value of an operation (DESIGN CHOICE, assumption 3). -/
opaque freeValue : Nat → Nat

/-- exp32 of an FP32 bit pattern at arithmetic revision 1, away from the limits R47 fixes (DESIGN CHOICE, assumption 4). -/
opaque exp32 : Nat → Nat

/-- log32 of an FP32 bit pattern at arithmetic revision 1, away from the limits R47 fixes (DESIGN CHOICE, assumption 4). -/
opaque log32 : Nat → Nat

/-- tanh32 of an FP32 bit pattern at arithmetic revision 1 (R47; DESIGN CHOICE, assumption 4). -/
opaque tanh32 : Nat → Nat

/-- erf32 of an FP32 bit pattern at arithmetic revision 1 (R47; DESIGN CHOICE, assumption 4). -/
opaque erf32 : Nat → Nat

/-- sigmoid32 of an FP32 bit pattern at arithmetic revision 1 (R47; DESIGN CHOICE, assumption 4). -/
opaque sigmoid32 : Nat → Nat

/-- SHA-384 of a byte string: 48 bytes as a number, first byte most significant (DESIGN CHOICE, assumption 5). -/
opaque sha384 : List Byte → Nat

/-- ECDSA over P-384: whether the signature verifies for the key and the digest (DESIGN CHOICE, assumption 5). -/
opaque ecdsaVerify : (key : List Byte) → (digest : Nat) → (sig : List Byte) → Bool

/-- AES key unwrap under the device's import key: none where the integrity check fails (DESIGN CHOICE, assumption 5). -/
opaque keyUnwrap : (kek : List Byte) → (wrapped : List Byte) → Option (List Byte)

/-- The encryption of a flash map unit or a pool payload under a key (DESIGN CHOICE, assumption 5). -/
opaque encrypt : (key : List Byte) → (tweak : Nat) → List Byte → List Byte

/-- The inverse of `encrypt`, as the hardware computes it (DESIGN CHOICE, assumption 5). -/
opaque decrypt : (key : List Byte) → (tweak : Nat) → List Byte → List Byte

/-- The GCM tag of a pool message under a key, a nonce and its header (DESIGN CHOICE, assumption 5). -/
opaque gcmTag : (key : List Byte) → (nonce : Nat) → (aad : List Byte) → (payload : List Byte) → Nat

/-- What a firmware package's bytes say, whose layout is no interface (R385): whether the header is whole and the vendor
signature verifies, whether the body matches its digest, version, handover version, microcode revision
(DESIGN CHOICE, assumption 18). -/
opaque packageInfo : List Byte → Bool × Bool × Nat × Nat × Nat

/-- Whether an optical calibration record carries Quinjor's signature (R537; DESIGN CHOICE, assumption 18). -/
opaque calibrationSigned : List Byte → Bool

/-- What the host's memory holds where a host view lists nothing (DESIGN CHOICE, assumption 6). -/
opaque hostByte : (gateway : Nat) → (addr : Nat) → Byte

end Sys2Proof.Config
end

