-- ==== Sys2Proof/Machine/Bits.lean ====
section
/-!
DEFINITION. Bit fields, byte order, saturating and wrapping counters (R6, R7, R10), sparse tables in
one canonical form, and the round-robin choice that every arbiter of the device makes (R122).
-/

namespace Sys2Proof

/-- Bit `i` of a number; bit 0 is the least significant (R6). -/
def bit (n i : Nat) : Bool := n.testBit i

/-- Bits `hi:lo` of a number, both ends included (R6). -/
def bits (n hi lo : Nat) : Nat := (n >>> lo) % 2 ^ (hi + 1 - lo)

/-- A saturating counter of width `w` after `k` more events (R10). -/
def satAdd (w n k : Nat) : Nat := min (2 ^ w - 1) (n + k)

/-- A wrapping counter of width `w` after `k` more events (R10). -/
def wrapAdd (w n k : Nat) : Nat := (n + k) % 2 ^ w

/-- Division rounded up. -/
def cdiv (a b : Nat) : Nat := (a + b - 1) / b

/-- `1` for true, `0` for false: one bit of a field. -/
def b2n (b : Bool) : Nat := if b then 1 else 0

/-- The entry of key `k`, or the default `d` where none is listed. -/
def Tab.get {α : Type} (d : α) : Tab α → Nat → α
  | [], _ => d
  | (j, v) :: t, k => if j = k then v else Tab.get d t k

/-- Insert in key order, replacing an entry of the same key. -/
def Tab.insert {α : Type} : Tab α → Nat → α → Tab α
  | [], k, v => [(k, v)]
  | (j, w) :: t, k, v =>
    if k < j then (k, v) :: (j, w) :: t
    else if k = j then (k, v) :: t
    else (j, w) :: Tab.insert t k v

/-- Drop the entry of key `k`. -/
def Tab.erase {α : Type} : Tab α → Nat → Tab α
  | [], _ => []
  | (j, w) :: t, k => if j = k then t else (j, w) :: Tab.erase t k

/-- Write `v` at key `k`; writing the default removes the entry, which keeps the canonical form. -/
def Tab.set {α : Type} [DecidableEq α] (d : α) (t : Tab α) (k : Nat) (v : α) : Tab α :=
  if v = d then Tab.erase t k else Tab.insert t k v

/-- The canonical form: keys strictly ascending, no entry equal to the default. -/
def Tab.wf {α : Type} [DecidableEq α] (d : α) : Tab α → Bool
  | [] => true
  | [(_, v)] => decide (v ≠ d)
  | (j, v) :: (k, w) :: t => decide (j < k) && decide (v ≠ d) && Tab.wf d ((k, w) :: t)

/-- The little-endian number held by a list of bytes (R7). -/
def leNat : List Byte → Nat
  | [] => 0
  | b :: t => b.toNat + 256 * leNat t

/-- The big-endian number held by a list of bytes (packet headers, R416; SEC 1 encodings, R387). -/
def beNat (l : List Byte) : Nat := leNat l.reverse

/-- `n` little-endian bytes of a number (R7). -/
def leBytes : Nat → Nat → List Byte
  | 0, _ => []
  | n + 1, v => BitVec.ofNat 8 v :: leBytes n (v / 256)

/-- `n` zero bytes: a Reserved field (R14). -/
def zeros (n : Nat) : List Byte := List.replicate n 0

/-- Bytes `lo` to `lo + n - 1` of a structure; bytes beyond its end read as 0. -/
def slice (l : List Byte) (lo n : Nat) : List Byte :=
  let t := (l.drop lo).take n
  t ++ zeros (n - t.length)

/-- The little-endian field of `n` bytes at byte offset `lo` (R6, R7). -/
def fld (l : List Byte) (lo n : Nat) : Nat := leNat (slice l lo n)

/-- Whether bytes `lo` to `lo + n - 1` are all 0: the check of a Reserved field (R14). -/
def zeroAt (l : List Byte) (lo n : Nat) : Bool := (slice l lo n).all (· == 0)

/-- Two's-complement reading of the low `w` bits of a number. -/
def toSigned (w n : Nat) : Int :=
  let m := n % 2 ^ w
  if m < 2 ^ (w - 1) then (m : Int) else (m : Int) - (2 : Int) ^ w

/-- The low `w` bits of the two's-complement form of an integer. -/
def ofSigned (w : Nat) (i : Int) : Nat := (i % ((2 : Int) ^ w)).toNat

/-- A number put into an ascending list of numbers, once. -/
def insertNat (k : Nat) : List Nat → List Nat
  | [] => [k]
  | a :: t => if k < a then k :: a :: t else if k = a then a :: t else a :: insertNat k t

/-- Replace the element at position `i` of a list, unchanged where there is none. -/
def setAt {α : Type} : List α → Nat → α → List α
  | [], _, _ => []
  | _ :: t, 0, v => v :: t
  | a :: t, i + 1, v => a :: setAt t i v

/-- Apply `f` to the element at position `i`. -/
def modAt {α : Type} (l : List α) (i : Nat) (f : α → α) : List α :=
  match l[i]? with
  | some a => setAt l i (f a)
  | none => l

/-- The round-robin choice of an arbiter over `n` requesters: the first requester at or after the
pointer for which `want` holds, wrapping (R122). The pointer then moves past the winner. -/
def roundRobin (n ptr : Nat) (want : Nat → Bool) : Option Nat :=
  ((List.range n).map fun i => (ptr + i) % n).find? want

end Sys2Proof
end

