-- ==== Sys2Proof/Machine/Operands.lean ====
section
/-!
DEFINITION. The number formats of the Bamgor and the exact values their codes stand for (R29 to R31), exact
arithmetic on those values, and their order (R34).
-/

namespace Sys2Proof

/-- The formats of Table: Formats (R29). -/
inductive Fmt where
  | e2m1 | e8m0 | e4m3 | e5m2 | int4 | int8 | fp16 | bf16 | fp32 | dist32
  deriving DecidableEq, Repr

/-- What a code of a format stands for: NaN, an infinity, or the exact value ±num/den with `den` positive. -/
inductive Val where
  | nan
  | inf (neg : Bool)
  | fin (neg : Bool) (num den : Nat)
  deriving DecidableEq, Repr

/-- The width, in bits, of a code of a format (R29). -/
def Fmt.width : Fmt → Nat
  | .e2m1 => 4 | .int4 => 4
  | .e8m0 => 8 | .e4m3 => 8 | .e5m2 => 8 | .int8 => 8
  | .fp16 => 16 | .bf16 => 16
  | .fp32 => 32 | .dist32 => 32

/-- Mantissa bits of a floating-point format (R29). -/
def Fmt.mant : Fmt → Nat
  | .e2m1 => 1 | .e4m3 => 3 | .e5m2 => 2 | .fp16 => 10 | .bf16 => 7 | .fp32 => 23
  | .e8m0 => 0 | .int4 => 0 | .int8 => 0 | .dist32 => 0

/-- Exponent of the smallest normal number of a floating-point format: 1 less its bias (R29). -/
def Fmt.emin : Fmt → Int
  | .e2m1 => 0 | .e4m3 => -6 | .e5m2 => -14 | .fp16 => -14 | .bf16 => -126 | .fp32 => -126
  | .e8m0 => -127 | .int4 => 0 | .int8 => 0 | .dist32 => 0

/-- The code, without its sign bit, of the largest finite number of a floating-point format (R29). -/
def Fmt.maxCode : Fmt → Nat
  | .e2m1 => 7 | .e4m3 => 0x7E | .e5m2 => 0x7B | .fp16 => 0x7BFF | .bf16 => 0x7F7F | .fp32 => 0x7F7F_FFFF
  | .e8m0 => 0xFE | .int4 => 7 | .int8 => 127 | .dist32 => 0xFFFF_FFFE

/-- The canonical positive quiet NaN of a format that has one (R30); E8M0's NaN is 0xFF (R29). -/
def Fmt.canonicalNaN : Fmt → Nat
  | .fp32 => 0x7FC0_0000 | .bf16 => 0x7FC0 | .fp16 => 0x7E00 | .e4m3 => 0x7F | .e5m2 => 0x7E
  | .e8m0 => 0xFF
  | .e2m1 => 0 | .int4 => 0 | .int8 => 0 | .dist32 => 0

/-- The code of positive infinity of a format that has one (R29). -/
def Fmt.infCode : Fmt → Nat
  | .fp32 => 0x7F80_0000 | .bf16 => 0x7F80 | .fp16 => 0x7C00 | .e5m2 => 0x7C
  | .e2m1 => 0 | .e8m0 => 0 | .e4m3 => 0 | .int4 => 0 | .int8 => 0 | .dist32 => 0

/-- ±m × 2^e as an exact value. -/
def Val.dyadic (neg : Bool) (m : Nat) (e : Int) : Val :=
  .fin neg (m * 2 ^ e.toNat) (2 ^ (-e).toNat)

/-- An integer as an exact value. -/
def Val.ofInt (i : Int) : Val := .fin (decide (i < 0)) i.natAbs 1

/-- The value of a floating-point code whose sign bit is `neg` and whose other bits are `c`. -/
def Fmt.magnitude (f : Fmt) (neg : Bool) (c : Nat) : Val :=
  if c < 2 ^ f.mant then .dyadic neg c (f.emin - f.mant)
  else .dyadic neg (2 ^ f.mant + c % 2 ^ f.mant) (f.emin - f.mant + ((c / 2 ^ f.mant - 1 : Nat) : Int))

/-- What a code of a format stands for (R29). -/
def Fmt.decode (f : Fmt) (code : Nat) : Val :=
  let c := code % 2 ^ f.width
  match f with
  | .int4 => .ofInt (toSigned 4 c)
  | .int8 => .ofInt (toSigned 8 c)
  | .dist32 => .ofInt (c : Int)
  | .e8m0 => if c = 0xFF then .nan else .dyadic false 1 ((c : Int) - 127)
  | f =>
    let neg := c.testBit (f.width - 1)
    let m := c % 2 ^ (f.width - 1)
    if m ≤ f.maxCode then f.magnitude neg m
    else if f ≠ .e4m3 ∧ m = f.infCode then .inf neg
    else .nan

/-- +0. -/
def Val.zero : Val := .fin false 0 1

/-- 1. -/
def Val.one : Val := .fin false 1 1

/-- Whether a value is ±0. -/
def Val.isZero : Val → Bool
  | .fin _ 0 _ => true
  | _ => false

/-- Whether a value is NaN. -/
def Val.isNaN : Val → Bool
  | .nan => true
  | _ => false

/-- Whether a value is NaN or infinite. -/
def Val.notFinite : Val → Bool
  | .fin _ _ _ => false
  | _ => true

/-- Sign reversed. -/
def Val.negate : Val → Val
  | .nan => .nan
  | .inf s => .inf (!s)
  | .fin s n d => .fin (!s) n d

/-- Magnitude. -/
def Val.abs : Val → Val
  | .nan => .nan
  | .inf _ => .inf false
  | .fin _ n d => .fin false n d

/-- The exact product; zero times infinity is NaN (R39). -/
def Val.mul : Val → Val → Val
  | .nan, _ => .nan
  | _, .nan => .nan
  | .inf s, .inf t => .inf (s != t)
  | .inf s, .fin t n _ => if n = 0 then .nan else .inf (s != t)
  | .fin s n _, .inf t => if n = 0 then .nan else .inf (s != t)
  | .fin s n d, .fin t m e => .fin (s != t) (n * m) (d * e)

/-- The exact sum; opposite infinities give NaN, and an exact zero is +0 unless both operands are −0
(IEEE 754, R43). -/
def Val.add : Val → Val → Val
  | .nan, _ => .nan
  | _, .nan => .nan
  | .inf s, .inf t => if s = t then .inf s else .nan
  | .inf s, .fin _ _ _ => .inf s
  | .fin _ _ _, .inf t => .inf t
  | .fin s n d, .fin t m e =>
    let a : Int := (n * e : Nat)
    let b : Int := (m * d : Nat)
    let r := (if s then -a else a) + (if t then -b else b)
    if r = 0 then .fin (s && t) 0 1 else .fin (decide (r < 0)) r.natAbs (d * e)

/-- The exact difference. -/
def Val.sub (x y : Val) : Val := x.add y.negate

/-- The exact quotient; 0/0 and ∞/∞ are NaN, x/0 is an infinity (IEEE 754, R43). -/
def Val.div : Val → Val → Val
  | .nan, _ => .nan
  | _, .nan => .nan
  | .inf _, .inf _ => .nan
  | .inf s, .fin t _ _ => .inf (s != t)
  | .fin s _ _, .inf t => .fin (s != t) 0 1
  | .fin s n d, .fin t m e =>
    if m = 0 then (if n = 0 then .nan else .inf (s != t)) else .fin (s != t) (n * e) (d * m)

/-- Exact order of two values that are not NaN, −0 below +0 (R34): whether `x` is below `y`. -/
def Val.lt : Val → Val → Bool
  | .nan, _ => false
  | _, .nan => false
  | .inf s, .inf t => s && !t
  | .inf s, .fin _ _ _ => s
  | .fin _ _ _, .inf t => !t
  | .fin s n d, .fin t m e =>
    match s, t with
    | true, false => true
    | false, true => false
    | false, false => decide (n * e < m * d)
    | true, true => decide (m * d < n * e)

/-- Exact numeric comparison, −0 equal to +0: whether `x` is below `y`. -/
def Val.numLt (x y : Val) : Bool := if x.isZero && y.isZero then false else x.lt y

/-- Maximum: NaN where an operand is NaN, −0 below +0 (R34). -/
def Val.max (x y : Val) : Val := if x.isNaN || y.isNaN then .nan else if x.lt y then y else x

/-- Minimum: NaN where an operand is NaN, −0 below +0 (R34). -/
def Val.min (x y : Val) : Val := if x.isNaN || y.isNaN then .nan else if y.lt x then y else x

/-- Whether candidate `y` replaces `x` in an argmin: strictly below, and a NaN never while a number
exists (R34). -/
def Val.betterMin (x y : Val) : Bool := if y.isNaN then false else if x.isNaN then true else y.lt x

/-- Whether candidate `y` replaces `x` in an argmax (R34). -/
def Val.betterMax (x y : Val) : Bool := if y.isNaN then false else if x.isNaN then true else x.lt y

/-- Scan for the best index, the lowest among equals (R34). -/
def argBest (better : Val → Val → Bool) : Nat → Nat → Val → List Val → Nat
  | _, best, _, [] => best
  | i, best, v, x :: t => if better v x then argBest better (i + 1) i x t else argBest better (i + 1) best v t

/-- Index of the least value, the lowest index among equals (R34); 0 of an empty list. -/
def argmin : List Val → Nat
  | [] => 0
  | x :: t => argBest Val.betterMin 1 0 x t

/-- Index of the greatest value, the lowest index among equals (R34); 0 of an empty list. -/
def argmax : List Val → Nat
  | [] => 0
  | x :: t => argBest Val.betterMax 1 0 x t

/-- Element `i` of a packed vector of a format: two 4-bit elements share a byte, the lower index in
bits 3:0 (R31); wider elements are little-endian (R7). -/
def Fmt.elem (f : Fmt) (l : List Byte) (i : Nat) : Nat :=
  if f.width = 4 then bits (fld l (i / 2) 1) (if i % 2 = 0 then 3 else 7) (if i % 2 = 0 then 0 else 4)
  else fld l (i * (f.width / 8)) (f.width / 8)

/-- The bytes that `n` packed elements of a format take. -/
def Fmt.bytes (f : Fmt) (n : Nat) : Nat := (n * f.width + 7) / 8

/-- Pack codes of a format into bytes (R31, R7). -/
def Fmt.pack (f : Fmt) : List Nat → List Byte
  | [] => []
  | [a] => leBytes (cdiv f.width 8) a
  | a :: b :: t =>
    if f.width = 4 then BitVec.ofNat 8 (a % 16 + 16 * (b % 16)) :: Fmt.pack f t
    else leBytes (f.width / 8) a ++ Fmt.pack f (b :: t)

end Sys2Proof
end

