-- ==== Sys2Proof/Machine/Flags.lean ====
section
/-!
DEFINITION. Rounding and saturation (R32), MX blocks (R33), distances (R35 to R37, R617), the long
accumulator and its transport form (R38 to R41), arith_status (R42), the canonical tree (R44), the
attention and embedding arithmetic (R45, R46, R49) and the limits of the transcendental functions (R47).
-/

namespace Sys2Proof

/-- arith_status bit 0 (R42). -/
def ARITH_NAN : Nat := 1
/-- arith_status bit 1 (R42). -/
def ARITH_RANGE : Nat := 2
/-- arith_status bit 2 (R42). -/
def ARITH_LOW : Nat := 4
/-- arith_status bit 3 (R42). -/
def ARITH_SAT : Nat := 8

/-- A code and the arith_status bits that its forming sets. -/
abbrev Coded := Nat × Nat

/-- The integer nearest to `a / b`, ties to even (R32). -/
def rneDiv (a b : Nat) : Nat :=
  let n := a / b
  let r := a % b
  if 2 * r < b then n else if b < 2 * r then n + 1 else n + n % 2

/-- The exponent of the leading bit of `num / den`, both positive. -/
def floorLog2 (num den : Nat) : Int :=
  let k : Int := (Nat.log2 num : Int) - (Nat.log2 den : Int)
  if den * 2 ^ k.toNat ≤ num * 2 ^ (-k).toNat then k else k - 1

/-- The unsigned code of a positive magnitude rounded to a floating-point format as if its exponent
range had no upper end (R32). -/
def roundMag (f : Fmt) (num den : Nat) : Nat :=
  if num = 0 then 0 else
  let q : Int := max (floorLog2 num den) f.emin - f.mant
  let n := rneDiv (num * 2 ^ (-q).toNat) (den * 2 ^ q.toNat)
  (q - (f.emin - f.mant)).toNat * 2 ^ f.mant + n

/-- The sign bit of a floating-point format, set or not. -/
def Fmt.signBit (f : Fmt) (neg : Bool) : Nat := if neg then 2 ^ (f.width - 1) else 0

/-- Conversion to E8M0 (R32). -/
def convertE8M0 : Val → Coded
  | .nan => (0xFF, ARITH_NAN)
  | .inf true => (0xFF, ARITH_NAN)
  | .inf false => (0xFE, ARITH_SAT)
  | .fin neg num den =>
    if num = 0 then (0, ARITH_SAT)
    else if neg then (0xFF, ARITH_NAN)
    else
      let e := floorLog2 num den
      -- compare twice the significand with 3: num/den against 1.5 × 2^e
      let a := 2 * num * 2 ^ (-e).toNat
      let b := 3 * den * 2 ^ e.toNat
      let r : Int := if a < b then e else if b < a then e + 1 else if (e + 127) % 2 = 0 then e else e + 1
      if r < -127 then (0, ARITH_SAT)
      else if 127 < r then (0xFE, ARITH_SAT)
      else ((r + 127).toNat, 0)

/-- Conversion to DIST32 (R32). -/
def convertDist32 : Val → Coded
  | .nan => (0xFFFF_FFFE, ARITH_NAN)
  | .inf true => (0, ARITH_SAT)
  | .inf false => (0xFFFF_FFFE, ARITH_SAT)
  | .fin neg num den =>
    let n := rneDiv num den
    if neg then (0, if n = 0 then 0 else ARITH_SAT)
    else if 0xFFFF_FFFE < n then (0xFFFF_FFFE, ARITH_SAT) else (n, 0)

/-- Conversion to a two's-complement integer of width `w` (R32). -/
def convertInt (w : Nat) : Val → Coded
  | .nan => (0, ARITH_NAN)
  | .inf true => (2 ^ (w - 1), ARITH_SAT)
  | .inf false => (2 ^ (w - 1) - 1, ARITH_SAT)
  | .fin neg num den =>
    let n := rneDiv num den
    if neg then
      if 2 ^ (w - 1) < n then (2 ^ (w - 1), ARITH_SAT) else (ofSigned w (-(n : Int)), 0)
    else if 2 ^ (w - 1) - 1 < n then (2 ^ (w - 1) - 1, ARITH_SAT) else (n, 0)

/-- Conversion to a floating-point format (R32). -/
def convertFloat (f : Fmt) : Val → Coded
  | .nan => match f with
    | .e2m1 => (0, ARITH_NAN)
    | f => (f.canonicalNaN, ARITH_NAN)
  | .inf neg =>
    match f with
    | .fp32 | .bf16 | .fp16 => (f.signBit neg + f.infCode, 0)
    | f => (f.signBit neg + f.maxCode, ARITH_SAT)
  | .fin neg num den =>
    let c := roundMag f num den
    if c ≤ f.maxCode then (f.signBit neg + c, 0)
    else match f with
      | .fp32 | .bf16 | .fp16 => (f.signBit neg + f.infCode, 0)
      | f => (f.signBit neg + f.maxCode, ARITH_SAT)

/-- Conversion of an exact value to any format (R32). -/
def convert (f : Fmt) (v : Val) : Coded :=
  match f with
  | .e8m0 => convertE8M0 v
  | .dist32 => convertDist32 v
  | .int8 => convertInt 8 v
  | .int4 => convertInt 4 v
  | f => convertFloat f v

/-- The FP32 rounding of an exact value (R32): its bit pattern and the NaN flag. -/
def round32 (v : Val) : Coded := convert .fp32 v

/-- The value of an FP32 bit pattern. -/
def f32 (c : Nat) : Val := Fmt.decode .fp32 c

/-- FP32 NaN test on a bit pattern (R29). -/
def isNaN32 (c : Nat) : Bool := (f32 c).isNaN

/-- Bit-by-bit integer square root over `k` result bits. -/
def isqrtBits (n : Nat) : Nat → Nat → Nat
  | 0, r => r
  | k + 1, r => let t := r + 2 ^ k; isqrtBits n k (if t * t ≤ n then t else r)

/-- The FP32 square root, correctly rounded (R43): a root of at least 32 significant bits with a sticky
bit rounds as the true root does. -/
def sqrt32 (c : Nat) : Coded :=
  match f32 c with
  | .nan => (Fmt.canonicalNaN .fp32, ARITH_NAN)
  | .inf true => (Fmt.canonicalNaN .fp32, ARITH_NAN)
  | .inf false => (Fmt.infCode .fp32, 0)
  | .fin neg num den =>
    if num = 0 then (c % 2 ^ 32, 0)
    else if neg then (Fmt.canonicalNaN .fp32, ARITH_NAN)
    else
      -- num/den × 2^400 is an integer for every FP32 number; its root has weight 2^-200
      let n := num * 2 ^ 400 / den
      let r := isqrtBits n 270 0
      round32 (.fin false (2 * r + b2n (decide (r * r ≠ n))) (2 ^ 201))

/-- One FP32 elementwise operation: exact, then one rounding (R43). -/
def add32 (a b : Nat) : Coded := round32 ((f32 a).add (f32 b))
/-- FP32 subtraction (R43). -/
def sub32 (a b : Nat) : Coded := round32 ((f32 a).sub (f32 b))
/-- FP32 multiplication (R43). -/
def mul32 (a b : Nat) : Coded := round32 ((f32 a).mul (f32 b))
/-- FP32 division (R43). -/
def div32 (a b : Nat) : Coded := round32 ((f32 a).div (f32 b))

/-! Transcendental functions (R47). -/

/-- A NaN result sets ARITH_NAN (R42). -/
def flagNaN (c : Nat) : Coded := if isNaN32 c then (Fmt.canonicalNaN .fp32, ARITH_NAN) else (c, 0)

/-- exp32 with its fixed limits (R47): below −103.972076416015625 it is +0, above 88.72283935546875 it
is +infinity. -/
def exp32 (c : Nat) : Coded :=
  match f32 c with
  | .nan => flagNaN (Fmt.canonicalNaN .fp32)
  | v =>
    if v.numLt (f32 0xC2CF_F1B4) then (0, 0)
    else if (f32 0x42B1_7218).numLt v then (Fmt.infCode .fp32, 0)
    else flagNaN (Config.exp32 (c % 2 ^ 32) % 2 ^ 32)

/-- log32 with its fixed limits (R47). -/
def log32 (c : Nat) : Coded :=
  match f32 c with
  | .nan => flagNaN (Fmt.canonicalNaN .fp32)
  | v =>
    if v.isZero then (0xFF80_0000, 0)
    else if v.numLt Val.zero then flagNaN (Fmt.canonicalNaN .fp32)
    else flagNaN (Config.log32 (c % 2 ^ 32) % 2 ^ 32)

/-- A function whose only fixed value is that NaN gives NaN (R30, R47). -/
def nanOr (f : Nat → Nat) (c : Nat) : Coded :=
  if isNaN32 c then flagNaN (Fmt.canonicalNaN .fp32) else flagNaN (f (c % 2 ^ 32) % 2 ^ 32)

/-- tanh32 (R47). -/
def tanh32 (c : Nat) : Coded := nanOr Config.tanh32 c
/-- erf32 (R47). -/
def erf32 (c : Nat) : Coded := nanOr Config.erf32 c
/-- sigmoid32 (R47). -/
def sigmoid32 (c : Nat) : Coded := nanOr Config.sigmoid32 c

/-! MX blocks (R33). -/

/-- emax of R33's three element formats. -/
def mxEmax : Fmt → Int
  | .e2m1 => 2 | .e4m3 => 8 | .e5m2 => 15
  | .e8m0 | .int4 | .int8 | .fp16 | .bf16 | .fp32 | .dist32 => 0

/-- The largest magnitude of a list of finite values. -/
def maxMag (l : List Val) : Val := l.foldl (fun m v => if m.lt v.abs then v.abs else m) Val.zero

/-- Scale code, element codes and arith_status of an MX block formed from its values (R33). -/
def mxBlock (f : Fmt) (xs : List Val) : Nat × List Nat × Nat :=
  if xs.any Val.notFinite then (0xFF, xs.map fun _ => 0, ARITH_NAN)
  else
    let x : Int := match maxMag xs with
      | .fin _ n d => if n = 0 then -127 else max (-127) (min 127 (floorLog2 n d - mxEmax f))
      | .nan => -127
      | .inf _ => -127
    let cs := xs.map fun v => convert f (v.mul (.dyadic false 1 (-x)))
    ((x + 127).toNat, cs.map Prod.fst, cs.foldl (fun a c => a ||| c.2) 0)

/-- The value of element code `c` of an MX block of scale code `sc` (R31). -/
def mxValue (f : Fmt) (sc c : Nat) : Val := (Fmt.decode .e8m0 sc).mul (f.decode c)

/-! The long accumulator (R38 to R42). -/

/-- A long accumulator: the 160-bit value in units of 2^-64, and the four flags (R38). -/
structure LAcc where
  val : Int
  nan : Bool
  pos : Bool
  neg : Bool
  low : Bool
  deriving DecidableEq, Repr

/-- The empty sum. -/
def LAcc.zero : LAcc := ⟨0, false, false, false, false⟩

/-- One addend enters the accumulator (R39). -/
def LAcc.push (a : LAcc) : Val → LAcc
  | .nan => { a with nan := true }
  | .inf true => { a with neg := true }
  | .inf false => { a with pos := true }
  | .fin s num den =>
    if 2 ^ 63 * den ≤ num then (if s then { a with neg := true } else { a with pos := true })
    else
      let q := rneDiv (num * 2 ^ 64) den
      { a with val := a.val + (if s then -(q : Int) else (q : Int)),
               low := a.low || decide (num * 2 ^ 64 % den ≠ 0) }

/-- Addition of two accumulators, their flags OR-ed (R40, R41). -/
def LAcc.join (a b : LAcc) : LAcc :=
  ⟨toSigned 160 (ofSigned 160 (a.val + b.val)), a.nan || b.nan, a.pos || b.pos, a.neg || b.neg, a.low || b.low⟩

/-- Whether the value lies in the 128-bit window (R38). -/
def LAcc.inWindow (a : LAcc) : Bool := decide (-(2 ^ 127 : Int) ≤ a.val) && decide (a.val < (2 ^ 127 : Int))

/-- What read-out converts (R40). -/
def LAcc.value (a : LAcc) : Val :=
  if a.nan || (a.pos && a.neg) then .nan
  else if a.pos then .inf false
  else if a.neg then .inf true
  else if a.inWindow then .fin (decide (a.val < 0)) a.val.natAbs (2 ^ 64)
  else .inf (decide (a.val < 0))

/-- The arith_status bits that the accumulation itself sets (R42). -/
def LAcc.status (a : LAcc) : Nat :=
  (if a.low then ARITH_LOW else 0) ||| (if a.pos || a.neg || !a.inWindow then ARITH_RANGE else 0)

/-- Read-out with a read-out scale: one rounding to the output format (R40). -/
def LAcc.readScaled (f : Fmt) (scale : Val) (a : LAcc) : Coded :=
  let (c, st) := convert f (a.value.mul scale)
  (c, st ||| a.status)

/-- Read-out to a format (R40). -/
def LAcc.read (f : Fmt) (a : LAcc) : Coded := a.readScaled f Val.one

/-- The sum of a list of addends (R39). -/
def LAcc.sum (l : List Val) : LAcc := l.foldl LAcc.push LAcc.zero

/-- The accumulator transport form, 24 bytes (R41). -/
def LAcc.toBytes (a : LAcc) : List Byte :=
  leBytes 20 (ofSigned 160 a.val) ++
  [BitVec.ofNat 8 (b2n a.nan + 2 * b2n a.pos + 4 * b2n a.neg + 8 * b2n a.low)] ++ zeros 3

/-- The transport form read back; none where a Reserved field is not 0 (R41). -/
def LAcc.ofBytes (l : List Byte) : Option LAcc :=
  let f := fld l 20 1
  if f < 16 ∧ zeroAt l 21 3 then
    some ⟨toSigned 160 (fld l 0 20), bit f 0, bit f 1, bit f 2, bit f 3⟩
  else none

/-- The exact inner product of two vectors of exact values (R617). -/
def exactDot (x y : List Val) : LAcc := LAcc.sum (List.zipWith Val.mul x y)

/-- The exact squared L2 distance of two vectors of exact values (R617). -/
def exactL2 (x y : List Val) : LAcc := LAcc.sum (List.zipWith (fun a b => (a.sub b).mul (a.sub b)) x y)

/-! Distances (R35 to R37). -/

/-- The sentinel distance (R35). -/
def DIST_SENTINEL : Nat := 0xFFFF_FFFF

/-- The ordering key of an FP32 refined distance (R37). -/
def distKey (f : Nat) : Nat :=
  let f := if isNaN32 f then 0x7FC0_0000 else f % 2 ^ 32
  let f := if f = 0x8000_0000 then 0 else f
  if f.testBit 31 then 0xFFFF_FFFF - f else f ||| 0x8000_0000

/-- A lookup distance: the integer sum saturated at 0xFFFF_FFFE (R36). -/
def lookupDist (entries : List Nat) : Nat := min 0xFFFF_FFFE entries.sum

/-- The least or greatest FP32 bit pattern of a row of the table (R34, R36). -/
def rowBest (pick : Val → Val → Val) : List Nat → Val
  | [] => Val.zero
  | c :: t => t.foldl (fun v d => pick v (f32 d)) (f32 c)

/-- One entry of the lookup table (R36). -/
def lutEntry (qmax : Nat) (s : Nat) (lo t : Val) : Coded :=
  let p := (f32 (round32 (t.sub lo)).1).mul (f32 s)
  match p with
  | .nan => (0, ARITH_NAN)
  | .inf true => (0, 0)
  | .inf false => (qmax, ARITH_SAT)
  | .fin neg n d => (if neg then 0 else min qmax (rneDiv n d), 0)

/-- The lookup table of a query from its FP32 sub-distances, and the arith_status it sets (R36). -/
def lutBuild (qmax : Nat) (t : List (List Nat)) : List (List Nat) × Nat :=
  let lo := t.map (rowBest Val.min)
  let hi := t.map (rowBest Val.max)
  let spans := List.zipWith (fun h l => f32 (round32 (h.sub l)).1) hi lo
  let span := match spans with
    | [] => Val.zero
    | v :: r => r.foldl Val.max v
  let s := if span.isZero then 0 else (round32 ((Val.ofInt (qmax : Int)).div span)).1
  let rows := List.zipWith (fun l r => r.map fun c => lutEntry qmax s l (f32 c)) lo t
  (rows.map (·.map Prod.fst),
   rows.foldl (fun a r => r.foldl (fun a c => a ||| c.2) a) (if span.isNaN then ARITH_NAN else 0))

/-! The canonical tree (R44). -/

/-- One level of the canonical tree. -/
def treeLevel {α : Type} (op : α → α → α) : List α → List α
  | [] => []
  | [x] => [x]
  | x :: y :: t => op x y :: treeLevel op t

/-- The canonical tree over its leaves, `fuel` levels deep at most (R44). -/
def treeFuel {α : Type} (op : α → α → α) (d : α) : Nat → List α → α
  | _, [] => d
  | _, [x] => x
  | 0, x :: _ => x
  | k + 1, l => treeFuel op d k (treeLevel op l)

/-- The canonical tree over its leaves (R44); `d` where there are none. -/
def canonicalTree {α : Type} (op : α → α → α) (d : α) (l : List α) : α := treeFuel op d l.length l

/-! Retrieval attention arithmetic (R45, R46). -/

/-- A partial (m, l, o): FP32 bit patterns (R45). -/
structure Partial where
  m : Nat
  l : Nat
  o : List Nat
  deriving DecidableEq, Repr

/-- FP32 −infinity. -/
def NEG_INF32 : Nat := 0xFF80_0000

/-- The partial of a block with every token masked (R45). -/
def Partial.masked (d : Nat) : Partial := ⟨NEG_INF32, 0, List.replicate d 0⟩

/-- Largest of a list of FP32 bit patterns (R34). -/
def max32 : List Nat → Nat
  | [] => NEG_INF32
  | c :: t => t.foldl (fun a b => (round32 ((f32 a).max (f32 b))).1) c

/-- An inner product with an MX operand: one addend for each block of 32 (R39, R247). -/
def blockDot (x y : List Val) : LAcc :=
  let ps := List.zipWith Val.mul x y
  LAcc.sum ((List.range (cdiv ps.length 32)).map fun i => ((ps.drop (32 * i)).take 32).foldl Val.add Val.zero)

/-- The partial of one block from the query row, the softmax scale, and per token its mask, key and
value rows (R45), with its arith_status. -/
def blockPartial (q : List Val) (scale : Nat) (d : Nat) (toks : List (Bool × List Val × List Val)) :
    Partial × Nat :=
  if toks.all (fun t => !t.1) then (Partial.masked d, 0)
  else
    let ss : List Coded := toks.map fun t =>
      if t.1 then
        (blockDot q t.2.1).readScaled .fp32 (f32 scale)
      else (NEG_INF32, 0)
    let m := max32 (ss.map Prod.fst)
    let ps : List Coded := ss.map fun s =>
      let (x, s1) := round32 ((f32 s.1).sub (f32 m))
      let (p, s2) := exp32 x
      (p, s1 ||| s2)
    let pv := ps.map fun p => f32 p.1
    let (l, sl) := (LAcc.sum pv).read .fp32
    let os := (List.range d).map fun j =>
      (LAcc.sum (List.zipWith (fun p t => p.mul (t.2.2.getD j Val.zero)) pv toks)).read .fp32
    (⟨m, l, os.map Prod.fst⟩,
     (ss ++ ps ++ os).foldl (fun a c => a ||| c.2) sl ||| (if isNaN32 m then ARITH_NAN else 0))

/-- A partial with the arith_status of forming it. -/
abbrev FPartial := Partial × Nat

/-- The combine function of two partials (R46). -/
def combine (a b : FPartial) : FPartial :=
  let st := a.2 ||| b.2
  if a.1.m = NEG_INF32 then (b.1, st)
  else if b.1.m = NEG_INF32 then (a.1, st)
  else
    let (m, s0) := round32 ((f32 a.1.m).max (f32 b.1.m))
    let (x1, s1) := round32 ((f32 a.1.m).sub (f32 m))
    let (x2, s2) := round32 ((f32 b.1.m).sub (f32 m))
    let (a1, s3) := exp32 x1
    let (a2, s4) := exp32 x2
    let mix := fun (x y : Nat) =>
      (LAcc.sum [(f32 x).mul (f32 a1), (f32 y).mul (f32 a2)]).read .fp32
    let (l, s5) := mix a.1.l b.1.l
    let os := List.zipWith mix a.1.o b.1.o
    (⟨m, l, os.map Prod.fst⟩,
     os.foldl (fun r c => r ||| c.2) (st ||| s0 ||| s1 ||| s2 ||| s3 ||| s4 ||| s5))

/-- The output of a step: o[j] / l in FP32, then the output format; all 0 where l is 0 (R46). -/
def stepOutput (f : Fmt) (p : FPartial) : List Nat × Nat :=
  let cs : List Coded := p.1.o.map fun o =>
    if (f32 p.1.l).isZero then (0, 0)
    else
      let (c, s1) := div32 o p.1.l
      let (r, s2) := convert f (f32 c)
      (r, s1 ||| s2)
  (cs.map Prod.fst, cs.foldl (fun a c => a ||| c.2) p.2)

/-! Embedding arithmetic (R49). -/

/-- The two addends of element code `c` of a row that occurs `r` times in a bag, with weight `w`
(R49): code × scale and offset, each times `r`. -/
def rowAddends (c r : Nat) (w scale offset : Val) : List Val :=
  let k := Val.ofInt (r : Int)
  [((Val.ofInt (c : Int)).mul scale |>.mul k).mul w, (offset.mul k).mul w]

end Sys2Proof
end

