-- ==== Sys2Proof/Machine/PartsA.lean ====
section
/-!
DEFINITION. Parts of the state, first file: memory and its layout (03), start-up, boot flash and image (14),
the pontil guard, workspaces and keys (11), functions, mailboxes, rings, vectors and tickets (12, 13), and
the event recorder (20).
-/

namespace Sys2Proof.Machine

/-! ## Fuses and boot flash -/

/-- What the fuses hold; nothing writes them (R1 to R3, R58, R319, R324, R385, R388). -/
structure Fuses where
  /-- Whether the part is the QRB-6412; otherwise it is the QRB-6416. -/
  is6412 : Bool
  /-- Stepping B0; otherwise A0. -/
  isB0 : Bool
  serial : Nat
  /-- The device identity public key, an uncompressed P-384 point of 97 bytes (R368). -/
  identityPub : List Byte
  /-- The fused private half of the identity key, readable by no command (R319). -/
  identityKey : List Byte
  /-- SHA-384 digests of the four owner-key slots and their revoke fuses (R388). -/
  ownerDigests : List Nat
  ownerRevoked : List Bool
  powerCapCeil : Nat
  eraseCeil : Nat
  deriving DecidableEq, Repr

/-- A firmware slot of the boot flash. A package's contents are no interface (R385), so it is held by what
the boot ROM and FW_STAGE read off it. -/
structure FwPackage where
  /-- The header is whole and the vendor signature verifies. -/
  signed : Bool
  /-- The body matches its digest. -/
  bodyOk : Bool
  version : Nat
  /-- The handover version that the package declares (R533). -/
  handover : Nat
  ucodeRev : Nat
  bytes : Nat
  deriving DecidableEq, Repr

/-- The boot flash (R383): two raw copies of the boot record, firmware slots A and B, and the raw bytes of
the image slots A and B; an absent or erased slot is `none` or empty. -/
structure BootFlash where
  rec0 : List Byte
  rec1 : List Byte
  fwA : Option FwPackage
  fwB : Option FwPackage
  imgA : List Byte
  imgB : List Byte
  deriving DecidableEq, Repr

/-- The start-up stages (R378), and the two states outside them: no input, and the rails off after a flush
or a trip. -/
inductive Stage where
  | off | power | strap | strapGuard | boot | bootGuard | discover | run | stopped
  deriving DecidableEq, Repr

/-- A program key of the image: key identifier and P-384 point (R389). -/
structure ProgKey where
  ident : Nat
  point : List Byte
  deriving DecidableEq, Repr

/-- The image settings in force after the layers of R390. -/
structure Settings where
  rackId : Nat
  il : Nat
  nStacks : Nat
  scrubPeriodH : Nat
  coarseWindowNs : Nat
  subreqTimeoutUs : Nat
  requireSigned : Bool
  programKeys : List ProgKey
  powerCap : Nat
  egressDev : Nat
  egressPort : Nat
  eraseRate : Nat
  laserFeedEn : Nat
  wearSpreadLimit : Nat
  deriving DecidableEq, Repr

/-- Start-up state (R378 to R396). -/
structure Boot where
  stage : Stage
  /-- The stop code given, 0 for none (R379). -/
  stopCode : Nat
  /-- When the stage, or the stop, began: local ns. -/
  since : Nat
  /-- Rails in regulation and PLL locked during POWER (R378). -/
  railsOk : Bool
  straps : Nat
  flash : BootFlash
  /-- Boot-flash slots of the firmware and image in force: false A, true B. -/
  fwSlot : Bool
  imgSlot : Bool
  fwVersion : Nat
  imgVersion : Nat
  settings : Settings
  /-- last_stop as read from the boot record at this start-up. -/
  lastStop : Nat
  /-- When the last stop line or EV_START_WAIT went out: local ns. -/
  lastLine : Nat
  /-- N has been fixed under R391. -/
  stacksDone : Bool
  deriving DecidableEq, Repr

/-! ## Memory -/

/-- The memory layout in force (R58): N is the length of the stack map. -/
structure Layout where
  stackMap : List Nat
  retired : Nat
  il : Nat
  ucodeRev : Nat
  deriving DecidableEq, Repr

/-- Bank memory: bytes by DPA in canonical form, poisoned granules by granule number (DPA / 32), and the
corrected-error counter of each bank (R84). An unlisted byte reads 0, as R391 leaves every granule. -/
structure Mem where
  cells : List Host.Cell
  poison : List Nat
  ceCount : Tab Nat
  layout : Layout
  deriving DecidableEq, Repr

/-! ## Guard -/

/-- A run of pages of the owner map with one owner (R313). -/
structure OwnRun where
  base : Nat
  pages : Nat
  kind : Nat
  ws : Nat
  deriving DecidableEq, Repr

/-- One key of the key store (R319, R322): newest first in a list of at most two. -/
structure Key where
  gen : Nat
  bytes : List Byte
  deriving DecidableEq, Repr

/-- The keys of a workspace and the pool message counter of its newest pool generation (R321). -/
structure KeySet where
  flash : List Key
  pool : List Key
  poolCounter : Nat
  deriving DecidableEq, Repr

/-- The pontil guard (R323 to R329). -/
structure Guard where
  locked : Bool
  halted : Bool
  violTotal : Nat
  violHalt : Nat
  powerCap : Nat
  powerCapActive : Nat
  egressDev : Nat
  egressDevActive : Nat
  egressPort : Nat
  eraseRate : Nat
  laserFeedEn : Nat
  owners : List OwnRun
  keys : List (Nat × KeySet)
  /-- When EV_GUARD_HOLD was last emitted, by limit number (R326): local ns. -/
  holdAt : Tab Nat
  deriving DecidableEq, Repr

/-! ## Workspaces -/

/-- The quota block, and current use in its layout (R308). -/
structure Quota where
  slots : Nat
  latencySlots : Nat
  indexes : Nat
  tables : Nat
  programs : Nat
  sessions : Nat
  rings : Nat
  moveChannels : Nat
  tickets : Nat
  egressGbps : Nat
  windowPages : Nat
  marverPages : Nat
  flashMib : Nat
  poolReads : Nat
  deriving DecidableEq, Repr

/-- A ticket by owner: function number, or 256 for the management endpoint (R341, R362). -/
structure TicketRef where
  owner : Nat
  num : Nat
  deriving DecidableEq, Repr

/-- An entry of a region table (R315), with the ticket of its REGION_FREE once CLOSING. -/
structure Region where
  base : Nat
  pages : Nat
  closing : Option TicketRef
  deriving DecidableEq, Repr

/-- A workspace (R305): state 0 FREE, 1 ACTIVE, 2 DESTROYING. -/
structure Ws where
  state : Nat
  wflags : Nat
  wclass : Nat
  quota : Quota
  regions : List Region
  destroy : Option TicketRef
  deriving DecidableEq, Repr

/-! ## Functions -/

/-- What an asynchronous command does until its DONE message (R341): its opcode, workspace and payload,
numbers its chapter needs, and its final status and result once they are known. -/
structure Work where
  op : Nat
  ws : Nat
  payload : List Byte
  args : List Nat
  result : Option (Nat × List Byte)
  deriving DecidableEq, Repr

/-- A ticket that is ISSUED or DONE; a RETIRED one is not listed (R341). -/
structure Ticket where
  done : Bool
  opcode : Nat
  tag : Nat
  work : Work
  deriving DecidableEq, Repr

/-- A ring number of a function (R344): state 0 ABSENT, 1 ACTIVE, 2 DESTROYING; a move channel's ring keeps
its channel number (R446). -/
structure Ring where
  state : Nat
  channel : Option Nat
  creation : List Byte
  sqDpa : Nat
  cqAddr : Nat
  sqEntries : Nat
  cqEntries : Nat
  entryBytes : Nat
  vector : Nat
  devRing : Nat
  sqPi : Word32
  sqCi : Word32
  cqPi : Word32
  cqCi : Word32
  badDoorbell : Bool
  inFlight : Nat
  destroy : List TicketRef
  /-- The last EV_RING_DOORBELL_BAD, local ns, and the ignored writes since. -/
  badAt : Option Nat
  badCount : Nat
  deriving DecidableEq, Repr

/-- An interrupt vector (R355). -/
structure Vec where
  coalCount : Nat
  coalNs : Nat
  mask : Bool
  enable : Bool
  sent : Nat
  unsignalled : Nat
  pending : Bool
  /-- When the first unsignalled event arrived: local ns. -/
  firstAt : Nat
  /-- seq of the last message, from 1. -/
  seq : Nat
  deriving DecidableEq, Repr

/-- The latched payload and tickets of a pending FUNC_ENABLE (R373): the first ticket is the latched E. -/
structure PendingEnable where
  ws : Nat
  gateway : Nat
  tickets : List TicketRef
  deriving DecidableEq, Repr

/-- A function (R330): state 0 DISABLED, 1 ENABLED, 2 DISABLING. Function 256 of the table stands for the
management endpoint (R362), which has a ticket space and no window. -/
structure Func where
  state : Nat
  ws : Nat
  gateway : Nat
  pendingEnable : Option PendingEnable
  disable : List TicketRef
  busy : BitVec 16
  ready : BitVec 16
  /-- BUSY slots in doorbell arrival order (R336). -/
  arrival : List Nat
  /-- Bytes of the request and response slots: slot × 1,024 + byte. -/
  reqSlots : Tab Byte
  respSlots : List (Nat × List Byte)
  /-- Messages waiting for a response slot (R335). -/
  respQueue : List (List Byte)
  mbxVector : Nat
  accepted : Nat
  badBells : Nat
  seq : Word64
  nextTicket : Nat
  tickets : List (Nat × Ticket)
  rings : List (Nat × Ring)
  vecs : List (Nat × Vec)
  /-- The last EV_WINDOW_BAD_ACCESS, local ns, and the bad accesses since (R331). -/
  badAt : Option Nat
  badCount : Nat
  deriving DecidableEq, Repr

/-! ## Recorder -/

/-- An event as its source raises it (R517): parameters p0 to p4. -/
structure Event where
  code : Nat
  srcKind : Nat
  inst : Nat
  time : Nat
  timeFree : Bool
  p0 : Nat
  p1 : Nat
  p2 : Nat
  p3 : Nat
  p4 : Nat
  deriving DecidableEq, Repr

/-- A written record (R517), with its archive position once archived, and whether it was excluded (R527). -/
structure Rec where
  ev : Event
  cls : Nat
  number : Nat
  rep : Nat
  reserve : Bool
  archived : Option Nat
  excluded : Bool
  cleared : Bool
  deriving DecidableEq, Repr

/-- A code's entry in the fold table (R524). -/
structure Fold where
  code : Nat
  count : Nat
  first : Nat
  last : Nat
  source : Nat
  /-- Next summary instant, local ns. -/
  nextAt : Nat
  /-- A fold fell since the previous instant. -/
  fresh : Bool
  deriving DecidableEq, Repr

/-- A latched ALARM event (R522) and its further occurrences. -/
structure Latch where
  ev : Event
  rep : Nat
  deriving DecidableEq, Repr

/-- The event recorder (R517 to R530). -/
structure Recorder where
  /-- Events raised and not yet taken by the intake arbiter, oldest first. -/
  intake : List Event
  /-- Intake arbiter pointer over the source kinds other than PONTIL (R519). -/
  ptr : Nat
  /-- Records of this life, ring and archive together, by record number, ascending. -/
  recs : List Rec
  nextNumber : Nat
  /-- Archived records by archive position, 64 bytes each (R526). -/
  archive : List (Nat × List Byte)
  archNext : Nat
  archOldest : Nat
  archMounted : Bool
  latches : List Latch
  folds : List Fold
  /-- Log bucket: tokens × 10^9, and when it was last filled (local ns). -/
  tokens : Nat
  filledAt : Nat
  logRate : Nat
  logBurst : Nat
  traceMask : Nat
  fwdClasses : Nat
  fwdEntries : Nat
  fwdAddr : Nat
  fwdCount : Nat
  traceDropped : Nat
  logFolded : Nat
  excludedCount : Nat
  alarmRepeats : Nat
  /-- Drops since the last drop summary: TRACE, folds, exclusions, ALARM repeats; and when the second began. -/
  dTrace : Nat
  dFold : Nat
  dExcl : Nat
  dAlarm : Nat
  dropAt : Option Nat
  cursor : Word64
  /-- The snapshot of the read window: 64 records of 64 bytes, or nothing yet (R529). -/
  window : List (List Byte)
  clearNonce : Nat
  lastArchive : Nat
  deriving DecidableEq, Repr

end Sys2Proof.Machine
end

