-- ==== Sys2Proof/Machine/PartsB.lean ====
section
/-!
DEFINITION. Parts of the state, second file: packets, ports, lanes, routes and flows of the Sinazan fabric
(15), and the egress schedulers with their gates and samples (16).
-/

namespace Sys2Proof.Machine

/-- A packet (R416): its header fields, payload and, with ENC, the trailer tag. -/
structure Packet where
  vc : Nat
  hop : Bool
  enc : Bool
  last : Bool
  dst : Nat
  src : Nat
  ws : Nat
  msg : Nat
  flowSeq : Nat
  txn : Nat
  keyGen : Nat
  nonce : Nat
  payload : List Byte
  tag : Nat
  /-- Marked by the event recorder as an ALARM record (R427). -/
  alarm : Bool
  deriving DecidableEq, Repr

/-- A packet in a port queue, and when it joined: local ns. -/
structure Queued where
  pkt : Packet
  joined : Nat
  deriving DecidableEq, Repr

/-- Status of a wavelength in one direction (R422): 0 ACTIVE, 1 SPARE, 2 FAILED, 3 DARK. -/
structure Wavelength where
  status : Nat
  /-- Failed attempts to retrain it: the first, then the retries (R403). -/
  failedRetries : Nat
  retrainAt : Nat
  /-- The lane that waits for it while it is retrained in place, and whether FAB_RETRAIN has it retrained now (R424). -/
  home : Option Nat
  busy : Bool
  deriving DecidableEq, Repr

/-- One direction of a port: 14 lanes with a wavelength or none, and 16 wavelengths (R401). -/
structure Direction where
  lanes : List (Option Nat)
  wl : List Wavelength
  /-- Remaps asked for and not yet answered: lane and new wavelength (R402). -/
  remaps : List (Nat × Nat)
  deriving DecidableEq, Repr

/-- A DATA frame that the sender keeps (R411). -/
structure Frame where
  seq : Nat
  data : List Byte
  sentAt : Nat
  replays : Nat
  /-- The packets whose last byte this frame carries. -/
  ends : List Packet
  deriving DecidableEq, Repr

/-- Credits of a virtual channel and hop class: cells that the sender may still send (R412). -/
structure Credit where
  vc : Nat
  cls : Nat
  used : Nat
  deriving DecidableEq, Repr

/-- A gate list (R437): mode, entries (duration, mask), base, after-mask and take-over time. -/
structure GateList where
  mode : Nat
  entries : List (Nat × Nat)
  base : Nat
  afterMask : Nat
  takeOver : Nat
  ticket : Option TicketRef
  deriving DecidableEq, Repr

/-- What a queue's samples and hold times have come to since a RESET (R445): depth sum, samples, greatest head age,
greatest depth, and ns that its head was passed over by gate, by shaper, by credits. -/
structure QStat where
  depthSum : Nat
  samples : Nat
  maxAge : Nat
  maxDepth : Nat
  gate : Nat
  shaper : Nat
  credit : Nat
  deriving DecidableEq, Repr

/-- A workspace queue of a class, or one of TC7's two (R427, R430). -/
structure PQueue where
  cls : Nat
  ws : Nat
  pkts : List Queued
  start : Word64
  /-- Since the RESET of its own workspace, and since that of the class as a whole (R445). -/
  own : QStat
  summed : QStat
  bytesSent : Nat
  /-- When its head was last looked at, local ns, and why it was passed over: 0 it was not, 1 gate, 2 shaper, 3 credits. -/
  seenAt : Nat
  cause : Nat
  /-- The head has been found not to fit since (local ns), for R440. -/
  unfitSince : Option Nat
  deriving DecidableEq, Repr

/-- A token bucket in the units of its chapter, and when it was last filled: local ns. -/
structure Bucket where
  level : Int
  at_ : Nat
  deriving DecidableEq, Repr

/-- The scheduler of one port (R426 to R445). -/
structure Sched where
  queues : List PQueue
  /-- Virtual time and pointer of the class level, and the class start tags (TC0 to TC5). -/
  vClass : Word64
  ptrClass : Nat
  classStart : List Word64
  /-- Virtual time and workspace pointer per class TC0 to TC6. -/
  vWs : List Word64
  ptrWs : List Nat
  weights : List Nat
  ceil6 : Nat
  ceil7 : Nat
  bucket6 : Bucket
  bucket7 : Bucket
  alarmBucket : Bucket
  portBucket : Bucket
  overhead : Int
  sampleUs : Nat
  sampledAt : Nat
  gates : GateList
  pendingGates : Option GateList
  gateTooShort : Nat
  gateShortAt : Option Nat
  /-- Index of the gate entry in force, and the mask of TC0 to TC6 in force. -/
  gateEntry : Nat
  gateMask : Nat
  deriving DecidableEq, Repr

/-- A partner found by hello (R393, R425): status 0 none, 1 OK, 2 MISWIRED, 3 LOST. -/
structure Partner where
  status : Nat
  device : Nat
  role : Nat
  port : Nat
  mesh : Nat
  rack : Nat
  helloAt : Nat
  deriving DecidableEq, Repr

/-- A port (R398): state of Table: Port states, emission 0 DARK, 1 PROBE, 2 FULL (R406). -/
structure Port where
  state : Nat
  emission : Nat
  since : Nat
  /-- Light received without a break since this local ns. -/
  lightSince : Option Nat
  probeAt : Nat
  /-- Pulses emitted (R406). -/
  pulses : Nat
  tx : Direction
  rx : Direction
  fecCorrected : Nat
  fecUncorrectable : Nat
  replays : Nat
  retrains : Nat
  remaps : Nat
  minLanes : Nat
  lastChange : Nat
  partner : Partner
  helloSentAt : Nat
  /-- HELLO and TIME messages that wait to go between two packets (R426). -/
  localQ : List Packet
  /-- FAB_RETRAIN tickets that join the training in progress (R424). -/
  retrainTickets : List TicketRef
  /-- Sender: next DATA sequence number, unacknowledged frames, bytes not yet in a frame. -/
  txSeq : Nat
  unacked : List Frame
  txTail : List Byte
  /-- Packets of which the last byte lies in txTail, with the offset just past it. -/
  txEnds : List (Nat × Packet)
  /-- Receiver: highest DATA sequence number in order, and packet bytes not yet whole. -/
  rxSeq : Nat
  rxTail : List Byte
  /-- What the next frame head returns: 1 ACK, 2 NAK (R410). -/
  ackKind : Nat
  /-- Cells of the partner's receive buffer in use, and credits to return, per virtual channel and class. -/
  credits : List Credit
  owed : List Credit
  badHcrc : Nat
  badTrailer : Nat
  /-- Peer delay measured this training, ns × 2^16 (R420). -/
  peerDelay : Option Int
  sched : Sched
  deriving DecidableEq, Repr

/-- A held TC7 packet or a MEM_WRITE that waits for its acknowledgement (R417). -/
structure Held where
  pkt : Packet
  sentAt : Nat
  resends : Nat
  /-- An E2E_ACK has covered it, and only its MEM_WRITE_ACK is awaited. -/
  delivered : Bool
  deriving DecidableEq, Repr

/-- A flow this device sends: destination, virtual channel, next sequence number, path and idle time (R414,
R415): path 0 primary, 1 alternate. -/
structure Flow where
  dst : Nat
  vc : Nat
  seq : Nat
  path : Nat
  lastAt : Nat
  deriving DecidableEq, Repr

/-- A flow this device receives: source, virtual channel, next sequence number expected, gaps. -/
structure RxFlow where
  src : Nat
  vc : Nat
  expect : Nat
  gaps : Nat
  /-- Packets of the message in progress, and its transaction tag (R417). -/
  txn : Nat
  parts : List Byte
  broken : Bool
  deriving DecidableEq, Repr

/-- What a peer's LINK_STATE says of one of its ports (R417). -/
structure LinkEntry where
  usable : Bool
  device : Nat
  role : Nat
  deriving DecidableEq, Repr

/-- The fabric (R398 to R425). -/
structure Fabric where
  ports : List Port
  /-- Feeds lit, by feed 2c + f (R404), connector presence by cane engine (R407), and retired engines (R541). -/
  feedLost : List Bool
  connPresent : List Bool
  /-- When presence last changed, by engine: local ns. -/
  connAt : List Nat
  canesAnswered : Nat
  canesRetired : Nat
  peers : List (Nat × List LinkEntry)
  linkChanged : Option Nat
  linkSentAt : Nat
  flows : List Flow
  rxFlows : List RxFlow
  held : List Held
  /-- Packets that reached this device and have not been received (R417), oldest first, each with its port. -/
  arrived : List (Nat × Packet)
  /-- Whole messages delivered and not yet acted on, oldest first. -/
  inbox : List Packet
  unreachable : Nat
  unreachableAt : Option Nat
  nextTxn : Nat
  devBucket : Bucket
  wsBuckets : List (Nat × Bucket)
  wsWeights : Tab Nat
  deriving DecidableEq, Repr

end Sys2Proof.Machine
end

