-- ==== Sys2Proof/Machine/PartsC.lean ====
section
/-!
DEFINITION. Parts of the state, third file: marver units and bank ports (03), gaffer engines, programs, query
slots and sub-requests (04, 06), jack units (07), and vector and hash indexes (05, 06).
-/

namespace Sys2Proof.Machine

/-! ## Marver units -/

/-- The marver operations (R68). -/
inductive MarverOp where
  | lutLoad | scan8 | scan4 | filter | blockScore | attnKey | attnValue | pool | gradRmw | append | mark
  | copy | drain | diebusXfer
  deriving DecidableEq, Repr

/-- One retained entry of a scan: distance, ordinal, item ID (R73). -/
structure Entry where
  dist : Nat
  ordinal : Nat
  ident : Nat
  deriving DecidableEq, Repr

/-- A marver command, as punty cores and the bench core send it over the stack interface (R65). Its layout is no interface;
these are the facts that its operation needs (DESIGN CHOICE, assumption 47). -/
structure MarverCmd where
  op : MarverOp
  ws : Nat
  /-- Slot that it works for; 65,536 and above stand for the bench core. -/
  slot : Nat
  /-- Index number, table handle or session handle; with DIEBUS_XFER of a region, the region's first page. -/
  obj : Nat
  /-- Table and scratch pages it holds (R66). -/
  tablePages : Nat
  scratchPages : Nat
  /-- Marver addresses of the structures it works on, in order, and its destination. -/
  places : List Nat
  dst : Nat
  /-- Numbers of the operation, and its vectors: query rows or a gradient. -/
  nums : List Nat
  rows : List (List Nat)
  /-- Read epoch, or the delete epoch of a MARK. -/
  epoch : Nat
  pred : List Byte
  /-- Lookup table, or append buffer. -/
  data : List Byte
  /-- Jack unit, pass, and the threshold of a threshold pass (R73, R74). -/
  jack : Nat
  pass : Nat
  tau : Nat
  /-- Pre-filter mode (R188). -/
  filtered : Bool
  deriving DecidableEq, Repr

/-- A context of a marver unit with a command in progress (R65, R66). -/
structure MarverCtx where
  cmd : MarverCmd
  /-- KiB of the table written; the part of a two-part table in SRAM, and KiB of the other still to load (R69). -/
  loaded : Nat
  part : Nat
  reload : Nat
  /-- Whether the chunk is read with its second part. -/
  second : Bool
  /-- Place in the command's structures, whether its header has been read, its fill, whether it needs its visibility column, and
  the next item. -/
  place : Nat
  opened : Bool
  fill : Nat
  vis : Bool
  pos : Nat
  /-- Match bitmaps by place, and whether the FILTER steps are done (R188). -/
  filterDone : Bool
  bitmap : List (List Bool)
  /-- Local best-32, or the candidates of a threshold pass since its last record; and the counters of the record (R71 to R74). -/
  best : List Entry
  passed : Nat
  examined : Nat
  tieTail : Nat
  bad : List Nat
  records : Nat
  /-- Scores, partial lookup sums or the running minimum of a block. -/
  scores : List Nat
  accs : List LAcc
  /-- Query row in progress, whether its values are being summed, and what is finished of the result. -/
  row : Nat
  values : Bool
  out : List Byte
  /-- A row record to be written back. -/
  buf : List Byte
  /-- Missing, updated and rejected rows, and arith_status. -/
  counts : List Nat
  arith : Nat
  failed : Bool
  finished : Bool
  deriving DecidableEq, Repr

/-- A marver unit (R65, R66): its queue, its 4 contexts and its round-robin pointer. -/
structure MarverUnit where
  queue : List MarverCmd
  ctxs : List (Option MarverCtx)
  ptr : Nat
  ucodeNew : Bool
  /-- Bank-port arbiter pointer (R77) and whether the marver unit held the port last. -/
  portPtr : Nat
  portLast : Bool
  /-- Patrol position, in granules over the unit's four banks, and when the pass began: local ns (R88). -/
  patrol : Nat
  patrolAt : Nat
  deriving DecidableEq, Repr

/-- What a command gives the core that issued it: slot, operation, whether it worked, and result bytes. -/
structure MarverDone where
  slot : Nat
  op : MarverOp
  ok : Bool
  bytes : List Byte
  deriving DecidableEq, Repr

/-- Marver state of the device: units by stack × 1,024 + unit, die-bus pointers by stack × 16 + die (R89), the time of each
bank's last refresh (R79), partial list records by jack unit (R73), and results. -/
structure Marver where
  units : List (Nat × MarverUnit)
  dieBus : Tab Nat
  refreshed : Tab Nat
  records : List (Nat × List Byte)
  results : List MarverDone
  deriving DecidableEq, Repr

/-! ## Gaffer engines and programs -/

/-- The kinds of gaffer job (R123). -/
inductive JobKind where
  | coarse | subDistance | insertEncode | refine | model | hotRow | training
  deriving DecidableEq, Repr

/-- A gaffer job: its submitter (punty core, or 512 for the bench core), index or program, and operands. -/
structure GafferJob where
  kind : JobKind
  core : Nat
  slot : Nat
  obj : Nat
  jack : Nat
  data : List Byte
  deriving DecidableEq, Repr

/-- An open coarse batch (R127): its index, its queries and when its first arrived (local ns). -/
structure CoarseBatch where
  index : Nat
  jobs : List GafferJob
  openedAt : Nat
  deriving DecidableEq, Repr

/-- A gaffer engine (R91 to R97): 32 SRAM page classes, its queue, its open batches, its last output. -/
structure Gaffer where
  pages : List Nat
  queue : List GafferJob
  batches : List CoarseBatch
  outputs : List (GafferJob × List Nat × Nat)
  ptr : Nat
  deriving DecidableEq, Repr

/-- A loaded program (R98 to R105). -/
structure Program where
  ws : Nat
  header : List Byte
  container : List Byte
  loads : Nat
  closing : Bool
  engines : List Nat
  /-- Engine choice pointer of its residency set (R122). -/
  enginePtr : Nat
  refs : Nat
  unloadTickets : List TicketRef
  /-- First page of its non-resident weights in the window (R104). -/
  weightsAt : Option Nat
  deriving DecidableEq, Repr

/-! ## Jack units -/

/-- A record streamed through a jack context (R202): key of 96 bits, ID, context data. -/
structure JackRec where
  key : Nat
  ident : Nat
  ctx : Nat
  deriving DecidableEq, Repr

/-- A jack context bound to one selection (R202, R206). -/
structure JackCtx where
  core : Nat
  slot : Nat
  input : List JackRec
  dedup : Bool
  depth : Nat
  floor : Option Nat
  keep : List JackRec
  kept : List Nat
  out : List JackRec
  deriving DecidableEq, Repr

/-! ## Query slots and sub-requests -/

/-- Slot pools (R112). -/
inductive Pool where
  | localPool | latency | remote
  deriving DecidableEq, Repr

/-- Slot states other than FREE (R114). -/
inductive SlotState where
  | admitted | running | waiting | ready | completing
  deriving DecidableEq, Repr

/-- A device list (R216): its header fields, its entries with their dups and, with EXTENDED, attributes. -/
structure DLEntry where
  e : Entry
  dups : Nat
  attrs : List Byte
  deriving DecidableEq, Repr

/-- A device list (R216). -/
structure DeviceList where
  shard : Nat
  round : Nat
  kDev : Nat
  entries : List DLEntry
  poison : Bool
  extended : Bool
  passed : Nat
  examined : Nat
  tailTies : Nat
  poisonedGranules : Nat
  fenced : Bool
  epoch : Nat
  arith : Nat
  deriving DecidableEq, Repr

/-- The reply to a sub-request (R418), by kind; `fenced` where the copy answers ST_FENCED (DESIGN CHOICE, assumption 143). -/
inductive Reply where
  | fenced
  | list (l : DeviceList)
  | heads (ls : List DeviceList)
  | partials (ps : List (Nat × Nat × FPartial)) (spills : Nat)
  | gather (bags : List (Nat × List LAcc)) (missing : Nat) (lost : Bool) (arith : Nat)
  | update (status : Nat) (counters : List Nat)
  | hash (status : Nat) (found poison : Bool) (value epoch : Nat)
  deriving DecidableEq, Repr

/-- A sub-request that a home slot has sent and still awaits (R182, R191). -/
structure SubOut where
  kind : Nat
  shard : Nat
  round : Nat
  /-- The device asked, whether it was the mirror's holder, and whether the other copy was tried before. -/
  device : Nat
  mirror : Bool
  retried : Bool
  sentAt : Nat
  txn : Nat
  deriving DecidableEq, Repr

/-- A request in a query slot (R112 to R120) with its bindings and what has come back for it. -/
structure Slot where
  pool : Pool
  st : SlotState
  wait : Nat
  ws : Nat
  fn : Nat
  ring : Nat
  kind : Nat
  eflags : Nat
  count : Nat
  payload : List Byte
  at_ : Nat
  /-- Bound object: index number, table handle, session handle or program handle. -/
  obj : Nat
  /-- Bindings: E and s; v and u; T and layer. -/
  bind : List Nat
  /-- Progress numbers of the request's own chapter. -/
  prog : List Nat
  /-- Query vectors and other converted operands, FP32 codes. -/
  vec : List Nat
  pred : List Byte
  subs : List SubOut
  replies : List (Nat × Reply)
  missing : List Nat
  arith : Nat
  /-- The completion entry once the request has finished, and the bytes it writes to its buffers first. -/
  done : Option (List Byte)
  writes : List (Nat × List Byte)
  /-- The durable request whose phase runs here (R293). -/
  req : Option Nat
  deriving DecidableEq, Repr

/-- A sub-request that this device serves, in a REMOTE slot or waiting for one (R112, R119). -/
structure SubIn where
  ident : Nat
  src : Nat
  ws : Nat
  txn : Nat
  key : Nat
  kind : Nat
  shard : Nat
  homeSlot : Nat
  round : Nat
  bind0 : Nat
  bind1 : Nat
  group : Nat
  body : List Byte
  /-- The REMOTE slot, once one is claimed. -/
  slot : Option Nat
  arrivedAt : Nat
  /-- First-pass records are merged and a threshold pass is due (R214). -/
  threshold : Bool
  /-- Its traffic class, which its reply takes (Table: Message types). -/
  vc : Nat
  deriving DecidableEq, Repr

/-- Hub compute state. -/
structure Hub where
  gaffers : List (Nat × Gaffer)
  programs : List (Nat × Program)
  jacks : List (Nat × JackCtx)
  slots : List (Nat × Slot)
  subreqs : List SubIn
  nextSub : Nat
  /-- Arbiter pointers of R122: ring admission, slot core choice by pool, slot scheduler by core. -/
  ringPtr : Nat
  corePtr : List Nat
  schedPtr : Tab Nat
  /-- Arbiter pointers of R204 by jack unit: intake, context allocation, read-out port. -/
  jackIntake : Tab Nat
  jackAlloc : Tab Nat
  jackRead : Tab Nat
  /-- Last EV_SLOTS_EXHAUSTED, local ns, while a wait lasts (R118). -/
  exhaustedAt : Option Nat
  deriving DecidableEq, Repr

/-! ## Indexes -/

/-- A statistics snapshot (R157): number s, live, tombstones, and the counters that are not 0. -/
structure Snapshot where
  num : Nat
  live : Nat
  tombstones : Nat
  tags : Tab Nat
  hist : Tab Nat
  times : Tab Nat
  deriving DecidableEq, Repr

/-- An ordinal-map entry (R153): the chunk's MA and slot, and the place of the vector in the refine store
(DESIGN CHOICE, assumption 56). -/
structure Locator where
  ma : Nat
  slot : Nat
  vec : Option Nat
  deriving DecidableEq, Repr

/-- A change as it waits at a copy or at the primary holder for its completion (R169 to R171). -/
structure Change where
  kind : Nat
  epoch : Nat
  ordinal : Nat
  payload : List Byte
  vec : List Nat
  src : Nat
  homeSlot : Nat
  /-- Tag of the message that brought it. -/
  txn : Nat
  marked : Nat
  primaryDone : Bool
  mirrorDone : Bool
  journalDone : Bool
  needMirror : Bool
  deriving DecidableEq, Repr

/-- A shard copy that this device holds (R153, R170). -/
structure Copy where
  shard : Nat
  frontier : Nat
  pLast : Nat
  nextSeq : Nat
  /-- List directory: per list its chunk locators in chunk_seq order. -/
  lists : List (Nat × List Nat)
  /-- ID directory, and ordinal map by sequence number. -/
  ids : List (Nat × Nat)
  ords : List (Nat × Locator)
  /-- Refine store on flash: sequence number to vector bytes (R153, R154). -/
  flashVecs : List (Nat × List Byte)
  snapshots : List Snapshot
  /-- Primary bucket to MA, and overflow buckets in use by unit (R158, R160). -/
  buckets : List (Nat × Nat)
  overflow : Tab Nat
  /-- Changes received or admitted and not completed (R170, R171), oldest first. -/
  changes : List Change
  /-- Marver regions: owner-map page and pages; free chunk or bucket positions by MA. -/
  regions : List (Nat × Nat)
  freePos : List Nat
  /-- Ordinal-map pages in use: page of the sequence (4,096 numbers), window page (R153). -/
  ordPages : List (Nat × Nat)
  noticeAt : Nat
  /-- It holds its shard's content: false for a rebuild target until its rebuild is done (R502, R504). -/
  live : Bool
  deriving DecidableEq, Repr

/-- An index (R134, R135): state 0 CREATED, 1 TRAINING, 2 READY, 3 DROPPING. -/
structure Index where
  ws : Nat
  params : List Byte
  state : Nat
  centroids : List (List Nat)
  norms : List LAcc
  codebooks : List (List (List Nat))
  primary : Option Copy
  mirror : Option Copy
  groupSnaps : List (Nat × List Nat × Snapshot)
  pins : List Nat
  refs : Nat
  lowEpochs : Tab Nat
  lowSentAt : Nat
  windowBase : Nat
  windowPages : Nat
  refineBase : Nat
  training : Option TicketRef
  dropTickets : List TicketRef
  /-- Old chunks to free once requests admitted before have completed (R181): MA and admission time. -/
  oldChunks : List (Nat × Nat)
  deriving DecidableEq, Repr

end Sys2Proof.Machine
end

