-- ==== Sys2Proof/Machine/PartsD.lean ====
section
/-!
DEFINITION. Parts of the state, fourth file: attention codebook sets, sessions and durable requests (08, 10),
and embedding tables (09).
-/

namespace Sys2Proof.Machine

/-! ## Attention and sessions -/

/-- An attention codebook set (R225, R226). -/
structure CodebookSet where
  ws : Nat
  bytes : List Byte
  /-- First window page of its copy. -/
  page : Nat
  layers : Nat
  heads : Nat
  dim : Nat
  loads : Nat
  closing : Bool
  refs : Nat
  unloadTickets : List TicketRef
  deriving DecidableEq, Repr

/-- A block that this device holds (R227, R229): its code and KV records by MA, or the KV record on flash. -/
structure Block where
  layer : Nat
  head : Nat
  block : Nat
  codeMa : Nat
  /-- MA of the KV record while it is resident. -/
  kvMa : Option Nat
  /-- The KV record on flash (R230). -/
  flash : List Byte
  lost : Bool
  deriving DecidableEq, Repr

/-- One entry of a session journal (R284): a block's code and KV bytes, and whether its stripe is complete. -/
structure JournalEnt where
  layer : Nat
  head : Nat
  block : Nat
  fill : Nat
  code : List Byte
  kv : List Byte
  own : Bool
  striped : Bool
  deriving DecidableEq, Repr

/-- An append that R296 remembers. -/
structure AppendRec where
  layer : Nat
  request : Nat
  phase : Nat
  position : Nat
  deriving DecidableEq, Repr

/-- An image of a session key (R286, R288): its number, the manifest's locator, its token counts and its
blocks. -/
structure Image where
  seq : Nat
  locator : List Byte
  tokens : List Nat
  geometry : List Byte
  digest : Nat
  arithRev : Nat
  blocks : List JournalEnt
  bodyOk : Bool
  bytes : Nat
  deriving DecidableEq, Repr

/-- A session key's record and this device's part of the session (R227, R281, R282). -/
structure Session where
  ws : Nat
  key : Nat
  state : Nat
  handle : Nat
  geometry : List Byte
  group : Nat
  devices : List Nat
  partner : Nat
  lost : Nat
  images : List Image
  annealSeq : Nat
  tokens : List Nat
  blocks : List Block
  blockMap : List (Nat × Nat)
  journal : List JournalEnt
  appends : List AppendRec
  /-- Blocks freed once steps admitted before the time have passed COMPLETING (R230). -/
  oldKv : List (Nat × Nat)
  regions : List (Nat × Nat)
  /-- Free places for code records and for KV records, by MA; staging pages; first window page of the block map. -/
  freePos : List Nat
  freeKv : List Nat
  staging : List Nat
  mapPage : Option Nat
  /-- The anneal in progress: phase 1 to 5, ROLL member and spare, its ticket (R286, R291). -/
  annealPhase : Nat
  roll : Option (Nat × Nat)
  ticket : Option TicketRef
  destroy : List TicketRef
  refs : Nat
  deriving DecidableEq, Repr

/-! ## Durable requests -/

/-- A checkpoint (R295): the phase, its completion entry and the state area after it. -/
structure Checkpoint where
  phase : Nat
  completion : List Byte
  area : List Byte
  deriving DecidableEq, Repr

/-- How a pool holds a request copy (R300): 0 OWNS, 1 HANDING, 2 HOLDS. -/
structure ReqCopy where
  ident : Nat
  ws : Nat
  state : Nat
  epoch : Nat
  pool : Nat
  partner : Nat
  plan : List Byte
  rflags : Nat
  checkpoint : Checkpoint
  /-- Completions of the phases done, oldest first. -/
  phases : List (List Byte)
  /-- The binding record of the running phase: its kind and the values bound (R294). -/
  binding : Option (Nat × List Nat)
  running : Bool
  cancel : Option (List TicketRef)
  cancelled : Bool
  reexec : Nat
  beatAt : Nat
  sentAt : Nat
  resends : Nat
  handTo : Nat
  handTickets : List TicketRef
  doneEntry : Option (List Byte)
  entryDevice : Nat
  userTag : Nat
  /-- The running phase was sent to alt_home (R294); checkpoint 0 is not yet on both copies (R293). -/
  alt : Bool
  held : Bool
  deriving DecidableEq, Repr

/-- The stub that the entry device keeps (R292). -/
structure ReqStub where
  ident : Nat
  ws : Nat
  fn : Nat
  ring : Nat
  eflags : Nat
  userTag : Nat
  slot : Nat
  at_ : Nat
  lastCheckpoint : Nat
  probed : Bool
  /-- Keepers that hold checkpoint 0; what the last report said: phases done, the owner token, a recorded cancel. -/
  acks : List Nat
  phase : Nat
  epoch : Nat
  pool : Nat
  cancelled : Bool
  deriving DecidableEq, Repr

/-- Durable request state (R292 to R303): the pool list as devices by pool, this device's pool, its copies
and its stubs. -/
structure Requests where
  pools : List (List Nat)
  poolLive : List Bool
  copies : List ReqCopy
  stubs : List ReqStub
  sweepAt : Nat
  /-- Claims that this keeper has still to make: workspace, request, entry device or 0xFFFF (R301, R302). -/
  claims : List (Nat × Nat × Nat)
  deriving DecidableEq, Repr

/-! ## Embedding tables -/

/-- A live version (R262): state 1 OPEN, 2 SEALED, 3 CURRENT, 4 RETIRING; the update count; regions of the
primary and mirror copies as (unit, owner-map page, pages); the pool image base. -/
structure Version where
  num : Nat
  state : Nat
  updates : Nat
  refs : Nat
  loads : Nat
  regionsP : List (Nat × Nat × Nat)
  regionsM : List (Nat × Nat × Nat)
  poolBase : Nat
  /-- Update counts of the copies that this device holds. -/
  uPrimary : Nat
  uMirror : Nat
  /-- The announced count, and the last count committed (R274). -/
  announced : Nat
  /-- The last 64 updates: seq, user_tag and recorded counters (R296). -/
  history : List (Nat × Nat × List Nat)
  /-- The last update that each copy applied: seq, user_tag and counters (R274). -/
  markP : Option (Nat × Nat × List Nat)
  markM : Option (Nat × Nat × List Nat)
  /-- Window pages of its region lists: first page (R276). -/
  listPage : Option Nat
  discard : List TicketRef
  deriving DecidableEq, Repr

/-- An update that the coordinator runs (R274): its slot, and what has reported. -/
structure UpdateRun where
  slot : Nat
  version : Nat
  drained : List Nat
  sent : Bool
  deriving DecidableEq, Repr

/-- A table (R255 to R278): state 0 EMPTY, 1 READY, 2 DROPPING; its version slots; journalled rows. -/
structure Table where
  ws : Nat
  params : List Byte
  state : Nat
  slots : List (Option Version)
  nextVersion : Nat
  drop : List TicketRef
  /-- Shards of the primary and the mirror copy that this device holds, 0xFFFF for none, and whether each holds its
  shard's content: false for a rebuild target until its rebuild is done (R502, R504). -/
  shardP : Nat
  shardM : Nat
  liveP : Bool
  liveM : Bool
  running : List UpdateRun
  /-- Drains owed to the coordinator: version, count, coordinator (R274). -/
  drainsDue : List (Nat × Nat × Nat)
  journal : List (List Byte)
  deriving DecidableEq, Repr

/-- A read of a pool row in flight (R278): the gather's slot, the row, when it went out, its second try. -/
structure PoolRead where
  slot : Nat
  row : Nat
  txn : Nat
  sentAt : Nat
  second : Bool
  deriving DecidableEq, Repr

end Sys2Proof.Machine
end

