-- ==== Sys2Proof/Machine/PartsE.lean ====
section
/-!
DEFINITION. Parts of the state, fifth file: move engines (17), flash and stripes (18), scores, groups, leases
and the lehr scheduler (19), live service (21), clocks (22), power entry (23), service port (24) and thermal
response (25).
-/

namespace Sys2Proof.Machine

/-! ## Move engines -/

/-- A burst (R451): its offset in the descriptor and its length; its outcome once known, 0 or a bus error cause, with
the address that failed; and the data read for it. -/
structure Burst where
  off : Nat
  len : Nat
  outcome : Option Nat
  fault : Nat
  data : Option (List Byte)
  deriving DecidableEq, Repr

/-- The descriptor that a channel runs or holds (R449, R455). -/
structure MoveJob where
  desc : List Byte
  count : Nat
  bytesDone : Nat
  nextOff : Nat
  bursts : List Burst
  cause : Nat
  faultAddr : Nat
  resumed : Nat
  startedAt : Nat
  deriving DecidableEq, Repr

/-- A move channel (R448): state 0 CLOSED to 4 CLOSING. -/
structure Channel where
  state : Nat
  ws : Nat
  fn : Nat
  ring : Nat
  share : Nat
  bucket : Bucket
  job : Option MoveJob
  pauseTickets : List TicketRef
  closeTickets : List TicketRef
  deriving DecidableEq, Repr

/-- A write of the result queue (17): the query slot it belongs to, the function and workspace, the buffer
address and the bytes. -/
structure ResultWrite where
  slot : Nat
  fn : Nat
  ws : Nat
  addr : Nat
  data : List Byte
  deriving DecidableEq, Repr

/-- Move bus (R457). -/
structure Move where
  chans : List (Nat × Channel)
  results : List ResultWrite
  ptr : Nat
  deriving DecidableEq, Repr

/-! ## Flash -/

/-- What a target answered when it was probed (R392). -/
structure TargetProbe where
  onfi : Bool
  pageOk : Bool
  revOk : Bool
  lpOk : Bool
  maxRate : Nat
  pageBytes : Nat
  pagesPerBlock : Nat
  blocksPerLun : Nat
  luns : Nat
  endurance : Nat
  hasTemp : Bool
  deriving DecidableEq, Repr

/-- A flash target in service (R461, R477). -/
structure Target where
  probe : TargetProbe
  failed : Bool
  inARow : Nat
  ptr : Nat
  deriving DecidableEq, Repr

/-- A flash channel (R461, R489). -/
structure FlashChan where
  rate : Nat
  targets : List (Nat × Target)
  rejected : Nat
  /-- Pointer of the channel bus (R463). -/
  busPtr : Nat
  /-- The guard's erase bucket of the channel (R326 limit 4). -/
  erases : Bucket
  deriving DecidableEq, Repr

/-- A flash block that is not pristine, by index: erase count, bad mark, map units programmed since its erase,
units valid in it. -/
structure FBlock where
  erases : Nat
  bad : Bool
  written : Nat
  units : List Nat
  deriving DecidableEq, Repr

/-- A stream (R465). -/
structure Stream where
  ident : Nat
  kind : Nat
  ws : Nat
  owner : Nat
  /-- The device group of the owner, whose stripe domain its stripes use (R484). -/
  gid : Nat
  units : List Nat
  /-- How many of its first units are striped. -/
  striped : Nat
  deriving DecidableEq, Repr

/-- What a map unit holds (R466, R476): ciphertext, its key generation, or the lost-data indication. -/
structure MapUnit where
  data : List Byte
  gen : Nat
  lost : Bool
  block : Nat
  retried : Bool
  deriving DecidableEq, Repr

/-- An operation waiting in a target queue (R463): class 0 LATENCY read, 1 read, 2 program, 3 erase, 4
background copy; the group's unit or block it is for. -/
structure FlashOp where
  cls : Nat
  chan : Nat
  target : Nat
  group : Nat
  unit : Nat
  block : Nat
  data : List Byte
  deriving DecidableEq, Repr

/-- A channel group (R461, R469): state 0 ABSENT to 6 FAILED. -/
structure FlashGroup where
  state : Nat
  /-- Presence contact low, and since when (R596); local ns. -/
  present : Bool
  presentAt : Nat
  blocks : Nat
  unitsPerBlock : Nat
  goodAtFormat : Nat
  reserve : Nat
  userBlocks : Nat
  spareAtFormat : Nat
  fblocks : List (Nat × FBlock)
  units : List (Nat × MapUnit)
  openBlock : Option Nat
  streams : List Stream
  lowSent : Bool
  goneSent : Bool
  retired : Nat
  corrected : Nat
  retries : Nat
  uncorrectable : Nat
  programFails : Nat
  eraseFails : Nat
  tempNow : Int
  tempMax : Int
  tempMaxTime : Nat
  tempHours : List Nat
  tempSecs : List Nat
  /-- Reclaim has begun and its pool has not reached 2 % (R472). -/
  reclaiming : Bool
  patrolPos : Nat
  patrolAt : Nat
  /-- The map journal holds a FLUSH_DONE record of the last life (R573): duration ns, energy mJ, lowest mV. -/
  flushDone : Option (Nat × Nat × Nat)
  /-- Former state and ticket while FLASH_CARRIER_OFFLINE runs (R542, R543). -/
  offline : Option (Nat × TicketRef)
  online : List TicketRef
  /-- Serial of the package that formatted it (R470). -/
  serial : Nat
  /-- READ_ONLY is latched (R482). -/
  readOnly : Bool
  deriving DecidableEq, Repr

/-- A stripe being formed or held (R483 to R488). -/
structure Stripe where
  setId : Nat
  index : Nat
  ws : Nat
  gen : Nat
  origin : Nat
  stream : Nat
  units : List (List Byte)
  members : List Nat
  tried : List Nat
  dataUnits : Nat
  durable : List Nat
  sentAt : List Nat
  complete : Bool
  deriving DecidableEq, Repr

/-- A set record held by this device as a member (R485). -/
structure SetRecord where
  setId : Nat
  version : Nat
  members : List Nat
  stripes : Nat
  tail : Nat
  ws : Nat
  gen : Nat
  origin : Nat
  units : List (Nat × List Byte)
  deriving DecidableEq, Repr

/-- Flash state of the device. -/
structure Flash where
  chans : List FlashChan
  groups : List FlashGroup
  /-- Pointer of the hub intake, by hub (R463). -/
  hubPtr : List Nat
  queue : List FlashOp
  wearLimit : Nat
  stripes : List Stripe
  sets : List SetRecord
  nextSet : Nat
  nextStream : Nat
  stripeWaitAt : Option Nat
  /-- Map units in the write buffers of the hubs, by group and unit, not yet programmed, each with its earlier state
  (R466, R467). -/
  buffered : List (Nat × Nat × Option MapUnit)
  /-- Pins journalled with an index, by workspace and key (R173). -/
  pinned : List (Nat × Nat × List Nat)
  deriving DecidableEq, Repr

/-! ## Scores, groups, lehr -/

/-- A component's score (R492, R495): rearmed flags, state 0 OK, 1 WATCH, 2 ACT_ADVISED, 3 RETIRED. -/
structure Score where
  score : Nat
  peak : Nat
  events : Nat
  lastEvent : Nat
  lastTime : Nat
  watchSent : Bool
  actSent : Bool
  state : Nat
  deriving DecidableEq, Repr

/-- A role map entry (R498). -/
structure Role where
  primary : Nat
  mirror : Nat
  state : Nat
  target : Nat
  deriving DecidableEq, Repr

/-- A membership message (R498). -/
structure Membership where
  group : Nat
  epoch : Nat
  effective : Nat
  test : Bool
  members : List Nat
  spares : List Nat
  domain : List Nat
  roles : List Role
  gateway : Nat
  suspect : Nat
  deriving DecidableEq, Repr

/-- A group of which this device is a member or spare (R498 to R501): lease 0 NONE, 1 HELD, 2 FENCED. -/
structure Group where
  mem : Membership
  lease : Nat
  expiry : Nat
  /-- End of the lease on the device's own count: local ns (R499). -/
  expiryLocal : Nat
  seq : Nat
  renews : List (Nat × Nat)
  lastRenew : Nat
  peerLost : List Nat
  lapsedEpoch : Nat
  releaseSent : Bool
  /-- Epoch of the last GRANT, 0 before any. -/
  leaseEpoch : Nat
  /-- Primary holders before the membership in force, by shard, which assign epochs below effective_epoch (R508). -/
  prev : List Nat
  deriving DecidableEq, Repr

/-- A lehr activity, running or queued (R509 to R515). -/
structure Activity where
  ident : Nat
  code : Nat
  command : Bool
  scopeKind : Nat
  objType : Nat
  unit : Nat
  object : Nat
  rounds : Nat
  since : Nat
  roundAt : Nat
  ticket : Option TicketRef
  deriving DecidableEq, Repr

/-- Living with failure (19). -/
structure Rack where
  scores : List (Nat × Score)
  watch : List Nat
  act : List Nat
  auto_ : List Bool
  decayAt : Nat
  groups : List Group
  running : List Activity
  queued : List Activity
  nextActivity : Nat
  deriving DecidableEq, Repr

/-! ## Live service -/

/-- A staged package (R531): kind 0 firmware, 1 image; its slot; its content and its staged pages. -/
structure Staged where
  kind : Nat
  slot : Bool
  pkg : Option FwPackage
  image : List Byte
  base : Nat
  deriving DecidableEq, Repr

/-- A firmware handover in progress (R534): 1 loading, 2 punty cores flipping, 3 bench flipped. -/
structure Handover where
  phase : Nat
  slot : Bool
  ticket : TicketRef
  flippedAt : Nat
  newCores : List Nat
  deriving DecidableEq, Repr

/-- An optical recalibration (R537): its engine, its activity, the port in turn, ports recalibrated and not UP. -/
structure Recal where
  ticket : TicketRef
  cane : Nat
  act : Nat
  next : Nat
  done : Nat
  bad : Nat
  deriving DecidableEq, Repr

/-- A retirement of a stack or of a cane engine in progress (R538, R541): its ticket if a command began it, the
component, its activity. -/
structure Retire where
  ticket : Option TicketRef
  unit : Nat
  act : Nat
  deriving DecidableEq, Repr

/-- Live service state (21). -/
structure Live where
  staged : List Staged
  /-- FW_STAGE work not yet done, with its activity. -/
  staging : List (TicketRef × Staged × Nat)
  handover : Option Handover
  runningHandover : Nat
  /-- A microcode load: ticket, revision, activity (R536). -/
  ucode : Option (TicketRef × Nat × Nat)
  recals : List Recal
  stackRetires : List Retire
  caneRetires : List Retire
  drain : List TicketRef
  draining : Bool
  drained : Bool
  deriving DecidableEq, Repr

/-! ## Clocks, power, service port, thermal -/

/-- Network time and its servo (R548 to R560): state 0 FREE to 4 UNLOCKED. -/
structure Clock where
  /-- Core cycles since power-on reset. -/
  cycles : Nat
  /-- The counter: nanoseconds × 2^32 (R551). -/
  time : Nat
  /-- r in parts per 10^9 (R551). -/
  rate : Int
  state : Nat
  good : Nat
  lastSync : Nat
  refLost : Bool
  /-- Port of the master, 0xFFFF for none (R560). -/
  masterPort : Nat
  masterDevice : Nat
  steps : Nat
  /-- Last offset, ns × 2^16. -/
  offset : Int
  firstLock : Nat
  unlocks : Nat
  masterChanges : Nat
  ppsLocked : Bool
  ppsCount : Nat
  ppsAt : Option Nat
  ppsOffset : Int
  ppsOutAt : Nat
  ptpSeq : Nat
  /-- When each port last sent each kind of time message, by port × 4 + kind: local ns. -/
  ptpSent : Tab Nat
  deriving DecidableEq, Repr

/-- The status frame of the high side (R569). -/
structure StatusFrame where
  seq : Nat
  vin : Nat
  iin : Nat
  temp : Int
  loss : Bool
  hot : Bool
  low : Bool
  high : Bool
  entryOn : Bool
  lastTrip : Nat
  crcOk : Bool
  deriving DecidableEq, Repr

/-- Power entry (23): the input, the entry switch, the frames, the duty and the flush. -/
structure Power where
  vin : Nat
  frames : List StatusFrame
  lastFrame : Nat
  firstFrame : Bool
  entryOn : Bool
  trip : Nat
  lastTrip : Nat
  /-- The input is in the LOW or HIGH range and reported (R563), and when it last left 40.0 to 59.5 V. -/
  lowSent : Bool
  highSent : Bool
  outAt : Nat
  duty : Nat
  underSince : Option Nat
  floorSince : Option Nat
  floorSent : Bool
  dutyAt : Nat
  /-- When the mean was last compared with the cap: local ns. -/
  capAt : Nat
  flushing : Bool
  flushAt : Nat
  flushMinVin : Nat
  flushEnergy : Nat
  /-- Restart rule after the flush: 0 at 40.0 V, 1 after below 10 V for 1 s, 2 at a valid link for 1 ms. -/
  after : Nat
  deriving DecidableEq, Repr

/-- Service port (24): phase 0 high impedance, 1 STRAP, 2 BOOT, 3 RUN, 4 guard interval. -/
structure Service where
  phase : Nat
  i3cAddr : Option Nat
  alarm : Bool
  alarmAt : Nat
  haltN : Bool
  runOk : Bool
  flushN : Bool
  rstIgnored : Bool
  pulses : Nat
  /-- Lines written on UART_TX (R379, R589), and MCTP messages sent to the management controller. -/
  uart : List (List Byte)
  bmcOut : List (List Byte)
  ibi : Bool
  deriving DecidableEq, Repr

/-- Thermal response (25): hottest hub, stack dies, cane engines and flash hubs in °C. -/
structure Thermal where
  hubTemp : Int
  stackTemps : List Int
  caneTemps : List Int
  fhTemps : List Int
  /-- The die kind that last began a throttle. -/
  throttleKind : Nat
  /-- Since when every die has been below its release threshold, and above its trip threshold: local ns. -/
  coolSince : Option Nat
  tripSince : List (Nat × Nat × Nat)
  duty : Nat
  dutyAt : Nat
  hotSent : List Bool
  hotCool : List (Option Nat)
  reportAt : Nat
  deriving DecidableEq, Repr

end Sys2Proof.Machine
end

