-- ==== Sys2Proof/Machine/Inputs.lean ====
section
/-!
DEFINITION. The operands of commands that carry what comes from outside the block: messages, register
packets, host memory, error injections, light, time messages and media answers (convention C2; DESIGN CHOICE, assumption 2).
-/

namespace Sys2Proof.Machine

/-- Where a Guliq message comes from: a BUSY request slot of a function, or the management endpoint with the
message's bytes (R334, R362). -/
inductive MsgSrc where
  | slot (fn idx : Nat)
  | bmc (bytes : List Byte)
  deriving DecidableEq, Repr

/-- A register write packet (R331): gateway, function, window offset, and the bytes in memory order. -/
structure RegPkt where
  gateway : Nat
  fn : Nat
  offset : Nat
  data : List Byte
  deriving DecidableEq, Repr

/-- Host memory behind the function's gateway at the moment of the command: listed bytes, and whether the
gateway refuses the accesses or gives no answer (R349, R220). -/
structure HostView where
  cells : List (Nat × Byte)
  refuse : Bool
  silent : Bool
  deriving DecidableEq, Repr

/-- What a ticket's completion needs from outside: whether its work met a failure (a readback that differs,
R531; a retired source, R289), and numbers it reports. -/
structure DoneInput where
  ok : Bool
  nums : List Nat
  deriving DecidableEq, Repr

/-- A change as the CHANGE message carries it (R417, R169): ordinal and epoch are 0 where the primary holder
assigns them. -/
structure ChangeMsg where
  ws : Nat
  key : Nat
  shard : Nat
  kind : Nat
  src : Nat
  homeSlot : Nat
  payload : List Byte
  vec : List Nat
  ordinal : Nat
  epoch : Nat
  deriving DecidableEq, Repr

/-- An error that a reader of memory finds: a granule number (DPA / 32), correctable or not (R84, R85). -/
structure MemErr where
  granule : Nat
  uncorrectable : Bool
  deriving DecidableEq, Repr

/-- A host slot's accesses (R78): granule numbers read, whole-granule or sub-granule writes as byte address
and bytes, and the errors met. -/
structure HostAccess where
  reads : List Nat
  writes : List (Nat × List Byte)
  errs : List MemErr
  deriving DecidableEq, Repr

/-- A PTP message as received (R419): kind 0 Sync, 1 Announce, 2 Pdelay exchange; its sender and clock; the
measured offset in ns × 2^16 or peer delay; and its steps removed. -/
structure PtpMsg where
  kind : Nat
  device : Nat
  /-- Whether the best master clock algorithm prefers this sender (R420). -/
  best : Bool
  masterTime : Nat
  offset : Int
  delay : Int
  steps : Nat
  deriving DecidableEq, Repr

/-- The answer to a HOST burst (R454): its data for a read, or refused, or silent. -/
inductive HostAnswer where
  | ok (data : List Byte)
  | refused
  | silent
  deriving DecidableEq, Repr

/-- What a flash operation did (R471, R475 to R477): read corrected units and retries, uncorrectable; a
program or erase failed; a target did not answer. -/
structure FlashOutcome where
  corrected : Nat
  retries : Nat
  uncorrectable : Bool
  failed : Bool
  deriving DecidableEq, Repr

/-- A root that a mount finds (R469, R470, R576): the serial of the package that formatted the group, whether the
checkpoint and journal can be read whole, the group they describe, and what its FLUSH_DONE record says. -/
structure MountRoot where
  serial : Nat
  complete : Bool
  group : FlashGroup
  deriving DecidableEq, Repr

/-- What a mount finds on the media of a group: what this device left there, nothing but factory bad-block marks, or
another root. -/
inductive MountSource where
  | asLeft
  | blank (marks : List Nat)
  | found (r : MountRoot)
  deriving DecidableEq, Repr

/-- An item that a rebuild reads: its list, or for a HASH index 0; epochs, ordinal, ID, attribute record, code bytes, and the
stored vector where the index keeps one. -/
structure RebuildItem where
  list : Nat
  ins : Nat
  del : Nat
  ord : Nat
  ident : Nat
  attrs : List Byte
  codes : List Byte
  vec : List Byte
  deriving DecidableEq, Repr

/-- The source that a rebuild finds (R504): kind 1 the live copy, 2 the stripes and the journal, 0 none; an index copy's items
with its last epoch, next sequence number and snapshots, or a table copy's rows with the version of each, and the versions'
update counts. -/
structure RebuildSource where
  kind : Nat
  items : List RebuildItem
  pLast : Nat
  nextSeq : Nat
  snaps : List Snapshot
  rows : List (Nat × List Byte)
  counts : List (Nat × Nat)
  deriving DecidableEq, Repr

end Sys2Proof.Machine
end

