-- ==== Sys2Proof/Syntax.lean ====
section
/-!
DEFINITION. The commands of the block: one constructor per row of the opcode table, with the row's operands.
-/

namespace Sys2Proof

open Sys2Proof.Machine

/-- The commands, one per row of the opcode table, in the table's order; each docstring names the row and the
rule that gives its meaning. -/
inductive Instr where
  /-- DEV_INFO (R367). -/
  | devInfo (m : MsgSrc)
  /-- DEV_LAYOUT (R368). -/
  | devLayout (m : MsgSrc)
  /-- DEV_IDENTITY (R368). -/
  | devIdentity (m : MsgSrc)
  /-- DEV_ECHO (R369). -/
  | devEcho (m : MsgSrc)
  /-- TICKET_INFO (R370). -/
  | ticketInfo (m : MsgSrc)
  /-- GUARD_INFO (R371). -/
  | guardInfo (m : MsgSrc)
  /-- GUARD_SET (R371). -/
  | guardSet (m : MsgSrc)
  /-- FUNC_ENABLE (R373). -/
  | funcEnable (m : MsgSrc)
  /-- FUNC_DISABLE (R373). -/
  | funcDisable (m : MsgSrc)
  /-- FUNC_INFO (R372). -/
  | funcInfo (m : MsgSrc)
  /-- FUNC_DISABLE_DONE (R354). -/
  | funcDisableDone (fn : Nat)
  /-- WS_CREATE (R307). -/
  | wsCreate (m : MsgSrc)
  /-- WS_DESTROY (R310). -/
  | wsDestroy (m : MsgSrc)
  /-- WS_DESTROY_PROCEED (R310). -/
  | wsDestroyProceed (ws : Nat)
  /-- WS_INFO (R624). -/
  | wsInfo (m : MsgSrc)
  /-- WS_SET_QUOTA (R309). -/
  | wsSetQuota (m : MsgSrc)
  /-- WS_SETTINGS (R312). -/
  | wsSettings (m : MsgSrc)
  /-- WS_KEY_LOAD (R319). -/
  | wsKeyLoad (m : MsgSrc)
  /-- WS_KEY_RETIRE (R322). -/
  | wsKeyRetire (m : MsgSrc)
  /-- REGION_ALLOC (R315). -/
  | regionAlloc (m : MsgSrc)
  /-- REGION_FREE (R316). -/
  | regionFree (m : MsgSrc)
  /-- REGION_RELEASE (R316). -/
  | regionRelease (ws base : Nat)
  /-- INDEX_CREATE (R134). -/
  | indexCreate (m : MsgSrc)
  /-- INDEX_DROP (R137). -/
  | indexDrop (m : MsgSrc)
  /-- INDEX_INFO (R620). -/
  | indexInfo (m : MsgSrc)
  /-- INDEX_TRAIN (R138). -/
  | indexTrain (m : MsgSrc)
  /-- INDEX_IMPORT (R141). -/
  | indexImport (m : MsgSrc)
  /-- INDEX_EXPORT (R141). -/
  | indexExport (m : MsgSrc)
  /-- INDEX_STATS (R621). -/
  | indexStats (m : MsgSrc)
  /-- INDEX_PIN (R173). -/
  | indexPin (m : MsgSrc)
  /-- INDEX_UNPIN (R173). -/
  | indexUnpin (m : MsgSrc)
  /-- PROGRAM_LOAD (R102). -/
  | programLoad (m : MsgSrc)
  /-- PROGRAM_UNLOAD (R105). -/
  | programUnload (m : MsgSrc)
  /-- PROGRAM_INFO (R101). -/
  | programInfo (m : MsgSrc)
  /-- TABLE_CREATE (R256). -/
  | tableCreate (m : MsgSrc)
  /-- TABLE_DROP (R257). -/
  | tableDrop (m : MsgSrc)
  /-- TABLE_INFO (R622). -/
  | tableInfo (m : MsgSrc)
  /-- TABLE_STAGE (R263). -/
  | tableStage (m : MsgSrc)
  /-- TABLE_LOAD (R264). -/
  | tableLoad (m : MsgSrc)
  /-- TABLE_SEAL (R265). -/
  | tableSeal (m : MsgSrc)
  /-- TABLE_SWITCH (R265). -/
  | tableSwitch (m : MsgSrc)
  /-- TABLE_DISCARD (R265). -/
  | tableDiscard (m : MsgSrc)
  /-- TABLE_EXPORT (R264). -/
  | tableExport (m : MsgSrc)
  /-- SESSION_CREATE (R280). -/
  | sessionCreate (m : MsgSrc)
  /-- SESSION_DESTROY (R279). -/
  | sessionDestroy (m : MsgSrc)
  /-- SESSION_INFO (R623). -/
  | sessionInfo (m : MsgSrc)
  /-- SESSION_ANNEAL (R286). -/
  | sessionAnneal (m : MsgSrc)
  /-- ANNEAL_FLUSH (R286). -/
  | annealFlush (ws key : Nat)
  /-- ANNEAL_STRIPE (R286). -/
  | annealStripe (ws key : Nat)
  /-- ANNEAL_MANIFEST (R288). -/
  | annealManifest (ws key : Nat) (locator : List Byte)
  /-- ANNEAL_RELEASE (R286). -/
  | annealRelease (ws key : Nat)
  /-- SESSION_ROLL (R291). -/
  | sessionRoll (ws key : Nat) (ok : Bool)
  /-- SESSION_RESUME (R289). -/
  | sessionResume (m : MsgSrc)
  /-- IMAGE_DELETE (R279). -/
  | imageDelete (m : MsgSrc)
  /-- REQ_STATUS (R303). -/
  | reqStatus (m : MsgSrc)
  /-- REQ_CANCEL (R295). -/
  | reqCancel (m : MsgSrc)
  /-- REQ_HANDOFF (R300). -/
  | reqHandoff (m : MsgSrc)
  /-- ATTN_CB_LOAD (R225). -/
  | attnCbLoad (m : MsgSrc)
  /-- ATTN_CB_UNLOAD (R225). -/
  | attnCbUnload (m : MsgSrc)
  /-- RING_CREATE (R344). -/
  | ringCreate (m : MsgSrc)
  /-- RING_DESTROY (R353). -/
  | ringDestroy (m : MsgSrc)
  /-- RING_INFO (R625). -/
  | ringInfo (m : MsgSrc)
  /-- MOVE_OPEN (R447). -/
  | moveOpen (m : MsgSrc)
  /-- MOVE_CLOSE (R458). -/
  | moveClose (m : MsgSrc)
  /-- MOVE_PAUSE (R458). -/
  | movePause (m : MsgSrc)
  /-- MOVE_RESUME (R458). -/
  | moveResume (m : MsgSrc)
  /-- MOVE_INFO (R627). -/
  | moveInfo (m : MsgSrc)
  /-- MOVE_RATE (R457). -/
  | moveRate (m : MsgSrc)
  /-- FAB_PORT_INFO (R422). -/
  | fabPortInfo (m : MsgSrc)
  /-- FAB_PORT_SET (R423). -/
  | fabPortSet (m : MsgSrc)
  /-- FAB_RETRAIN (R424). -/
  | fabRetrain (m : MsgSrc)
  /-- FAB_PEERS (R425). -/
  | fabPeers (m : MsgSrc)
  /-- TIME_INFO (R560). -/
  | timeInfo (m : MsgSrc)
  /-- GROUP_INFO (R516). -/
  | groupInfo (m : MsgSrc)
  /-- SCHED_INFO (R444). -/
  | schedInfo (m : MsgSrc)
  /-- SCHED_CLASS_SET (R443). -/
  | schedClassSet (m : MsgSrc)
  /-- SCHED_GATE_LOAD (R442). -/
  | schedGateLoad (m : MsgSrc)
  /-- SCHED_SAMPLE (R445). -/
  | schedSample (m : MsgSrc)
  /-- FLASH_INFO (R489). -/
  | flashInfo (m : MsgSrc)
  /-- FLASH_HEALTH (R490). -/
  | flashHealth (m : MsgSrc)
  /-- FLASH_SET (R491). -/
  | flashSet (m : MsgSrc)
  /-- FLASH_CARRIER_OFFLINE (R542). -/
  | flashCarrierOffline (m : MsgSrc)
  /-- FLASH_CARRIER_ONLINE (R543). -/
  | flashCarrierOnline (m : MsgSrc)
  /-- MAINT_START (R513). -/
  | maintStart (m : MsgSrc)
  /-- MAINT_CANCEL (R514). -/
  | maintCancel (m : MsgSrc)
  /-- MAINT_STATUS (R515). -/
  | maintStatus (m : MsgSrc)
  /-- HEALTH_INFO (R495). -/
  | healthInfo (m : MsgSrc)
  /-- HEALTH_SET (R496). -/
  | healthSet (m : MsgSrc)
  /-- FW_STAGE (R531). -/
  | fwStage (m : MsgSrc)
  /-- FW_ACTIVATE (R533). -/
  | fwActivate (m : MsgSrc)
  /-- UCODE_LOAD (R536). -/
  | ucodeLoad (m : MsgSrc)
  /-- OPTICS_RECAL (R537). -/
  | opticsRecal (m : MsgSrc)
  /-- STACK_RETIRE (R538). -/
  | stackRetire (m : MsgSrc)
  /-- CANE_RETIRE (R541). -/
  | caneRetire (m : MsgSrc)
  /-- DEV_DRAIN (R545). -/
  | devDrain (m : MsgSrc)
  /-- EVR_INFO (R529). -/
  | evrInfo (m : MsgSrc)
  /-- EVR_ARCHIVE_READ (R529). -/
  | evrArchiveRead (m : MsgSrc)
  /-- EVR_CLEAR (R530). -/
  | evrClear (m : MsgSrc)
  /-- EVR_CLASS_SET (R529). -/
  | evrClassSet (m : MsgSrc)
  /-- UNKNOWN_OPCODE (R357). -/
  | unknownOpcode (m : MsgSrc)
  /-- TICKET_DONE (R342). -/
  | ticketDone (t : TicketRef) (o : DoneInput)
  /-- MBX_DOORBELL (R334). -/
  | mbxDoorbell (p : RegPkt)
  /-- MBX_RESP_READY (R339). -/
  | mbxRespReady (p : RegPkt)
  /-- SQ_PI_DOORBELL (R345). -/
  | sqPiDoorbell (p : RegPkt)
  /-- CQ_CI_WRITE (R350). -/
  | cqCiWrite (p : RegPkt)
  /-- INTERRUPT_VECTOR_WRITE (R355). -/
  | interruptVectorWrite (p : RegPkt)
  /-- EVW_CURSOR_WRITE (R529). -/
  | evwCursorWrite (p : RegPkt)
  /-- REGISTER_WRITE (R331). -/
  | registerWrite (p : RegPkt)
  /-- WINDOW_BAD_ACCESS (R331). -/
  | windowBadAccess (p : RegPkt) (isWrite : Bool)
  /-- COALESCING_TIMER (R355). -/
  | coalescingTimer (fn vec : Nat)
  /-- QUERY (R163). -/
  | queryEntry (fn ring : Nat) (h : HostView)
  /-- INSERT (R175). -/
  | insertEntry (fn ring : Nat) (h : HostView)
  /-- DELETE (R176). -/
  | deleteEntry (fn ring : Nat) (h : HostView)
  /-- ATTN_STEP (R235). -/
  | attnStep (fn ring : Nat) (h : HostView)
  /-- GATHER (R267). -/
  | gatherEntry (fn ring : Nat) (h : HostView)
  /-- UPDATE (R271). -/
  | updateEntry (fn ring : Nat) (h : HostView)
  /-- TOPK (R219). -/
  | topkEntry (fn ring : Nat) (h : HostView)
  /-- REQUEST (R292). -/
  | requestEntry (fn ring : Nat) (h : HostView)
  /-- MODEL_RUN (R106). -/
  | modelRun (fn ring : Nat) (h : HostView)
  /-- HASH_GET (R352). -/
  | hashGet (fn ring : Nat) (h : HostView)
  /-- HASH_PUT (R352). -/
  | hashPut (fn ring : Nat) (h : HostView)
  /-- HASH_DELETE (R352). -/
  | hashDelete (fn ring : Nat) (h : HostView)
  /-- RING_REJECTION (R348). -/
  | ringRejection (fn ring : Nat)
  /-- SLOTS_EXHAUSTED (R118). -/
  | slotsExhausted
  /-- SCAN_SUBREQUEST (R183). -/
  | scanSubrequest (ident : Nat)
  /-- THRESHOLD_PASS (R74). -/
  | thresholdPass (ident : Nat)
  /-- REFINE_SUBREQUEST (R190). -/
  | refineSubrequest (ident : Nat)
  /-- ATTN_SCORE_SUBREQUEST (R245). -/
  | attnScoreSubrequest (ident : Nat)
  /-- ATTN_PARTIAL_SUBREQUEST (R249). -/
  | attnPartialSubrequest (ident : Nat)
  /-- GATHER_SUBREQUEST (R269). -/
  | gatherSubrequest (ident : Nat)
  /-- UPDATE_SUBREQUEST (R274). -/
  | updateSubrequest (ident : Nat)
  /-- HASH_GET_SUBREQUEST (R352). -/
  | hashGetSubrequest (ident : Nat)
  /-- FRONTIER_REACHED (R172). -/
  | frontierReached (ident : Nat)
  /-- FRONTIER_WAIT_TIMEOUT (R191). -/
  | frontierWaitTimeout (ident : Nat)
  /-- SUBREQ_REPLY (R191). -/
  | subreqReply (slot kind shard : Nat) (r : Reply)
  /-- SUBREQ_TIMEOUT (R191). -/
  | subreqTimeout (slot kind shard : Nat)
  /-- COARSE_BATCH_CLOSE (R127). -/
  | coarseBatchClose (engine index : Nat)
  /-- CHANGE (R169). -/
  | changeMsg (c : ChangeMsg)
  /-- CHANGE_COMPLETE (R171). -/
  | changeComplete (index shard epoch : Nat) (acked : Bool)
  /-- FRONTIER_NOTICE (R170). -/
  | frontierNotice (index : Nat)
  /-- FRONTIER (R170). -/
  | frontierMsg (ws key shard frontier src : Nat)
  /-- LOW_EPOCH_PUBLISH (R180). -/
  | lowEpochPublish (index : Nat)
  /-- STATS_SNAPSHOT (R157). -/
  | statsSnapshot (index : Nat) (mirror : Bool)
  /-- GROUP_SNAPSHOT (R184). -/
  | groupSnapshot (ws key shard : Nat) (sn : Snapshot)
  /-- COMPACT (R181). -/
  | compact (index : Nat) (mirror : Bool) (list seq : Nat)
  /-- MARVER_COMMAND_START (R66). -/
  | marverCommandStart (unit : Nat) (c : Option MarverCmd)
  /-- LUT_LOAD (R68). -/
  | lutLoad (units : List Nat)
  /-- SCAN8 (R68). -/
  | scan8 (unit : Nat) (errs : List MemErr)
  /-- SCAN4 (R68). -/
  | scan4 (unit : Nat) (errs : List MemErr)
  /-- FILTER (R68). -/
  | marverFilter (unit : Nat) (errs : List MemErr)
  /-- BLOCK_SCORE (R244). -/
  | blockScore (unit : Nat) (errs : List MemErr)
  /-- ATTN_KEY (R68). -/
  | attnKey (unit : Nat) (errs : List MemErr)
  /-- ATTN_VALUE (R68). -/
  | attnValue (unit : Nat) (errs : List MemErr)
  /-- POOL (R68). -/
  | marverPool (unit : Nat) (errs : List MemErr)
  /-- GRAD_RMW (R68). -/
  | gradRmw (unit : Nat) (errs : List MemErr)
  /-- APPEND (R147). -/
  | marverAppend (unit : Nat) (errs : List MemErr)
  /-- MARK (R148). -/
  | marverMark (unit : Nat) (errs : List MemErr)
  /-- COPY (R68). -/
  | marverCopy (unit : Nat) (errs : List MemErr)
  /-- SCRUB (R88). -/
  | marverScrub (unit : Nat) (errs : List MemErr)
  /-- DRAIN (R73). -/
  | marverDrain (unit : Nat) (errs : List MemErr)
  /-- DIEBUS_XFER (R89). -/
  | diebusXfer (die : Nat) (base : Bool) (errs : List MemErr)
  /-- HOST_SLOT (R78). -/
  | hostSlot (unit : Nat) (a : HostAccess)
  /-- BANK_REFRESH (R79). -/
  | bankRefresh (bank : Nat)
  /-- POISON_REWRITE (R87). -/
  | poisonRewrite (dpa : Nat) (data : List Byte)
  /-- COARSE_SCORING (R124). -/
  | coarseScoring (engine : Nat) (j : Option GafferJob) (err : Option (Nat × Bool))
  /-- SUB_DISTANCE_TABLE (R125). -/
  | subDistanceTable (engine : Nat) (j : Option GafferJob) (err : Option (Nat × Bool))
  /-- INSERT_ENCODING (R142). -/
  | insertEncoding (engine : Nat) (j : Option GafferJob) (err : Option (Nat × Bool))
  /-- REFINEMENT (R190). -/
  | refinement (engine : Nat) (j : Option GafferJob) (err : Option (Nat × Bool))
  /-- MODEL_PROGRAM_JOB (R106). -/
  | modelProgramJob (engine : Nat) (j : Option GafferJob) (err : Option (Nat × Bool))
  /-- HOT_ROW_CHUNK (R48). -/
  | hotRowChunk (engine : Nat) (j : Option GafferJob) (err : Option (Nat × Bool))
  /-- TRAINING_PASS (R139). -/
  | trainingPass (engine : Nat) (j : Option GafferJob) (err : Option (Nat × Bool))
  /-- JACK_PASS (R202). -/
  | jackPass (unit ctx : Nat) (bind : Option JackCtx)
  /-- SLOT_SCHEDULE (R114). -/
  | slotSchedule (core : Nat)
  /-- SLOT_REPLY (R115). -/
  | slotReply (slot : Nat)
  /-- SLOT_RELEASE (R120). -/
  | slotRelease (slot : Nat)
  /-- ATTN_POSITION_RELEASE (R238). -/
  | attnPositionRelease (slot : Nat)
  /-- KV_SPILL (R230). -/
  | kvSpill (ws key : Nat)
  /-- SESSION_JOURNAL_WRITE (R284). -/
  | sessionJournalWrite (ws key : Nat) (e : JournalEnt)
  /-- BLOCK_REBUILD (R285). -/
  | blockRebuild (ws key layer head block : Nat) (src : Option JournalEnt)
  /-- ANNOUNCE (R274). -/
  | announce (ws key v u coord : Nat)
  /-- DRAINED (R274). -/
  | drained (ws key v u src : Nat)
  /-- COMMITTED (R274). -/
  | committed (ws key v u : Nat)
  /-- UPDATE_SEQ_RELEASE (R273). -/
  | updateSeqRelease (slot : Nat)
  /-- POOL_RESP (R278). -/
  | poolResp (txn : Nat) (tagOk : Bool) (rec : List Byte)
  /-- POOL_READ_TIMEOUT (R278). -/
  | poolReadTimeout (txn : Nat)
  /-- PHASE_DISPATCH (R294). -/
  | phaseDispatch (ws ident : Nat) (h : HostView)
  /-- BINDING_RECORD (R294). -/
  | bindingRecord (ws ident : Nat) (accepted : Bool)
  /-- CHECKPOINT (R295). -/
  | checkpoint (ws ident : Nat) (accepted : Bool) (c : Option ReqCopy)
  /-- OWNER_BEAT (R299). -/
  | ownerBeat (ws ident : Nat)
  /-- ORPHAN_SWEEP (R299). -/
  | orphanSweep
  /-- ORPHAN (R300). -/
  | orphanMsg (ws ident epoch pool : Nat)
  /-- HANDOFF (R300). -/
  | handoff (c : ReqCopy)
  /-- HANDOFF_ACK (R300). -/
  | handoffAck (ws ident epoch : Nat) (heldNone : Bool)
  /-- HANDOFF_RESEND (R300). -/
  | handoffResend (ws ident : Nat)
  /-- CLAIM (R301). -/
  | claimMsg (ws ident : Nat) (copies : List (Nat × ReqCopy))
  /-- PROBE (R302). -/
  | probeMsg (ws ident : Nat)
  /-- STATE_LOST (R302). -/
  | stateLost (ws ident : Nat)
  /-- REQUEST_COMPLETION (R303). -/
  | requestCompletion (ws ident : Nat)
  /-- INPUT_RISE (R378). -/
  | inputRise (vin : Nat)
  /-- RAILS_TIMEOUT (R378). -/
  | railsTimeout (railsOk : Bool)
  /-- POWER_ON_RESET_RELEASE (R378). -/
  | powerOnResetRelease
  /-- STRAP_SAMPLE (R584). -/
  | strapSample (mv : List (List Nat))
  /-- GUARD_INTERVAL_END (R582). -/
  | guardIntervalEnd
  /-- BOOT_LOAD (R386). -/
  | bootLoad (flash : Option BootFlash)
  /-- RECOVERY_LOAD (R382). -/
  | recoveryLoad (pkg : FwPackage)
  /-- STOP_LINE (R379). -/
  | stopLine
  /-- STACK_DISCOVERY (R391). -/
  | stackDiscovery (steps : List Nat)
  /-- FLASH_TARGET_PROBE (R392). -/
  | flashTargetProbe (chan : Nat) (probes : List (Option TargetProbe))
  /-- RUN_ENTRY (R395). -/
  | runEntry
  /-- START_WAIT (R394). -/
  | startWait
  /-- INPUT_DROP_BEFORE_RUN (R380). -/
  | inputDropBeforeRun (vin : Nat)
  /-- I3C_ENTDAA (R590). -/
  | i3cEntdaa (addr : Nat)
  /-- MEMBERSHIP (R498). -/
  | membership (m : Membership) (pools : Option (List (List Nat × Bool)))
  /-- RENEW (R499). -/
  | renewSend (group : Nat)
  /-- GRANT (R499). -/
  | grantMsg (group epoch expiry seq : Nat)
  /-- LEASE_LAPSE (R501). -/
  | leaseLapse (group : Nat)
  /-- RELEASE (R508). -/
  | releaseSend (group : Nat)
  /-- REBUILD (R504). -/
  | rebuild (obj : Nat) (table mirror : Bool) (source : RebuildSource)
  /-- SCORE_DECAY (R492). -/
  | scoreDecay
  /-- LEHR_ADMIT (R511). -/
  | lehrAdmit (ident : Nat)
  /-- LEHR_ROUND_END (R512). -/
  | lehrRoundEnd (ident : Nat) (finished : Bool)
  /-- WAVELENGTH_FAIL (R402). -/
  | wavelengthFail (port wl : Nat)
  /-- REMAP (R402). -/
  | remapFrame (port : Nat) (lane wl first : Nat)
  /-- WAVELENGTH_RETRAIN (R403). -/
  | wavelengthRetrain (port : Nat) (rx : Bool) (wl : Nat) (pass : Bool)
  /-- PORT_TRAIN_TIMEOUT (R409). -/
  | portTrainTimeout (port : Nat)
  /-- PORT_UP (R409). -/
  | portUp (port : Nat) (txPass rxPass : List Bool) (delay : Int)
  /-- PROBE_PULSE (R406). -/
  | probePulse (port : Nat)
  /-- LIGHT_RECEIVED (R406). -/
  | lightReceived (port : Nat)
  /-- OPEN_FIBRE (R406). -/
  | openFibre (port : Nat)
  /-- LASER_FEED_LOST (R404). -/
  | laserFeedLost (feed : Nat)
  /-- FIBRE_CONN_LOST (R597). -/
  | fibreConnLost (cane : Nat)
  /-- FIBRE_CONN_RESTORED (R597). -/
  | fibreConnRestored (cane : Nat)
  /-- DATA_FRAME (R411), with the symbols that the receiver's FEC corrected in it and the codewords that it could not
  correct (R422). -/
  | dataFrame (port corrected uncorrectable : Nat) (f : List Byte)
  /-- FRAME_REPLAY_TIMEOUT (R411). -/
  | frameReplayTimeout (port : Nat)
  /-- HELLO (R393). -/
  | helloMsg (port : Nat) (msg : List Byte)
  /-- HELLO_TIMEOUT (R409). -/
  | helloTimeout (port : Nat)
  /-- LINK_STATE (R415). -/
  | linkState (src : Nat) (ls : List LinkEntry)
  /-- LINK_STATE_TIMER (R415). -/
  | linkStateTimer
  /-- FLOW_IDLE (R415). -/
  | flowIdle (dst vc : Nat)
  /-- PACKET_RECEIVE (R417). -/
  | packetReceive
  /-- E2E_ACK (R417). -/
  | e2eAck (src vc seq : Nat) (nak : Bool)
  /-- TC7_RESEND (R417). -/
  | tc7Resend (dst vc seq : Nat)
  /-- MEM_WRITE (R417). -/
  | memWrite (p : Packet)
  /-- MEM_READ (R417). -/
  | memRead (p : Packet)
  /-- TIME (R419). -/
  | ptpTime (port : Nat) (msg : PtpMsg)
  /-- HOLDOVER (R555). -/
  | holdover
  /-- REF_LOST (R550). -/
  | refLost
  /-- REF_RESTORED (R550). -/
  | refRestored
  /-- PPS_PULSE (R558). -/
  | ppsPulse
  /-- PPS_LOST (R558). -/
  | ppsLost
  /-- PPS_OUTPUT_EDGE (R559). -/
  | ppsOutputEdge
  /-- PACKET_SELECT (R429). -/
  | packetSelect (port : Nat)
  /-- GATE_TAKE_OVER (R442). -/
  | gateTakeOver (port : Nat)
  /-- GATE_ENTRY_CHANGE (R438). -/
  | gateEntryChange (port : Nat)
  /-- QUEUE_SAMPLE (R445). -/
  | queueSample (port : Nat)
  /-- MOVE_DESCRIPTOR_START (R452). -/
  | moveDescriptorStart (chan : Nat)
  /-- MOVE_BURST_ISSUE (R451). -/
  | moveBurstIssue
  /-- MOVE_BURST_DONE (R455). -/
  | moveBurstDone (chan off : Nat) (h : HostAnswer)
  /-- FLASH_OPERATION (R463). -/
  | flashOperation (chan target : Nat) (o : FlashOutcome)
  /-- RECLAIM (R472). -/
  | reclaim (group : Nat)
  /-- WEAR_MOVE (R474). -/
  | wearMove (group : Nat)
  /-- FLASH_PATROL (R478). -/
  | flashPatrol (group : Nat)
  /-- GROUP_MOUNT (R469). -/
  | groupMount (group : Nat) (src : MountSource)
  /-- CARRIER_PRESENT (R596). -/
  | carrierPresent (group : Nat) (probes : List (List (Option TargetProbe)))
  /-- CARRIER_REMOVED (R544). -/
  | carrierRemoved (group : Nat)
  /-- STRIPE_FORM (R483). -/
  | stripeForm (stream : Nat) (fold : Bool)
  /-- STRIPE_UNIT_DURABLE (R486). -/
  | stripeUnitDurable (setId index member : Nat)
  /-- STRIPE_MEMBER_TIMEOUT (R486). -/
  | stripeMemberTimeout (setId index member : Nat)
  /-- STRIPE_SET_REBUILD (R488). -/
  | stripeSetRebuild (setId lost : Nat) (units : List (Nat × Nat × List Byte))
  /-- FLASH_TEMP_READ (R490). -/
  | flashTempRead (temps : List Int)
  /-- EVENT_INTAKE (R519). -/
  | eventIntake
  /-- ALARM_LATCH_WRITE (R522). -/
  | alarmLatchWrite
  /-- LOG_SUMMARY (R524). -/
  | logSummary (code : Nat)
  /-- DROP_SUMMARY (R525). -/
  | dropSummary
  /-- ARCHIVE_WRITE (R526). -/
  | archiveWrite
  /-- STATUS_FRAME (R569). -/
  | statusFrame (f : StatusFrame)
  /-- STATUS_LINK_LOST (R570). -/
  | statusLinkLost
  /-- POWER_CAP_COMPARE (R571). -/
  | powerCapCompare
  /-- POWER_DUTY_RISE (R571). -/
  | powerDutyRise
  /-- INPUT_LOW (R563). -/
  | inputLow
  /-- INPUT_HIGH (R563). -/
  | inputHigh
  /-- ENTRY_TRIP (R566). -/
  | entryTrip (cause : Nat)
  /-- TRIP_RESTART (R566). -/
  | tripRestart
  /-- POWER_LOSS (R572). -/
  | powerLoss
  /-- FLUSH_DONE (R573). -/
  | flushDone
  /-- RAIL_COLLAPSE (R575). -/
  | railCollapse (vin : Nat)
  /-- RESET_REQUEST (R592). -/
  | resetRequest
  /-- ALARM_N_RELEASE (R593). -/
  | alarmNRelease
  /-- THERMAL_SAMPLE (R604). -/
  | thermalSample (hub : Int) (stk cane fh : List Int)
  /-- THERMAL_DUTY_STEP (R605). -/
  | thermalDutyStep
  /-- THERMAL_TRIP (R607). -/
  | thermalTrip (kind inst : Nat)
  /-- THERMAL_REPORT (R608). -/
  | thermalReport
  /-- PUNTY_FLIP (R534). -/
  | puntyFlip (core : Nat)
  /-- BENCH_FLIP (R534). -/
  | benchFlip
  /-- FW_CONFIRM (R534). -/
  | fwConfirm
  /-- FW_ACTIVATE_REVERTED (R535). -/
  | fwActivateReverted
  /-- UCODE_SWITCH (R536). -/
  | ucodeSwitch (unit : Nat)
  /-- REGION_MIGRATE (R539). -/
  | regionMigrate (page : Nat)
  /-- STREAM_MOVE (R542). -/
  | streamMove (group stream unit : Nat)
  /-- DRAIN_DONE (R545). -/
  | drainDone
  /-- PROBE_RETURN (R406). -/
  | probeReturn (port : Nat)
  /-- HELLO_SEND_TIMER (R417). -/
  | helloSendTimer (port : Nat)
  /-- PTP_SEND_TIMER (R419). -/
  | ptpSendTimer (port : Nat) (kind : Nat)
  /-- CORE_FAULT (R492). -/
  | coreFault (jack : Bool) (inst : Nat)
  deriving DecidableEq, Repr

end Sys2Proof
end

