-- ==== Sys2Proof/Decode.lean ====
section
/-!
DEFINITION. Decoding of table words: the opcode table gives bits to no row (its rows have no fields), so a word
spells no command.
-/

namespace Sys2Proof

/-- The command that a word spells by the opcode table's bits: none, since no row of the table has bits. -/
def decodeTableWord (_nbits _w : Nat) : Option Instr := none

end Sys2Proof
end

