-- ==== Sys2Proof/Machine/Resets.lean ====
section
/-!
DEFINITION. After-reset values of every part of the state, one definition per part. Where the spec gives no
value the part takes zero, no entry or false (DESIGN CHOICE, assumption 1).
-/

namespace Sys2Proof.Machine

/-- Fuses of the modelled part: QRB-6416, stepping B0 (DESIGN CHOICE, assumption 1); ceilings of R324. -/
def resetFuses : Fuses :=
  ⟨false, true, 0, zeros 97, [], [0, 0, 0, 0], [true, true, true, true], 2800, 4096⟩

/-- An erased boot flash (R383; DESIGN CHOICE, assumption 1). -/
def resetBootFlash : BootFlash := ⟨[], [], none, none, [], []⟩

/-- The factory defaults of Table: Image settings (R389, R390) under given ceilings. -/
def defaultSettings (powerCeil eraseCeil : Nat) : Settings :=
  ⟨0, 3, 0, 24, 1000, 5000, false, [], powerCeil, 44800, 1400, min 1024 eraseCeil, 0xFF, 500⟩

/-- Start-up state of a device without power. -/
def resetBoot : Boot :=
  ⟨.off, 0, 0, false, 0, resetBootFlash, false, false, 0, 0, defaultSettings 2800 4096, 0, 0, false⟩

/-- Memory after discovery reads 0, with no poison (R391). -/
def resetMem : Mem := ⟨[], [], [], ⟨[], 0, 3, 0⟩⟩

/-- The guard limit record and owner map after reset (R313, R324); Image fields hold the factory defaults. -/
def resetGuard : Guard :=
  ⟨false, false, 0, 0, 2800, 2800, 44800, 44800, 1400, 1024, 0xFF, [], [], []⟩

/-- A quota block of zeros. -/
def zeroQuota : Quota := ⟨0, 0, 0, 0, 0, 0, 0, 0, 0, 0, 0, 0, 0, 0⟩

/-- A FREE workspace (R305). -/
def freeWs : Ws := ⟨0, 0, 0, zeroQuota, [], none⟩

/-- An interrupt vector after reset (R355): COAL_COUNT 1, all else 0. -/
def resetVec : Vec := ⟨1, 0, false, false, 0, 0, false, 0, 0⟩

/-- An ABSENT ring. -/
def absentRing : Ring := ⟨0, none, [], 0, 0, 0, 0, 0, 0xFFFF, 0, 0, 0, 0, 0, false, 0, [], none, 0⟩

/-- A DISABLED function: every register at its After reset value (R330, R374). -/
def resetFunc : Func :=
  ⟨0, 0, 0, none, [], 0, 0, [], [], [], [], 0xFFFF, 0, 0, 0, 1, [], [], [], none, 0⟩

/-- The recorder after power-on reset (R519 to R529): full log bucket, rate 10,000, burst 1,024. -/
def resetRecorder : Recorder :=
  { intake := [], ptr := 0, recs := [], nextNumber := 0, archive := [], archNext := 0, archOldest := 0,
    archMounted := false, latches := [], folds := [], tokens := 1024 * 10 ^ 9, filledAt := 0,
    logRate := 10000, logBurst := 1024, traceMask := 0, fwdClasses := 0, fwdEntries := 0, fwdAddr := 0,
    fwdCount := 0, traceDropped := 0, logFolded := 0, excludedCount := 0, alarmRepeats := 0, dTrace := 0,
    dFold := 0, dExcl := 0, dAlarm := 0, dropAt := none, cursor := 0, window := [], clearNonce := 0,
    lastArchive := 0 }

/-- One direction of a port in training order: lane i on wavelength i, wavelengths 14 and 15 spare (R401). -/
def resetDirection : Direction :=
  ⟨(List.range 14).map some,
   (List.range 16).map fun i => ⟨if i < 14 then 0 else 1, 0, 0, none, false⟩, []⟩

/-- The scheduler of a port after reset (R429, R433, R434, R437, R445): default weights and ceilings, all gates
open, sampling each 1,000 µs. -/
def resetSched : Sched :=
  { queues := [], vClass := 0, ptrClass := 0, classStart := [0, 0, 0, 0, 0, 0],
    vWs := [0, 0, 0, 0, 0, 0, 0], ptrWs := [0, 0, 0, 0, 0, 0, 0], weights := [8, 16, 32, 32, 64, 128],
    ceil6 := 154, ceil7 := 13, bucket6 := ⟨8320 * 2048, 0⟩, bucket7 := ⟨8320 * 2048, 0⟩,
    alarmBucket := ⟨4160 * 2048, 0⟩, portBucket := ⟨0, 0⟩, overhead := 0, sampleUs := 1000, sampledAt := 0,
    gates := ⟨0, [], 0, 0xFF, 0, none⟩, pendingGates := none, gateTooShort := 0, gateShortAt := none,
    gateEntry := 0, gateMask := 0x7F }

/-- No partner found (R425). -/
def noPartner : Partner := ⟨0, 0, 0, 0, 0, 0, 0⟩

/-- A port after reset: DARK, emitting nothing (R398, R406). -/
def resetPort : Port :=
  { state := 1, emission := 0, since := 0, lightSince := none, probeAt := 0, pulses := 0,
    tx := resetDirection, rx := resetDirection, fecCorrected := 0, fecUncorrectable := 0, replays := 0,
    retrains := 0, remaps := 0, minLanes := 4, lastChange := 0, partner := noPartner, helloSentAt := 0, localQ := [],
    retrainTickets := [], txSeq := 0, unacked := [], txTail := [], txEnds := [], rxSeq := 0xFFF, rxTail := [], ackKind := 0,
    credits := [], owed := [], badHcrc := 0, badTrailer := 0, peerDelay := none, sched := resetSched }

/-- The fabric after reset. -/
def resetFabric : Fabric :=
  { ports := List.replicate 32 resetPort, feedLost := List.replicate 8 false,
    connPresent := [true, true, true, true], connAt := [0, 0, 0, 0], canesAnswered := 0, canesRetired := 0,
    peers := [], linkChanged := none, linkSentAt := 0, flows := [], rxFlows := [], held := [], arrived := [],
    inbox := [], unreachable := 0, unreachableAt := none, nextTxn := 0, devBucket := ⟨0, 0⟩,
    wsBuckets := [], wsWeights := [] }

/-- Marver units with nothing queued; no bank refreshed yet. -/
def resetMarver : Marver := ⟨[], [], [], [], []⟩

/-- A marver unit at rest: 4 free contexts, pointers at the first requester (R66, R77). -/
def resetMarverUnit : MarverUnit := ⟨[], [none, none, none, none], 0, false, 0, false, 0, 0⟩

/-- A gaffer engine with every page FREE (R92). -/
def resetGaffer : Gaffer := ⟨List.replicate 32 0, [], [], [], 0⟩

/-- Hub compute at rest: every arbiter at its first requester (R122). -/
def resetHub : Hub := ⟨[], [], [], [], [], 1, 0, [0, 0, 0], [], [], [], [], none⟩

/-- No requests (R292). -/
def resetRequests : Requests := ⟨[], [], [], [], 0, []⟩

/-- Channels CLOSED, pointer at the first requester (R448, R457). -/
def resetMove : Move := ⟨[], [], 0⟩

/-- A flash channel with no target probed. -/
def resetChan : FlashChan := ⟨0, [], 0, 0, ⟨0, 0⟩⟩

/-- An ABSENT channel group (R461). -/
def resetGroup : FlashGroup :=
  { state := 0, present := false, presentAt := 0, blocks := 0, unitsPerBlock := 0, goodAtFormat := 0,
    reserve := 0, userBlocks := 0, spareAtFormat := 0, fblocks := [], units := [], openBlock := none,
    streams := [], lowSent := false, goneSent := false, retired := 0, corrected := 0, retries := 0,
    uncorrectable := 0, programFails := 0, eraseFails := 0, tempNow := 0, tempMax := 0, tempMaxTime := 0,
    tempHours := [], tempSecs := [], reclaiming := false, patrolPos := 0, patrolAt := 0, flushDone := none,
    offline := none, online := [], serial := 0, readOnly := false }

/-- Flash with nothing mounted: 32 channels, 8 groups. -/
def resetFlash : Flash :=
  { chans := List.replicate 32 resetChan, groups := List.replicate 8 resetGroup, hubPtr := [0, 0], queue := [],
    wearLimit := 500, stripes := [], sets := [], nextSet := 0, nextStream := 1, stripeWaitAt := none,
    buffered := [], pinned := [] }

/-- Scores, thresholds (R493: watch 256, act 1,024, AUTO set for GAFFER, PUNTY, JACK, WAVELENGTH and FLASH_TARGET), groups, lehr. -/
def resetRack : Rack :=
  ⟨[], List.replicate 12 256, List.replicate 12 1024, (List.range 12).map [3, 4, 5, 6, 9].contains, 0, [], [], [], 1⟩

/-- Nothing staged, nothing in progress. -/
def resetLive : Live := ⟨[], [], none, 0, none, [], [], [], [], false, false⟩

/-- The clock at power-on reset: counter 0, rate 0, servo FREE (R551, R552, R555). -/
def resetClock : Clock :=
  { cycles := 0, time := 0, rate := 0, state := 0, good := 0, lastSync := 0, refLost := false, masterPort := 0xFFFF,
    masterDevice := 0, steps := 0, offset := 0, firstLock := 0, unlocks := 0, masterChanges := 0, ppsLocked := false,
    ppsCount := 0, ppsAt := none, ppsOffset := 0, ppsOutAt := 0, ptpSeq := 0, ptpSent := [] }

/-- Power entry without input: duty 16 of 16, no frame received. -/
def resetPower : Power :=
  { vin := 0, frames := [], lastFrame := 0, firstFrame := false, entryOn := false, trip := 0, lastTrip := 0,
    lowSent := false, highSent := false, outAt := 0, duty := 16, underSince := none,
    floorSince := none, floorSent := false, dutyAt := 0, capAt := 0, flushing := false, flushAt := 0, flushMinVin := 0,
    flushEnergy := 0, after := 0 }

/-- Service contacts at high impedance (R582). -/
def resetService : Service := ⟨0, none, false, 0, true, false, true, false, 0, [], [], false⟩

/-- Thermal state with no sample taken. -/
def resetThermal : Thermal :=
  { hubTemp := 0, stackTemps := List.replicate 16 0, caneTemps := List.replicate 4 0,
    fhTemps := [0, 0], throttleKind := 0, coolSince := none, tripSince := [], duty := 16, dutyAt := 0,
    hotSent := [], hotCool := [], reportAt := 0 }

end Sys2Proof.Machine
end

