-- ==== Sys2Proof/Machine/State.lean ====
section
/-!
DEFINITION. The whole state of the block, plain data, with the queue of waiting commands; the faults and
refusals; and the state after reset.
-/

namespace Sys2Proof.Machine

/-- Why a step stops with a fault. -/
inductive Fault where
  /-- The command names a piece of hardware that the part does not have: a port above 31, a stack above 15, a
  function above 255, an engine, unit, channel or core out of range. Raised by the row meanings through
  `guarded`; safe: the hardware has no such command. -/
  | absentUnit (row : String)
  deriving DecidableEq, Repr

/-- Why a command is refused. -/
inductive Refusal where
  /-- The command has no meaning yet; raised by an arm of `exec` only; safe. -/
  | notModelled (mnemonic : String)
  deriving DecidableEq, Repr

/-- The state of the block. -/
structure State where
  fuse : Fuses
  boot : Boot
  clk : Clock
  mem : Mem
  guard : Guard
  wss : List (Nat × Ws)
  fns : List (Nat × Func)
  /-- Round-robin pointer of message acceptance over 256 functions and the management endpoint (R336, R362). -/
  mbxPtr : Nat
  evr : Recorder
  fab : Fabric
  marver : Marver
  hub : Hub
  indexes : List (Nat × Index)
  cbSets : List (Nat × CodebookSet)
  /-- The last handle given to a program, table, codebook set or session (their chapters). -/
  nextHandle : Nat
  sessions : List Session
  requests : Requests
  tables : List (Nat × Table)
  poolReads : List PoolRead
  move : Move
  flash : Flash
  rack : Rack
  live : Live
  power : Power
  svc : Service
  therm : Thermal
  /-- The model's own: how many free values have been drawn (DESIGN CHOICE, assumption 3). -/
  free : Nat
  /-- The queue of commands that wait, first in, first out. -/
  pending : List Instr
  deriving DecidableEq, Repr

/-- The block before its input rises: no stage entered, every register at its After reset value. -/
def State.reset : State where
  fuse := resetFuses
  boot := resetBoot
  clk := resetClock
  mem := resetMem
  guard := resetGuard
  wss := []
  fns := []
  mbxPtr := 0
  evr := resetRecorder
  fab := resetFabric
  marver := resetMarver
  hub := resetHub
  indexes := []
  cbSets := []
  nextHandle := 0
  sessions := []
  requests := resetRequests
  tables := []
  poolReads := []
  move := resetMove
  flash := resetFlash
  rack := resetRack
  live := resetLive
  power := resetPower
  svc := resetService
  therm := resetThermal
  free := 0
  pending := []

end Sys2Proof.Machine
end

