-- ==== Sys2Proof/Machine/Ops.lean ====
section
/-!
DEFINITION. Operations that every family shares: time, events, functions and workspaces, memory with its two
address forms, the owner map and the guard.
-/

namespace Sys2Proof.Machine

/-! ## Outcomes -/

/-- A row whose operands name hardware of the part acts; any other is a fault, since the part has no such
command (DESIGN CHOICE, assumption 144). -/
def guarded (row : String) (present : Bool) (t : State) : Host.Outcome State Fault Refusal :=
  if present then .next t else .fault (.absentUnit row)

/-- An event row acts when its condition holds; when it does not, the event did not occur and nothing changes
(DESIGN CHOICE, assumption 7). -/
def when (c : Bool) (f : State → State) (s : State) : State := if c then f s else s

/-! ## Time and identity -/

/-- Local time: ns on the device's own count since power-on reset, at two core cycles a ns (R551). -/
def ns (s : State) : Nat := s.clk.cycles / 2

/-- Network time in ns (R551). -/
def net (s : State) : Nat := s.clk.time / 2 ^ 32

/-- Whether `span` ns have passed since local time `t`. -/
def elapsed (s : State) (t span : Nat) : Bool := t + span ≤ ns s

/-- Mesh position (R381, R382). -/
def meshPos (s : State) : Nat := bits s.boot.straps 5 0

/-- Fabric device number (R382). -/
def fabricDev (s : State) : Nat := s.boot.settings.rackId * 64 + meshPos s

/-- Whether the device serves in the RUN stage: a flush that has begun holds its cores (R573). -/
def inRun (s : State) : Bool := decide (s.boot.stage = .run) && !s.power.flushing

/-- Whether firmware runs: RUN, and no guard halt (R328). -/
def firmwareRuns (s : State) : Bool := inRun s && !s.guard.halted

/-- Draw the next free value of `w` bits (DESIGN CHOICE, assumption 3). -/
def drawFree (s : State) (w : Nat) : Nat × State :=
  (Config.freeValue s.free % 2 ^ w, { s with free := s.free + 1 })

/-! ## Events -/

/-- Raise an event at its source: it waits for the recorder's intake (R519); TIME_FREE until the first time
lock (R395, R552). -/
def emitFull (s : State) (code kind inst p0 p1 p2 p3 p4 : Nat) : State :=
  { s with evr := { s.evr with intake := s.evr.intake ++
      [⟨code, kind, inst, net s, decide (s.clk.state = 0), p0, p1, p2, p3, p4⟩] } }

/-- Raise an event of source DEVICE. -/
def emitDev (s : State) (code p0 p1 p2 : Nat) : State := emitFull s code 0 0 p0 p1 p2 0 0

/-- Raise an event of another source (DESIGN CHOICE, assumption 102). -/
def emit (s : State) (code kind inst p0 p1 p2 : Nat) : State := emitFull s code kind inst p0 p1 p2 0 0

/-- Assert the alarm output for at least 1 ms (R327, R593). -/
def assertAlarm (s : State) : State :=
  { s with svc := { s.svc with alarm := true, alarmAt := ns s } }

/-- A guard violation: counted, recorded by PONTIL itself with the limit's number and the offending value, and
on the alarm output (R327). -/
def violation (s : State) (limit value : Nat) : State :=
  assertAlarm (emit { s with guard := { s.guard with violTotal := satAdd 32 s.guard.violTotal 1 } }
    0x0401 2 0 limit value 0)

/-- A guard halt (R328): cores and egress stop; HALT_N goes low and RUN_OK falls (R593) (DEDUCED, assumption 50). -/
def guardHalt (s : State) : State :=
  { s with
    guard := { s.guard with halted := true, violHalt := satAdd 16 s.guard.violHalt 1 }
    svc := { s.svc with haltN := false, runOk := false } }

/-- EV_GUARD_HOLD for a limit, at most once per second (R326). -/
def guardHold (s : State) (limit value : Nat) : State :=
  let last := s.guard.holdAt.find? (·.1 == limit)
  let due := match last with | some (_, t) => elapsed s t 1000000000 | none => true
  if due then
    emit { s with guard := { s.guard with holdAt := Tab.insert s.guard.holdAt limit (ns s) } } 0x0402 2 0 limit value 0
  else s

/-! ## Functions and workspaces -/

/-- Function `n`; a function not listed is at its After reset values. -/
def getFn (s : State) (n : Nat) : Func := Tab.get resetFunc s.fns n

def putFn (s : State) (n : Nat) (f : Func) : State := { s with fns := Tab.insert s.fns n f }

/-- Workspace `n`; one not listed is FREE. -/
def getWs (s : State) (n : Nat) : Ws := Tab.get freeWs s.wss n

def putWs (s : State) (n : Nat) (w : Ws) : State := { s with wss := Tab.insert s.wss n w }

/-- ACTIVE (R305). -/
def wsActive (s : State) (n : Nat) : Bool := decide ((getWs s n).state = 1)

/-- The workspace that a function or the management endpoint speaks for (R362). -/
def wsOfOwner (s : State) (owner : Nat) : Nat := if owner = 256 then 0 else (getFn s owner).ws

def getRing (f : Func) (r : Nat) : Ring := Tab.get absentRing f.rings r

def putRing (s : State) (fn r : Nat) (g : Ring) : State :=
  let f := getFn s fn
  putFn s fn { f with rings := if g = absentRing then Tab.erase f.rings r else Tab.insert f.rings r g }

def getVec (f : Func) (v : Nat) : Vec := Tab.get resetVec f.vecs v

def putVec (s : State) (fn v : Nat) (x : Vec) : State :=
  let f := getFn s fn
  putFn s fn { f with vecs := Tab.insert f.vecs v x }

/-! ## Address forms (R56 to R61) -/

/-- Stacks in the interleave. -/
def nStacks (s : State) : Nat := s.mem.layout.stackMap.length

/-- Size of the interleaved window in bytes: IL × N × 8 GiB (R59). -/
def windowBytes (s : State) : Nat := s.mem.layout.il * nStacks s * 2 ^ 33

/-- fold4 of R60. -/
def fold4 (l : Nat) : Nat :=
  bits l 3 0 ^^^ bits l 7 4 ^^^ bits l 11 8 ^^^ bits l 15 12 ^^^ bits l 19 16 ^^^ bits l 22 20

/-- fold6 of R60. -/
def fold6 (l : Nat) : Nat := bits l 5 0 ^^^ bits l 11 6 ^^^ bits l 17 12 ^^^ bits l 22 18

/-- A marver address from its fields (R56). -/
def mkMa (stack die bank offset : Nat) : Nat := stack * 2 ^ 37 + die * 2 ^ 33 + bank * 2 ^ 25 + offset

def maStack (ma : Nat) : Nat := bits ma 40 37
def maDie (ma : Nat) : Nat := bits ma 36 33
def maBank (ma : Nat) : Nat := bits ma 32 25
def maOffset (ma : Nat) : Nat := bits ma 24 0

/-- A DPA is valid below N × 72 GiB (R57). -/
def dpaValid (s : State) (dpa : Nat) : Bool := decide (dpa < nStacks s * (72 * 2 ^ 30))

/-- The interleave of R60 for a stack map. -/
def dpaToMa (map : List Nat) (dpa : Nat) : Nat :=
  let u := dpa / 256
  let q := u / 64
  let n := max 1 map.length
  let l := q / n
  let ell := (q % n + fold4 l) % n
  let pc := (u % 64) ^^^ fold6 l
  let j := l % 64
  mkMa (map.getD ell 0) (j / 4) (4 * pc + j % 4) ((l / 64) * 256 + dpa % 256)

/-- The inverse of R61; none where the stack is not in the interleave or the offset is out of range (R57). -/
def maToDpa (map : List Nat) (ma : Nat) : Option Nat :=
  match map.findIdx? (· == maStack ma) with
  | none => none
  | some ell =>
    if maOffset ma ≤ 0x11FFFFF then
      let n := map.length
      let j := maDie ma * 4 + maBank ma % 4
      let l := (maOffset ma / 256) * 64 + j
      let r := (ell + (n * 16 - fold4 l)) % n
      let c := (maBank ma / 4) ^^^ fold6 l
      some ((l * n + r) * 2 ^ 14 + c * 256 + maOffset ma % 256)
    else none

/-- An MA is valid where its stack is in the interleave and its offset in range (R57). -/
def maValid (s : State) (ma : Nat) : Bool := (maToDpa s.mem.layout.stackMap ma).isSome

/-- The DPA of an MA that is known to be valid. -/
def dpaOf (s : State) (ma : Nat) : Nat := (maToDpa s.mem.layout.stackMap ma).getD 0

/-- The marver unit of an MA: unit of the stack, by stack × 1,024 + 64 × die + pseudo-channel group (R64). -/
def unitOfMa (ma : Nat) : Nat := maStack ma * 1024 + maDie ma * 64 + maBank ma / 4

/-! ## Memory -/

/-- One byte of memory; what nothing has written reads 0 (R391). -/
def readByte (m : Mem) (dpa : Nat) : Byte := Tab.get 0 m.cells dpa

/-- `n` bytes from a DPA. -/
def readBytes (m : Mem) (dpa n : Nat) : List Byte := (List.range n).map fun i => readByte m (dpa + i)

/-- Write one byte in canonical form. -/
def writeByte (m : Mem) (dpa : Nat) (b : Byte) : Mem := { m with cells := Tab.set 0 m.cells dpa b }

/-- Write bytes at consecutive DPAs. -/
def writeBytes (m : Mem) (dpa : Nat) : List Byte → Mem
  | [] => m
  | b :: t => writeBytes (writeByte m dpa b) (dpa + 1) t

/-- The canonical form of memory: addresses strictly rising, no listed byte 0; poisoned granules strictly rising. -/
def Memory.wf (m : Mem) : Bool := Tab.wf 0 m.cells && decide (m.poison.Pairwise (· < ·))

/-- Whether a granule among bytes `dpa` to `dpa + n - 1` is poisoned (R85). -/
def poisonIn (m : Mem) (dpa n : Nat) : Bool :=
  m.poison.any fun g => decide (g * 32 < dpa + n) && decide (dpa < g * 32 + 32) && decide (0 < n)

/-- Poisoned granules among them. -/
def poisonCount (m : Mem) (dpa n : Nat) : Nat :=
  (m.poison.filter fun g => decide (g * 32 < dpa + n) && decide (dpa < g * 32 + 32)).length

/-- Clear the poison of whole granules written over (R87). -/
def clearPoison (m : Mem) (dpa n : Nat) : Mem :=
  { m with poison := m.poison.filter fun g => !(decide (dpa ≤ g * 32) && decide (g * 32 + 32 ≤ dpa + n)) }

/-- Mark a granule poisoned. -/
def setPoison (m : Mem) (g : Nat) : Mem := { m with poison := insertNat g m.poison }

/-- Store bytes: whole granules lose their poison (R87). -/
def store (m : Mem) (dpa : Nat) (l : List Byte) : Mem := clearPoison (writeBytes m dpa l) dpa l.length

/-- Read and store in marver form, byte by byte through the interleave (R60, R63). -/
def readMa (s : State) (ma n : Nat) : List Byte :=
  (List.range n).map fun i => readByte s.mem (dpaOf s (ma + i))

def poisonMa (s : State) (ma n : Nat) : Nat :=
  ((List.range (cdiv n 32)).filter fun i => s.mem.poison.contains (dpaOf s (ma + 32 * i) / 32)).length

def storeMaCells (map : List Nat) (m : Mem) (ma : Nat) : List Byte → Mem
  | [] => m
  | b :: t => storeMaCells map (writeByte m ((maToDpa map ma).getD 0) b) (ma + 1) t

/-- Store to marver memory; whole granules written lose their poison (R87). -/
def storeMa (s : State) (ma : Nat) (l : List Byte) : State :=
  let m := storeMaCells s.mem.layout.stackMap s.mem ma l
  let gs := ((List.range (l.length / 32 + 1)).filter fun i =>
    decide ((ma + 31) / 32 * 32 + 32 * i + 32 ≤ ma + l.length)).map fun i =>
      dpaOf s ((ma + 31) / 32 * 32 + 32 * i) / 32
  { s with mem := { m with poison := m.poison.filter fun g => !gs.contains g } }

/-! ## Owner map (R313 to R318) -/

/-- Window pages: IL × N × 131,072. -/
def windowPages (s : State) : Nat := s.mem.layout.il * nStacks s * 131072

/-- Pages of the marver segments of one bank. -/
def bankPages (s : State) : Nat := (9 - s.mem.layout.il) * 32

/-- First owner-map entry of a bank, by logical stack, die and bank. -/
def bankBase (s : State) (ell die bank : Nat) : Nat :=
  windowPages s + ((ell * 16 + die) * 256 + bank) * bankPages s

/-- The owner-map entry of an MA outside the window. -/
def pageOfMa (s : State) (ma : Nat) : Nat :=
  bankBase s ((s.mem.layout.stackMap.findIdx? (· == maStack ma)).getD 0) (maDie ma) (maBank ma)
    + maOffset ma / 65536 - s.mem.layout.il * 32

/-- The owner-map entry of a DPA. -/
def pageOfDpa (s : State) (dpa : Nat) : Nat :=
  if dpa < windowBytes s then dpa / 65536 else pageOfMa s (dpaToMa s.mem.layout.stackMap dpa)

/-- The MA of the first byte of a marver page. -/
def maOfPage (s : State) (p : Nat) : Nat :=
  let q := p - windowPages s
  let bp := max 1 (bankPages s)
  let b := q / bp
  mkMa (s.mem.layout.stackMap.getD (b / 4096) 0) (b / 256 % 16) (b % 256)
    ((q % bp + s.mem.layout.il * 32) * 65536)

/-- The run that holds a page. -/
def ownerOf (s : State) (p : Nat) : Option OwnRun :=
  s.guard.owners.find? fun r => decide (r.base ≤ p) && decide (p < r.base + r.pages)

/-- Whether every page from `lo` to `hi` is owned by `ws` and, for a buffer address, is a window buffer. -/
def pagesOwned (s : State) (ws lo hi : Nat) (buffer : Bool) : Bool :=
  (List.range (hi + 1 - lo)).all fun i =>
    match ownerOf s (lo + i) with
    | some r => decide (r.ws = ws) && (!buffer || decide (r.kind = 0))
    | none => false

/-- The check of R318 on an access through a buffer address; an access of no byte touches no page (R349). A
buffer being freed lies outside the workspace (R316). -/
def bufferOk (s : State) (ws dpa n : Nat) : Bool :=
  n == 0 || (decide (dpa + n ≤ windowBytes s) && pagesOwned s ws (dpa / 65536) ((dpa + n - 1) / 65536) true
    && !((getWs s ws).regions.any fun r => r.closing.isSome && decide (r.base < dpa + n)
        && decide (dpa < r.base + r.pages * 65536)))

/-- Lowest place of `n` pages in `[lo, hi)` between runs in ascending order (DESIGN CHOICE, assumption 8). -/
def firstFit : List OwnRun → (lo hi n : Nat) → Option Nat
  | [], lo, hi, n => if lo + n ≤ hi then some lo else none
  | r :: t, lo, hi, n =>
    if r.base + r.pages ≤ lo then firstFit t lo hi n
    else if lo + n ≤ r.base ∧ lo + n ≤ hi then some lo
    else firstFit t (r.base + r.pages) hi n

/-- Insert a run in ascending order of base. -/
def insertRun (r : OwnRun) : List OwnRun → List OwnRun
  | [] => [r]
  | q :: t => if r.base < q.base then r :: q :: t else q :: insertRun r t

/-- Zero every byte of pages `base` to `base + pages - 1` and clear their poison (R317). -/
def clearPages (s : State) (base pages : Nat) : State :=
  let inside := fun dpa => decide (base ≤ pageOfDpa s dpa) && decide (pageOfDpa s dpa < base + pages)
  { s with mem := { s.mem with
      cells := s.mem.cells.filter fun c => !inside c.1
      poison := s.mem.poison.filter fun g => !inside (g * 32) } }

/-- Give pages to a workspace: cleared first (R317), then marked owned (R318). -/
def takePages (s : State) (ws kind base pages : Nat) : State :=
  let t := clearPages s base pages
  { t with guard := { t.guard with owners := insertRun ⟨base, pages, kind, ws⟩ t.guard.owners } }

/-- Release the run that starts at a page. -/
def freePages (s : State) (base : Nat) : State :=
  { s with guard := { s.guard with owners := s.guard.owners.filter fun r => r.base != base } }

/-- Allocate window pages for a workspace outside the guard reserve (R314, R315) (DESIGN CHOICE, assumption 72). -/
def allocWindow (s : State) (ws kind n : Nat) : Option (Nat × State) :=
  match firstFit s.guard.owners 0 (windowPages s - 1024) n with
  | some p => some (p, takePages s ws kind p n)
  | none => none

/-- Whether a bank, by stack × 4,096 + die × 256 + bank, is retired for its score: component kind 1 (R492, R493). -/
def bankRetired (s : State) (idx : Nat) : Bool := s.rack.scores.any fun p => p.1 == 2 ^ 20 + idx && p.2.state == 3

/-- Banks of a marver unit that take new regions: its four, but those retired (R53, R493). -/
def regionBanks (s : State) (unit : Nat) : List Nat :=
  (List.range 4).filter fun b => !bankRetired s (unit / 64 * 256 + 4 * (unit % 64) + b)

/-- Allocate a marver region of `n` pages in the lowest bank of a marver unit that has the room (R62, R493). -/
def allocMarver (s : State) (ws unit n : Nat) : Option (Nat × State) :=
  let ell := (s.mem.layout.stackMap.findIdx? (· == unit / 1024)).getD 0
  let tries := (regionBanks s unit).filterMap fun b =>
    let base := bankBase s ell (unit / 64 % 16) (4 * (unit % 64) + b)
    firstFit (s.guard.owners.filter fun r => decide (windowPages s ≤ r.base)) base (base + bankPages s) n
  match tries with
  | p :: _ => some (p, takePages s ws 1 p n)
  | [] => none

/-- Pages of a kind that a workspace owns. -/
def ownedPages (s : State) (ws : Nat) (kind : Nat → Bool) : Nat :=
  ((s.guard.owners.filter fun r => decide (r.ws = ws) && kind r.kind).map (·.pages)).foldl (· + ·) 0

end Sys2Proof.Machine
end

