-- ==== Sys2Proof/Machine/Net.lean ====
section
/-!
DEFINITION. Sending over the fabric: links and routes (R399, R400, R414, R415), flows, the queues of a port
(R427, R430), messages, and interrupts (R355).
-/

namespace Sys2Proof.Machine

/-! ## Ports -/

def getPort (s : State) (p : Nat) : Port := s.fab.ports.getD p resetPort

def putPort (s : State) (p : Nat) (x : Port) : State :=
  { s with fab := { s.fab with ports := setAt s.fab.ports p x } }

/-- UP (Table: Port states). -/
def portUp (s : State) (p : Nat) : Bool := decide ((getPort s p).state = 4)

/-- Active lanes of a direction (R401). -/
def activeLanes (d : Direction) : Nat := (d.lanes.filter Option.isSome).length

/-- idx(a, b) of R400. -/
def rankOf (a b : Nat) : Nat := if b < a then b else b - 1

/-- The two ports by which a device at `here` reaches the mesh neighbour at `there` (R400). -/
def linkPorts (here there : Nat) : Option (Nat × Nat) :=
  if here = there then none
  else if here / 8 = there / 8 then
    let i := rankOf (here % 8) (there % 8)
    some (i, 16 + i)
  else if here % 8 = there % 8 then
    let i := rankOf (here / 8) (there / 8)
    some (8 + i, 24 + i)
  else none

/-- The uplink ports U0 to U3 (R399). -/
def uplinks : List Nat := [7, 15, 23, 31]

/-- Cane engine of a port. -/
def caneOf (p : Nat) : Nat := p / 8

/-- The port of a usable link that a flow uses: the low one when bit 0 of source ⊕ destination ⊕ v is 0, and the
other while the chosen one is not UP (R414). -/
def pickPort (up : Nat → Bool) (src dst vc : Nat) (l : Nat × Nat) : Option Nat :=
  let a := if (src ^^^ dst ^^^ vc) % 2 = 0 then l.1 else l.2
  let b := if (src ^^^ dst ^^^ vc) % 2 = 0 then l.2 else l.1
  if up a then some a else if up b then some b else none

/-- Whether a peer's LINK_STATE says that its link to a mesh position is usable (R415). -/
def peerReaches (s : State) (pos there : Nat) : Bool :=
  match linkPorts pos there, s.fab.peers.find? (·.1 == pos) with
  | some (a, b), some (_, ls) =>
    ((ls.getD a ⟨false, 0, 0⟩).usable || (ls.getD b ⟨false, 0, 0⟩).usable)
  | _, _ => false

/-- Whether a peer advertises a usable uplink to a device (R414, R415). -/
def peerUplink (s : State) (pos dst : Nat) : Bool :=
  match s.fab.peers.find? (·.1 == pos) with
  | some (_, ls) => uplinks.any fun u =>
      (ls.getD u ⟨false, 0, 0⟩).usable && decide ((ls.getD u ⟨false, 0, 0⟩).device = dst)
  | none => false

/-- The port of the direct link to a mesh position. -/
def directPort (s : State) (src dst vc there : Nat) : Option Nat :=
  match linkPorts (meshPos s) there with
  | some l => pickPort (portUp s) src dst vc l
  | none => none

/-- Own uplink to a gateway or memory-pool node, lowest first (R414). -/
def ownUplink (s : State) (dst : Nat) : Option Nat :=
  uplinks.find? fun u => portUp s u && decide ((getPort s u).partner.device = dst)
    && decide ((getPort s u).partner.status = 1)

/-- Whether a device number lies in this rack's mesh (R382). -/
def inMesh (s : State) (dst : Nat) : Bool := decide (dst / 64 = s.boot.settings.rackId)

/-- The first hop through a neighbour. -/
def viaPort (s : State) (src dst vc via : Nat) (onward : Bool) : Option Nat :=
  if onward then directPort s src dst vc via else none

/-- First neighbour of a list that leads on, with its port. -/
def viaFirst (s : State) (src dst vc : Nat) (vias : List (Nat × Bool)) : Option Nat :=
  (vias.filterMap fun v => viaPort s src dst vc v.1 v.2).head?

/-- Primary path to a destination (Table: Mesh paths). -/
def primaryPath (s : State) (dst vc : Nat) : Option Nat :=
  let src := fabricDev s
  let me := meshPos s
  let there := dst % 64
  if inMesh s dst then
    if me / 8 = there / 8 ∨ me % 8 = there % 8 then directPort s src dst vc there
    else
      let via := me / 8 * 8 + there % 8
      viaPort s src dst vc via (peerReaches s via there)
  else ownUplink s dst

/-- Alternate path to a destination (Table: Mesh paths). -/
def alternatePath (s : State) (dst vc : Nat) : Option Nat :=
  let src := fabricDev s
  let me := meshPos s
  let there := dst % 64
  let members := (List.range 8).map fun i => if me / 8 = there / 8 then me / 8 * 8 + i else i * 8 + me % 8
  if inMesh s dst then
    if me / 8 = there / 8 ∨ me % 8 = there % 8 then
      viaFirst s src dst vc ((members.filter fun p => p != me && p != there).map
        fun p => (p, peerReaches s p there))
    else
      let via := there / 8 * 8 + me % 8
      viaPort s src dst vc via (peerReaches s via there)
  else viaFirst s src dst vc ((List.range 64).map fun p => (p, peerUplink s p dst))

/-- The last hop of a relayed packet: the direct link or the own uplink (R413). -/
def secondHop (s : State) (src dst vc : Nat) : Option Nat :=
  if inMesh s dst then directPort s src dst vc (dst % 64) else ownUplink s dst

/-! ## Queues of a port -/

/-- Queue key of a packet: TC7A is 8, TC7C is 7, others their class, with the header's workspace (R427). -/
def queueOf (p : Packet) : Nat × Nat :=
  if p.vc = 7 then (if p.alarm then 8 else 7, 0) else (p.vc, p.ws)

/-- Bytes of a packet on the wire: its payload padded to a multiple of 16 (R416). -/
def packetLen (p : Packet) : Nat := 64 + cdiv p.payload.length 16 * 16

/-- Nothing counted. -/
def noStat : QStat := ⟨0, 0, 0, 0, 0, 0, 0⟩

/-- An empty queue. -/
def newQueue (cls ws : Nat) : PQueue := ⟨cls, ws, [], 0, noStat, noStat, 0, 0, 0, none⟩

def findQueue (sc : Sched) (cls ws : Nat) : PQueue :=
  (sc.queues.find? fun q => q.cls == cls && q.ws == ws).getD (newQueue cls ws)

/-- Replace a queue, keeping queues in order of class and workspace. -/
def insertQueue (q : PQueue) : List PQueue → List PQueue
  | [] => [q]
  | r :: t =>
    if q.cls = r.cls ∧ q.ws = r.ws then q :: t
    else if q.cls < r.cls ∨ (q.cls = r.cls ∧ q.ws < r.ws) then q :: r :: t
    else r :: insertQueue q t

/-- Whether a class holds no packet. -/
def classEmpty (sc : Sched) (cls : Nat) : Bool := sc.queues.all fun q => q.cls != cls || q.pkts.isEmpty

/-- Packets join a queue, at its end or, where R411 moves them, at its head; a waking queue and a waking class
take the virtual time of their level (R430) (DESIGN CHOICE, assumption 89). -/
def joinQueue (sc : Sched) (now : Nat) (atHead : Bool) (ps : List Packet) (cls ws : Nat) : Sched :=
  let q := findQueue sc cls ws
  let fresh := ps.map fun p => ⟨p, now⟩
  let q' := { q with
    seenAt := if q.pkts.isEmpty then now else q.seenAt
    cause := if q.pkts.isEmpty then 0 else q.cause
    pkts := if atHead then fresh ++ q.pkts else q.pkts ++ fresh
    start := if q.pkts.isEmpty then sc.vWs.getD cls 0 else q.start }
  { sc with
    queues := insertQueue q' sc.queues
    classStart := if classEmpty sc cls then setAt sc.classStart cls sc.vClass else sc.classStart }

/-- A packet joins its queue on a port. -/
def enqueue (s : State) (port : Nat) (p : Packet) : State :=
  let x := getPort s port
  putPort s port { x with sched := joinQueue x.sched (ns s) false [p] (queueOf p).1 (queueOf p).2 }

/-! ## Sending -/

/-- A destination without a usable path: the packet is discarded and counted, with EV_ROUTE_UNREACHABLE at most
once per second (R415). -/
def unreachable (s : State) (dst : Nat) : State :=
  let t := { s with fab := { s.fab with unreachable := satAdd 32 s.fab.unreachable 1 } }
  match s.fab.unreachableAt with
  | some at_ => if elapsed s at_ 1000000000 then
      emitDev { t with fab := { t.fab with unreachableAt := some (ns s) } } 0x0607 dst 0 0 else t
  | none => emitDev { t with fab := { t.fab with unreachableAt := some (ns s) } } 0x0607 dst 0 0

def findFlow (s : State) (dst vc : Nat) : Flow :=
  (s.fab.flows.find? fun f => f.dst == dst && f.vc == vc).getD ⟨dst, vc, 0, 0, 0⟩

def putFlow (s : State) (f : Flow) : State :=
  { s with fab := { s.fab with flows := f :: s.fab.flows.filter fun g => !(g.dst == f.dst && g.vc == f.vc) } }

/-- The path a flow uses: its present one while usable, else the other (R415). -/
def flowPort (s : State) (f : Flow) : Option (Nat × Nat) :=
  let pri := primaryPath s f.dst f.vc
  let alt := alternatePath s f.dst f.vc
  match f.path, pri, alt with
  | 0, some p, _ => some (p, 0)
  | 0, none, some p => some (p, 1)
  | _ + 1, _, some p => some (p, 1)
  | _ + 1, some p, none => some (p, 0)
  | _, none, none => none

/-- Whether the source keeps a packet until it is acknowledged: every TC7 packet, and every MEM_WRITE (R417). -/
def keptUntilAck (p : Packet) : Bool := (p.vc == 7 && p.msg != 0x53) || p.msg == 0x10

/-- The sequence number of a flow after a packet: an E2E_ACK takes none (DEDUCED, assumption 19). -/
def seqAfter (f : Flow) (p : Packet) : Nat := if p.msg = 0x53 then f.seq else wrapAdd 16 f.seq 1

/-- Send one packet of this device: to itself directly; else on its flow's path, with the next sequence number
of the flow (R414 to R417). -/
def sendPacket (s : State) (p : Packet) : State :=
  if p.dst = fabricDev s then { s with fab := { s.fab with inbox := s.fab.inbox ++ [p] } }
  else
    let f := findFlow s p.dst p.vc
    match flowPort s f with
    | none => unreachable s p.dst
    | some (port, path) =>
      let q := { p with flowSeq := f.seq, hop := false }
      let t := putFlow s { f with seq := seqAfter f p, path := path, lastAt := ns s }
      let t := if keptUntilAck q then { t with fab := { t.fab with held := t.fab.held ++ [⟨q, ns s, 0, false⟩] } } else t
      enqueue t port q

/-- Pad bytes to a multiple of 16 (R416). -/
def pad16 (l : List Byte) : List Byte := l ++ zeros ((16 - l.length % 16) % 16)

/-- Cut bytes into packet payloads of at most 4,096 bytes; an empty message is one empty packet (R417). -/
def cutPayload : Nat → List Byte → List (List Byte)
  | 0, l => [l]
  | n + 1, l => if l.length ≤ 4096 then [l] else l.take 4096 :: cutPayload n (l.drop 4096)

/-- The packets of a message: all with its transaction tag, LAST on the final one (R417). Source device and
workspace are what the guard stamps (R326 limit 2). -/
def messagePackets (s : State) (dst vc ws msg txn : Nat) (body : List Byte) (alarm : Bool) : List Packet :=
  let parts := cutPayload (body.length / 4096) body
  parts.zipIdx.map fun (b, i) =>
    { vc := vc, hop := false, enc := false, last := decide (i + 1 = parts.length), dst := dst,
      src := fabricDev s, ws := ws, msg := msg, flowSeq := 0, txn := txn, keyGen := 0, nonce := 0,
      payload := b, tag := 0, alarm := alarm }

/-- Send a message. -/
def sendTxn (s : State) (dst vc ws msg txn : Nat) (body : List Byte) : State :=
  (messagePackets s dst vc ws msg txn body false).foldl sendPacket s

/-- Send a message under a fresh transaction tag. -/
def sendMsg (s : State) (dst vc ws msg : Nat) (body : List Byte) : State :=
  sendTxn { s with fab := { s.fab with nextTxn := wrapAdd 64 s.fab.nextTxn 1 } } dst vc ws msg s.fab.nextTxn body

/-- The device number of a gateway's fabric address: its low 16 bits (DEDUCED, assumption 9). -/
def gatewayDev (gw : Nat) : Nat := gw % 65536

/-- Take the first waiting message of a type from a source off the inbox, where one waits. -/
def takeInbox (s : State) (msg src : Nat) : State :=
  let rec go : List Packet → List Packet
    | [] => []
    | p :: t => if p.msg = msg ∧ p.src = src then t else p :: go t
  { s with fab := { s.fab with inbox := go s.fab.inbox } }

/-! ## Interrupts -/

/-- Send a vector's message: it covers every unsignalled event (R355). -/
def sendInterrupt (s : State) (fn v : Nat) : State :=
  let f := getFn s fn
  let x := getVec f v
  let seq := x.seq + 1
  let t := putVec s fn v
    { x with sent := wrapAdd 32 x.sent 1, unsignalled := 0, pending := false, seq := seq % 2 ^ 64 }
  sendMsg t (gatewayDev f.gateway) 7 f.ws 0x04
    ([BitVec.ofNat 8 fn, 0] ++ leBytes 2 v ++ leBytes 4 x.unsignalled ++ leBytes 8 seq)

/-- A vector whose message is due: sent, or held by MASK as PENDING (R355). -/
def interruptDue (s : State) (fn v : Nat) : State :=
  let x := getVec (getFn s fn) v
  if x.mask then putVec s fn v { x with pending := true } else sendInterrupt s fn v

/-- Whether a vector's message is due: COAL_COUNT reached (0 acts as 1), or COAL_NS after the first event
(0 sends at once). -/
def vectorDue (s : State) (x : Vec) : Bool :=
  decide (0 < x.unsignalled) &&
    (decide (max 1 x.coalCount ≤ x.unsignalled) || elapsed s x.firstAt x.coalNs)

/-- Add one event to a vector; 0xFFFF names none; a disabled vector discards it (R355) (DEDUCED, assumption 63). -/
def addEvent (s : State) (fn v : Nat) : State :=
  let x := getVec (getFn s fn) v
  if v < 256 ∧ x.enable then
    let y := { x with
      unsignalled := satAdd 16 x.unsignalled 1
      firstAt := if x.unsignalled = 0 then ns s else x.firstAt }
    let t := putVec s fn v y
    if vectorDue t y then interruptDue t fn v else t
  else s

end Sys2Proof.Machine
end

