-- ==== Sys2Proof/Machine/Guliq.lean ====
section
/-!
DEFINITION. Guliq messages (R334 to R343, R357 to R366): acceptance, the order of checks, tickets, responses
and DONE messages.
-/

namespace Sys2Proof.Machine

/-! ## Status codes (R365) -/

def stOk : Nat := 0
def stPending : Nat := 1
def stBusyPendingEnable : Nat := 2
def stDeferred : Nat := 3
def stCancelled : Nat := 4
def stBadParam : Nat := 0x10
def stNoAuth : Nat := 0x11
def stQuota : Nat := 0x12
def stVersionLimit : Nat := 0x13
def stFenced : Nat := 0x20
def stStateLost : Nat := 0x21
def stMediaExhausted : Nat := 0x22

/-! ## The catalogue -/

/-- Issuer classes (R358). -/
inductive Issuer where
  | any | own | self | ws0
  deriving DecidableEq, Repr

/-- A row of the group tables (R366): opcode, issuer class, BMC access, whether asynchronous, and the request
payload size (R361), none for DEV_ECHO. -/
structure Cmd where
  op : Nat
  cls : Issuer
  bmc : Bool
  async : Bool
  size : Option Nat
  deriving DecidableEq, Repr

/-- Every opcode of the group tables (R357). -/
def knownOpcodes : List Nat :=
  [0x101, 0x102, 0x103, 0x104, 0x105, 0x110, 0x111, 0x120, 0x121, 0x122] ++
  [0x201, 0x202, 0x203, 0x204, 0x205, 0x206, 0x207, 0x208, 0x209] ++
  [0x301, 0x302, 0x303, 0x304, 0x305, 0x306, 0x307, 0x308, 0x309, 0x340, 0x341, 0x342] ++
  [0x401, 0x402, 0x403, 0x404, 0x405, 0x406, 0x407, 0x408, 0x409] ++
  [0x501, 0x502, 0x503, 0x504, 0x505, 0x506, 0x510, 0x511, 0x512, 0x520, 0x521] ++
  [0x601, 0x602, 0x603, 0x610, 0x611, 0x612, 0x613, 0x614, 0x615] ++
  [0x701, 0x702, 0x703, 0x704, 0x705, 0x706, 0x710, 0x711, 0x712, 0x713] ++
  [0x801, 0x802, 0x803, 0x804, 0x805] ++
  [0x901, 0x902, 0x903, 0x904, 0x905, 0x910, 0x911, 0x912, 0x913, 0x914, 0x915, 0x916] ++
  [0xA01, 0xA02, 0xA03, 0xA04]

/-! ## Messages -/

/-- Who asked, and what: the issuer (256 for the management endpoint), its workspace, the request's opcode, tag
and payload, and the ticket that the command would be given. -/
structure Ctx where
  owner : Nat
  ws : Nat
  op : Nat
  tag : Nat
  data : List Byte
  ticket : TicketRef
  deriving DecidableEq, Repr

/-- What the bench core answers: a response, a new ticket with its work, or a ticket that stands already. -/
inductive Answer where
  | reply (status : Nat) (result : List Byte)
  | issue (status : Nat) (w : Work)
  | again (status : Nat) (t : TicketRef)
  deriving DecidableEq, Repr

/-- The bytes of a message. -/
def msgBytes (s : State) : MsgSrc → List Byte
  | .slot fn i => (List.range 1024).map fun b => Tab.get 0 (getFn s fn).reqSlots (i * 1024 + b)
  | .bmc bytes => bytes

/-- The issuer of a message. -/
def msgOwner : MsgSrc → Nat
  | .slot fn _ => fn
  | .bmc _ => 256

/-- A message of 32 header bytes and a payload (Guliq message header). -/
def mkMsg (op status flags tag ticket seq : Nat) (payload : List Byte) : List Byte :=
  leBytes 2 op ++ leBytes 2 status ++ leBytes 2 payload.length ++ [BitVec.ofNat 8 flags, 0] ++ leBytes 8 tag ++
    leBytes 4 ticket ++ zeros 4 ++ leBytes 8 seq ++ payload

/-- Whether a posted message is a DONE message. -/
def isDone (msg : List Byte) : Bool := bit (fld msg 6 1) 1

/-- Unread responses that count against the 64 of R335: those in slots and in the queue, DONE messages apart. -/
def unread (f : Func) : Nat :=
  (f.respSlots.filter fun p => f.ready.getLsbD p.1 && !isDone p.2).length +
    (f.respQueue.filter fun m => !isDone m).length

/-- The pause in acceptance that a firmware handover makes, at most 2 ms from the bench flip (R363, R534;
DEDUCED, assumption 10). -/
def handoverPause (s : State) : Bool :=
  match s.live.handover with
  | some h => h.phase == 3 && !elapsed s h.flippedAt 2000000
  | none => false

/-- Whether a function holds a BUSY slot that may be accepted (R335, R336, R354). -/
def fnWants (s : State) (fn : Nat) : Bool :=
  let f := getFn s fn
  f.state == 1 && !f.arrival.isEmpty && decide (unread f < 64)

/-- Whether the management endpoint can be heard: a management controller is strapped and the port is in its RUN
phase, from DISCOVER onward (R362, R379, R590). -/
def bmcOpen (s : State) : Bool :=
  bit s.boot.straps 11 && s.svc.i3cAddr.isSome &&
    (inRun s || decide (s.boot.stage = .discover) ||
      (decide (s.boot.stage = .stopped) && s.boot.stopCode == 7))

/-- The requester that the acceptance arbiter grants (R336, R362): 0 to 255 functions, 256 the endpoint. -/
def grantee (s : State) (m : MsgSrc) : Option Nat :=
  roundRobin 257 s.mbxPtr fun r =>
    if r = 256 then (match m with | .bmc _ => true | _ => false) else fnWants s r

/-- Whether the bench core accepts message `m` now: it runs and is not paused, the arbiter grants the issuer, and
the slot is the first of its function in arrival order. -/
def canAccept (s : State) (m : MsgSrc) : Bool :=
  !s.guard.halted && !handoverPause s && decide (grantee s m = some (msgOwner m)) &&
  match m with
  | .slot fn i => inRun s && decide ((getFn s fn).arrival.head? = some i) && decide (fn < 256)
  | .bmc _ => bmcOpen s

/-- Take the request: its slot's BUSY bit clears, ACCEPTED counts it and the pointer passes the winner. -/
def takeRequest (s : State) (m : MsgSrc) : State :=
  let t := { s with mbxPtr := (msgOwner m + 1) % 257 }
  match m with
  | .slot fn i =>
    let f := getFn s fn
    putFn t fn { f with busy := f.busy &&& ~~~(BitVec.ofNat 16 (2 ^ i)), arrival := f.arrival.tail,
                        accepted := wrapAdd 32 f.accepted 1 }
  | .bmc _ => t

/-! ## Tickets -/

/-- The next ticket number of an owner: from 1, wrapping to 1, skipping every number outstanding (R341). -/
def nextTicketNum (f : Func) : Nat :=
  let wrap := fun n => if n = 0 ∨ n > 0xFFFFFFFF then 1 else n
  let rec go : Nat → Nat → Nat
    | 0, n => n
    | k + 1, n => if f.tickets.any (·.1 == n) then go k (wrap (n + 1)) else n
  go (f.tickets.length + 1) (wrap f.nextTicket)

/-- ISSUED and DONE tickets of a workspace; the endpoint's count against WS0 (R342, R362). -/
def wsTickets (s : State) (ws : Nat) : Nat :=
  (s.fns.map fun (n, f) => if wsOfOwner s n = ws ∧ (n = 256 ∨ f.state ≠ 0) then f.tickets.length else 0).foldl
    (· + ·) 0

/-- ISSUED and DONE tickets of the device. -/
def allTickets (s : State) : Nat := (s.fns.map fun (_, f) => f.tickets.length).foldl (· + ·) 0

/-- The tickets quota; WS0's is the device's own limit of the field (R304, R308). -/
def ticketQuota (s : State) (ws : Nat) : Nat := if ws = 0 then 65535 else (getWs s ws).quota.tickets

/-- Whether one more ticket may be issued (R342). -/
def ticketRoom (s : State) (ws : Nat) : Bool :=
  decide (wsTickets s ws < ticketQuota s ws) && decide (allTickets s < 131072)

/-- Put a ticket in an owner's space. -/
def addTicket (s : State) (t : TicketRef) (op tag : Nat) (w : Work) : State :=
  let f := getFn s t.owner
  putFn s t.owner { f with tickets := Tab.insert f.tickets t.num ⟨false, op, tag, w⟩,
                           nextTicket := if t.num = 0xFFFFFFFF then 1 else t.num + 1 }

/-- The ticket of a reference, while it is not RETIRED. -/
def findTicket (s : State) (t : TicketRef) : Option Ticket :=
  ((getFn s t.owner).tickets.find? fun p => p.1 == t.num).map (·.2)

/-- Change the work of an ISSUED ticket. -/
def setWork (s : State) (t : TicketRef) (g : Work → Work) : State :=
  let f := getFn s t.owner
  putFn s t.owner { f with tickets := f.tickets.map fun p =>
    if p.1 = t.num then (p.1, { p.2 with work := g p.2.work }) else p }

/-! ## Posting -/

/-- The lowest response slot whose READY bit is clear (R339). -/
def freeSlot (f : Func) : Option Nat := (List.range 16).find? fun i => !f.ready.getLsbD i

/-- Patch a message's seq field. -/
def withSeq (msg : List Byte) (seq : Nat) : List Byte := msg.take 24 ++ leBytes 8 seq ++ msg.drop 32

/-- Post a message into a slot: the message whole, then READY, then the vector's event; a DONE message makes its
ticket DONE (R339, R341). -/
def postInto (s : State) (fn slot : Nat) (msg : List Byte) : State :=
  let f := getFn s fn
  let seq := (f.seq + 1)
  let m := withSeq msg seq.toNat
  let f' := { f with
    seq := seq
    ready := f.ready ||| BitVec.ofNat 16 (2 ^ slot)
    respSlots := Tab.insert f.respSlots slot m
    tickets := if isDone m then f.tickets.map fun p =>
        if p.1 = fld m 16 4 then (p.1, { p.2 with done := true }) else p
      else f.tickets }
  addEvent (putFn s fn f') fn f.mbxVector

/-- Post a message of a function, or queue it behind those that wait (R335, R339); a message of the management
endpoint goes out over MCTP with an in-band interrupt (R362, R590), and its DONE message retires its ticket
(DEDUCED, assumption 11). -/
def post (s : State) (owner : Nat) (msg : List Byte) : State :=
  let f := getFn s owner
  if owner = 256 then
    let seq := f.seq + 1
    let m := withSeq msg seq.toNat
    let t := putFn s 256 { f with
      seq := seq
      tickets := if isDone m then f.tickets.filter fun p => p.1 != fld m 16 4 else f.tickets }
    { t with svc := { t.svc with bmcOut := t.svc.bmcOut ++ [m], ibi := true } }
  else
    match f.respQueue.isEmpty, freeSlot f with
    | true, some i => postInto s owner i msg
    | _, _ => putFn s owner { f with respQueue := f.respQueue ++ [msg] }

/-- Post queued messages, in order, while slots are free (R339). -/
def drainQueue (s : State) (fn : Nat) : Nat → State
  | 0 => s
  | k + 1 =>
    let f := getFn s fn
    match f.respQueue, freeSlot f with
    | m :: t, some i => drainQueue (postInto (putFn s fn { f with respQueue := t }) fn i m) fn k
    | _, _ => s

/-- Answer a request (R341, R359): RESPONSE set, its opcode and tag echoed. -/
def respond (s : State) (owner op tag status ticket : Nat) (result : List Byte) : State :=
  post s owner (mkMsg op status 1 tag ticket 0 result)

/-- Whether the DONE message of a ticket waits for a response slot. -/
def doneQueued (s : State) (t : TicketRef) : Bool :=
  (getFn s t.owner).respQueue.any fun m => isDone m && fld m 16 4 == t.num

/-- Complete a ticket with its one DONE message, which carries the creating request's opcode and tag (R342); the
message has RESPONSE and DONE set (DEDUCED, assumption 12). A ticket that is RETIRED or never was has nothing to complete. -/
def finishTicket (s : State) (t : TicketRef) (status : Nat) (result : List Byte) : State :=
  match findTicket s t with
  | some k => if k.done || doneQueued s t then s else post s t.owner (mkMsg k.opcode status 3 k.tag t.num 0 result)
  | none => s

/-- Complete every ticket of a list. -/
def finishAll (s : State) (ts : List TicketRef) (status : Nat) (result : List Byte) : State :=
  ts.foldl (fun u t => finishTicket u t status result) s

/-! ## Serving a request -/

/-- The header check of R338. -/
def headerOk (msg : List Byte) : Bool :=
  fld msg 2 2 == 0 && decide (fld msg 4 2 ≤ 992) && fld msg 6 1 == 0 && fld msg 7 1 == 0 &&
  fld msg 16 4 == 0 && fld msg 20 4 == 0 && fld msg 24 8 == 0

/-- Whether the issuer lies in the command's class (R358, R362). SELF is checked with the workspace that the
payload names, by the command itself. -/
def issuerOk (s : State) (c : Cmd) (owner : Nat) : Bool :=
  if owner = 256 then c.bmc
  else match c.cls with
    | .ws0 => (getFn s owner).ws == 0
    | _ => true

/-- Checks 1 to 5 of R619: the status at the first that fails. -/
def preCheck (s : State) (c : Cmd) (owner : Nat) (msg : List Byte) : Option Nat :=
  let ws := wsOfOwner s owner
  if !headerOk msg then some stBadParam
  else if !issuerOk s c owner then some stNoAuth
  else if c.size.isSome && c.size != some (fld msg 4 2) then some stBadParam
  else if (getWs s ws).state == 2 && c.op != 0x203 then some stBadParam
  else if c.async && !ticketRoom s ws then some stQuota
  else none

/-- The context of a request. -/
def ctxOf (s : State) (owner : Nat) (msg : List Byte) : Ctx :=
  { owner := owner, ws := wsOfOwner s owner, op := fld msg 0 2, tag := fld msg 8 8,
    data := (msg.drop 32).take (fld msg 4 2), ticket := ⟨owner, nextTicketNum (getFn s owner)⟩ }

/-- Give the answer: a response, a new ticket, or a ticket that stands. -/
def give (c : Ctx) (a : Answer) (s : State) : State :=
  match a with
  | .reply st r => respond s c.owner c.op c.tag st 0 r
  | .issue st w => respond (addTicket s c.ticket c.op c.tag w) c.owner c.op c.tag st c.ticket.num []
  | .again st t => respond s c.owner c.op c.tag st t.num []

/-- A command runs from acceptance: checks 1 to 5 of R619 in order, then its own body. -/
def serveNow (c : Cmd) (m : MsgSrc) (body : Ctx → State → Answer × State) (s : State) : State :=
  let owner := msgOwner m
  let msg := msgBytes s m
  let t := takeRequest s m
  match preCheck t c owner msg with
  | some st => respond t owner (fld msg 0 2) (fld msg 8 8) st 0 []
  | none =>
    let x := ctxOf t owner msg
    let r := body x t
    give x r.1 r.2

/-- Whether a message is accepted now as this command. Outside RUN the endpoint answers ANY-class commands
only (R379). -/
def servable (c : Cmd) (m : MsgSrc) (s : State) : Bool :=
  canAccept s m && fld (msgBytes s m) 0 2 == c.op && (inRun s || decide (c.cls = .any))

/-- A Guliq row: the command acts when the bench core accepts the message as it (DESIGN CHOICE, assumption 7). -/
def serve (c : Cmd) (m : MsgSrc) (body : Ctx → State → Answer × State) (s : State) :
    Host.Outcome State Fault Refusal :=
  .next (when (servable c m s) (serveNow c m body) s)

/-- Work that a ticket starts with (DESIGN CHOICE, assumption 82). -/
def work (c : Ctx) (args : List Nat) : Work := ⟨c.op, c.ws, c.data, args, none⟩

/-- Work whose outcome is known when the ticket is issued. -/
def doneWork (c : Ctx) (args : List Nat) (st : Nat) (r : List Byte) : Work :=
  { work c args with result := some (st, r) }

/-- A refusal: nothing is executed. -/
def refuse (st : Nat) (s : State) : Answer × State := (.reply st [], s)

/-- The first check that fails gives the status; with none, the command runs. -/
def checks : List (Bool × Nat) → Option Nat
  | [] => none
  | (ok, st) :: t => if ok then checks t else some st

/-- A body from its own checks, in order, and its effect. -/
def checked (cs : List (Bool × Nat)) (run : Answer × State) (s : State) : Answer × State :=
  match checks cs with
  | some st => refuse st s
  | none => run

end Sys2Proof.Machine
end

