-- ==== Sys2Proof/Machine/RingOps.lean ====
section
/-!
DEFINITION. Work rings and move channels as shared operations: buffer addresses (R349), posting of completions
(R350, R351), the end of a ring (R353, R354), and the end of a move descriptor and channel (R456, R458).
-/

namespace Sys2Proof.Machine

/-! ## Buffer addresses -/

/-- The space of a buffer address (R349): 0 WINDOW, 1 HOST, 0xFE STATE. -/
def addrSpace (a : Nat) : Nat := bits a 63 56

/-- The check of a buffer over `n` bytes: HOST passes, WINDOW passes under R318 with bits 55:41 zero, and no other
space does. A buffer of no byte still needs its space (R349). -/
def bufOk (s : State) (ws a n : Nat) : Bool :=
  match addrSpace a with
  | 0 => bits a 55 41 == 0 && bufferOk s ws (bits a 40 0) n
  | 1 => decide (bits a 55 0 + n ≤ 2 ^ 56)
  | _ => false

/-- The host's bytes that a view shows (DESIGN CHOICE, assumption 6). -/
def hostBytes (gw : Nat) (h : HostView) (a n : Nat) : List Byte :=
  (List.range n).map fun i =>
    match h.cells.find? (·.1 == a + i) with
    | some c => c.2
    | none => Config.hostByte gw (a + i)

/-- The bytes at a buffer address: window memory, or the host's memory as the gateway shows it. -/
def readBuf (s : State) (fn : Nat) (h : HostView) (a n : Nat) : List Byte :=
  if addrSpace a = 0 then readBytes s.mem (bits a 40 0) n
  else hostBytes (getFn s fn).gateway h (bits a 55 0) n

/-- Send a MEM_WRITE: buffer address, then the data (Table: Message types). -/
def sendMemWrite (s : State) (dst vc ws txn addr : Nat) (data : List Byte) : State :=
  sendTxn s dst vc ws 0x10 txn (leBytes 8 addr ++ data)

/-- Write bytes at a buffer address of a function: window memory at once, host memory by a MEM_WRITE to the
function's gateway in the class that the workspace's settings name (R312, R349). -/
def writeBuf (s : State) (fn ws a : Nat) (data : List Byte) (txn : Nat) : State :=
  if data.isEmpty then s
  else if addrSpace a = 0 then { s with mem := store s.mem (bits a 40 0) data }
  else sendMemWrite s (gatewayDev (getFn s fn).gateway) (getWs s ws).wclass ws txn a data

/-! ## Completion posting -/

/-- The phase bit of completion count `c` (R350). -/
def phaseOf (c entries : Nat) : Nat := if c / entries % 2 = 0 then 1 else 0

/-- Put the phase into byte 11 of a completion entry. -/
def withPhase (e : List Byte) (ph : Nat) : List Byte := setAt e 11 (BitVec.ofNat 8 ph)

/-- A ring that is DESTROYING and has posted its last completion becomes ABSENT, and its tickets complete with the
final SQ_CI (R353); a ring that a disable winds down has no ticket (R354). -/
def settleRing (s : State) (fn r : Nat) : State :=
  let g := getRing (getFn s fn) r
  if g.state = 2 ∧ g.inFlight = 0 ∧ g.channel = none then
    finishAll (putRing s fn r absentRing) g.destroy stOk (leBytes 4 g.sqCi.toNat ++ zeros 4)
  else s

/-- Post a 64-byte completion on a ring: at its count's place with its phase, then CQ_PI, then the vector's event
unless NO_INTERRUPT is set (R350, R351, R355). The entry leaves the ring's count of entries in flight
(DEDUCED, assumption 85). -/
def postEntry (s : State) (fn r : Nat) (e : List Byte) (noInterrupt : Bool) : State :=
  let g := getRing (getFn s fn) r
  let c := g.cqPi.toNat
  let t := putRing s fn r { g with cqPi := g.cqPi + 1, inFlight := g.inFlight - 1 }
  let t := writeBuf t fn (getFn s fn).ws (g.cqAddr + c % g.cqEntries * 64)
    (withPhase e (phaseOf c g.cqEntries)) t.fab.nextTxn
  let t := { t with fab := { t.fab with nextTxn := wrapAdd 64 t.fab.nextTxn 1 } }
  let t := if noInterrupt then t else addEvent t fn g.vector
  settleRing t fn r

/-- Whether a completion position is free: entries in flight and posted but unconsumed completions together are
fewer than cq_entries (R346). -/
def cqRoom (g : Ring) : Bool :=
  decide (g.inFlight + (g.cqPi - g.cqCi).toNat < g.cqEntries)

/-- The entry at the head of an ACTIVE ring's submission queue (R345). -/
def headEntry (s : State) (g : Ring) : Option (List Byte) :=
  if g.state = 1 ∧ g.sqPi ≠ g.sqCi then
    some (readBytes s.mem (g.sqDpa + g.sqCi.toNat % g.sqEntries * g.entryBytes) g.entryBytes)
  else none

/-- Reasons of a rejection (R196). -/
def reasonNone : Nat := 0

/-! ## Move channels -/

/-- A CLOSED channel (R448). -/
def closedChannel : Channel := ⟨0, 0, 0, 0, 0, ⟨0, 0⟩, none, [], []⟩

def getChan (s : State) (c : Nat) : Channel := Tab.get closedChannel s.move.chans c

def putChan (s : State) (c : Nat) (x : Channel) : State :=
  { s with move := { s.move with chans :=
      if x = closedChannel then Tab.erase s.move.chans c else Tab.insert s.move.chans c x } }

/-- The move completion of a descriptor (Table: Move completion). -/
def moveEntry (s : State) (j : MoveJob) (status cause reason : Nat) (bad halted : Bool) : List Byte :=
  slice j.desc 24 8 ++ leBytes 2 status ++ [0x10, 0, BitVec.ofNat 8 (b2n bad + 2 * b2n halted),
    BitVec.ofNat 8 cause, BitVec.ofNat 8 reason, 0] ++ leBytes 4 j.count ++ leBytes 4 j.bytesDone ++
    leBytes 8 j.faultAddr ++ leBytes 4 j.resumed ++ zeros 12 ++ leBytes 8 (ns s - j.startedAt) ++ zeros 8

/-- Complete the descriptor that a channel runs or holds (R456). -/
def completeMove (s : State) (c : Nat) (j : MoveJob) (status cause reason : Nat) (bad halted : Bool) : State :=
  let x := getChan s c
  postEntry (putChan s c { x with job := none }) x.fn x.ring (moveEntry s j status cause reason bad halted)
    (bit (fld j.desc 21 1) 2)

/-- A CLOSING channel whose bursts have drained: a held descriptor completes with ST_CANCELLED, the ring number
becomes ABSENT, the tickets complete with SQ_CI, and the channel is CLOSED (R458). -/
def drainChannel (s : State) (c : Nat) : State :=
  let x := getChan s c
  let busy := match x.job with | some j => j.bursts.any (·.outcome == none) | none => false
  if x.state = 4 ∧ !busy then
    let sqCi := (getRing (getFn s x.fn) x.ring).sqCi
    let t := match x.job with
      | some j => completeMove s c j stCancelled 0 0 false false
      | none => s
    finishAll (putChan (putRing t x.fn x.ring absentRing) c closedChannel) x.closeTickets stOk
      (leBytes 4 sqCi.toNat ++ zeros 4)
  else s

/-- Move a channel to CLOSING: pause tickets complete with ST_CANCELLED (R458). -/
def closeChannel (s : State) (c : Nat) (tickets : List TicketRef) : State :=
  let x := getChan s c
  finishAll (putChan s c { x with state := 4, closeTickets := x.closeTickets ++ tickets, pauseTickets := [] })
    x.pauseTickets stCancelled []

end Sys2Proof.Machine
end

