-- ==== Sys2Proof/Machine/BootRec.lean ====
section
/-!
DEFINITION. The boot record and its checks (14).
-/

namespace Sys2Proof.Machine

/-! ## Checks -/

/-- One bit of a reflected CRC. -/
def crcBit (poly c : Nat) : Nat := if c % 2 = 1 then (c / 2) ^^^ poly else c / 2

/-- A reflected CRC of width `w` over bytes, started and ended with all ones. -/
def crcOf (w poly : Nat) (l : List Byte) : Nat :=
  (l.foldl (fun c b => (List.range 8).foldl (fun x _ => crcBit poly x) (c ^^^ b.toNat)) (2 ^ w - 1)) ^^^ (2 ^ w - 1)

/-- CRC-32 of IEEE 802.3 (R384). -/
def crc32 (l : List Byte) : Nat := crcOf 32 0xEDB88320 l

/-- CRC-32C. -/
def crc32c (l : List Byte) : Nat := crcOf 32 0x82F63B78 l

/-! ## Boot record -/

/-- Table: Boot record (R384), without its CRC (DEDUCED, assumption 93). -/
structure BootRec where
  sequence : Nat
  straps : Nat
  lastStop : Nat
  trial : Nat
  failed : Nat
  stacksRetired : Nat
  canesRetired : Nat
  deriving DecidableEq, Repr

/-- A copy's 64 bytes. -/
def BootRec.bytes (r : BootRec) : List Byte :=
  let b := leBytes 8 r.sequence ++ leBytes 2 r.straps ++ leBytes 1 r.lastStop ++ leBytes 1 r.trial ++
    leBytes 1 r.failed ++ zeros 3 ++ leBytes 2 r.stacksRetired ++ leBytes 1 r.canesRetired ++ zeros 41
  b ++ leBytes 4 (crc32 b)

/-- A copy read back, where its CRC is valid. -/
def BootRec.parse (l : List Byte) : Option BootRec :=
  if l.length = 64 ∧ crc32 (l.take 60) = fld l 60 4 then
    some ⟨fld l 0 8, fld l 8 2, fld l 10 1, fld l 11 1, fld l 12 1, fld l 16 2, fld l 18 1⟩
  else none

/-- A boot flash without a record (DESIGN CHOICE, assumption 1). -/
def noBootRec : BootRec := ⟨0, 0, 0, 0, 0, 0, 0⟩

/-- The copy in use, and whether it is copy 1: the valid one of higher sequence (R384). -/
def bootRec (f : BootFlash) : BootRec × Bool :=
  match BootRec.parse f.rec0, BootRec.parse f.rec1 with
  | some a, some b => if a.sequence < b.sequence then (b, true) else (a, false)
  | some a, none => (a, false)
  | none, some b => (b, true)
  | none, none => (noBootRec, true)

/-- Write the other copy, with the sequence number raised by 1 (R384). -/
def writeBootRec (f : BootFlash) (g : BootRec → BootRec) : BootFlash :=
  let (r, second) := bootRec f
  let b := { g r with sequence := r.sequence + 1 }.bytes
  if second then { f with rec0 := b } else { f with rec1 := b }

/-- Change the boot record of the device. -/
def setBootRec (s : State) (g : BootRec → BootRec) : State :=
  { s with boot := { s.boot with flash := writeBootRec s.boot.flash g } }

/-- Clear or set one bit of a field. -/
def withBit (n i : Nat) (v : Bool) : Nat := if v then n ||| 2 ^ i else if bit n i then n - 2 ^ i else n

/-- Whether a stack is retired in service or left out since an earlier one (R384, R391). -/
def stackOut (s : State) (i : Nat) : Bool :=
  bit s.mem.layout.retired i || bit (bootRec s.boot.flash).1.stacksRetired i

/-- Whether a cane engine is retired (DESIGN CHOICE, assumption 96). -/
def caneOut (s : State) (c : Nat) : Bool := bit s.fab.canesRetired c

end Sys2Proof.Machine
end

