-- ==== Sys2Proof/Machine/LinkOps.lean ====
section
/-!
DEFINITION. Port states and emission as shared operations (15): leaving UP with its packets moved (R411), darkness,
probing and training (R406 to R409), and the FAB_PORT_INFO record (R422).
-/

namespace Sys2Proof.Machine

/-- The other port of the same mesh link (R399): P and P + 16; an uplink has none. -/
def otherPort (p : Nat) : Option Nat := if p % 8 = 7 then none else some ((p + 16) % 32)

/-- The port that a packet held by this device takes now: its flow's for an own packet, the second hop for a relayed
one (R414). -/
def portNow (s : State) (p : Packet) : Option Nat :=
  if p.hop then secondHop s p.src p.dst p.vc
  else (flowPort s (findFlow s p.dst p.vc)).map (·.1)

/-- Put moved packets at the head of their queues, in their former order, on the other port of the link while it is
UP, else on the port that their route gives (R411, R427). -/
def movePackets (s : State) (from_ : Nat) (ps : List Packet) : State :=
  ps.reverse.foldl (fun t p =>
    let target := match otherPort from_ with
      | some q => if portUp t q then some q else portNow t p
      | none => portNow t p
    match target with
    | some q =>
      let x := getPort t q
      putPort t q { x with sched := joinQueue x.sched (ns t) true [p] (queueOf p).1 (queueOf p).2 }
    | none => unreachable t p.dst) s

/-- Every packet that a port still holds: those of its unacknowledged frames, then those of its queues (R411). -/
def heldPackets (x : Port) : List Packet :=
  x.unacked.flatMap (·.ends) ++ x.txEnds.map (·.2) ++ x.sched.queues.flatMap fun q => q.pkts.map (·.pkt)

/-- A change in the usability of links, for LINK_STATE (R415). -/
def noteLinks (s : State) : State :=
  { s with fab := { s.fab with linkChanged := s.fab.linkChanged.or (some (ns s)) } }

/-- Bring a port to a state and an emission level. A port that leaves UP loses its partner and gives up the packets
that it holds (R411, R425). -/
def setPort (s : State) (p st emission : Nat) : State :=
  let x := getPort s p
  let wasUp := x.state == 4
  let y := { x with
    state := st, emission := emission, since := ns s, lastChange := net s,
    partner := if wasUp && x.partner.status == 1 then { x.partner with status := 3 } else x.partner }
  if wasUp && st != 4 then
    let z := { y with localQ := [], unacked := [], txTail := [], txEnds := [], rxTail := [], sched :=
      { y.sched with queues := y.sched.queues.map fun q => { q with pkts := [] } } }
    movePackets (noteLinks (putPort s p z)) p (heldPackets x)
  else putPort s p y

/-- Finish the FAB_RETRAIN tickets that joined a port's training, with the state and lanes it ended in (R424). -/
def endRetrain (s : State) (p : Nat) : State :=
  let x := getPort s p
  finishAll (putPort s p { x with retrainTickets := [] }) x.retrainTickets stOk
    ([BitVec.ofNat 8 x.state, BitVec.ofNat 8 (activeLanes x.tx), BitVec.ofNat 8 (activeLanes x.rx)] ++ zeros 5)

/-- A feed of a cane engine gives light: permitted by LASER_FEED_EN and not lost (R404, R326 limit 3). -/
def feedLit (s : State) (c f : Nat) : Bool :=
  bit s.guard.laserFeedEn (2 * c + f) && !(s.fab.feedLost.getD (2 * c + f) false) && !bit s.fab.canesRetired c

/-- Whether a cane engine may emit: a feed lit, its connector present, the engine in service (R404, R407, R541). -/
def caneLit (s : State) (c : Nat) : Bool :=
  (feedLit s c 0 || feedLit s c 1) && s.fab.connPresent.getD c false && bit s.fab.canesAnswered c

/-- The lane map word (Table: FAB_PORT_INFO result): nibble j is lane j's wavelength, 0xF for none. -/
def laneMap (d : Direction) : Nat :=
  ((List.range 16).map fun j => (match d.lanes.getD j none with | some w => w | none => 15) * 16 ^ j).foldl (· + ·) 0

/-- The wavelength status word: two bits each. -/
def wlWord (d : Direction) : Nat :=
  ((List.range 16).map fun i => (d.wl.getD i ⟨3, 0, 0, none, false⟩).status * 4 ^ i).foldl (· + ·) 0

/-- Table: FAB_PORT_INFO result (R422) (DESIGN CHOICE, assumption 75). -/
def portInfo (s : State) (p : Nat) : List Byte :=
  let x := getPort s p
  leBytes 1 p ++ leBytes 1 x.state ++ leBytes 1 (if x.partner.status = 0 then 0xFF else x.partner.role) ++
  leBytes 1 x.partner.port ++ leBytes 2 x.partner.device ++ leBytes 1 (activeLanes x.tx) ++
  leBytes 1 (activeLanes x.rx) ++ leBytes 8 (laneMap x.tx) ++ leBytes 8 (laneMap x.rx) ++ leBytes 4 (wlWord x.tx) ++
  leBytes 4 (wlWord x.rx) ++ leBytes 8 x.fecCorrected ++ leBytes 4 x.fecUncorrectable ++ leBytes 4 x.replays ++
  leBytes 2 x.retrains ++ leBytes 2 x.remaps ++ leBytes 1 x.minLanes ++ zeros 3 ++ leBytes 8 x.lastChange

/-- Whether a port is the last usable one of its link (R494). -/
def lastOfLink (s : State) (p : Nat) : Bool :=
  portUp s p && match otherPort p with | some q => !portUp s q | none => true

end Sys2Proof.Machine
end

