-- ==== Sys2Proof/Machine/FlashBase.lean ====
section
/-!
DEFINITION. Flash groups, targets and blocks as shared operations (R461 to R482): counts, block choice, placement,
reclaim, and a target taken out of service.
-/

namespace Sys2Proof.Machine

def getGroup (s : State) (g : Nat) : FlashGroup := s.flash.groups.getD g resetGroup

def putGroup (s : State) (g : Nat) (x : FlashGroup) : State :=
  { s with flash := { s.flash with groups := setAt s.flash.groups g x } }

def getFChan (s : State) (c : Nat) : FlashChan := s.flash.chans.getD c resetChan

def putFChan (s : State) (c : Nat) (x : FlashChan) : State :=
  { s with flash := { s.flash with chans := setAt s.flash.chans c x } }

/-- Accepted targets of a group, by channel and chip enable, in block-index order (R468). -/
def groupTargets (s : State) (g : Nat) : List (Nat × Nat × Target) :=
  (List.range 4).flatMap fun i => (getFChan s (4 * g + i)).targets.map fun t => (4 * g + i, t.1, t.2)

/-- Blocks of a target. -/
def targetBlocks (t : Target) : Nat := t.probe.luns * t.probe.blocksPerLun

/-- The target that holds a block index, walking targets in order. -/
def findBlockTarget : List (Nat × Nat × Target) → Nat → Option (Nat × Nat × Target)
  | [], _ => none
  | t :: r, b => if b < targetBlocks t.2.2 then some t else findBlockTarget r (b - targetBlocks t.2.2)

/-- A block that nothing has touched. -/
def freshBlock : FBlock := ⟨0, false, 0, []⟩

def getBlock (x : FlashGroup) (b : Nat) : FBlock := Tab.get freshBlock x.fblocks b

def putBlock (x : FlashGroup) (b : Nat) (f : FBlock) : FlashGroup := { x with fblocks := Tab.insert x.fblocks b f }

/-- Whether a block is good: not marked bad, and its target in service. -/
def blockGood (s : State) (g b : Nat) : Bool :=
  !(getBlock (getGroup s g) b).bad &&
    match findBlockTarget (groupTargets s g) b with
    | some t => !t.2.2.failed
    | none => false

/-- All blocks of a group's accepted targets. -/
def allBlocks (s : State) (g : Nat) : Nat := ((groupTargets s g).map fun t => targetBlocks t.2.2).foldl (· + ·) 0

/-- Current good blocks. -/
def goodBlocks (s : State) (g : Nat) : Nat :=
  (((groupTargets s g).filter fun t => !t.2.2.failed).map fun t => targetBlocks t.2.2).foldl (· + ·) 0 -
    ((getGroup s g).fblocks.filter fun p => p.2.bad && match findBlockTarget (groupTargets s g) p.1 with
      | some t => !t.2.2.failed
      | none => false).length

/-- The free pool, reserve included: good blocks that hold no valid map unit and are not open (R472). -/
def freeBlocks (s : State) (g : Nat) : Nat :=
  let x := getGroup s g
  goodBlocks s g - (x.fblocks.filter fun p => blockGood s g p.1 &&
    (!p.2.units.isEmpty || x.openBlock == some p.1)).length

/-- The spare of R479. -/
def spareOf (s : State) (g : Nat) : Int :=
  (goodBlocks s g : Int) - (getGroup s g).userBlocks - (getGroup s g).reserve

/-- EV_FLASH_SPARE_LOW and EV_FLASH_SPARE_GONE, each the first time (R479). -/
def checkSpare (s : State) (g : Nat) : State :=
  let x := getGroup s g
  let sp := spareOf s g
  let t := if sp * 10 < x.spareAtFormat ∧ !x.lowSent then
      emit (putGroup s g { x with lowSent := true }) 0x0706 9 0xFF g 0 0 else s
  if sp ≤ 0 ∧ !x.goneSent then
    emit (putGroup t g { getGroup t g with goneSent := true }) 0x0707 9 0xFF g 0 0 else t

/-- The block of lowest erase count, then lowest index, among the free ones (R473). -/
def pickFree (s : State) (g : Nat) : Option Nat :=
  let x := getGroup s g
  let ok := fun b => blockGood s g b && (getBlock x b).units.isEmpty && x.openBlock != some b
  (List.range (allBlocks s g)).foldl (fun best b =>
    if ok b then
      match best with
      | some c => if (getBlock x b).erases < (getBlock x c).erases then some b else best
      | none => some b
    else best) none

/-- Queue an operation for the target of a block (R463). -/
def queueOp (s : State) (g b cls unit : Nat) (data : List Byte) : State :=
  match findBlockTarget (groupTargets s g) b with
  | some t => { s with flash := { s.flash with
      queue := s.flash.queue ++ [⟨cls, t.1, t.2.1, g, unit, b, data⟩]
      hubPtr := setAt s.flash.hubPtr (g / 4) ((g + 1) % 4) } }
  | none => s

/-- Take a block from the free pool as the open block: it is erased before its first program, and the erase is
counted (R470, R473). The reserve serves only those that may take it (R480, R481). -/
def openNext (s : State) (g : Nat) (reserveOk : Bool) : Option State :=
  if freeBlocks s g ≤ (if reserveOk then 0 else (getGroup s g).reserve) then none
  else
    match pickFree s g with
    | some b =>
      let x := getGroup s g
      let f := getBlock x b
      some (queueOp (putGroup s g { putBlock x b { f with erases := f.erases + 1, written := 0 } with
        openBlock := some b }) g b 3 0 [])
    | none => none

/-- The open block, with room for one more map unit. -/
def withRoom (s : State) (g : Nat) (reserveOk : Bool) : Option State :=
  let x := getGroup s g
  match x.openBlock with
  | some b =>
    if blockGood s g b && decide ((getBlock x b).written < x.unitsPerBlock) then some s else openNext s g reserveOk
  | none => openNext s g reserveOk

/-- Place a map unit in the open block: its former place becomes invalid, and a program is queued (R472). -/
def placeUnit (s : State) (g u : Nat) (data : List Byte) (gen cls : Nat) (reserveOk : Bool) : Option State :=
  match withRoom s g reserveOk with
  | none => none
  | some t =>
    let x := getGroup t g
    match x.openBlock with
    | none => none
    | some b =>
      let x1 := { x with fblocks := x.fblocks.map fun p => (p.1, { p.2 with units := p.2.units.filter (· != u) }) }
      let f := getBlock x1 b
      let x2 := putBlock x1 b { f with written := f.written + 1, units := f.units ++ [u] }
      some (queueOp (putGroup t g { x2 with units := Tab.insert x2.units u ⟨data, gen, false, b, false⟩ }) g b cls u data)

/-- Copy the valid units of a block elsewhere, as background copies; a lost unit has nothing to copy. -/
def emptyBlock (s : State) (g b : Nat) : State :=
  (getBlock (getGroup s g) b).units.foldl (fun t u =>
    match (getGroup t g).units.find? (·.1 == u) with
    | some (_, m) => (placeUnit t g u m.data m.gen 4 true).getD t
    | none => t) s

/-- The block that reclaim picks: fewest valid units, then lowest erase count, then lowest index (R472). -/
def victim (s : State) (g : Nat) : Option Nat :=
  let x := getGroup s g
  let better := fun (a c : Nat × FBlock) =>
    decide (a.2.units.length < c.2.units.length) ||
      (a.2.units.length == c.2.units.length && decide (a.2.erases < c.2.erases))
  ((x.fblocks.filter fun p => blockGood s g p.1 && x.openBlock != some p.1 && !p.2.units.isEmpty &&
      decide (p.2.units.length < x.unitsPerBlock)).foldl (fun best p =>
    match best with
    | some c => if better p c then some p else best
    | none => some p) none).map (·.1)

/-- One round of reclaim. -/
def reclaimRound (s : State) (g : Nat) : State :=
  match victim s g with
  | some b => emptyBlock s g b
  | none => s

/-- Reclaim rounds until a block outside the reserve is free, at most `n` (R472: a write waits for reclaim)
(DEDUCED, assumption 92). -/
def reclaimFor (s : State) (g : Nat) : Nat → State
  | 0 => s
  | n + 1 => if (getGroup s g).reserve < freeBlocks s g then s else reclaimFor (reclaimRound s g) g n

/-- Write a map unit: durable once in the write buffer (R467). A write that can obtain no block outside the reserve,
even after reclaim, makes the group READ_ONLY and is rejected (R480). -/
def writeUnit (s : State) (g u : Nat) (data : List Byte) (gen : Nat) (reserveOk : Bool) : Bool × State :=
  let x := getGroup s g
  if x.state = 3 ∨ (x.state = 4 ∧ reserveOk) then
    let t := match withRoom s g reserveOk with
      | some _ => s
      | none => reclaimFor s g x.fblocks.length
    match placeUnit t g u data gen 2 reserveOk with
    | some v =>
      let waits := v.flash.buffered.any fun b => b.1 == g && b.2.1 == u
      let old := (x.units.find? (·.1 == u)).map (·.2)
      (true, { v with flash := { v.flash with
        buffered := if waits then v.flash.buffered else v.flash.buffered ++ [(g, u, old)] } })
    | none => (false, emit (putGroup t g { getGroup t g with state := 4, readOnly := true }) 0x0708 9 0xFF g 0 0)
  else (false, s)

/-- A map unit becomes lost: reads give the lost-data indication until it is rewritten whole (R476). -/
def loseUnit (s : State) (g u : Nat) : State :=
  let x := getGroup s g
  emit (putGroup s g { x with
    units := x.units.map (fun p => if p.1 = u then (p.1, { p.2 with lost := true }) else p)
    uncorrectable := satAdd 32 x.uncorrectable 1 })
    0x0704 9 0xFF (g * 2 ^ 59 + u * 2 ^ 16) 0 0

/-- Retire a block: its valid units move first, then it is marked bad and recorded (R475). -/
def retireBlock (s : State) (g b : Nat) : State :=
  let t := emptyBlock s g b
  let x := getGroup t g
  let y := { putBlock x b { getBlock x b with bad := true, units := [] } with
    retired := satAdd 32 x.retired 1
    openBlock := if x.openBlock = some b then none else x.openBlock }
  checkSpare (emit (putGroup t g y) 0x0703 9 0xFF g b 0) g

/-- Take a target out of service: all its blocks retire and its valid units become lost (R477) (DEDUCED, assumption 91). -/
def takeOutTarget (s : State) (c tg : Nat) : State :=
  let g := c / 4
  let ch := getFChan s c
  match ch.targets.find? (·.1 == tg) with
  | none => s
  | some (_, x) =>
    if x.failed then s
    else
      let gone := (getGroup s g).units.filter fun p => !p.2.lost &&
        match findBlockTarget (groupTargets s g) p.2.block with
        | some t => t.1 == c && t.2.1 == tg
        | none => false
      let bad := ((getGroup s g).fblocks.filter fun p => p.2.bad &&
        match findBlockTarget (groupTargets s g) p.1 with
        | some t => t.1 == c && t.2.1 == tg
        | none => false).length
      let t := putFChan s c { ch with targets := ch.targets.map fun q =>
        if q.1 = tg then (q.1, { q.2 with failed := true }) else q }
      let t := gone.foldl (fun v p => loseUnit v g p.1) t
      let y := getGroup t g
      let t := putGroup t g { y with retired := satAdd 32 y.retired (targetBlocks x - bad) }
      checkSpare (emit t 0x0705 9 (g * 8 + tg) c tg 0) g

end Sys2Proof.Machine
end

