-- ==== Sys2Proof/Machine/Scores.lean ====
section
/-!
DEFINITION. The lehr scheduler's admission (R509 to R512) and component scores with their actions (R492 to R494),
as shared operations.
-/

namespace Sys2Proof.Machine

/-! ## Lehr admission -/

/-- Same scope (R510). -/
def sameScope (a b : Activity) : Bool :=
  a.scopeKind == b.scopeKind && a.objType == b.objType && a.unit == b.unit && a.object == b.object

/-- The cell of Table: Conflict table for two activities, in either order. -/
def conflictCell (a b : Activity) : Bool :=
  match a.code, b.code with
  | 1, 1 => sameScope a b
  | 2, 2 => sameScope a b
  | 3, 3 => sameScope a b
  | 3, 4 => sameScope a b
  | 4, 4 => sameScope a b
  | 1, 7 => a.scopeKind == 1 && a.unit == b.unit
  | 2, 8 => a.unit == b.unit
  | 3, 7 => true
  | 4, 7 => true
  | 5, 5 => a.unit == b.unit || a.unit == (b.unit + 2) % 4
  | 5, 6 => true
  | 6, 6 => true
  | 6, 7 => true
  | 7, 7 => true
  | _, _ => false

/-- Two activities conflict (R510: the table is symmetric). -/
def conflicts (a b : Activity) : Bool := conflictCell a b || conflictCell b a

/-- Whether a start conflicts with anything running or queued ahead (R511). -/
def mustWait (s : State) (a : Activity) (ahead : List Activity) : Bool :=
  s.rack.running.any (conflicts a) || ahead.any (conflicts a)

/-- Room in the queue: 256 starts, of which 64 are kept for the device's own (R511). -/
def queueRoom (s : State) (command : Bool) : Bool :=
  if command then decide ((s.rack.queued.filter (·.command)).length < 192) && decide (s.rack.queued.length < 256)
  else decide (s.rack.queued.length < 256)

/-- A start as it is submitted, with the next activity ID. -/
def newActivity (s : State) (code : Nat) (command : Bool) (scopeKind objType unit object : Nat)
    (t : Option TicketRef) : Activity :=
  ⟨s.rack.nextActivity, code, command, scopeKind, objType, unit, object, 0, net s, ns s, t⟩

/-- Submit a start: admitted at once where nothing conflicts, else queued (R511). A start of the device's own that
finds the queue full is not submitted and is made again at its next occasion (DEDUCED, assumption 14). -/
def submit (s : State) (a : Activity) : State :=
  let t := { s with rack := { s.rack with nextActivity := s.rack.nextActivity + 1 } }
  if !mustWait s a s.rack.queued then
    { t with rack := { t.rack with running := t.rack.running ++ [a] } }
  else if queueRoom s a.command then { t with rack := { t.rack with queued := t.rack.queued ++ [a] } }
  else s

/-- Whether a submitted start is deferred. -/
def deferred (s : State) (a : Activity) : Bool := mustWait s a s.rack.queued

/-- Whether an activity of a code and scope runs. -/
def runningAct (s : State) (p : Activity → Bool) : Option Activity := s.rack.running.find? p

/-- Drop an activity, running or queued. -/
def dropActivity (s : State) (ident : Nat) : State :=
  { s with rack := { s.rack with
      running := s.rack.running.filter (·.ident != ident)
      queued := s.rack.queued.filter (·.ident != ident) } }

/-! ## Scores -/

/-- Key of a component in the score table. -/
def scoreKey (kind idx : Nat) : Nat := kind * 2 ^ 20 + idx

/-- A score at reset (R494). -/
def zeroScore : Score := ⟨0, 0, 0, 0, 0, false, false, 0⟩

def getScore (s : State) (kind idx : Nat) : Score := Tab.get zeroScore s.rack.scores (scoreKey kind idx)

def putScore (s : State) (kind idx : Nat) (x : Score) : State :=
  { s with rack := { s.rack with scores := Tab.insert s.rack.scores (scoreKey kind idx) x } }

/-- Whether a component is retired for its score. -/
def scoreRetired (s : State) (kind idx : Nat) : Bool := (getScore s kind idx).state == 3

/-- Components of a kind that are retired. -/
def retiredCount (s : State) (kind : Nat) : Nat :=
  (s.rack.scores.filter fun p => p.1 / 2 ^ 20 == kind && p.2.state == 3).length

/-- Stacks present, in the interleave's count of usable ones, that are not retired. -/
def stacksLeft (s : State) : Nat :=
  ((List.range 16).filter fun i => bit (stackPresentMask s) i && !stackOut s i &&
    !s.live.stackRetires.any fun r => r.unit == i).length
where
  /-- STACK_PRESENT (R58). -/
  stackPresentMask (s : State) : Nat := if s.fuse.is6412 then 0x0FFF else 0xFFFF

/-- The floors of R494, before one more component of a kind is taken. -/
def floorOk (s : State) (kind idx : Nat) : Bool :=
  match kind with
  | 2 => decide (8 < stacksLeft s)
  | 3 => decide (retiredCount s 3 < 128 - 112)
  | 4 => decide (retiredCount s 4 < 512 - 480)
  | 5 => decide (retiredCount s 5 < 64 - 60)
  | 7 => !lastOfLink s idx
  | 8 => decide (3 < ((List.range 4).filter fun c => bit s.fab.canesAnswered c && !caneOut s c &&
      !s.live.caneRetires.any fun r => r.unit == c).length)
  | 9 => decide (1 < (s.flash.groups.filter (·.state == 3)).length) || decide (1 < ((groupTargets s (idx / 32)).filter
      fun t => !t.2.2.failed).length)
  | _ => true

/-- Engines that a program may be placed on again: the lowest not retired and not yet in the list (R95). -/
def replaceEngine (s : State) (gone : Nat) (l : List Nat) : List Nat :=
  if l.contains gone then
    match (List.range 128).find? fun e => e != gone && !l.contains e && !scoreRetired s 3 e with
    | some e => l.map fun x => if x = gone then e else x
    | none => l.filter (· != gone)
  else l

/-- Retire a gaffer engine: every page RETIRED, its queue to the lowest engine in service, residency sets chosen
again (Table: Action at the act threshold). -/
def retireGaffer (s : State) (e : Nat) : State :=
  let g := Tab.get resetGaffer s.hub.gaffers e
  let dst := ((List.range 128).find? fun i => i != e && !scoreRetired s 3 i).getD e
  let h := Tab.get resetGaffer s.hub.gaffers dst
  { s with hub := { s.hub with
      gaffers := Tab.insert (Tab.insert s.hub.gaffers e { g with pages := List.replicate 32 5, queue := [] }) dst
        { h with queue := h.queue ++ g.queue }
      programs := s.hub.programs.map fun p => (p.1, { p.2 with engines := replaceEngine s e p.2.engines }) } }

/-- Begin retiring a stack (R493, R538): a STACK_RETIRE activity. -/
def beginStackRetire (s : State) (stk : Nat) (t : Option TicketRef) : State :=
  let u := submit s (newActivity s 7 t.isSome 1 0 stk 0 t)
  { u with live := { u.live with stackRetires := u.live.stackRetires ++ [⟨t, stk, s.rack.nextActivity⟩] } }

/-- Begin retiring a cane engine (R493, R541): a RECAL_OPTICS activity. -/
def beginCaneRetire (s : State) (c : Nat) (t : Option TicketRef) : State :=
  let u := submit s (newActivity s 5 t.isSome 3 0 c 0 t)
  { u with live := { u.live with caneRetires := u.live.caneRetires ++ [⟨t, c, s.rack.nextActivity⟩] } }

/-- Hold a wavelength FAILED until FAB_RETRAIN names it (R403). -/
def holdWavelength (s : State) (idx : Nat) : State :=
  let p := idx / 256
  let i := idx % 16
  let x := getPort s p
  let f := fun d : Direction => { d with
    wl := modAt d.wl i fun w => { w with status := 2, failedRetries := 17 }
    lanes := d.lanes.map fun l => if l = some i then none else l }
  putPort s p (if idx / 16 % 16 = 0 then { x with tx := f x.tx } else { x with rx := f x.rx })

/-- Add points to a component, with no event and no action. -/
def addPoints (s : State) (kind idx pts code : Nat) : State :=
  let x := getScore s kind idx
  let v := satAdd 32 x.score pts
  putScore s kind idx { x with
    score := v, peak := max x.peak v, events := satAdd 32 x.events 1, lastEvent := code, lastTime := net s }

/-- EV_COMPONENT_WATCH when a score first reaches the watch threshold (R493). -/
def checkWatch (s : State) (kind idx : Nat) : State :=
  let x := getScore s kind idx
  let w := s.rack.watch.getD kind 256
  if w ≤ x.score ∧ !x.watchSent then
    emitFull (putScore s kind idx { x with watchSent := true, state := max x.state 1 })
      0x0801 0 0 kind idx x.score w 0
  else s

/-- Score a component (R492, R493): points, the watch event, and at the act threshold the action, where AUTO and the
floors allow it, or advice. `fuel` bounds actions that score others in turn. -/
def scoreFuel : Nat → State → (kind idx pts code : Nat) → State
  | 0, s, kind, idx, pts, code => addPoints s kind idx pts code
  | n + 1, s, kind, idx, pts, code =>
    let t := checkWatch (addPoints s kind idx pts code) kind idx
    let x := getScore t kind idx
    let a := t.rack.act.getD kind 1024
    if a ≤ x.score ∧ !x.actSent then
      if t.rack.auto_.getD kind false ∧ floorOk t kind idx then
        let u := putScore t kind idx { x with actSent := true, state := 3 }
        let v := match kind with
          | 1 => submit u (newActivity u 4 false 1 0 (idx / 4096) (idx + 1) none)
          | 2 => beginStackRetire u idx none
          | 3 => retireGaffer u idx
          | 6 => holdWavelength u idx
          | 7 => setPort u idx 0 0
          | 8 => beginCaneRetire u idx none
          | 9 =>
            scoreFuel n (scoreFuel n (takeOutTarget u (idx / 8) (idx % 8)) 9 idx 4096 0x0705) 10 (idx / 32) 64 0x0705
          | _ => u
        emitFull v 0x0803 0 0 kind idx x.score a 0
      else
        emitFull (putScore t kind idx { x with actSent := true, state := max x.state 2 })
          0x0802 0 0 kind idx x.score a 0
    else t

/-- Score a component. -/
def score (s : State) (kind idx pts code : Nat) : State := scoreFuel 3 s kind idx pts code

/-- Index of a BANK component (R492). -/
def bankIndex (ma : Nat) : Nat := maStack ma * 4096 + maDie ma * 256 + maBank ma

end Sys2Proof.Machine
end

