-- ==== Sys2Proof/Machine/FlashOps.lean ====
section
/-!
DEFINITION. Streams, journals and stripes as shared operations (R464 to R467, R483 to R488), with tenant data
encrypted before it reaches the hub (R320).
-/

namespace Sys2Proof.Machine

/-- User capacity of a group in map units (R479). -/
def userUnits (x : FlashGroup) : Nat := x.userBlocks * x.unitsPerBlock

/-- Map units of a group allocated to streams. -/
def allocatedUnits (x : FlashGroup) : Nat := (x.streams.map fun st => st.units.length).foldl (· + ·) 0

/-- Map units that a workspace holds, by the streams that count against flash_mib (R465). -/
def wsUnits (s : State) (ws : Nat) : Nat :=
  (s.flash.groups.map fun x => ((x.streams.filter fun st => decide (3 ≤ st.kind) && st.ws == ws).map
    fun st => st.units.length).foldl (· + ·) 0).foldl (· + ·) 0

/-- Whether `n` more map units keep a workspace within flash_mib; WS0's is the device's own limit. -/
def flashQuotaOk (s : State) (ws n : Nat) : Bool :=
  ws == 0 || decide (wsUnits s ws + n ≤ (getWs s ws).quota.flashMib * 16)

/-- Whether a group may take a new stream: ONLINE, not leaving, not held by its score (R465, R493, R542). -/
def takesStreams (s : State) (g : Nat) : Bool :=
  let x := getGroup s g
  x.state == 3 && x.offline.isNone && !scoreRetired s 10 g

/-- The ONLINE group with the most free user map units, ties to the lowest (R465). -/
def streamGroup (s : State) : Option Nat :=
  let free := fun g => userUnits (getGroup s g) - allocatedUnits (getGroup s g)
  ((List.range 8).filter (takesStreams s)).foldl (fun b g =>
    match b with
    | some c => if free c < free g then some g else b
    | none => some g) none

/-- Create a stream (R465). -/
def createStream (s : State) (kind ws owner gid : Nat) : Option (Nat × Nat × State) :=
  match streamGroup s with
  | some g =>
    let x := getGroup s g
    let id := s.flash.nextStream
    some (g, id, putGroup { s with flash := { s.flash with nextStream := id + 1 } } g
      { x with streams := x.streams ++ [⟨id, kind, ws, owner, gid, [], 0⟩] })
  | none => none

/-- The group and stream of a kind that an owner has. -/
def findStream (s : State) (kind ws owner : Nat) : Option (Nat × Stream) :=
  ((List.range 8).filterMap fun g =>
    ((getGroup s g).streams.find? fun st => st.kind == kind && st.ws == ws && st.owner == owner).map
      fun st => (g, st)).head?

/-- Replace a stream of a group. -/
def putStream (s : State) (g : Nat) (st : Stream) : State :=
  let x := getGroup s g
  putGroup s g { x with streams := x.streams.map fun r => if r.ident = st.ident then st else r }

/-- Delete the streams of an owner, freeing their map units. -/
def deleteStreams (s : State) (p : Stream → Bool) : State :=
  { s with flash := { s.flash with groups := s.flash.groups.map fun x =>
      let gone := (x.streams.filter p).flatMap (·.units)
      { x with
        streams := x.streams.filter fun st => !p st
        units := x.units.filter fun u => !gone.contains u.1
        fblocks := x.fblocks.map fun b => (b.1, { b.2 with units := b.2.units.filter fun u => !gone.contains u }) } } }

/-- The lowest map unit of a group that no stream holds. -/
def freeUnit (x : FlashGroup) : Option Nat :=
  let used := x.streams.flatMap (·.units)
  if allocatedUnits x < userUnits x then (List.range (used.length + 1)).find? fun u => !used.contains u else none

/-- The newest flash key of a workspace (R322). -/
def flashKey (s : State) (ws : Nat) : Option Key :=
  ((s.guard.keys.find? (·.1 == ws)).bind fun k => k.2.flash.head?)

/-- The key of a generation. -/
def flashKeyGen (s : State) (ws gen : Nat) : Option Key :=
  (s.guard.keys.find? (·.1 == ws)).bind fun k => k.2.flash.find? (·.gen == gen)

/-- The XTS tweak of a data unit (R320): logical address / 4,096 below, the workspace above. -/
def tweak (ws addr : Nat) : Nat := addr / 4096 + ws * 2 ^ 64

/-- The flash logical byte address of an offset in a map unit (R464). -/
def flashAddr (g u off : Nat) : Nat := g * 2 ^ 59 + u * 2 ^ 16 + off

/-- Encrypt data in units of 4,096 bytes from a logical address on, the last zero-padded (R320). -/
def encryptAt (key : List Byte) (ws addr : Nat) : Nat → List Byte → List Byte
  | 0, _ => []
  | n + 1, l =>
    if l.isEmpty then []
    else Config.encrypt key (tweak ws addr) (l.take 4096 ++ zeros (4096 - (l.take 4096).length)) ++
      encryptAt key ws (addr + 4096) n (l.drop 4096)

/-- Decrypt data units from a logical address on. -/
def decryptAt (key : List Byte) (ws addr : Nat) : Nat → List Byte → List Byte
  | 0, _ => []
  | n + 1, l =>
    if l.isEmpty then [] else Config.decrypt key (tweak ws addr) (l.take 4096) ++
      decryptAt key ws (addr + 4096) n (l.drop 4096)

/-- Append one piece of at most a map unit to a stream: into its last unit while that has room, else into a new one
(R465, R467; each write starts at a data unit; DESIGN CHOICE, assumption 15). The status of the write, and the logical address. -/
def appendPiece (s : State) (g : Nat) (st : Stream) (data : List Byte) : Nat × Nat × State :=
  let x := getGroup s g
  let ws := st.ws
  match flashKey s ws with
  | none => (stNoAuth, 0, s)
  | some k =>
    let last := st.units.getLast?
    let have_ := match last with
      | some u => (match x.units.find? (·.1 == u) with | some p => p.2.data.length | none => 65536)
      | none => 65536
    let need := cdiv data.length 4096 * 4096
    if have_ + need ≤ 65536 ∧ st.striped < st.units.length then
      let u := last.getD 0
      let old := match x.units.find? (·.1 == u) with | some p => p.2.data | none => []
      let r := writeUnit s g u (old ++ encryptAt k.bytes ws (flashAddr g u have_) 16 data) k.gen false
      (if r.1 then stOk else stMediaExhausted, flashAddr g u have_, r.2)
    else if !flashQuotaOk s ws 1 then (stQuota, 0, s)
    else
      match freeUnit x with
      | none => (stQuota, 0, s)
      | some u =>
        let t := putStream s g { st with units := st.units ++ [u] }
        let r := writeUnit t g u (encryptAt k.bytes ws (flashAddr g u 0) 16 data) k.gen false
        if r.1 then (stOk, flashAddr g u 0, r.2)
        else (stMediaExhausted, 0, putStream r.2 g st)

/-- Write a journal or store entry of an owner: its stream is created where it has none; the entry is cut into map
units. -/
def streamWrite (s : State) (kind ws owner gid : Nat) (data : List Byte) : Nat × Nat × State :=
  let found := match findStream s kind ws owner with
    | some (g, st) => some (g, st.ident, s)
    | none => createStream s kind ws owner gid
  match found with
  | none => (if s.flash.groups.any (·.state == 4) then stMediaExhausted else stQuota, 0, s)
  | some (g, id, t) =>
    let rec go : Nat → Nat → State → List Byte → Nat × Nat × State
      | 0, first, u, _ => (stOk, first, u)
      | n + 1, first, u, l =>
        if l.isEmpty then (stOk, first, u)
        else
          match (getGroup u g).streams.find? (·.ident == id) with
          | none => (stQuota, first, u)
          | some st =>
            let r := appendPiece u g st (l.take 65536)
            if r.1 = stOk then go n (if first = 0 then r.2.1 else first) r.2.2 (l.drop 65536)
            else (r.1, 0, r.2.2)
    go (data.length / 65536 + 1) 0 t data

/-- A map unit of a group: its stored ciphertext, where it is readable (R469, R476) (DEDUCED, assumption 60). -/
def readUnit (s : State) (g u : Nat) : Option MapUnit :=
  let x := getGroup s g
  if x.state = 3 ∨ x.state = 4 then
    (x.units.find? (·.1 == u)).bind fun p => if p.2.lost then none else some p.2
  else none

/-! ## Stripes -/

/-- Multiply by x in GF(2^8) with the polynomial 0x11D (R483). -/
def gfDouble (a : Nat) : Nat := if a < 128 then 2 * a else (2 * a) ^^^ 0x11D

/-- Product in GF(2^8). -/
def gfMul (a b : Nat) : Nat :=
  ((List.range 8).foldl (fun (acc : Nat × Nat) i =>
    (if bit b i then acc.1 ^^^ acc.2 else acc.1, gfDouble acc.2)) (0, a)).1

/-- Power of the generator 2. -/
def gfPow2 (i : Nat) : Nat := (List.range i).foldl (fun a _ => gfDouble a) 1

/-- A unit padded to 64 KiB. -/
def unit64k (l : List Byte) : List Byte := slice l 0 65536

/-- The P and Q units of eight data units (R483). -/
def parityUnits (d : List (List Byte)) : List Byte × List Byte :=
  let col := fun b => d.map fun u => (u.getD b 0).toNat
  ((List.range 65536).map fun b => BitVec.ofNat 8 ((col b).foldl (· ^^^ ·) 0),
   (List.range 65536).map fun b => BitVec.ofNat 8
     ((col b).zipIdx.foldl (fun a v => a ^^^ gfMul (gfPow2 v.2) v.1) 0))

/-- The rank of a device for a stripe set (R484). -/
def stripeRank (setId d : Nat) : Nat :=
  ((setId ^^^ (d * 0xC2B2AE3D27D4EB4F)) * 0x9E3779B97F4A7C15) % 2 ^ 64

/-- Insert a device by rank, ties to the lower number. -/
def rankInsert (setId d : Nat) : List Nat → List Nat
  | [] => [d]
  | e :: t =>
    if stripeRank setId d < stripeRank setId e ∨ (stripeRank setId d = stripeRank setId e ∧ d < e)
    then d :: e :: t else e :: rankInsert setId d t

/-- The devices of a stripe domain in rank order. -/
def rankedDomain (setId : Nat) (domain : List Nat) : List Nat := domain.foldl (fun l d => rankInsert setId d l) []

/-- Whether this device itself may hold a stripe unit of a workspace: it holds the lease, has a writable group and is
within quota (R484). Other devices of the domain are taken as eligible until they report otherwise (R486). -/
def selfEligible (s : State) (ws : Nat) (leased : Bool) : Bool :=
  leased && s.flash.groups.any (·.state == 3) && flashQuotaOk s ws 1

end Sys2Proof.Machine
end

