-- ==== Sys2Proof/Machine/Flash.lean ====
section
/-!
DEFINITION. Flash rows (18, with the carriers of 21): probing, mounting, operations, reclaim, wear, patrol, and the
flash commands.
-/

namespace Sys2Proof.Machine

/-! ## Probing and mounting -/

/-- Bytes of a target. -/
def targetBytes (p : TargetProbe) : Nat := p.luns * p.blocksPerLun * p.pagesPerBlock * p.pageBytes

/-- Capacity accepted on the device so far (R392). -/
def acceptedBytes (s : State) : Nat :=
  (s.flash.chans.map fun c => (c.targets.map fun t => targetBytes t.2.probe).foldl (· + ·) 0).foldl (· + ·) 0

/-- Same geometry (R392). -/
def sameGeometry (a b : TargetProbe) : Bool :=
  a.pageBytes == b.pageBytes && a.pagesPerBlock == b.pagesPerBlock && a.blocksPerLun == b.blocksPerLun &&
    a.luns == b.luns

/-- Probe one chip enable: accepted, or rejected with EV_FLASH_TARGET_REJECTED; a target beyond 256 TiB is not used
either (R392). -/
def probeOne (c : Nat) (s : State) (ce : Nat × Option TargetProbe) : State :=
  match ce.2 with
  | none => s
  | some p =>
    let ch := getFChan s c
    let fits := match ch.targets with | (_, t) :: _ => sameGeometry t.probe p | [] => true
    if p.onfi && p.pageOk && p.revOk && p.lpOk && fits then
      if acceptedBytes s + targetBytes p ≤ 2 ^ 48 then
        putFChan s c { ch with targets := ch.targets ++ [(ce.1, ⟨p, false, 0, 0⟩)] }
      else s
    else emit (putFChan s c { ch with rejected := ch.rejected ||| 2 ^ ce.1 }) 0x0701 9 (c / 4 * 8 + ce.1) c ce.1 0

/-- Probe a channel: chip enables in ascending order, then the highest rate that all accepted targets support. -/
def probeChannel (s : State) (c : Nat) (probes : List (Option TargetProbe)) : State :=
  let t := ((probes.take 8).zipIdx.map fun p => (p.2, p.1)).foldl (probeOne c)
    (putFChan s c { getFChan s c with targets := [], rejected := 0 })
  let ch := getFChan t c
  let rate := (ch.targets.map fun q => q.2.probe.maxRate).foldl min (if ch.targets.isEmpty then 0 else 6)
  putFChan t c { ch with rate := rate }

/-- A group with an accepted target begins to mount; without one it is ABSENT (R469). -/
def startMount (s : State) (g : Nat) : State :=
  putGroup s g { getGroup s g with state := if (groupTargets s g).isEmpty then 0 else 1 }

/-- Whether a channel may be probed: a group not yet in service, in DISCOVER, or one that a command brings ONLINE. -/
def mayProbe (s : State) (c : Nat) : Bool :=
  let x := getGroup s (c / 4)
  (decide (s.boot.stage = .discover) && decide (x.state ≤ 1)) || (inRun s && x.state == 1 && !x.online.isEmpty)

def doProbe (chan : Nat) (probes : List (Option TargetProbe)) (s : State) : State :=
  let t := probeChannel s chan probes
  let x := getGroup t (chan / 4)
  let u := putGroup t (chan / 4) { x with present := true }
  if x.online.isEmpty then startMount u (chan / 4) else u

/-- FLASH_TARGET_PROBE (R392). -/
def execFlashTargetProbe (chan : Nat) (probes : List (Option TargetProbe)) (s : State) :
    Host.Outcome State Fault Refusal :=
  guarded "FLASH_TARGET_PROBE" (decide (chan < 32)) (when (mayProbe s chan) (doProbe chan probes) s)

/-- Map units of a block, from the geometry of the group's first target. -/
def unitsOfBlock (s : State) (g : Nat) : Nat :=
  match groupTargets s g with
  | t :: _ => t.2.2.probe.pageBytes * t.2.2.probe.pagesPerBlock / 65536
  | [] => 0

/-- Format a group (R470, R479): factory marks become bad blocks, reserve and user capacity are fixed, an empty map
and its MAP_JOURNAL stream stand, and EV_FLASH_FORMATTED is emitted. -/
def formatGroup (s : State) (g : Nat) (marks : List Nat) : State :=
  let x := getGroup s g
  let n := allBlocks s g
  let bad := marks.filter (· < n)
  let good := n - bad.length
  let id := s.flash.nextStream
  let y := { resetGroup with
    state := 3, present := x.present, presentAt := x.presentAt, blocks := n, unitsPerBlock := unitsOfBlock s g,
    goodAtFormat := good, reserve := cdiv good 200, userBlocks := 15 * good / 16,
    spareAtFormat := good - 15 * good / 16 - cdiv good 200, serial := s.fuse.serial, online := x.online,
    fblocks := bad.foldl (fun t b => Tab.insert t b { freshBlock with bad := true }) [],
    streams := [⟨id, 1, 0, g, 0, [], 0⟩] }
  emit (putGroup { s with flash := { s.flash with nextStream := id + 1 } } g y) 0x0702 9 0xFF g 0 0

/-- The event archive: mounted with the group that holds its stream, or created at the first mount, 1 GiB (R465). -/
def mountArchive (s : State) (g : Nat) : State :=
  match archiveGroupOf s with
  | some a => if a = g then { s with evr := { s.evr with archMounted := true } } else s
  | none =>
    let x := getGroup s g
    let used := x.streams.flatMap (·.units)
    let units := ((List.range (used.length + 16384)).filter fun u => !used.contains u && decide (u < userUnits x)).take 16384
    let id := s.flash.nextStream
    let t := putGroup { s with flash := { s.flash with nextStream := id + 1 } } g
      { x with streams := x.streams ++ [⟨id, 2, 0, 0, 0, units, 0⟩] }
    { t with evr := { t.evr with archMounted := true } }
where
  /-- The group of the EVENT_ARCHIVE stream. -/
  archiveGroupOf (s : State) : Option Nat :=
    (List.range 8).find? fun g => (getGroup s g).streams.any fun st => st.kind == 2

/-- What the last flush left in the map journal is reported at the mount (R576). -/
def reportFlush (s : State) (g : Nat) : State :=
  let x := getGroup s g
  let t := match x.flushDone with
    | some (d, e, v) => emit s 0x0902 10 0 d e v
    | none => emit s 0x0903 10 0 g 0 0
  putGroup t g { x with flushDone := none }

/-- The group as a root describes it comes into service, READ_ONLY while that is latched (R469, R482). -/
def adoptRoot (s : State) (g : Nat) (y : FlashGroup) (fromOffline : Bool) : State :=
  let x := getGroup s g
  let z := { y with
    present := x.present, presentAt := x.presentAt, online := x.online, offline := none, openBlock := none,
    readOnly := y.readOnly && !fromOffline, state := if y.readOnly && !fromOffline then 4 else 3 }
  let t := putGroup s g z
  if fromOffline then t else reportFlush t g

/-- Mount a group: adopt its root, format it, or fail (R469, R470). -/
def mountGroup (g : Nat) (src : MountSource) (s : State) : State :=
  let x := getGroup s g
  let fromOffline := !x.online.isEmpty
  let badOf := fun y : FlashGroup => (y.fblocks.filter (·.2.bad)).map (·.1)
  let t :=
    if (groupTargets s g).isEmpty then putGroup s g { x with state := 0 }
    else match src with
      | .asLeft =>
        if x.userBlocks ≠ 0 ∧ x.serial = s.fuse.serial then adoptRoot s g x fromOffline
        else formatGroup s g (badOf x)
      | .blank marks => formatGroup s g marks
      | .found r =>
        if r.serial ≠ s.fuse.serial then formatGroup s g (badOf r.group)
        else if !r.complete then putGroup s g { x with state := 6 }
        else adoptRoot s g r.group fromOffline
  let st := (getGroup t g).state
  let t := if st = 3 ∨ st = 4 then mountArchive t g else t
  finishAll (putGroup t g { getGroup t g with online := [] }) x.online stOk ([BitVec.ofNat 8 st] ++ zeros 7)

/-- GROUP_MOUNT (R469). -/
def execGroupMount (group : Nat) (src : MountSource) (s : State) : Host.Outcome State Fault Refusal :=
  guarded "GROUP_MOUNT" (decide (group < 8))
    (when ((getGroup s group).state == 1 || (getGroup s group).state == 2) (mountGroup group src) s)

/-- A carrier whose presence has held for 1 s in an ABSENT group is probed and mounted (R544, R596). -/
def carrierPresent (g : Nat) (probes : List (List (Option TargetProbe))) (s : State) : State :=
  let t := (List.range 4).foldl (fun u i => probeChannel u (4 * g + i) (probes.getD i [])) s
  startMount (putGroup t g { getGroup t g with present := true, presentAt := ns s }) g

/-- CARRIER_PRESENT (R596). -/
def execCarrierPresent (group : Nat) (probes : List (List (Option TargetProbe))) (s : State) :
    Host.Outcome State Fault Refusal :=
  guarded "CARRIER_PRESENT" (decide (group < 8))
    (when ((getGroup s group).state == 0 && (inRun s || decide (s.boot.stage = .discover)))
      (carrierPresent group probes) s)

/-- Surprise removal: the group is ABSENT in that cycle and its data lost on this device; an OFFLINE group only
loses its presence (R543, R544) (DEDUCED, assumption 88). -/
def carrierRemoved (g : Nat) (s : State) : State :=
  let x := getGroup s g
  if x.state = 5 then putGroup s g { x with present := false, presentAt := ns s }
  else
    let held := x.streams.any fun st => st.kind == 2
    let t := putGroup s g { resetGroup with presentAt := ns s, serial := x.serial }
    let t := { t with
      flash := { t.flash with
        buffered := t.flash.buffered.filter (·.1 != g)
        queue := t.flash.queue.filter (·.group != g)
        chans := t.flash.chans.zipIdx.map fun (c, i) => if i / 4 = g then { c with targets := [], rejected := 0 } else c }
      evr := { t.evr with
        archMounted := t.evr.archMounted && !held
        archive := if held then [] else t.evr.archive } }
    let t := match x.offline with | some (_, k) => finishTicket t k stCancelled [] | none => t
    emit (finishAll t x.online stOk (zeros 8)) 0x0B09 9 0xFF g 0 0

/-- CARRIER_REMOVED (R544). -/
def execCarrierRemoved (group : Nat) (s : State) : Host.Outcome State Fault Refusal :=
  guarded "CARRIER_REMOVED" (decide (group < 8)) (when ((getGroup s group).state != 0) (carrierRemoved group) s)

/-! ## Operations -/

/-- The operation that a target's queue grants: round-robin over the five classes from the target's pointer, the
oldest of the class (R463). -/
def nextFlashOp (s : State) (c t : Nat) (ptr : Nat) : Option FlashOp :=
  let mine := s.flash.queue.filter fun o => o.chan == c && o.target == t
  match roundRobin 5 ptr fun k => mine.any (·.cls == k) with
  | some k => mine.find? (·.cls == k)
  | none => none

/-- The erase bucket of a channel filled up to now: one second of ERASE_RATE at most, in erases × 10^9
(DESIGN CHOICE, assumption 16). -/
def eraseTokens (s : State) (c : Nat) : Int :=
  let b := (getFChan s c).erases
  min ((s.guard.eraseRate * 10 ^ 9 : Nat) : Int) (b.level + ((ns s - b.at_) * s.guard.eraseRate : Nat))

/-- Retire a block after a failure and score its target (R475, R492). -/
def retireScored (s : State) (g b c t : Nat) : State := score (retireBlock s g b) 9 (c * 8 + t) 4 0x0703

/-- A read with its corrections and retries, or lost (R471, R476): the other valid units of the block are copied
elsewhere and the block retires. -/
def flashRead (s : State) (o : FlashOp) (r : FlashOutcome) : State :=
  let x := getGroup s o.group
  let t := putGroup s o.group { x with corrected := satAdd 64 x.corrected r.corrected, retries := satAdd 64 x.retries r.retries }
  let t := if 0 < r.retries then score t 9 (o.chan * 8 + o.target) r.retries 0x0704 else t
  if r.uncorrectable then
    let u := loseUnit t o.group o.unit
    let y := getGroup u o.group
    let u := putGroup u o.group { y with fblocks := y.fblocks.map fun p =>
      if p.1 = o.block then (p.1, { p.2 with units := p.2.units.filter (· != o.unit) }) else p }
    score (score (retireScored u o.group o.block o.chan o.target) 9 (o.chan * 8 + o.target) 64 0x0704) 10 o.group 8 0x0704
  else if o.cls = 4 ∧ 0 < r.retries then
    match (getGroup t o.group).units.find? (·.1 == o.unit) with
    | some (_, m) => (placeUnit t o.group o.unit m.data m.gen 4 true).getD t
    | none => t
  else t

/-- One operation and its outcome. -/
def runFlashOp (s : State) (o : FlashOp) (r : FlashOutcome) : State :=
  let x := getGroup s o.group
  if o.cls ≤ 1 ∨ (o.cls = 4 ∧ o.data.isEmpty) then flashRead s o r
  else if r.failed then
    let y := if o.cls = 3 then { x with eraseFails := satAdd 32 x.eraseFails 1 }
      else { x with programFails := satAdd 32 x.programFails 1 }
    retireScored (putGroup s o.group y) o.group o.block o.chan o.target
  else if o.cls = 3 then s
  else { s with flash := { s.flash with buffered := s.flash.buffered.filter fun p => !(p.1 == o.group && p.2.1 == o.unit) } }

/-- Grant one operation of a target. An erase beyond ERASE_RATE is held (R326); 16 failures in a row take the target
out of service (R477). -/
def flashOperation (c t : Nat) (r : FlashOutcome) (s : State) : State :=
  let ch := getFChan s c
  match ch.targets.find? (·.1 == t) with
  | none => s
  | some (_, tg) =>
    match nextFlashOp s c t tg.ptr with
    | none => s
    | some o =>
      let tok := eraseTokens s c
      if o.cls = 3 ∧ tok < 10 ^ 9 then guardHold s 4 c
      else
        let bad := r.failed || r.uncorrectable
        let run := if bad then tg.inARow + 1 else 0
        let ch' := { ch with
          targets := ch.targets.map fun q => if q.1 = t then (t, { tg with ptr := (o.cls + 1) % 5, inARow := run }) else q
          busPtr := (t + 1) % 8
          erases := if o.cls = 3 then ⟨tok - 10 ^ 9, ns s⟩ else ch.erases }
        let u := putFChan s c ch'
        let u := { u with flash := { u.flash with queue := u.flash.queue.erase o } }
        let u := runFlashOp u o r
        if 16 ≤ run then
          score (score (takeOutTarget u c t) 9 (c * 8 + t) 4096 0x0705) 10 (c / 4) 64 0x0705
        else u

/-- Whether a target has an operation waiting. -/
def hasFlashOp (s : State) (c t : Nat) : Bool :=
  ((getFChan s c).targets.any fun q => q.1 == t && !q.2.failed) &&
    s.flash.queue.any fun o => o.chan == c && o.target == t

/-- FLASH_OPERATION (R463). -/
def execFlashOperation (chan target : Nat) (o : FlashOutcome) (s : State) : Host.Outcome State Fault Refusal :=
  guarded "FLASH_OPERATION" (decide (chan < 32) && decide (target < 8))
    (when (hasFlashOp s chan target) (flashOperation chan target o) s)

/-! ## Reclaim, wear, patrol -/

/-- The free pool outside the reserve. -/
def freeOutside (s : State) (g : Nat) : Nat := freeBlocks s g - (getGroup s g).reserve

/-- Whether reclaim is due: below 1 % of the good blocks, or begun and below 2 % (R472). -/
def reclaimDue (s : State) (g : Nat) : Bool :=
  let x := getGroup s g
  (x.state == 3 || x.state == 4) && (victim s g).isSome &&
    (decide (freeOutside s g * 100 < goodBlocks s g) ||
      (x.reclaiming && decide (freeOutside s g * 100 < 2 * goodBlocks s g)))

/-- One round of reclaim. -/
def reclaim (g : Nat) (s : State) : State :=
  let t := reclaimRound s g
  putGroup t g { getGroup t g with reclaiming := decide (freeOutside t g * 100 < 2 * goodBlocks t g) }

/-- RECLAIM (R472). -/
def execReclaim (group : Nat) (s : State) : Host.Outcome State Fault Refusal :=
  guarded "RECLAIM" (decide (group < 8)) (when (reclaimDue s group) (reclaim group) s)

/-- Highest erase count among good blocks, and lowest (an untouched good block has 0). -/
def eraseMax (s : State) (g : Nat) : Nat :=
  ((getGroup s g).fblocks.filter fun p => blockGood s g p.1).foldl (fun m p => max m p.2.erases) 0

def eraseMin (s : State) (g : Nat) : Nat :=
  let l := (getGroup s g).fblocks.filter fun p => blockGood s g p.1
  if l.length < goodBlocks s g then 0
  else match l with
    | [] => 0
    | p :: t => t.foldl (fun m q => min m q.2.erases) p.2.erases

/-- The spread of a group (R474). -/
def spread (s : State) (g : Nat) : Nat := eraseMax s g - eraseMin s g

/-- The good block with valid data of lowest erase count, lowest index. -/
def leastWorn (s : State) (g : Nat) : Option Nat :=
  (((getGroup s g).fblocks.filter fun p => blockGood s g p.1 && !p.2.units.isEmpty).foldl (fun b p =>
    match b with
    | some c => if p.2.erases < c.2.erases then some p else b
    | none => some p) (none : Option (Nat × FBlock))).map (·.1)

/-- The free block of highest erase count, lowest index. -/
def mostWornFree (s : State) (g : Nat) : Option Nat :=
  let x := getGroup s g
  (List.range (allBlocks s g)).foldl (fun best b =>
    if blockGood s g b && (getBlock x b).units.isEmpty && x.openBlock != some b then
      match best with
      | some c => if (getBlock x c).erases < (getBlock x b).erases then some b else best
      | none => some b
    else best) none

/-- Move the valid units of one block into another, which is erased first; ciphertext and addresses stay (R474). -/
def moveBlock (s : State) (g src dst : Nat) : State :=
  let x := getGroup s g
  let units := (getBlock x src).units
  let d := getBlock x dst
  let e := { d with erases := d.erases + 1, written := units.length, units := units }
  let y := putBlock (putBlock x src { getBlock x src with units := [] }) dst e
  let z := { y with units := y.units.map fun p => if units.contains p.1 then (p.1, { p.2 with block := dst }) else p }
  units.foldl (fun t u => queueOp t g dst 4 u ((z.units.find? (·.1 == u)).map (·.2.data) |>.getD []))
    (queueOp (putGroup s g z) g dst 3 0 [])

/-- Whether an activity is a WEAR_MOVE, or a SCRUB, of a flash group. -/
def groupActivity (code g : Nat) (a : Activity) : Bool := a.code == code && a.scopeKind == 2 && a.unit == g

/-- Submit the device's own activity of a flash group where none waits or runs. -/
def requestGroupActivity (s : State) (code g : Nat) : State :=
  if (s.rack.running ++ s.rack.queued).any (groupActivity code g) then s
  else submit s (newActivity s code false 2 0 g 0 none)

/-- WEAR_MOVE: requested of the lehr scheduler when the spread exceeds the limit; while it runs, one move; it ends at
three quarters of the limit (R474). -/
def wearMove (g : Nat) (s : State) : State :=
  match s.rack.running.find? (groupActivity 2 g) with
  | none => requestGroupActivity s 2 g
  | some a =>
    match leastWorn s g, mostWornFree s g with
    | some src, some dst =>
      let t := moveBlock s g src dst
      if spread t g ≤ 3 * s.flash.wearLimit / 4 ∧ !a.command then dropActivity t a.ident else t
    | _, _ => s

def wearDue (s : State) (g : Nat) : Bool :=
  let x := getGroup s g
  (x.state == 3 || x.state == 4) &&
    (decide (s.flash.wearLimit < spread s g) ||
      (s.rack.running.any (groupActivity 2 g) && decide (3 * s.flash.wearLimit / 4 < spread s g)))

/-- WEAR_MOVE (R474). -/
def execWearMove (group : Nat) (s : State) : Host.Outcome State Fault Refusal :=
  guarded "WEAR_MOVE" (decide (group < 8)) (when (wearDue s group) (wearMove group) s)

/-- FLASH_PATROL: as a SCRUB activity, the next valid map unit in index order is read as background work; its
outcome comes with FLASH_OPERATION (R478). -/
def flashPatrol (g : Nat) (s : State) : State :=
  if s.rack.running.any (groupActivity 1 g) then
    let x := getGroup s g
    let next := match x.units.find? fun p => decide (x.patrolPos < p.1) && !p.2.lost with
      | some p => some p
      | none => x.units.find? fun p => !p.2.lost
    match next with
    | some (u, m) => queueOp (putGroup s g { x with patrolPos := u, patrolAt := ns s }) g m.block 4 u []
    | none => s
  else requestGroupActivity s 1 g

/-- FLASH_PATROL (R478). -/
def execFlashPatrol (group : Nat) (s : State) : Host.Outcome State Fault Refusal :=
  guarded "FLASH_PATROL" (decide (group < 8))
    (when ((getGroup s group).state == 3 || (getGroup s group).state == 4) (flashPatrol group) s)

/-- Which of the five temperature spans a reading lies in (R490). -/
def tempSpan (t : Int) : Nat := if t < 40 then 0 else if t < 55 then 1 else if t < 70 then 2 else if t < 85 then 3 else 4

/-- One group's reading: now, the highest since format with its time, and a second in its span (R490). -/
def readTemp (s : State) (g : Nat) (t : Int) : State :=
  let x := getGroup s g
  if x.state = 0 then s
  else
    let first := x.tempMaxTime = 0 ∧ x.tempSecs = []
    let secs := modAt (if x.tempSecs.length = 5 then x.tempSecs else [0, 0, 0, 0, 0]) (tempSpan t) (· + 1)
    putGroup s g { x with
      tempNow := t
      tempMax := if first ∨ x.tempMax < t then t else x.tempMax
      tempMaxTime := if first ∨ x.tempMax < t then net s else x.tempMaxTime
      tempSecs := secs
      tempHours := secs.map (· / 3600) }

/-- FLASH_TEMP_READ (R490): one reading for each group. -/
def execFlashTempRead (temps : List Int) (s : State) : Host.Outcome State Fault Refusal :=
  .next (when (inRun s || decide (s.boot.stage = .discover))
    (fun t => (temps.take 8).zipIdx.foldl (fun u p => readTemp u p.2 p.1) t) s)

/-! ## Commands -/

/-- Table: FLASH_INFO result (R489). -/
def flashInfo (s : State) (c : Nat) : List Byte :=
  let ch := getFChan s c
  let g := c / 4
  let x := getGroup s g
  let mask := fun p : Target → Bool => ((ch.targets.filter fun t => p t.2).map fun t => 2 ^ t.1).foldl (· + ·) 0
  let geo := fun f : TargetProbe → Nat => match ch.targets with | (_, t) :: _ => f t.probe | [] => 0
  leBytes 1 c ++ leBytes 1 g ++ leBytes 1 x.state ++ leBytes 1 ch.rate ++ leBytes 1 (mask fun _ => true) ++
  leBytes 1 ch.rejected ++ leBytes 1 (mask (·.failed)) ++ zeros 1 ++ leBytes 4 (geo (·.pageBytes)) ++
  leBytes 4 (geo (·.pagesPerBlock)) ++ leBytes 4 (geo (·.blocksPerLun)) ++ leBytes 1 (geo (·.luns)) ++ zeros 3 ++
  leBytes 8 ((ch.targets.map fun t => targetBytes t.2.probe).foldl (· + ·) 0) ++ leBytes 8 (userUnits x * 65536) ++
  leBytes 8 (allocatedUnits x * 65536) ++ leBytes 4 (freeBlocks s g) ++ zeros 12

/-- FLASH_INFO (R489). -/
def execFlashInfo (m : MsgSrc) (s : State) : Host.Outcome State Fault Refusal :=
  serve ⟨0x801, .any, true, false, some 8⟩ m (fun c t =>
    checked [(zeroAt c.data 1 7, stBadParam), (decide (fld c.data 0 1 < 32), stBadParam)]
      (.reply stOk (flashInfo t (fld c.data 0 1)), t) t) s

/-- Table: FLASH_HEALTH result (R490). -/
def flashHealth (s : State) (g : Nat) : List Byte :=
  let x := getGroup s g
  let good := goodBlocks s g
  let sp := spareOf s g
  let rated := match groupTargets s g with
    | [] => 0
    | t :: r => r.foldl (fun m q => min m q.2.2.probe.endurance) t.2.2.probe.endurance
  let total := ((x.fblocks.filter fun p => blockGood s g p.1).map fun p => p.2.erases).foldl (· + ·) 0
  let permille := if sp ≤ 0 ∨ x.spareAtFormat = 0 then 0 else sp.toNat * 1000 / x.spareAtFormat
  leBytes 1 g ++ leBytes 1 x.state ++ zeros 2 ++ leBytes 4 good ++ leBytes 4 (ofSigned 32 sp) ++ leBytes 2 permille ++
  leBytes 2 (min 65535 (if good = 0 ∨ rated = 0 then 0 else total * 1000 / (good * rated))) ++
  leBytes 4 (eraseMin s g) ++ leBytes 4 (eraseMax s g) ++ leBytes 4 rated ++ leBytes 4 x.retired ++
  leBytes 8 x.corrected ++ leBytes 8 x.retries ++ leBytes 4 x.uncorrectable ++ leBytes 4 x.programFails ++
  leBytes 4 x.eraseFails ++ leBytes 1 (ofSigned 8 x.tempNow) ++ leBytes 1 (ofSigned 8 x.tempMax) ++ zeros 2 ++
  leBytes 8 x.tempMaxTime ++ ((List.range 5).flatMap fun i => leBytes 4 (x.tempHours.getD i 0)) ++ zeros 4

/-- FLASH_HEALTH (R490). -/
def execFlashHealth (m : MsgSrc) (s : State) : Host.Outcome State Fault Refusal :=
  serve ⟨0x802, .any, true, false, some 8⟩ m (fun c t =>
    checked [(zeroAt c.data 1 7, stBadParam), (decide (fld c.data 0 1 < 8), stBadParam)]
      (.reply stOk (flashHealth t (fld c.data 0 1)), t) t) s

/-- FLASH_SET (R491): setting 1 only. -/
def flashSet (c : Ctx) (s : State) : Answer × State :=
  let v := fld c.data 4 4
  checked [(fld c.data 0 1 == 1 && zeroAt c.data 1 3, stBadParam), (decide (100 ≤ v) && decide (v ≤ 10000), stBadParam)]
    (.reply stOk (leBytes 4 v ++ zeros 4), { s with flash := { s.flash with wearLimit := v } }) s

/-- FLASH_SET (R491). -/
def execFlashSet (m : MsgSrc) (s : State) : Host.Outcome State Fault Refusal :=
  serve ⟨0x803, .ws0, false, false, some 8⟩ m flashSet s

/-- Free user map units of the other ONLINE groups. -/
def freeElsewhere (s : State) (g : Nat) : Nat :=
  (((List.range 8).filter fun i => i != g && takesStreams s i).map fun i =>
    userUnits (getGroup s i) - allocatedUnits (getGroup s i)).foldl (· + ·) 0

/-- FLASH_CARRIER_OFFLINE (R542). -/
def carrierOffline (c : Ctx) (s : State) : Answer × State :=
  let g := fld c.data 0 1
  let x := getGroup s g
  checked [(zeroAt c.data 1 7 && decide (g < 8), stBadParam), ((x.state == 3 || x.state == 4) && x.offline.isNone, stBadParam),
      (decide (allocatedUnits x ≤ freeElsewhere s g), stQuota)]
    (.issue stPending (work c [g]), putGroup s g { x with offline := some (x.state, c.ticket) }) s

/-- FLASH_CARRIER_OFFLINE (R542). -/
def execFlashCarrierOffline (m : MsgSrc) (s : State) : Host.Outcome State Fault Refusal :=
  serve ⟨0x804, .ws0, true, true, some 8⟩ m carrierOffline s

/-- Once only the map journal is left, it is closed: OFFLINE, EV_CARRIER_OFFLINE, and the ticket completes (R542). -/
def settleOffline (s : State) (g : Nat) : State :=
  let x := getGroup s g
  match x.offline with
  | some (_, k) =>
    if x.streams.all (·.kind == 1) then
      finishTicket (emit (putGroup s g { x with state := 5, offline := none, streams := [] }) 0x0B07 9 0xFF g 0 0) k stOk []
    else s
  | none => s

/-- Copy a map unit of a stream to unit `v` of group `h`: decrypted under its old tweak and encrypted under its new one, lost
where it was lost (R542). -/
def copyUnit (g unit h v : Nat) (st : Stream) (m : MapUnit) (t : State) : State :=
  let data := match flashKeyGen t st.ws m.gen with
    | some k => encryptAt k.bytes st.ws (flashAddr h v 0) 16 (decryptAt k.bytes st.ws (flashAddr g unit 0) 16 m.data)
    | none => m.data
  let r := writeUnit t h v data m.gen false
  let z := getGroup r.2 h
  let u := if m.lost then putGroup r.2 h { z with
      units := z.units.map fun p => if p.1 = v then (p.1, { p.2 with lost := true }) else p }
    else r.2
  match (getGroup u h).streams.find? (·.ident == st.ident) with
  | some sd => putStream u h { sd with units := sd.units ++ [v] }
  | none => u

/-- Move one map unit of a stream of an offlining group: the guard re-encrypts it under its new address with the same
generation, a lost unit stays lost, and its stream follows (R542). -/
def streamMove (g stream unit : Nat) (s : State) : State :=
  let x := getGroup s g
  match x.streams.find? (·.ident == stream) with
  | none => s
  | some st =>
    let dest := match (List.range 8).find? fun i => i != g && (getGroup s i).streams.any (·.ident == stream) with
      | some i => some i
      | none => streamGroup s
    match dest with
    | none => s
    | some h =>
      let y := getGroup s h
      let t := if y.streams.any (·.ident == stream) then s
        else putGroup s h { y with streams := y.streams ++ [{ st with units := [] }] }
      let moved := match x.units.find? (·.1 == unit), freeUnit (getGroup t h) with
        | some (_, m), some v => copyUnit g unit h v st m t
        | _, _ => t
      let z := getGroup moved g
      let rest := st.units.filter (· != unit)
      let z := { z with
        units := z.units.filter (·.1 != unit)
        fblocks := z.fblocks.map fun b => (b.1, { b.2 with units := b.2.units.filter (· != unit) })
        streams := if rest.isEmpty then z.streams.filter (·.ident != stream)
          else z.streams.map fun r => if r.ident = stream then { r with units := rest } else r }
      settleOffline (putGroup moved g z) g

/-- STREAM_MOVE (R542). -/
def execStreamMove (group stream unit : Nat) (s : State) : Host.Outcome State Fault Refusal :=
  guarded "STREAM_MOVE" (decide (group < 8)) (when ((getGroup s group).offline.isSome) (streamMove group stream unit) s)

/-- FLASH_CARRIER_ONLINE: cancels a running offline, or probes and mounts an OFFLINE group (R543). -/
def carrierOnline (c : Ctx) (s : State) : Answer × State :=
  let g := fld c.data 0 1
  let x := getGroup s g
  let run : Answer × State :=
    match x.offline with
    | some (former, k) =>
      (.issue stPending (doneWork c [g] stOk ([BitVec.ofNat 8 former] ++ zeros 7)),
        finishTicket (putGroup s g { x with state := former, offline := none }) k stCancelled [])
    | none => (.issue stPending (work c [g]),
        putGroup s g { x with state := 1, readOnly := false, online := [c.ticket] })
  checked [(zeroAt c.data 1 7 && decide (g < 8), stBadParam), (x.offline.isSome || x.state == 5, stBadParam)] run s

/-- FLASH_CARRIER_ONLINE (R543). -/
def execFlashCarrierOnline (m : MsgSrc) (s : State) : Host.Outcome State Fault Refusal :=
  serve ⟨0x805, .ws0, true, true, some 8⟩ m carrierOnline s

end Sys2Proof.Machine
end

