-- ==== Sys2Proof/Machine/Stripes.lean ====
section
/-!
DEFINITION. Durable stripes (R483 to R488): forming, members that report or do not, and a set rebuilt. The spec names
no fabric message for a stripe unit; a unit of this device is stored here, and the reports of others arrive as the rows
(DESIGN CHOICE, assumption 17).
-/

namespace Sys2Proof.Machine

/-- The group record of a device group. -/
def findGroup (s : State) (gid : Nat) : Option Group := s.rack.groups.find? (·.mem.group == gid)

/-- Whether this device holds the lease of a group (R499). -/
def leaseHeld (s : State) (gid : Nat) : Bool :=
  match findGroup s gid with
  | some g => g.lease == 1
  | none => false

/-- The eligible devices of a stripe domain, in rank for a set (R484). -/
def eligible (s : State) (gid ws setId : Nat) : List Nat :=
  match findGroup s gid with
  | some g => (rankedDomain setId g.mem.domain).filter fun d =>
      d != fabricDev s || selfEligible s ws (leaseHeld s gid)
  | none => []

/-- Store a unit of a set on this device in the workspace's STRIPE_STORE stream (R465, R486): whether it is
durable. -/
def storeStripeUnit (s : State) (ws gid setId index : Nat) (data : List Byte) : Bool × State :=
  let r := streamWrite s 7 ws 0 gid data
  if r.1 = stOk then
    (true, { r.2.2 with flash := { r.2.2.flash with sets := r.2.2.flash.sets.map fun x =>
      if x.setId = setId then { x with units := Tab.insert x.units index data } else x } })
  else (false, r.2.2)

/-- The data units of the next stripe of a stream: its next 8 unstriped map units, or at a fold what is left, as
stored ciphertext, zero-padded (R483). -/
def nextUnits (x : FlashGroup) (st : Stream) (fold : Bool) : Option (List (List Byte)) :=
  let un := (st.units.drop st.striped).take 8
  if un.length = 8 ∨ (fold ∧ !un.isEmpty) then
    let d := un.map fun u => unit64k (match x.units.find? (·.1 == u) with | some p => p.2.data | none => [])
    some (d ++ List.replicate (8 - d.length) (zeros 65536))
  else none

/-- The stripe set that a stream's next stripe joins: its last set while the members stay the same, else a new one
(R485). -/
def stripeSetFor (s : State) (st : Stream) : Nat × Nat × Bool :=
  let mine := s.flash.stripes.filter fun x => x.stream == st.ident
  match mine.getLast? with
  | some l =>
    if (eligible s st.gid st.ws l.setId).take 10 = l.members ∧ l.dataUnits = 8 then (l.setId, l.index + 1, false)
    else (fabricDev s * 2 ^ 32 + s.flash.nextSet, 0, true)
  | none => (fabricDev s * 2 ^ 32 + s.flash.nextSet, 0, true)

/-- EV_STRIPE_WAIT, at most once per minute (R484). -/
def stripeWait (s : State) : State :=
  let due := match s.flash.stripeWaitAt with | some t => elapsed s t 60000000000 | none => true
  if due then emitDev { s with flash := { s.flash with stripeWaitAt := some (ns s) } } 0x0709 0 0 0 else s

/-- Once all ten members have reported, the stripe is complete and its journal entries are freed (R486): the stream's
next units count as striped and leave the journal. -/
def completeStripe (s : State) (setId index : Nat) : State :=
  match s.flash.stripes.find? fun x => x.setId == setId && x.index == index with
  | none => s
  | some x =>
    if x.complete ∨ x.durable.length < 10 then s
    else
      let t := { s with flash := { s.flash with stripes := s.flash.stripes.map fun y =>
        if y.setId = setId ∧ y.index = index then { y with complete := true } else y } }
      match (List.range 8).filterMap (fun g => ((getGroup t g).streams.find? (·.ident == x.stream)).map fun st => (g, st))
          |>.head? with
      | none => t
      | some (g, st) =>
        let gone := st.units.take x.dataUnits
        let y := getGroup t g
        putStream (putGroup t g { y with
          units := y.units.filter fun u => !gone.contains u.1
          fblocks := y.fblocks.map fun b => (b.1, { b.2 with units := b.2.units.filter fun u => !gone.contains u }) }) g
          { st with units := st.units.drop x.dataUnits, striped := st.striped - x.dataUnits }

/-- A member's unit is durable. -/
def markDurable (s : State) (setId index member : Nat) : State :=
  completeStripe { s with flash := { s.flash with stripes := s.flash.stripes.map fun y =>
    if y.setId = setId ∧ y.index = index ∧ y.members.contains member ∧ !y.durable.contains member then
      { y with durable := y.durable ++ [member] } else y } } setId index

/-- Give a unit to this device where it is the member: stored and reported at once. -/
def selfStore (s : State) (gid ws setId index : Nat) (members : List Nat) (units : List (List Byte)) : State :=
  match members.findIdx? (· == fabricDev s) with
  | some i =>
    let r := storeStripeUnit s ws gid setId index (units.getD i [])
    if r.1 then markDurable r.2 setId index (fabricDev s) else r.2
  | none => s

/-- Form one stripe of a stream (R483 to R485). -/
def formStripe (g : Nat) (st : Stream) (d : List (List Byte)) (s : State) : State :=
  let (setId, index, fresh) := stripeSetFor s st
  let members := (eligible s st.gid st.ws setId).take 10
  if members.length < 10 then stripeWait s
  else
    let pq := parityUnits d
    let units := d ++ [pq.1, pq.2]
    let n := min 8 (st.units.length - st.striped)
    let firstUnit := (st.units.drop st.striped).headD 0
    let gen := match (getGroup s g).units.find? (·.1 == firstUnit) with | some p => p.2.gen | none => 0
    let rec_ : SetRecord := ⟨setId, 0, members, 0, 0, st.ws, gen, flashAddr g firstUnit 0, []⟩
    let sets := if fresh then s.flash.sets ++ [rec_] else s.flash.sets
    let sets := sets.map fun r => if r.setId = setId then { r with stripes := index + 1, tail := n * 65536 } else r
    let t := putStream { s with flash := { s.flash with
        stripes := s.flash.stripes ++ [⟨setId, index, st.ws, gen, flashAddr g firstUnit 0, st.ident, units, members,
          members, n, [], List.replicate 10 (ns s), false⟩]
        sets := sets
        nextSet := if fresh then s.flash.nextSet + 1 else s.flash.nextSet } } g { st with striped := st.striped + n }
    selfStore t st.gid st.ws setId index members units

/-- A journal stream of this device, by identifier. -/
def journalStream (s : State) (id : Nat) : Option (Nat × Stream) :=
  ((List.range 8).filterMap fun g => ((getGroup s g).streams.find? fun st =>
    st.ident == id && (st.kind == 3 || st.kind == 4)).map fun st => (g, st)).head?

/-- Whether a stripe is due of a stream. -/
def stripeDue (s : State) (id : Nat) (fold : Bool) : Bool :=
  match journalStream s id with
  | some (g, st) => (nextUnits (getGroup s g) st fold).isSome
  | none => false

/-- Form the next stripe of a stream. -/
def stripeForm (stream : Nat) (fold : Bool) (s : State) : State :=
  match journalStream s stream with
  | some (g, st) =>
    match nextUnits (getGroup s g) st fold with
    | some d => formStripe g st d s
    | none => s
  | none => s

/-- STRIPE_FORM (R483). -/
def execStripeForm (stream : Nat) (fold : Bool) (s : State) : Host.Outcome State Fault Refusal :=
  .next (when (stripeDue s stream fold) (stripeForm stream fold) s)

/-- A stripe that still waits for a member's report. -/
def waitsFor (s : State) (setId index member : Nat) : Bool :=
  s.flash.stripes.any fun x => x.setId == setId && x.index == index && !x.complete && x.members.contains member &&
    !x.durable.contains member

/-- STRIPE_UNIT_DURABLE (R486). -/
def execStripeUnitDurable (setId index member : Nat) (s : State) : Host.Outcome State Fault Refusal :=
  .next (when (waitsFor s setId index member) (markDurable · setId index member) s)

/-- A member that does not report is replaced by the next eligible device in rank that was not tried (R486). -/
def replaceMember (setId index member : Nat) (s : State) : State :=
  match s.flash.stripes.find? fun x => x.setId == setId && x.index == index with
  | none => s
  | some x =>
    let gid := match journalStream s x.stream with | some (_, st) => st.gid | none => 0
    match (eligible s gid x.ws setId).find? fun d => !x.tried.contains d with
    | none => s
    | some d =>
      let i := (x.members.findIdx? (· == member)).getD 0
      let y := { x with
        members := setAt x.members i d, tried := x.tried ++ [d], sentAt := setAt x.sentAt i (ns s) }
      let t := { s with flash := { s.flash with
        stripes := s.flash.stripes.map fun z => if z.setId = setId ∧ z.index = index then y else z
        sets := s.flash.sets.map fun r => if r.setId = setId then { r with members := y.members } else r } }
      if d = fabricDev s then selfStore t gid x.ws setId index y.members y.units else t

/-- Whether a member's report is overdue by the sub-request timeout (R191, R486). -/
def memberLate (s : State) (setId index member : Nat) : Bool :=
  s.flash.stripes.any fun x => x.setId == setId && x.index == index && !x.complete && !x.durable.contains member &&
    match x.members.findIdx? (· == member) with
    | some i => elapsed s (x.sentAt.getD i 0) (s.boot.settings.subreqTimeoutUs * 1000)
    | none => false

/-- STRIPE_MEMBER_TIMEOUT (R486). -/
def execStripeMemberTimeout (setId index member : Nat) (s : State) : Host.Outcome State Fault Refusal :=
  .next (when (memberLate s setId index member) (replaceMember setId index member) s)

/-! ## Reconstruction -/

/-- Inverse in GF(2^8): a^254. -/
def gfInv (a : Nat) : Nat := (List.range 254).foldl (fun p _ => gfMul p a) 1

/-- The eight data bytes of one byte column from any eight of ten unit bytes (R483, R487). -/
def solveColumn (have_ : List (Nat × Nat)) : Option (List Nat) :=
  let at_ := fun i => (have_.find? (·.1 == i)).map (·.2)
  let missing := (List.range 8).filter fun i => (at_ i).isNone
  let known := (List.range 8).filter fun i => (at_ i).isSome
  let val := fun i => (at_ i).getD 0
  let sumP := known.foldl (fun a i => a ^^^ val i) 0
  let sumQ := known.foldl (fun a i => a ^^^ gfMul (gfPow2 i) (val i)) 0
  let fill := fun vs : List (Nat × Nat) => (List.range 8).map fun i =>
    match vs.find? (·.1 == i) with | some v => v.2 | none => val i
  match missing, at_ 8, at_ 9 with
  | [], _, _ => some (fill [])
  | [j], some p, _ => some (fill [(j, p ^^^ sumP)])
  | [j], none, some q => some (fill [(j, gfMul (q ^^^ sumQ) (gfInv (gfPow2 j)))])
  | [j, k], some p, some q =>
    let a := p ^^^ sumP
    let b := q ^^^ sumQ
    let dk := gfMul (b ^^^ gfMul (gfPow2 j) a) (gfInv (gfPow2 j ^^^ gfPow2 k))
    some (fill [(j, a ^^^ dk), (k, dk)])
  | _, _, _ => none

/-- One byte of a unit from the data column: data, P or Q. -/
def unitByte (idx : Nat) (d : List Nat) : Nat :=
  if idx < 8 then d.getD idx 0
  else if idx = 8 then d.foldl (· ^^^ ·) 0
  else d.zipIdx.foldl (fun a v => a ^^^ gfMul (gfPow2 v.2) v.1) 0

/-- A lost unit from at least eight others (R487); none where fewer are readable. -/
def reconstruct (units : List (Nat × List Byte)) (idx : Nat) : Option (List Byte) :=
  if units.length < 8 then none
  else (List.range 65536).mapM fun b =>
    (solveColumn (units.map fun u => (u.1, (u.2.getD b 0).toNat))).map fun d => BitVec.ofNat 8 (unitByte idx d)

/-- Rebuild the units of a lost member of a set onto the next eligible device in rank that is not a member, and raise
the membership version (R488). -/
def rebuildSet (setId lost : Nat) (units : List (Nat × Nat × List Byte)) (s : State) : State :=
  match s.flash.sets.find? (·.setId == setId) with
  | none => s
  | some r =>
    match r.members.findIdx? (· == lost) with
    | none => s
    | some i =>
      let gid := match s.rack.groups.find? fun g => g.mem.domain.contains lost with | some g => g.mem.group | none => 0
      match (eligible s gid r.ws setId).find? fun d => !r.members.contains d with
      | none => s
      | some d =>
        let built := (List.range r.stripes).map fun k =>
          (k, reconstruct ((units.filter (·.1 == k)).map fun u => u.2) i)
        if built.all fun b => b.2.isSome then
          let t := { s with flash := { s.flash with sets := s.flash.sets.map fun x =>
            if x.setId = setId then { x with members := setAt x.members i d, version := x.version + 1 } else x } }
          if d = fabricDev s then
            built.foldl (fun u b => (storeStripeUnit u r.ws gid setId b.1 (b.2.getD [])).2) t
          else t
        else s

/-- STRIPE_SET_REBUILD (R488): a REBUILD activity of the set; requested of the lehr scheduler where none runs. -/
def stripeRebuild (setId lost : Nat) (units : List (Nat × Nat × List Byte)) (s : State) : State :=
  let mine := fun a : Activity => a.code == 4 && a.objType == 4 && a.object == setId
  match s.rack.running.find? mine with
  | some a => (rebuildSet setId lost units s |> fun t => if a.command then t else dropActivity t a.ident)
  | none =>
    if s.rack.queued.any mine then s
    else submit s (newActivity s 4 false 4 4 0 setId none)

/-- STRIPE_SET_REBUILD (R488). -/
def execStripeSetRebuild (setId lost : Nat) (units : List (Nat × Nat × List Byte)) (s : State) :
    Host.Outcome State Fault Refusal :=
  .next (when (s.flash.sets.any fun r => r.setId == setId && r.members.contains lost)
    (stripeRebuild setId lost units) s)

end Sys2Proof.Machine
end

