-- ==== Sys2Proof/Machine/IndexBase.lean ====
section
/-!
DEFINITION. The fields of an index's parameter block and what is derived from them (R134, R143, R150, R152 to R154,
R158, R174).
-/

namespace Sys2Proof.Machine

/-! ## Parameter block (Table: Index parameter block) -/

def Index.key (x : Index) : Nat := fld x.params 0 8
def Index.kind (x : Index) : Nat := fld x.params 8 1
def Index.metric (x : Index) : Nat := fld x.params 9 1
def Index.attributes (x : Index) : Bool := bit (fld x.params 10 1) 0
def Index.mirrored (x : Index) : Bool := bit (fld x.params 10 1) 1
/-- Slots of a chunk: C. -/
def Index.chunkSlots (x : Index) : Nat := if fld x.params 11 1 = 0 then 1024 else 256
def Index.dim (x : Index) : Nat := fld x.params 12 2
def Index.m (x : Index) : Nat := fld x.params 14 2
def Index.nlist (x : Index) : Nat := fld x.params 16 4
def Index.centroidFmt (x : Index) : Fmt := if fld x.params 20 1 = 0 then .e4m3 else .bf16
def Index.codebookFmt (x : Index) : Fmt := if fld x.params 21 1 = 0 then .bf16 else .fp32
def Index.refineKind (x : Index) : Nat := fld x.params 23 1
def Index.nprobeDefault (x : Index) : Nat := fld x.params 24 2
def Index.maxProbeDefault (x : Index) : Nat := fld x.params 26 2
def Index.prefilter (x : Index) : Nat := fld x.params 28 2
def Index.compactPercent (x : Index) : Nat := fld x.params 30 1
/-- stats_interval_log2. -/
def Index.statsLog (x : Index) : Nat := fld x.params 31 1
def Index.attrType (x : Index) (i : Nat) : Nat := fld x.params (32 + i) 1
def Index.timeShift (x : Index) : Nat := fld x.params 36 1
def Index.timeOrigin (x : Index) : Nat := fld x.params 40 8
def Index.maxItems (x : Index) : Nat := fld x.params 48 8
def Index.shard (x : Index) : Nat := fld x.params 56 2
def Index.mirrorShard (x : Index) : Nat := fld x.params 58 2
def Index.gid (x : Index) : Nat := fld x.params 60 4
def Index.transform (x : Index) : Nat := fld x.params 64 4
def Index.hashLog (x : Index) : Nat := fld x.params 68 1
def Index.overflowBuckets (x : Index) : Nat := fld x.params 72 4

/-- The full-precision formats of a descriptor: 1 E4M3, 2 BF16, 3 FP16, 4 FP32. -/
def vecFmt : Nat → Option Fmt
  | 1 => some .e4m3
  | 2 => some .bf16
  | 3 => some .fp16
  | 4 => some .fp32
  | _ => none

/-- Format of the refine store. -/
def Index.vectorFmt (x : Index) : Option Fmt := vecFmt (fld x.params 22 1)

/-- Codewords of a subquantiser: K. -/
def Index.k (x : Index) : Nat := if x.kind = 1 then 256 else 16

/-- Code bytes of an item in part A, and in part B (R143). -/
def Index.partA (x : Index) : Nat := if x.kind = 2 then x.m / 2 else min x.m 64
def Index.partB (x : Index) : Nat := if x.kind = 1 ∧ 64 < x.m then x.m - 64 else 0

/-- Offsets of a chunk's columns (Table: Chunk layout). -/
def Index.visOff (x : Index) : Nat := 256 + x.chunkSlots * (x.partA + x.partB)
def Index.ordOff (x : Index) : Nat := x.visOff + x.chunkSlots * 16
def Index.idOff (x : Index) : Nat := x.ordOff + x.chunkSlots * 8
def Index.attrOff (x : Index) : Nat := x.idOff + x.chunkSlots * 8

/-- Length of a chunk, L (R143). -/
def Index.chunkLen (x : Index) : Nat := x.attrOff + (if x.attributes then x.chunkSlots * 32 else 0)

/-- The epoch of an item not deleted (R145). -/
def NEVER : Nat := 2 ^ 64 - 1

/-- The sentinel ordinal (R152). -/
def SENTINEL_ORD : Nat := 2 ^ 64 - 1

/-- The sentinel ID. -/
def SENTINEL_ID : Nat := 2 ^ 64 - 1

/-- An ordinal (R152). -/
def mkOrdinal (shard seq : Nat) : Nat := shard * 2 ^ 48 + seq
def ordSeq (o : Nat) : Nat := o % 2 ^ 48
def ordShard (o : Nat) : Nat := o / 2 ^ 48

/-- Shard of an ID (R174). -/
def shardOfId (S id : Nat) : Nat := (id * 0xC2B2AE3D27D4EB4F % 2 ^ 64) * S / 2 ^ 64

/-- Primary bucket of a key (R158). -/
def Index.bucketOf (x : Index) (key : Nat) : Nat := (key * 0x9E3779B97F4A7C15 % 2 ^ 64) / 2 ^ (64 - x.hashLog)

/-- Length of the artefact buffer, and offset A of its codebooks (R140). -/
def Index.artefactA (x : Index) : Nat := cdiv (x.nlist * x.dim * (x.centroidFmt.width / 8)) 256 * 256
def Index.artefactBytes (x : Index) : Nat := x.artefactA + x.m * x.k * (x.dim / x.m) * (x.codebookFmt.width / 8)

/-! ## Indexes of the device -/

def getIndex (s : State) (i : Nat) : Option Index := (s.indexes.find? (·.1 == i)).map (·.2)

def putIndex (s : State) (i : Nat) (x : Index) : State := { s with indexes := Tab.insert s.indexes i x }

/-- The index of a workspace by key. -/
def indexByKey (s : State) (ws key : Nat) : Option (Nat × Index) :=
  s.indexes.find? fun p => p.2.ws == ws && p.2.key == key

/-- The copy of a shard that the device holds: the primary before the mirror. -/
def Index.copyOf (x : Index) (shard : Nat) : Option Copy :=
  match x.primary, x.mirror with
  | some c, some d => if c.shard = shard then some c else if d.shard = shard then some d else none
  | some c, none => if c.shard = shard then some c else none
  | none, some d => if d.shard = shard then some d else none
  | none, none => none

/-- An index with no copy in it. -/
def Index.withCopy (x : Index) (mirror : Bool) (c : Option Copy) : Index :=
  if mirror then { x with mirror := c } else { x with primary := c }

/-- The copy in a role. -/
def Index.role (x : Index) (mirror : Bool) : Option Copy := if mirror then x.mirror else x.primary

end Sys2Proof.Machine
end

