-- ==== Sys2Proof/Machine/LiveOps.lean ====
section
/-!
DEFINITION. Live service and leases as shared operations (19, 21): retirements, optical recalibration, and lease
messages.
-/

namespace Sys2Proof.Machine

/-! ## Retirements -/

/-- Owner-map runs of the marver segments that lie on a stack. -/
def runsOnStack (s : State) (stk : Nat) : List OwnRun :=
  s.guard.owners.filter fun r => decide (windowPages s ≤ r.base) && maStack (maOfPage s r.base) == stk

/-- Pages in use on a stack. -/
def pagesOnStack (s : State) (stk : Nat) : Nat := ((runsOnStack s stk).map (·.pages)).foldl (· + ·) 0

/-- Marver pages of one stack. -/
def stackPages (s : State) : Nat := 16 * 256 * bankPages s

/-- Stacks of the interleave that take new regions: not retired, not being retired (R539, R540). -/
def placeStacks (s : State) : List Nat :=
  s.mem.layout.stackMap.filter fun i => !stackOut s i && !s.live.stackRetires.any fun r => r.unit == i

/-- A stack's retirement ends once it holds no region: its bit is set in the boot record and the ticket completes
(R539). -/
def finishStackRetire (s : State) (r : Retire) : State :=
  let t := setBootRec (dropActivity s r.act) fun b => { b with stacksRetired := withBit b.stacksRetired r.unit true }
  let t := emit { t with live := { t.live with stackRetires := t.live.stackRetires.filter (· != r) } } 0x0B06 6
    (r.unit * 16) r.unit 0 0
  match r.ticket with | some k => finishTicket t k stOk [] | none => t

/-- A cane engine's retirement: its ports are disabled in ascending order, its feeds shuttered, its bit set (R541). -/
def finishCaneRetire (s : State) (r : Retire) : State :=
  let t := (List.range 8).foldl (fun u i => setPort u (8 * r.unit + i) 0 0) (dropActivity s r.act)
  let t := setBootRec t fun b => { b with canesRetired := withBit b.canesRetired r.unit true }
  let t := { t with
    fab := { t.fab with canesRetired := withBit t.fab.canesRetired r.unit true }
    live := { t.live with caneRetires := t.live.caneRetires.filter (· != r) } }
  let t := emit t 0x0B07 7 r.unit r.unit 0 0
  match r.ticket with | some k => finishTicket t k stOk [] | none => t

/-! ## Optical recalibration -/

/-- Whether an activity runs. -/
def actRuns (s : State) (ident : Nat) : Bool := s.rack.running.any (·.ident == ident)

def putRecal (s : State) (r : Recal) : State :=
  { s with live := { s.live with recals := s.live.recals.map fun x => if x.act = r.act then r else x } }

/-- The recalibration ends: its result, EV_OPTICS_RECAL_DONE, and the end of its activity (R537). -/
def finishRecal (s : State) (r : Recal) : State :=
  let t := dropActivity { s with live := { s.live with recals := s.live.recals.filter (·.act != r.act) } } r.act
  finishTicket (emit t 0x0B05 7 r.cane r.cane r.bad 0) r.ticket stOk
    ([BitVec.ofNat 8 r.done, BitVec.ofNat 8 r.bad] ++ zeros 6)

/-- Take the next port of the engine: a DISABLED port is skipped, a port that must stay DARK or at PROBE is left not UP
(R408, R537), any other retrains. -/
def recalNext (s : State) (r : Recal) : Nat → State
  | 0 => finishRecal s r
  | n + 1 =>
    if 8 ≤ r.next then finishRecal s r
    else
      let p := 8 * r.cane + r.next
      match (getPort s p).state with
      | 0 => recalNext s { r with next := r.next + 1 } n
      | 1 => recalNext s { r with next := r.next + 1, bad := r.bad + 1 } n
      | 2 => recalNext s { r with next := r.next + 1, bad := r.bad + 1 } n
      | _ => putRecal (setPort s p 3 2) r

/-- Begin a recalibration whose activity has been admitted. -/
def recalBegin (s : State) (act : Nat) : State :=
  match s.live.recals.find? (·.act == act) with
  | some r => if actRuns s act then recalNext s r 9 else s
  | none => s

/-- The training of a port that a recalibration waits for has ended. -/
def recalPortEnd (s : State) (p : Nat) (up : Bool) : State :=
  match s.live.recals.find? fun r => 8 * r.cane + r.next == p && actRuns s r.act with
  | some r => recalNext s { r with next := r.next + 1, done := r.done + b2n up, bad := r.bad + b2n (!up) } 9
  | none => s

/-! ## Leases (R499) -/

def putLease (s : State) (g : Group) : State :=
  { s with rack := { s.rack with groups := s.rack.groups.map fun x => if x.mem.group = g.mem.group then g else x } }

/-- A LEASE message (Table: LEASE payload). -/
def leaseBytes (gid op epoch stamp seq score p99 lost : Nat) : List Byte :=
  leBytes 4 gid ++ leBytes 1 op ++ zeros 3 ++ leBytes 8 epoch ++ leBytes 8 stamp ++ leBytes 4 seq ++ leBytes 4 score ++
  leBytes 4 p99 ++ leBytes 2 lost ++ zeros 10

/-- Whether the device belongs to a group: member or spare. -/
def belongs (s : State) (m : Membership) : Bool := m.members.contains (fabricDev s) || m.spares.contains (fabricDev s)

/-- Mirror holders whose answer a change of this device has awaited beyond the sub-request timeout, by member number
(R629). -/
def silentMirrors (s : State) (g : Group) : List Nat :=
  ((s.indexes.filter fun p => p.2.gid == g.mem.group).flatMap fun p =>
    ([p.2.primary, p.2.mirror].filterMap id).flatMap fun c =>
      match g.mem.roles[c.shard]? with
      | some r =>
        if r.state = 0 ∧ c.changes.any (fun x => x.primaryDone && x.needMirror && !x.mirrorDone && x.epoch != 0 &&
            decide (x.epoch + s.boot.settings.subreqTimeoutUs * 1000 < net s)) then [r.mirror] else []
      | none => []).foldl (fun l n => if l.contains n then l else l ++ [n]) []

/-- The member that this RENEW reports: the lowest first, and the others in turn (R499). -/
def nextLost (l told : List Nat) : Option Nat :=
  let low := fun (m : List Nat) => match m with | [] => none | a :: t => some (t.foldl min a)
  (low (l.filter fun n => !told.contains n)).or (low l)

/-- The device score of a RENEW: 0xFFFF_FFFF while a drain runs (R545). -/
def renewScore (s : State) : Nat := if s.live.draining then 0xFFFFFFFF else (getScore s 11 0).score

/-- Send RENEW for a group (R499). The 99th percentile of service times is a measurement of time, a free value here
(DESIGN CHOICE, assumption 3). -/
def sendRenew (s : State) (g : Group) : State :=
  let l := silentMirrors s g
  let told := if l.all g.peerLost.contains then [] else g.peerLost
  let lost := nextLost l told
  let (p99, t) := drawFree s 32
  let u := putLease t { g with
    seq := wrapAdd 32 g.seq 1
    renews := (g.renews.filter fun r => !elapsed s r.2 200000000) ++ [(g.seq, ns s)]
    lastRenew := ns s
    peerLost := match lost with | some n => told ++ [n] | none => [] }
  sendMsg u g.mem.gateway 7 0 0x51
    (leaseBytes g.mem.group 0 g.mem.epoch (net s) g.seq (renewScore s) p99 (lost.getD 0xFFFF))

/-- Send RELEASE, or a FENCED notice, for a group. -/
def sendLease (s : State) (g : Group) (op : Nat) : State :=
  sendMsg s g.mem.gateway 7 0 0x51 (leaseBytes g.mem.group op g.mem.epoch (net s) g.seq (renewScore s) 0 0xFFFF)

/-- Whether the device is within budget: LOCKED or HOLDOVER (R555). -/
def withinBudget (s : State) : Bool := decide (s.clk.state = 2) || decide (s.clk.state = 3)

end Sys2Proof.Machine
end

