-- ==== Sys2Proof/Machine/Maint.lean ====
section
/-!
DEFINITION. The maintenance group (19): lehr activities, component scores and group information, and the rows of the
lehr scheduler.
-/

namespace Sys2Proof.Machine

/-! ## Lehr scheduler -/

/-- The queue ahead of an activity. -/
def aheadOf (s : State) (ident : Nat) : List Activity := s.rack.queued.takeWhile fun a => a.ident != ident

/-- Whether a queued start may be admitted: it conflicts with nothing running and nothing queued ahead (R511). -/
def admissible (s : State) (ident : Nat) : Bool :=
  match s.rack.queued.find? (·.ident == ident) with
  | some a => !mustWait s a (aheadOf s ident)
  | none => false

/-- Admit a queued start. -/
def lehrAdmit (ident : Nat) (s : State) : State :=
  match s.rack.queued.find? (·.ident == ident) with
  | some a =>
    let t := dropActivity s ident
    recalBegin { t with rack := { t.rack with running := t.rack.running ++ [{ a with since := net s, roundAt := ns s }] } }
      ident
  | none => s

/-- LEHR_ADMIT (R511). -/
def execLehrAdmit (ident : Nat) (s : State) : Host.Outcome State Fault Refusal :=
  .next (when (admissible s ident) (lehrAdmit ident) s)

/-- The activities that run in rounds (R512). -/
def inRounds (code : Nat) : Bool := [1, 2, 4, 7, 8].contains code

/-- How an activity whose work is finished ends: codes 1 to 4 complete their ticket with the activity ID, and a retirement
takes its last steps; any other activity ends with its command's own work (R513, R539, R541). -/
def endActivity (s : State) (a : Activity) : Option State :=
  match a.code with
  | 5 => (s.live.caneRetires.find? (·.act == a.ident)).map (finishCaneRetire s)
  | 7 => (s.live.stackRetires.find? (·.act == a.ident)).bind fun r =>
      if (runsOnStack s r.unit).isEmpty then some (finishStackRetire s r) else none
  | 6 => none
  | 8 => none
  | _ =>
    let t := dropActivity s a.ident
    some (match a.ticket with
      | some k => finishTicket t k stOk (leBytes 4 a.ident ++ zeros 4)
      | none => t)

/-- The end of a round, or of an activity (R512, R513): its ticket completes with the activity ID; an activity with a
conflicting start behind it is queued again behind that start. -/
def lehrRoundEnd (ident : Nat) (finished : Bool) (s : State) : State :=
  match s.rack.running.find? (·.ident == ident) with
  | none => s
  | some a =>
    match finished, endActivity s a with
    | true, some t => t
    | _, _ =>
      let b := { a with rounds := satAdd 16 a.rounds 1, roundAt := ns s }
      if s.rack.queued.any (conflicts a) then
        let t := dropActivity s ident
        { t with rack := { t.rack with queued := t.rack.queued ++ [{ b with since := net s }] } }
      else
        { s with rack := { s.rack with running := s.rack.running.map fun x => if x.ident = ident then b else x } }

/-- Whether an activity's round ends: its work is finished, or it has run 10 s. -/
def roundEnds (s : State) (ident : Nat) (finished : Bool) : Bool :=
  match s.rack.running.find? (·.ident == ident) with
  | some a => (finished && (endActivity s a).isSome) || (inRounds a.code && elapsed s a.roundAt 10000000000)
  | none => false

/-- LEHR_ROUND_END (R512). -/
def execLehrRoundEnd (ident : Nat) (finished : Bool) (s : State) : Host.Outcome State Fault Refusal :=
  .next (when (roundEnds s ident finished && inRun s) (lehrRoundEnd ident finished) s)

/-! ## Commands -/

/-- Whether a stack is present (R58). -/
def stackThere (s : State) (i : Nat) : Bool := decide (i < if s.fuse.is6412 then 12 else 16)

/-- Whether the scope of a MAINT_START fits its activity (R509, R513). -/
def scopeFits (s : State) (code kind objType unit object : Nat) : Bool :=
  let shardCopy := s.indexes.any fun p => p.2.key == object && (p.2.copyOf unit).isSome
  let plain := objType == 0 && object == 0
  match code with
  | 1 => plain && ((kind == 1 && stackThere s unit) || (kind == 2 && decide (unit < 8)))
  | 2 => plain && kind == 2 && decide (unit < 8)
  | 3 => kind == 4 && objType == 1 && shardCopy
  | 4 => kind == 4 && ((objType == 1 && shardCopy) ||
      (objType == 2 && s.tables.any fun t => fld t.2.params 0 8 == object))
  | _ => false

/-- MAINT_START (R513). -/
def maintStart (c : Ctx) (s : State) : Answer × State :=
  let d := c.data
  let a := newActivity s (fld d 0 1) true (fld d 1 1) (fld d 2 1) (fld d 4 2) (fld d 8 8) (some c.ticket)
  checked [(zeroAt d 3 1 && zeroAt d 6 2 && zeroAt d 16 16, stBadParam),
    (scopeFits s a.code a.scopeKind a.objType a.unit a.object, stBadParam),
    (!deferred s a || queueRoom s true, stQuota)]
    (.issue (if deferred s a then stDeferred else stPending) (work c [a.ident]), submit s a) s

/-- MAINT_START (R513). -/
def execMaintStart (m : MsgSrc) (s : State) : Host.Outcome State Fault Refusal :=
  serve ⟨0x901, .ws0, true, true, some 32⟩ m maintStart s

/-- An activity that is cancelled: it stops, and its ticket completes with ST_CANCELLED. What the activity was doing is
given up; work already done stays done (R514). -/
def stopActivity (s : State) (a : Activity) : State :=
  let t := dropActivity s a.ident
  let l := t.live
  let t := match a.code with
    | 5 => { t with live := { l with
        recals := l.recals.filter (·.act != a.ident)
        caneRetires := l.caneRetires.filter (·.act != a.ident) } }
    | 6 => { t with live := { l with
        staging := l.staging.filter fun r => r.2.2 != a.ident
        ucode := l.ucode.filter fun r => r.2.2 != a.ident } }
    | 7 => { t with live := { l with stackRetires := l.stackRetires.filter (·.act != a.ident) } }
    | 8 => { t with sessions := t.sessions.map fun x =>
        if x.ticket = a.ticket ∧ x.annealPhase = 3 then { x with state := 1, annealPhase := 0, roll := none, ticket := none } else x }
    | _ => t
  match a.ticket with
  | some k => finishTicket t k stCancelled []
  | none => t

/-- MAINT_CANCEL (R514). -/
def maintCancel (c : Ctx) (s : State) : Answer × State :=
  match (s.rack.running ++ s.rack.queued).find? (·.ident == fld c.data 0 4) with
  | none => refuse stBadParam s
  | some a =>
    checked [(zeroAt c.data 4 4, stBadParam), (a.code != 4 || a.command, stBadParam)]
      (.issue stPending (doneWork c [a.ident] stOk []), stopActivity s a) s

/-- MAINT_CANCEL (R514). -/
def execMaintCancel (m : MsgSrc) (s : State) : Host.Outcome State Fault Refusal :=
  serve ⟨0x902, .ws0, true, true, some 8⟩ m maintCancel s

/-- Table: MAINT_STATUS entry (R515). -/
def activityEntry (queued : Bool) (a : Activity) : List Byte :=
  leBytes 4 a.ident ++ leBytes 1 a.code ++ leBytes 1 (b2n queued) ++ leBytes 1 (b2n a.command) ++
  leBytes 1 a.scopeKind ++ leBytes 2 a.unit ++ leBytes 2 a.rounds ++ zeros 4 ++ leBytes 8 a.object ++ leBytes 8 a.since

/-- MAINT_STATUS's result: counts, then up to 16 entries from the first entry number on. -/
def maintStatus (s : State) (first : Nat) : List Byte :=
  let l := s.rack.running.map (activityEntry false) ++ s.rack.queued.map (activityEntry true)
  leBytes 2 s.rack.running.length ++ leBytes 2 s.rack.queued.length ++ zeros 4 ++ ((l.drop first).take 16).flatten

/-- MAINT_STATUS (R515). -/
def execMaintStatus (m : MsgSrc) (s : State) : Host.Outcome State Fault Refusal :=
  serve ⟨0x903, .ws0, true, false, some 8⟩ m (fun c t =>
    checked [(zeroAt c.data 4 4, stBadParam)] (.reply stOk (maintStatus t (fld c.data 0 4)), t) t) s

/-- Whether a component is of Table: Component kinds and present (R495). -/
def componentThere (s : State) (kind idx : Nat) : Bool :=
  match kind with
  | 1 => decide (idx < 65536) && stackThere s (idx / 4096)
  | 2 => stackThere s idx
  | 3 => decide (idx < 128)
  | 4 => decide (idx < 512)
  | 5 => decide (idx < 64)
  | 6 => decide (idx / 256 < 32) && decide (idx / 16 % 16 < 2)
  | 7 => decide (idx < 32)
  | 8 => decide (idx < 4)
  | 9 => decide (idx < 256) && (getFChan s (idx / 8)).targets.any fun t => t.1 == idx % 8
  | 10 => decide (idx < 8) && (getGroup s idx).state != 0
  | 11 => idx == 0
  | _ => false

/-- Table: HEALTH_INFO result (R495). -/
def healthInfo (s : State) (kind idx : Nat) : List Byte :=
  let x := getScore s kind idx
  leBytes 1 kind ++ leBytes 1 x.state ++ leBytes 1 (b2n (s.rack.auto_.getD kind false)) ++ zeros 1 ++ leBytes 4 idx ++
  leBytes 4 x.score ++ leBytes 4 x.peak ++ leBytes 4 x.events ++ leBytes 2 x.lastEvent ++ zeros 2 ++
  leBytes 8 x.lastTime ++ leBytes 4 (s.rack.watch.getD kind 256) ++ leBytes 4 (s.rack.act.getD kind 1024) ++ zeros 8

/-- HEALTH_INFO (R495). -/
def execHealthInfo (m : MsgSrc) (s : State) : Host.Outcome State Fault Refusal :=
  serve ⟨0x904, .ws0, true, false, some 8⟩ m (fun c t =>
    let k := fld c.data 0 1
    let i := fld c.data 4 4
    checked [(zeroAt c.data 1 3 && componentThere t k i, stBadParam)] (.reply stOk (healthInfo t k i), t) t) s

/-- HEALTH_SET (R496): AUTO and thresholds of a kind; a lowered threshold acts at once on the scores that stand at or
above it, which scoring each with no points does. -/
def healthSet (c : Ctx) (s : State) : Answer × State :=
  let d := c.data
  let k := fld d 0 1
  let w := if fld d 4 4 = 0 then s.rack.watch.getD k 256 else fld d 4 4
  let a := if fld d 8 4 = 0 then s.rack.act.getD k 1024 else fld d 8 4
  let t := { s with rack := { s.rack with
    watch := setAt s.rack.watch k w, act := setAt s.rack.act k a, auto_ := setAt s.rack.auto_ k (fld d 1 1 == 1) } }
  let again := (t.rack.scores.filter fun p => p.1 / 2 ^ 20 == k).foldl (fun u p =>
    let x := getScore u k (p.1 % 2 ^ 20)
    if x.events = 0 then u
    else
      let v := score u k (p.1 % 2 ^ 20) 0 x.lastEvent
      putScore v k (p.1 % 2 ^ 20) { getScore v k (p.1 % 2 ^ 20) with events := x.events, lastTime := x.lastTime }) t
  checked [(zeroAt d 2 2 && zeroAt d 12 4, stBadParam),
    (decide (1 ≤ k) && decide (k ≤ 11) && decide (fld d 1 1 ≤ 1), stBadParam),
    (decide (16 ≤ w) && decide (w < a) && decide (a ≤ 2 ^ 31), stBadParam)] (.reply stOk [], again) s

/-- HEALTH_SET (R496). -/
def execHealthSet (m : MsgSrc) (s : State) : Host.Outcome State Fault Refusal :=
  serve ⟨0x905, .ws0, false, false, some 16⟩ m healthSet s

/-- One minute's decay of a score; below half the watch threshold both events are armed again (R492, R493). -/
def decayScore (s : State) (k : Nat) (x : Score) : Score :=
  let v := x.score * 65410 / 65536
  if v * 2 < s.rack.watch.getD (k / 2 ^ 20) 256 then
    { x with score := v, watchSent := false, actSent := false, state := if x.state = 3 then 3 else 0 }
  else { x with score := v }

/-- SCORE_DECAY (R492): once per minute. -/
def execScoreDecay (s : State) : Host.Outcome State Fault Refusal :=
  .next (when (inRun s && elapsed s s.rack.decayAt 60000000000) (fun t =>
    { t with rack := { t.rack with
      decayAt := ns t, scores := t.rack.scores.map fun p => (p.1, decayScore t p.1 p.2) } }) s)

/-- CORE_FAULT (R492): a parity or watchdog fault of a punty core or a jack unit. -/
def execCoreFault (jack : Bool) (inst : Nat) (s : State) : Host.Outcome State Fault Refusal :=
  guarded "CORE_FAULT" (decide (inst < if jack then 64 else 512)) (when (inRun s) (fun t =>
    score (emit t 0x0304 (if jack then 5 else 3) inst inst 0 0) (if jack then 5 else 4) inst 64 0x0304) s)

/-! ## Groups -/

/-- This device's member number of a group. -/
def memberOf (s : State) (m : Membership) : Option Nat := m.members.findIdx? (· == fabricDev s)

/-- Whether a group holds an object of a workspace (R516). -/
def groupHolds (s : State) (gid ws : Nat) : Bool :=
  (s.indexes.any fun p => p.2.ws == ws && p.2.gid == gid) ||
  (s.tables.any fun t => t.2.ws == ws && fld t.2.params 28 4 == gid) ||
  (s.sessions.any fun x => x.ws == ws && x.group == gid)

/-- Table: GROUP_INFO result (R516). -/
def groupInfo (s : State) (g : Group) : List Byte :=
  let n := fun k => (g.mem.roles.filter fun r => r.state == k).length
  leBytes 4 g.mem.group ++ leBytes 1 g.lease ++ leBytes 1 ((memberOf s g.mem).getD 0xFF) ++
  leBytes 2 g.mem.members.length ++ leBytes 8 g.mem.epoch ++ leBytes 8 (if g.lease = 1 then g.expiry else 0) ++
  leBytes 4 (n 0) ++ leBytes 4 (n 1) ++ leBytes 4 (n 2) ++ leBytes 4 (n 3) ++ leBytes 2 g.mem.gateway ++ zeros 22

/-- GROUP_INFO (R516). -/
def execGroupInfo (m : MsgSrc) (s : State) : Host.Outcome State Fault Refusal :=
  serve ⟨0x706, .own, false, false, some 8⟩ m (fun c t =>
    match findGroup t (fld c.data 0 4) with
    | some g => checked [(zeroAt c.data 4 4, stBadParam), (groupHolds t g.mem.group c.ws, stNoAuth)]
        (.reply stOk (groupInfo t g), t) t
    | none => checked [(zeroAt c.data 4 4, stBadParam)] (refuse stNoAuth t) t) s

end Sys2Proof.Machine
end

