-- ==== Sys2Proof/Machine/BootOps.lean ====
section
/-!
DEFINITION. Start-up as shared operations (14): the boot record, the choice of slots, the image, what a power cycle
keeps, and stops.
-/

namespace Sys2Proof.Machine

/-! ## Image (R387 to R389) -/

/-- Lengths and ranges of Table: Image settings; none for an ID outside it. -/
def settingOk (powerCeil eraseCeil : Nat) (id len : Nat) (v : List Byte) : Option Bool :=
  let n := leNat v
  let within := fun (l lo hi : Nat) => decide (len = l) && decide (lo ≤ n) && decide (n ≤ hi)
  match id with
  | 0x0001 => some (within 2 0 1023)
  | 0x0002 => some (within 1 1 8)
  | 0x0003 => some (within 1 0 16 && (n == 0 || decide (8 ≤ n)))
  | 0x0004 => some (within 1 1 168)
  | 0x0005 => some (within 2 0 10000)
  | 0x0006 => some (within 2 500 50000)
  | 0x0007 => some (within 1 0 1)
  | 0x0008 => some (decide (len = 105) && fld v 8 1 == 4)
  | 0x0010 => some (within 2 1000 powerCeil)
  | 0x0011 => some (within 4 100 44800)
  | 0x0012 => some (within 2 100 1400)
  | 0x0013 => some (within 2 1 eraseCeil)
  | 0x0014 => some (within 1 0 0xFF)
  | 0x0020 => some (within 2 100 10000)
  | _ => none

/-- Put one record's value into the settings (R390). -/
def applySetting (x : Settings) (id : Nat) (v : List Byte) : Settings :=
  let n := leNat v
  match id with
  | 0x0001 => { x with rackId := n }
  | 0x0002 => { x with il := n }
  | 0x0003 => { x with nStacks := n }
  | 0x0004 => { x with scrubPeriodH := n }
  | 0x0005 => { x with coarseWindowNs := n }
  | 0x0006 => { x with subreqTimeoutUs := n }
  | 0x0007 => { x with requireSigned := n == 1 }
  | 0x0008 => { x with programKeys := x.programKeys ++ [⟨beNat (v.take 8), v.drop 8⟩] }
  | 0x0010 => { x with powerCap := n }
  | 0x0011 => { x with egressDev := n }
  | 0x0012 => { x with egressPort := n }
  | 0x0013 => { x with eraseRate := n }
  | 0x0014 => { x with laserFeedEn := n }
  | 0x0020 => { x with wearSpreadLimit := n }
  | _ => x

/-- The setting records of a body, `n` of them: none where one is invalid or the body does not hold exactly them. -/
def parseRecords (powerCeil eraseCeil : Nat) : (n : Nat) → (seen : List Nat) → List Byte → Settings → Option Settings
  | 0, _, l, x => if l.isEmpty then some x else none
  | n + 1, seen, l, x =>
    let id := fld l 0 2
    let len := fld l 2 2
    let span := 8 + cdiv len 8 * 8
    let v := slice l 8 len
    if l.length < span ∨ !zeroAt l 4 4 ∨ !zeroAt l (8 + len) (span - 8 - len) then none
    else if (id ≠ 8 ∧ seen.contains id) ∨ (id = 8 ∧ (seen.filter (· == 8)).length = 16) then none
    else
      match settingOk powerCeil eraseCeil id len v with
      | some true => parseRecords powerCeil eraseCeil n (id :: seen) (l.drop span) (applySetting x id v)
      | some false => none
      | none => if bit id 15 then parseRecords powerCeil eraseCeil n (id :: seen) (l.drop span) x else none

/-- Whether a header and its signature verify (R387, R388). -/
def imageHeadOk (f : Fuses) (l : List Byte) : Bool :=
  let key := slice l 112 97
  decide (512 ≤ l.length) && fld l 0 4 == 0x42554D51 && fld l 4 2 == 1 && fld l 6 2 == 512 && fld l 8 4 != 0 &&
  decide (8 ≤ fld l 16 4) && decide (fld l 16 4 ≤ 4194304 - 512) && decide (1 ≤ fld l 20 4) &&
  decide (fld l 20 4 ≤ 4096) && zeroAt l 32 32 && zeroAt l 209 207 && fld key 0 1 == 4 &&
  Config.ecdsaVerify key (Config.sha384 (l.take 416)) (slice l 416 96) &&
  ((List.range 4).any fun i => f.ownerDigests.getD i 0 == Config.sha384 key && !f.ownerRevoked.getD i true) &&
  (fld l 24 8 == 0 || fld l 24 8 == f.serial)

/-- The body of a slot, and whether it holds its digest (R388). -/
def imageBody (l : List Byte) : List Byte := (l.drop 512).take (fld l 16 4)

/-- The settings of a valid image under a firmware revision; none where it is invalid (R388). -/
def imageSettings (f : Fuses) (fwVersion : Nat) (l : List Byte) : Option Settings :=
  if imageHeadOk f l && decide (fld l 12 4 ≤ fwVersion) && (imageBody l).length == fld l 16 4 &&
      beNat (slice l 64 48) == Config.sha384 (imageBody l) then
    parseRecords f.powerCapCeil f.eraseCeil (fld l 20 4) [] (imageBody l)
      (defaultSettings f.powerCapCeil f.eraseCeil)
  else none

/-! ## Choosing slots (R386) -/

/-- The strapped BOOT_MODE. -/
def bootMode (s : State) : Nat := bits s.boot.straps 7 6

/-- Whether BOOT_MODE allows a slot: false A, true B. -/
def modeAllows (mode : Nat) (slot : Bool) : Bool := mode == 0 || (mode == 1 && !slot) || (mode == 2 && slot)

/-- The trial and failed bit of a slot of a kind: 0 firmware, 1 image. -/
def slotBit (kind : Nat) (slot : Bool) : Nat := 2 * kind + b2n slot

/-- Mark a slot failed: its failed bit set, its trial bit cleared. -/
def markFailed (s : State) (kind : Nat) (slot : Bool) : State :=
  setBootRec s fun r => { r with failed := withBit r.failed (slotBit kind slot) true,
                                 trial := withBit r.trial (slotBit kind slot) false }

/-- The slots of a kind that are considered, after those that failed to reach RUN are dropped (R386 steps 1, 2). -/
def considered (s : State) (kind : Nat) : List Bool × State :=
  [false, true].foldl (fun (a : List Bool × State) slot =>
    let r := (bootRec a.2.boot.flash).1
    let i := slotBit kind slot
    if !modeAllows (bootMode s) slot || bit r.failed i then a
    else if bit r.trial i then (a.1, markFailed a.2 kind slot)
    else (a.1 ++ [slot], a.2)) ([], s)

/-- Try slots by version, slot A on a tie: the chosen slot's trial bit is set, and a body that fails drops it
(R386 steps 3, 4). -/
def chooseSlot (kind : Nat) (version : Bool → Option Nat) (bodyOk : Bool → Bool) :
    Nat → List Bool → State → Option Bool × State
  | 0, _, s => (none, s)
  | n + 1, l, s =>
    let ok := l.filter fun x => (version x).isSome
    match ok with
    | [] => (none, s)
    | a :: t =>
      let best := t.foldl (fun b x => if (version b).getD 0 < (version x).getD 0 then x else b) a
      let u := setBootRec s fun r => { r with trial := withBit r.trial (slotBit kind best) true }
      if bodyOk best then (some best, u)
      else chooseSlot kind version bodyOk n (ok.filter (· != best)) (markFailed u kind best)

/-- A firmware slot of the boot flash. -/
def fwSlotOf (f : BootFlash) (slot : Bool) : Option FwPackage := if slot then f.fwB else f.fwA

/-- An image slot of the boot flash. -/
def imgSlotOf (f : BootFlash) (slot : Bool) : List Byte := if slot then f.imgB else f.imgA

/-- The firmware slot that R386 chooses. -/
def chooseFw (s : State) : Option Bool × State :=
  let c := considered s 0
  chooseSlot 0 (fun x => match fwSlotOf s.boot.flash x with
    | some p => if p.signed then some p.version else none
    | none => none)
    (fun x => match fwSlotOf s.boot.flash x with | some p => p.bodyOk | none => false) 2 c.1 c.2

/-- The image slot that R386 chooses under a firmware revision. -/
def chooseImg (s : State) (fwVersion : Nat) : Option Bool × State :=
  let c := considered s 1
  chooseSlot 1 (fun x => if imageHeadOk s.fuse (imgSlotOf s.boot.flash x) then
      some (fld (imgSlotOf s.boot.flash x) 8 4) else none)
    (fun x => (imageSettings s.fuse fwVersion (imgSlotOf s.boot.flash x)).isSome) 2 c.1 c.2

/-! ## Stops and power cycles -/

/-- The bytes of a text. -/
def asciiBytes (t : String) : List Byte := t.toList.map fun c => BitVec.ofNat 8 c.toNat

/-- Decimal digits. -/
def decimal (n : Nat) : List Byte := asciiBytes (toString n)

/-- The stage that a stop code belongs to. -/
def stopStage (code : Nat) : String :=
  if code ≤ 2 then "POWER" else if code ≤ 4 then "STRAP" else if code = 7 then "DISCOVER" else "BOOT"

/-- The stop line: BAMGOR STOP, the code in decimal and the stage name (R379). -/
def stopText (code : Nat) : List Byte := asciiBytes "BAMGOR STOP " ++ decimal code ++ asciiBytes (" " ++ stopStage code)

/-- Send the stop line. -/
def sendStopLine (s : State) : State :=
  { s with boot := { s.boot with lastLine := ns s }, svc := { s.svc with uart := s.svc.uart ++ [stopText s.boot.stopCode] } }

/-- End start-up with a stop code: kept in the boot record, and sent on the UART (R379). -/
def stopWith (s : State) (code : Nat) : State :=
  let t := setBootRec s fun r => { r with lastStop := code, straps := s.boot.straps }
  sendStopLine { t with boot := { t.boot with stage := .stopped, stopCode := code, since := ns s } }

/-- A map unit whose write had not reached the media when power went: it is found whole in its earlier or its new
state, and the spec does not say which (R466, R467). -/
def revertUnit (s : State) (b : Nat × Nat × Option MapUnit) : State :=
  let (keep, t) := drawFree s 1
  if keep = 1 then t
  else
    let x := getGroup t b.1
    let fb := x.fblocks.map fun p => (p.1, { p.2 with units := p.2.units.filter (· != b.2.1) })
    match b.2.2 with
    | none => putGroup t b.1 { x with units := x.units.filter (·.1 != b.2.1), fblocks := fb }
    | some m => putGroup t b.1 { x with
        units := x.units.map fun p => if p.1 = b.2.1 then (p.1, m) else p
        fblocks := fb.map fun p => if p.1 = m.block then (p.1, { p.2 with units := p.2.units ++ [b.2.1] }) else p }

/-- Power goes before the write buffers are programmed (R566, R575). -/
def loseBuffers (s : State) : State := s.flash.buffered.foldl revertUnit s

/-- What a session keeps when memory is not saved: its record with the images of it, each a manifest in stripes, as
ANNEALED (R282, R288) (DEDUCED, assumption 97). -/
def keptSession (x : Session) : Option Session :=
  if x.images.isEmpty then none
  else some { x with
    state := 3, handle := 0, blocks := [], blockMap := [], journal := [], appends := [], oldKv := [], regions := [],
    freePos := [], freeKv := [], staging := [], mapPage := none, annealPhase := 0, roll := none, ticket := none, destroy := [], refs := 0 }

/-- The logic rails go off: what is neither fused nor on flash takes its After reset value. `after` says when the device
starts again: 0 at 40.0 V, 1 once the input has been below 10 V for 1 s, 2 once the status link is valid. -/
def railsOff (s : State) (after : Nat) : State :=
  { State.reset with
    fuse := s.fuse
    boot := { resetBoot with flash := s.boot.flash }
    clk := { resetClock with cycles := s.clk.cycles }
    evr := { resetRecorder with archive := s.evr.archive, archNext := s.evr.archNext, archOldest := s.evr.archOldest }
    fab := { resetFabric with connPresent := s.fab.connPresent, connAt := s.fab.connAt }
    sessions := s.sessions.filterMap keptSession
    flash := { resetFlash with
      groups := s.flash.groups.map fun g => { g with
        state := 0, openBlock := none, offline := none, online := [], reclaiming := false,
        streams := g.streams.map fun st => { st with striped := 0 } }
      sets := s.flash.sets, nextSet := s.flash.nextSet, nextStream := s.flash.nextStream, pinned := s.flash.pinned }
    power := { resetPower with
      vin := s.power.vin, trip := s.power.trip, lastTrip := s.power.lastTrip, after := after, outAt := ns s,
      lastFrame := s.power.lastFrame }
    svc := { resetService with rstIgnored := s.svc.rstIgnored, uart := s.svc.uart }
    free := s.free
    pending := s.pending }

/-- POWER begins (R378). -/
def enterPower (s : State) : State := { s with boot := { s.boot with stage := .power, since := ns s } }

/-- The rails are off; the device starts again at once where its input still stands above 40.0 V (R574, R592). -/
def restart (s : State) : State :=
  let t := railsOff s 0
  if 40000 ≤ s.power.vin then enterPower t else t

end Sys2Proof.Machine
end

