-- ==== Sys2Proof/Machine/Boot.lean ====
section
/-!
DEFINITION. Start-up rows (14, with the straps and phases of 24).
-/

namespace Sys2Proof.Machine

/-! ## POWER -/

/-- INPUT_RISE (R378): an input above 40.0 V starts POWER, unless a trip still holds the entry switch (R566). -/
def execInputRise (vin : Nat) (s : State) : Host.Outcome State Fault Refusal :=
  .next (when (decide (s.boot.stage = .off) && decide (40000 ≤ vin) && s.power.after == 0)
    (fun t => enterPower { t with power := { t.power with vin := vin, trip := 0, entryOn := true } }) s)

/-- RAILS_TIMEOUT (R378, R379): stop code POWER, or CLOCK once the rails are in regulation. -/
def execRailsTimeout (railsOk : Bool) (s : State) : Host.Outcome State Fault Refusal :=
  .next (when (decide (s.boot.stage = .power)) (fun t =>
    stopWith { t with boot := { t.boot with railsOk := railsOk } } (if railsOk then 2 else 1)) s)

/-- STRAP begins with the counter at 0 and the strap contacts driven (R378, R551, R582). -/
def enterStrap (s : State) : State :=
  { s with
    clk := resetClock
    boot := { s.boot with stage := .strap, since := 0, railsOk := true }
    svc := { s.svc with phase := 1 } }

/-- POWER_ON_RESET_RELEASE (R378). -/
def execPowerOnResetRelease (s : State) : Host.Outcome State Fault Refusal :=
  .next (when (decide (s.boot.stage = .power)) enterStrap s)

/-! ## STRAP -/

/-- The level of a measured voltage in mV (R584). -/
def strapLevel (mv : Nat) : Nat := if 800 ≤ mv then 0 else if 350 ≤ mv then 1 else if 100 ≤ mv then 2 else 3

/-- The level of a contact whose samples all agree (R585). -/
def contactLevel : List Nat → Option Nat
  | [] => none
  | a :: t => if t.all fun x => strapLevel x == strapLevel a then some (strapLevel a) else none

/-- The strap word from the levels of SVC0, SVC2 to SVC5 and SVC11, two bits each (R584). -/
def strapWord : List Nat → Nat
  | [] => 0
  | l :: t => l + 4 * strapWord t

/-- Sampling ends: a contact whose samples differ, or SPI_RATE 3, is a STRAP stop; HOLDUP_OK 0 a HOLDUP stop; else the
guard interval begins (R379, R381, R585) (DESIGN CHOICE, assumption 147). -/
def strapSample (mv : List (List Nat)) (s : State) : State :=
  match mv.mapM contactLevel with
  | none => stopWith s 3
  | some l =>
    let w := strapWord l
    let t := { s with boot := { s.boot with straps := w } }
    if bits w 9 8 = 3 then stopWith t 3
    else if !bit w 10 then stopWith t 4
    else { t with boot := { t.boot with stage := .strapGuard, since := ns t }, svc := { t.svc with phase := 4 } }

/-- STRAP_SAMPLE (R584): 16 samples of each of the six strap contacts. -/
def execStrapSample (mv : List (List Nat)) (s : State) : Host.Outcome State Fault Refusal :=
  guarded "STRAP_SAMPLE" (mv.length == 6 && mv.all fun l => l.length == 16)
    (when (decide (s.boot.stage = .strap) && elapsed s s.boot.since 200000) (strapSample mv) s)

/-- The service port takes its next phase; DISCOVER finds its cane engines and senses again what comes with it
(R378, R582, R592). -/
def guardEnd (s : State) : State :=
  if s.boot.stage = .strapGuard then
    { s with boot := { s.boot with stage := .boot, since := ns s }, svc := { s.svc with phase := 2, rstIgnored := false } }
  else
    { s with
      boot := { s.boot with stage := .discover, since := ns s, lastLine := ns s }
      svc := { s.svc with phase := 3 }
      fab := { s.fab with canesAnswered := 15 - s.fab.canesRetired } }

/-- GUARD_INTERVAL_END (R582): after 100 µs. -/
def execGuardIntervalEnd (s : State) : Host.Outcome State Fault Refusal :=
  .next (when ((decide (s.boot.stage = .strapGuard) || decide (s.boot.stage = .bootGuard)) &&
    elapsed s s.boot.since 100000) guardEnd s)

/-! ## BOOT -/

/-- BOOT reads the boot flash and its record; EV_POWER_ON is record 0 of the life (R384, R518). -/
def readBootFlash (flash : Option BootFlash) (s : State) : State :=
  let f := flash.getD s.boot.flash
  let r := (bootRec f).1
  let t := { s with
    boot := { s.boot with flash := f, lastStop := r.lastStop }
    mem := { s.mem with layout := { s.mem.layout with retired := r.stacksRetired } }
    fab := { s.fab with canesRetired := bits r.canesRetired 3 0 } }
  emitDev t 0x0101 r.sequence r.lastStop s.boot.straps

/-- The settings come into force: the guard's RWL fields from layers 1 and 2, the RW fields equal to them (R390). -/
def applyImage (s : State) (x : Settings) : State :=
  { s with
    boot := { s.boot with settings := x }
    mem := { s.mem with layout := { s.mem.layout with il := x.il } }
    guard := { s.guard with
      powerCap := x.powerCap, powerCapActive := x.powerCap, egressDev := x.egressDev, egressDevActive := x.egressDev,
      egressPort := x.egressPort, eraseRate := x.eraseRate, laserFeedEn := x.laserFeedEn }
    flash := { s.flash with wearLimit := x.wearSpreadLimit } }

/-- The boot ROM chooses, verifies and reads firmware, then image (R385 to R390); stop codes FW_NONE and
IMAGE_NONE. -/
def bootLoad (flash : Option BootFlash) (s : State) : State :=
  let (fw, t) := chooseFw (readBootFlash flash s)
  match fw, fw.bind (fwSlotOf t.boot.flash) with
  | some slot, some p =>
    let t := { t with
      boot := { t.boot with fwSlot := slot, fwVersion := p.version }
      mem := { t.mem with layout := { t.mem.layout with ucodeRev := p.ucodeRev } }
      live := { t.live with runningHandover := p.handover } }
    let (img, u) := chooseImg t p.version
    match img with
    | some i =>
      let l := imgSlotOf u.boot.flash i
      match imageSettings u.fuse p.version l with
      | some x =>
        let v := applyImage u x
        { v with
          boot := { v.boot with imgSlot := i, imgVersion := fld l 8 4, stage := .bootGuard, since := ns v }
          svc := { v.svc with phase := 4 } }
      | none => stopWith u 6
    | none => stopWith u 6
  | _, _ => stopWith t 5

/-- BOOT_LOAD (R386): what the sled's boot flash holds, or what the device left in it. -/
def execBootLoad (flash : Option BootFlash) (s : State) : Host.Outcome State Fault Refusal :=
  .next (when (decide (s.boot.stage = .boot) && bootMode s != 3) (bootLoad flash) s)

/-- Write a firmware slot: its failed bit clears (R386). -/
def writeFwSlot (s : State) (slot : Bool) (p : FwPackage) : State :=
  let f := s.boot.flash
  setBootRec { s with boot := { s.boot with flash := if slot then { f with fwB := some p } else { f with fwA := some p } } }
    fun r => { r with failed := withBit r.failed (slotBit 0 slot) false }

/-- A package that passes the check goes to the slot not in use, which is the one R386 would not choose; start-up then
stops with RECOVERY (R382). -/
def recoveryLoad (p : FwPackage) (s : State) : State :=
  let t := readBootFlash none s
  let inUse := (chooseFw { t with boot := { t.boot with straps := t.boot.straps - 192 } }).1
  let slot := match inUse with | some x => !x | none => false
  stopWith (if p.signed && p.bodyOk then writeFwSlot t slot p else t) 8

/-- RECOVERY_LOAD (R382). -/
def execRecoveryLoad (pkg : FwPackage) (s : State) : Host.Outcome State Fault Refusal :=
  .next (when (decide (s.boot.stage = .boot) && bootMode s == 3) (recoveryLoad pkg) s)

/-- STOP_LINE (R379): one line on the UART each second. -/
def execStopLine (s : State) : Host.Outcome State Fault Refusal :=
  .next (when (decide (s.boot.stage = .stopped) && elapsed s s.boot.lastLine 1000000000) sendStopLine s)

/-! ## DISCOVER -/

/-- Whether a stack is discovered: present and not retired (R391). -/
def stackTried (s : State) (i : Nat) : Bool :=
  decide (i < if s.fuse.is6412 then 12 else 16) && !bit s.mem.layout.retired i

/-- The stacks that pass every step within 200 ms. -/
def usableStacks (s : State) (steps : List Nat) : List Nat :=
  (List.range 16).filter fun i => stackTried s i && steps.getD i 1 == 0

/-- N from N_STACKS and the usable count (R391). -/
def chosenN (want usable : Nat) : Nat := if want = 0 ∨ usable < want then usable else want

/-- Discovery of the stacks (R391): each failure is recorded and scored; N and STACK_MAP are fixed. -/
def stackDiscovery (steps : List Nat) (s : State) : State :=
  let t := ((List.range 16).filter fun i => stackTried s i && steps.getD i 1 != 0).foldl (fun u i =>
    score (emit u 0x0104 6 (i * 16) i (steps.getD i 1) 0) 2 i 4096 0x0104) s
  let ok := usableStacks s steps
  let want := s.boot.settings.nStacks
  if ok.length < 8 then stopWith t 7
  else
    let n := chosenN want ok.length
    let u := { t with
      boot := { t.boot with stacksDone := true }
      mem := { resetMem with layout := { t.mem.layout with stackMap := ok.take n } } }
    if ok.length < want then emitDev u 0x0105 want ok.length 0 else u

/-- STACK_DISCOVERY (R391): for each stack the step that failed, 0 for none. -/
def execStackDiscovery (steps : List Nat) (s : State) : Host.Outcome State Fault Refusal :=
  guarded "STACK_DISCOVERY" (steps.length == 16 && steps.all fun x => decide (x ≤ 5))
    (when (decide (s.boot.stage = .discover) && !s.boot.stacksDone) (stackDiscovery steps) s)

/-- A gateway has answered hello, on an uplink or through a mesh peer (R394): its device number (DEDUCED, assumption 83). -/
def firstGateway (s : State) : Option Nat :=
  match uplinks.find? fun u => portUp s u && (getPort s u).partner.status == 1 && (getPort s u).partner.role == 1 with
  | some u => some (getPort s u).partner.device
  | none => ((s.fab.peers.flatMap (·.2)).find? fun l => l.usable && l.role == 1).map (·.device)

/-- The conditions of R394 that are unmet: bit 0 N, bit 1 a flash target, bit 2 a gateway. -/
def unmet (s : State) : Nat :=
  b2n (!s.boot.stacksDone) + 2 * b2n (!(s.flash.chans.any fun c => !c.targets.isEmpty)) +
    4 * b2n (firstGateway s).isNone

/-- Entry to RUN, in one step (R395) (DEDUCED, assumption 94). -/
def runEntry (s : State) : State :=
  let t := setBootRec s fun r => { r with trial := 0, lastStop := 0, straps := s.boot.straps }
  let u := { t with
    boot := { t.boot with stage := .run, since := ns t }
    guard := { t.guard with locked := true }
    wss := Tab.insert t.wss 0 { freeWs with state := 1, wflags := 1 }
    fns := Tab.insert t.fns 0 { resetFunc with state := 1, ws := 0, gateway := (firstGateway s).getD 0 }
    svc := { t.svc with runOk := true }
    therm := { t.therm with reportAt := ns t } }
  emitDev u 0x0103 0 0 0

/-- RUN_ENTRY (R395). -/
def execRunEntry (s : State) : Host.Outcome State Fault Refusal :=
  .next (when (decide (s.boot.stage = .discover) && unmet s == 0) runEntry s)

/-- START_WAIT (R394): every 10 s, naming the unmet conditions. -/
def execStartWait (s : State) : Host.Outcome State Fault Refusal :=
  .next (when (decide (s.boot.stage = .discover) && unmet s != 0 && elapsed s s.boot.lastLine 10000000000)
    (fun t => emitDev { t with boot := { t.boot with lastLine := ns t } } 0x0102 (unmet t) 0 0) s)

/-- INPUT_DROP_BEFORE_RUN (R380): below 38 V for 20 µs before RUN. -/
def execInputDropBeforeRun (vin : Nat) (s : State) : Host.Outcome State Fault Refusal :=
  .next (when (decide (s.boot.stage ≠ .off) && decide (s.boot.stage ≠ .run) && decide (vin < 38000))
    (fun t => railsOff { t with power := { t.power with vin := vin } } 0) s)

/-- I3C_ENTDAA (R590): the management controller gives a dynamic address. -/
def execI3cEntdaa (addr : Nat) (s : State) : Host.Outcome State Fault Refusal :=
  guarded "I3C_ENTDAA" (decide (addr < 128))
    (when (bit s.boot.straps 11 && s.svc.phase == 3 && s.svc.i3cAddr.isNone)
      (fun t => { t with svc := { t.svc with i3cAddr := some addr } }) s)

end Sys2Proof.Machine
end

