-- ==== Sys2Proof/Machine/Live.lean ====
section
/-!
DEFINITION. Live service (21): staging, firmware handover, microcode, recalibration, retirements and the drain.
-/

namespace Sys2Proof.Machine

/-! ## FW_STAGE -/

/-- The package in a byte string (R385; DESIGN CHOICE, assumption 18). -/
def packageOf (l : List Byte) : FwPackage :=
  let (signed, ok, v, h, u) := Config.packageInfo l
  ⟨signed, ok, v, h, u, l.length⟩

/-- The source of a FW_STAGE. -/
def stageSource (s : State) (d : List Byte) : List Byte := readBytes s.mem (fld d 8 8) (fld d 16 4)

/-- Whether the size of a source fits its kind (Table: FW_STAGE payload). -/
def stageSizeOk (s : State) (d : List Byte) : Bool :=
  let n := fld d 16 4
  if fld d 0 1 = 0 then decide (1 ≤ n) && decide (n ≤ 2 ^ 24)
  else decide (512 ≤ n) && n == 512 + fld (stageSource s d) 16 4

/-- Whether the signature of a source verifies, and whether it is valid otherwise (R531). -/
def stageSigned (s : State) (d : List Byte) : Bool :=
  let l := stageSource s d
  if fld d 0 1 = 0 then (packageOf l).signed
  else Config.ecdsaVerify (slice l 112 97) (Config.sha384 (l.take 416)) (slice l 416 96)

def stageValid (s : State) (d : List Byte) : Bool :=
  let l := stageSource s d
  if fld d 0 1 = 0 then (packageOf l).bodyOk else (imageSettings s.fuse s.boot.fwVersion l).isSome

/-- The slot in use of a kind, and the slot a FW_STAGE targets. -/
def inUse (s : State) (kind : Nat) : Bool := if kind = 0 then s.boot.fwSlot else s.boot.imgSlot
def stageSlot (s : State) (d : List Byte) : Bool :=
  if fld d 1 1 = 0xFF then !inUse s (fld d 0 1) else fld d 1 1 == 1

/-- Staged pages are freed by the next FW_STAGE of the same kind (R532). -/
def dropStaged (s : State) (kind : Nat) : State :=
  let t := (s.live.staged.filter (·.kind == kind)).foldl (fun u x => freePages u x.base) s
  { t with live := { t.live with staged := t.live.staged.filter (·.kind != kind) } }

/-- FW_STAGE (R531) (DEDUCED, assumption 98). -/
def fwStage (c : Ctx) (s : State) : Answer × State :=
  let d := c.data
  let kind := fld d 0 1
  let l := stageSource s d
  let a := newActivity s 6 true 0 0 0 0 (some c.ticket)
  let room := allocWindow (dropStaged s kind) 0 2 (cdiv l.length 65536)
  let run : Answer × State := match room with
    | none => refuse stQuota s
    | some (p, t) =>
      let x : Staged := ⟨kind, stageSlot s d, if kind = 0 then some (packageOf l) else none, if kind = 0 then [] else l, p⟩
      let t := { t with mem := store t.mem (p * 65536) l }
      let t := submit { t with live := { t.live with staging := t.live.staging ++ [(c.ticket, x, a.ident)] } } a
      (.issue (if deferred s a then stDeferred else stPending) (work c [a.ident]), t)
  checked [(zeroAt d 2 6 && zeroAt d 20 12, stBadParam),
    (decide (kind ≤ 1) && (fld d 1 1 == 0xFF || decide (fld d 1 1 ≤ 1)), stBadParam),
    (fld d 8 8 % 256 == 0 && bufferOk s 0 (fld d 8 8) (fld d 16 4) && stageSizeOk s d, stBadParam),
    (stageSigned s d, stNoAuth), (stageValid s d, stBadParam),
    (stageSlot s d != inUse s kind, stBadParam),
    (s.live.handover.isNone && s.live.ucode.isNone, stBadParam),
    (!deferred s a || queueRoom s true, stQuota)] run s

/-- FW_STAGE (R531). -/
def execFwStage (m : MsgSrc) (s : State) : Host.Outcome State Fault Refusal :=
  serve ⟨0x910, .ws0, true, true, some 32⟩ m fwStage s

/-- The slot is written and read back (R531): equal, its trial and failed bits clear and the package counts as staged;
a readback that differs leaves a slot that fails R386, taken as erased. -/
def finishStage (s : State) (t : TicketRef) (ok : Bool) : Option (Nat × List Byte × State) :=
  match s.live.staging.find? fun r => r.1 == t && actRuns s r.2.2 with
  | none => none
  | some (_, x, act) =>
    let u := dropActivity { s with live := { s.live with staging := s.live.staging.filter (·.1 != t) } } act
    let f := u.boot.flash
    let pkg := if ok then x.pkg else none
    let img := if ok then x.image else []
    let f' := match x.kind, x.slot with
      | 0, false => { f with fwA := pkg }
      | 0, true => { f with fwB := pkg }
      | _, false => { f with imgA := img }
      | _, true => { f with imgB := img }
    let u := { u with boot := { u.boot with flash := f' } }
    if ok then
      let version := match x.pkg with | some p => p.version | none => fld x.image 8 4
      let i := slotBit x.kind x.slot
      let v := setBootRec u fun r => { r with trial := withBit r.trial i false, failed := withBit r.failed i false }
      let v := { v with live := { v.live with staged := v.live.staged ++ [x] } }
      some (stOk, [BitVec.ofNat 8 (b2n x.slot), 0, 0, 0] ++ leBytes 4 version,
        emitDev v 0x0B01 x.kind (b2n x.slot) version)
    else some (stBadParam, [1, 0, 0, 0, 0, 0, 0, 0], freePages u x.base)

/-! ## Handover -/

/-- The firmware package staged in a slot in this life. -/
def stagedFw (s : State) (slot : Bool) : Option FwPackage :=
  (s.live.staged.find? fun x => x.kind == 0 && x.slot == slot).bind (·.pkg)

/-- The refusals that FW_ACTIVATE and UCODE_LOAD share (R533, R536). -/
def activateChecks (c : Ctx) (s : State) : List (Bool × Nat) :=
  let p := stagedFw s (fld c.data 0 1 == 1)
  [(zeroAt c.data 1 7 && decide (fld c.data 0 1 ≤ 1), stBadParam), (p.isSome, stBadParam),
    (match p with
      | some x => decide (fld (imgSlotOf s.boot.flash s.boot.imgSlot) 12 4 ≤ x.version)
      | none => false, stBadParam),
    (!(s.rack.running ++ s.rack.queued).any (·.code == 6), stBadParam),
    (s.live.handover.isNone && s.live.ucode.isNone, stBadParam)]

/-- FW_ACTIVATE (R533). -/
def fwActivate (c : Ctx) (s : State) : Answer × State :=
  let slot := fld c.data 0 1 == 1
  let sameHandover := match stagedFw s slot with | some x => x.handover == s.live.runningHandover | none => false
  checked (activateChecks c s ++ [(sameHandover, stBadParam)])
    (.issue stPending (work c []), { s with live := { s.live with handover := some ⟨1, slot, c.ticket, 0, []⟩ } }) s

/-- FW_ACTIVATE (R533). -/
def execFwActivate (m : MsgSrc) (s : State) : Host.Outcome State Fault Refusal :=
  serve ⟨0x911, .ws0, true, true, some 8⟩ m fwActivate s

/-- Whether no thread of a punty core is RUNNING. -/
def coreIdle (s : State) (core : Nat) : Bool :=
  s.hub.slots.all fun p => p.1 / 128 != core || decide (p.2.st ≠ .running)

/-- A punty core flips (R534). -/
def puntyFlip (core : Nat) (s : State) : State :=
  match s.live.handover with
  | some h => { s with live := { s.live with handover := some { h with phase := 2, newCores := h.newCores ++ [core] } } }
  | none => s

/-- Whether a handover waits for the flip of a core. -/
def flipDue (s : State) (core : Nat) : Bool :=
  match s.live.handover with
  | some h => decide (h.phase ≤ 2) && !h.newCores.contains core && coreIdle s core
  | none => false

/-- PUNTY_FLIP (R534). -/
def execPuntyFlip (core : Nat) (s : State) : Host.Outcome State Fault Refusal :=
  guarded "PUNTY_FLIP" (decide (core < 512)) (when (firmwareRuns s && flipDue s core) (puntyFlip core) s)

/-- The bench core sends RENEW for every group it belongs to, and flips; mailbox acceptance pauses (R534). -/
def benchFlip (s : State) : State :=
  let t := if withinBudget s then (s.rack.groups.filter fun g => belongs s g.mem).foldl sendRenew s else s
  match t.live.handover with
  | some h => { t with live := { t.live with handover := some { h with phase := 3, flippedAt := ns t } } }
  | none => t

/-- BENCH_FLIP (R534): after every punty core has flipped. -/
def execBenchFlip (s : State) : Host.Outcome State Fault Refusal :=
  .next (when (firmwareRuns s && match s.live.handover with
    | some h => h.phase == 2 && h.newCores.length == 512
    | none => false) benchFlip s)

/-- The new firmware confirms: DEV_INFO reports its slot, and the DONE message carries its revision (R534). -/
def fwConfirm (s : State) : State :=
  match s.live.handover with
  | none => s
  | some h =>
    let v := match stagedFw s h.slot with | some p => p.version | none => s.boot.fwVersion
    let t := { s with
      boot := { s.boot with fwSlot := h.slot, fwVersion := v }
      live := { s.live with handover := none } }
    finishTicket (emitDev t 0x0B02 (b2n h.slot) v 0) h.ticket stOk (leBytes 4 v ++ [BitVec.ofNat 8 (b2n h.slot), 0, 0, 0])

/-- FW_CONFIRM (R534): within 100 ms of the bench flip. -/
def execFwConfirm (s : State) : Host.Outcome State Fault Refusal :=
  .next (when (firmwareRuns s && match s.live.handover with
    | some h => h.phase == 3 && !elapsed s h.flippedAt 100000000
    | none => false) fwConfirm s)

/-- The guard flips every bank back (R535). -/
def fwRevert (s : State) : State :=
  match s.live.handover with
  | none => s
  | some h => finishTicket (emitDev { s with live := { s.live with handover := none } } 0x0B03 0 0 0) h.ticket stBadParam
      ([1] ++ zeros 7)

/-- FW_ACTIVATE_REVERTED (R535): no confirmation within 100 ms of the bench flip. -/
def execFwActivateReverted (s : State) : Host.Outcome State Fault Refusal :=
  .next (when (inRun s && match s.live.handover with
    | some h => h.phase == 3 && elapsed s h.flippedAt 100000000
    | none => false) fwRevert s)

/-! ## Microcode -/

/-- UCODE_LOAD (R536): a FW_STAGE activity. -/
def ucodeLoad (c : Ctx) (s : State) : Answer × State :=
  let a := newActivity s 6 true 0 0 0 0 (some c.ticket)
  let rev := match stagedFw s (fld c.data 0 1 == 1) with | some p => p.ucodeRev | none => 0
  let t := submit { s with live := { s.live with ucode := some (c.ticket, rev, a.ident) } } a
  checked (activateChecks c s ++ [(!deferred s a || queueRoom s true, stQuota)])
    (.issue (if deferred s a then stDeferred else stPending) (work c [a.ident]), t) s

/-- UCODE_LOAD (R536). -/
def execUcodeLoad (m : MsgSrc) (s : State) : Host.Outcome State Fault Refusal :=
  serve ⟨0x912, .ws0, true, true, some 8⟩ m ucodeLoad s

/-- A marver unit, by stack × 1,024 + 64 × die + group. -/
def getUnit (s : State) (u : Nat) : MarverUnit := Tab.get resetMarverUnit s.marver.units u

def putUnit (s : State) (u : Nat) (x : MarverUnit) : State :=
  { s with marver := { s.marver with units := Tab.insert s.marver.units u x } }

/-- Die of a unit. -/
def dieOfUnit (u : Nat) : Nat := u / 64 % 16

/-- Units that run the new microcode already. -/
def switched (s : State) : Nat := (s.marver.units.filter (·.2.ucodeNew)).length

/-- Whether a unit is at its switch: a load runs and every lower die has switched; it starts no new command (R536). -/
def atSwitch (s : State) (u : Nat) : Bool :=
  match s.live.ucode with
  | some (_, _, act) =>
    actRuns s act && !(getUnit s u).ucodeNew &&
      decide ((s.marver.units.filter fun p => p.2.ucodeNew && decide (dieOfUnit p.1 < dieOfUnit u)).length =
        nStacks s * 64 * dieOfUnit u)
  | none => false

/-- Whether a unit may switch: it is at its switch, and its contexts are idle (R536). -/
def switchDue (s : State) (u : Nat) : Bool := atSwitch s u && (getUnit s u).ctxs.all (·.isNone)

/-- A unit flips its microcode bank; with the last, UCODE_REV changes and the ticket completes (R536). -/
def ucodeSwitch (u : Nat) (s : State) : State :=
  let t := putUnit s u { getUnit s u with ucodeNew := true }
  match s.live.ucode with
  | some (k, rev, act) =>
    if switched t = nStacks t * 1024 then
      let v := dropActivity { t with
        marver := { t.marver with units := t.marver.units.map fun p => (p.1, { p.2 with ucodeNew := false }) }
        mem := { t.mem with layout := { t.mem.layout with ucodeRev := rev } }
        live := { t.live with ucode := none } } act
      finishTicket (emitDev v 0x0B04 rev 0 0) k stOk ([BitVec.ofNat 8 rev] ++ zeros 7)
    else t
  | none => t

/-- UCODE_SWITCH (R536). -/
def execUcodeSwitch (unit : Nat) (s : State) : Host.Outcome State Fault Refusal :=
  guarded "UCODE_SWITCH" (s.mem.layout.stackMap.contains (unit / 1024) || !inRun s)
    (when (inRun s && switchDue s unit) (ucodeSwitch unit) s)

/-! ## Optics -/

/-- OPTICS_RECAL (R537). -/
def opticsRecal (c : Ctx) (s : State) : Answer × State :=
  let d := c.data
  let cane := fld d 0 1
  let load := fld d 1 1 == 1
  let a := newActivity s 5 true 3 0 cane 0 (some c.ticket)
  let t := recalBegin (submit { s with live := { s.live with
    recals := s.live.recals ++ [⟨c.ticket, cane, a.ident, 0, 0, 0⟩] } } a) a.ident
  checked [(zeroAt d 2 6 && zeroAt d 20 12, stBadParam), (decide (cane ≤ 3) && !caneOut s cane, stBadParam),
    (decide (fld d 1 1 ≤ 1), stBadParam),
    (if load then bufferOk s 0 (fld d 8 8) (fld d 16 4) && decide (1 ≤ fld d 16 4) && decide (fld d 16 4 ≤ 2 ^ 20)
      else zeroAt d 8 12, stBadParam),
    (!load || Config.calibrationSigned (readBytes s.mem (fld d 8 8) (fld d 16 4)), stNoAuth),
    (!deferred s a || queueRoom s true, stQuota)]
    (.issue (if deferred s a then stDeferred else stPending) (work c [a.ident]), t) s

/-- OPTICS_RECAL (R537). -/
def execOpticsRecal (m : MsgSrc) (s : State) : Host.Outcome State Fault Refusal :=
  serve ⟨0x913, .ws0, true, true, some 32⟩ m opticsRecal s

/-! ## Retirements -/

/-- Free marver pages of the other stacks that take regions. -/
def pagesElsewhere (s : State) (stk : Nat) : Nat :=
  let others := (placeStacks s).filter (· != stk)
  others.length * stackPages s - (others.map (pagesOnStack s)).foldl (· + ·) 0

/-- STACK_RETIRE (R538): the pages that the stack uses are held back from the others' space while it runs. -/
def stackRetire (c : Ctx) (s : State) : Answer × State :=
  let k := fld c.data 0 1
  let a := newActivity s 7 true 1 0 k 0 (some c.ticket)
  checked [(zeroAt c.data 1 7, stBadParam),
    (stackThere s k && !stackOut s k && !(s.live.stackRetires.any fun r => r.unit == k) && decide (8 < stacksLeft s),
      stBadParam),
    (decide (pagesOnStack s k ≤ pagesElsewhere s k), stQuota), (!deferred s a || queueRoom s true, stQuota)]
    (.issue (if deferred s a then stDeferred else stPending) (work c [a.ident]), beginStackRetire s k (some c.ticket)) s

/-- STACK_RETIRE (R538). -/
def execStackRetire (m : MsgSrc) (s : State) : Host.Outcome State Fault Refusal :=
  serve ⟨0x914, .ws0, true, true, some 8⟩ m stackRetire s

/-- Whether a device is still reached once a cane engine's ports are gone: by another uplink, or through a peer whose
link keeps a port (Table: Mesh paths). -/
def reachedWithout (s : State) (c dst : Nat) : Bool :=
  let up := fun p => portUp s p && caneOf p != c
  if inMesh s dst then true
  else (uplinks.any fun u => up u && (getPort s u).partner.device == dst && (getPort s u).partner.status == 1) ||
    ((List.range 64).any fun p => peerUplink s p dst && match linkPorts (meshPos s) p with
      | some l => up l.1 || up l.2
      | none => false)

/-- CANE_RETIRE (R541). -/
def caneRetire (c : Ctx) (s : State) : Answer × State :=
  let k := fld c.data 0 1
  let o := (k + 2) % 4
  let a := newActivity s 5 true 3 0 k 0 (some c.ticket)
  checked [(zeroAt c.data 1 7 && decide (k ≤ 3), stBadParam), (!caneOut s k, stBadParam),
    (!caneOut s o && !(s.fab.feedLost.getD (2 * o) false && s.fab.feedLost.getD (2 * o + 1) false), stBadParam),
    ((s.rack.groups.filter (·.lease == 1)).all fun g => reachedWithout s k g.mem.gateway, stBadParam),
    (!deferred s a || queueRoom s true, stQuota)]
    (.issue (if deferred s a then stDeferred else stPending) (work c [a.ident]), beginCaneRetire s k (some c.ticket)) s

/-- CANE_RETIRE (R541). -/
def execCaneRetire (m : MsgSrc) (s : State) : Host.Outcome State Fault Refusal :=
  serve ⟨0x915, .ws0, true, true, some 8⟩ m caneRetire s

/-- Move an address that lies in a moved region. -/
def moveMa (lo size to_ ma : Nat) : Nat := if lo ≤ ma ∧ ma < lo + size then to_ + (ma - lo) else ma

/-- Move every locator of a copy (R539). -/
def remapCopy (f : Nat → Nat) (p q : Nat) (c : Copy) : Copy :=
  { c with
    lists := c.lists.map fun l => (l.1, l.2.map f)
    ords := c.ords.map fun o => (o.1, { o.2 with ma := f o.2.ma })
    buckets := c.buckets.map fun b => (b.1, f b.2)
    regions := c.regions.map fun r => if r.1 = p then (q, r.2) else r
    freePos := c.freePos.map f }

/-- Move every locator that names a region: chunks, slots, buckets, row regions and blocks, in one step (R539). -/
def remapAll (s : State) (f : Nat → Nat) (p q : Nat) : State :=
  let ix := fun x : Index => { x with
    primary := x.primary.map (remapCopy f p q), mirror := x.mirror.map (remapCopy f p q),
    oldChunks := x.oldChunks.map fun o => (f o.1, o.2) }
  let rg := fun l : List (Nat × Nat × Nat) => l.map fun r => if r.2.1 = p then (r.1, q, r.2.2) else r
  let ver := fun v : Version => { v with regionsP := rg v.regionsP, regionsM := rg v.regionsM }
  { s with
    indexes := s.indexes.map fun x => (x.1, ix x.2)
    tables := s.tables.map fun t => (t.1, { t.2 with slots := t.2.slots.map fun v => v.map ver })
    sessions := s.sessions.map fun x => { x with
      blocks := x.blocks.map fun b => { b with codeMa := f b.codeMa, kvMa := b.kvMa.map f }
      oldKv := x.oldKv.map fun o => (f o.1, o.2)
      regions := x.regions.map fun r => if r.1 = p then (q, r.2) else r
      staging := x.staging.map fun r => if r = p then q else r
      freePos := x.freePos.map f
      freeKv := x.freeKv.map f } }

/-- Chain locators of hash buckets that name a moved bucket (R158). -/
def remapChains (s : State) (lo size to_ : Nat) : State :=
  s.indexes.foldl (fun t p =>
    if p.2.kind = 3 then
      ([p.2.primary, p.2.mirror].filterMap id).foldl (fun u c =>
        (c.regions.flatMap fun r => (List.range (r.2 * 65536 / 2304)).map fun i => maOfPage u r.1 + i * 2304).foldl
          (fun v b =>
            let n := fld (readMa v b 32) 16 8
            if lo ≤ n ∧ n < lo + size then storeMa v (b + 16) (leBytes 8 (moveMa lo size to_ n)) else v) u) t
    else t) s

/-- Units of the stacks that take regions. -/
def placeUnits (s : State) : List Nat := (placeStacks s).flatMap fun k => (List.range 1024).map fun i => k * 1024 + i

/-- Free marver pages of a unit's four banks. -/
def unitFree (s : State) (u : Nat) : Nat :=
  (regionBanks s u).length * bankPages s - ((s.guard.owners.filter fun r => decide (windowPages s ≤ r.base) &&
    unitOfMa (maOfPage s r.base) == u && !bankRetired s (bankIndex (maOfPage s r.base))).map (·.pages)).foldl (· + ·) 0

/-- The unit with the most free region pages, ties to the lowest stack, die and group (R150). -/
def freestUnit (s : State) (ok : Nat → Bool) : Option Nat :=
  ((placeUnits s).filter ok).foldl (fun b u =>
    match b with
    | some v => if unitFree s v < unitFree s u then some u else b
    | none => some u) none

/-- Move the region at a page to the unit with the most free pages among those allowed: its bytes and its poison go to the new
place, its locators switch in one step, and its old pages are freed (R539) (DEDUCED, assumption 100). -/
def moveRegion (page : Nat) (ok : Nat → Bool) (s : State) : State :=
  match s.guard.owners.find? (·.base == page) with
  | none => s
  | some r =>
    match (freestUnit s fun u => ok u && decide (r.pages ≤ unitFree s u)).bind fun u => allocMarver s r.ws u r.pages with
    | none => s
    | some (q, t) =>
      let lo := maOfPage s page
      let to_ := maOfPage s q
      let size := r.pages * 65536
      let t := { t with guard := { t.guard with owners := t.guard.owners.map fun x =>
        if x.base = q then { x with kind := r.kind } else x } }
      let t := storeMa t to_ (readMa s lo size)
      let bad := (s.mem.poison.filterMap fun g =>
        let ma := dpaToMa s.mem.layout.stackMap (g * 32)
        if lo ≤ ma ∧ ma < lo + size then some (dpaOf s (moveMa lo size to_ ma) / 32) else none)
      let t := { t with mem := bad.foldl setPoison t.mem }
      let t := remapAll t (moveMa lo size to_) page q
      clearPages (freePages (remapChains t lo size to_) page) page r.pages

/-- REGION_MIGRATE (R539): one region of a stack whose retirement runs. -/
def execRegionMigrate (page : Nat) (s : State) : Host.Outcome State Fault Refusal :=
  .next (when (inRun s && s.live.stackRetires.any fun r => actRuns s r.act && (runsOnStack s r.unit).any (·.base == page))
    (moveRegion page fun _ => true) s)

/-! ## Drain -/

/-- DEV_DRAIN (R545). -/
def execDevDrain (m : MsgSrc) (s : State) : Host.Outcome State Fault Refusal :=
  serve ⟨0x916, .ws0, true, true, some 0⟩ m (fun c t => (.issue stPending (work c []),
    { t with live := { t.live with draining := true, drain := t.live.drain ++ [c.ticket] } })) s

/-- Whether the drain is complete: no role, no admitted request, every journal stream striped (R545). -/
def drainReady (s : State) : Bool :=
  s.live.draining && !s.live.drain.isEmpty &&
  (s.rack.groups.all fun g => !g.mem.members.contains (fabricDev s)) &&
  (s.hub.slots.all fun p => decide (p.2.pool = .remote)) &&
  s.flash.groups.all fun g => (g.streams.filter fun st => st.kind == 3 || st.kind == 4).all fun st => st.units.isEmpty

/-- The drain tickets complete; RELEASE goes out for each lease, and EV_DRAIN_DONE is written. -/
def drainDone (s : State) : State :=
  let t := finishAll { s with live := { s.live with drain := [], drained := true } } s.live.drain stOk []
  if s.live.drained then t
  else emitDev ((s.rack.groups.filter (·.lease == 1)).foldl (fun u g => sendLease u g 2) t) 0x0B0A 0 0 0

/-- DRAIN_DONE (R545). -/
def execDrainDone (s : State) : Host.Outcome State Fault Refusal := .next (when (firmwareRuns s && drainReady s) drainDone s)

end Sys2Proof.Machine
end

