-- ==== Sys2Proof/Machine/Wire.lean ====
section
/-!
DEFINITION. What crosses a fibre (15): packets in wire order (R416), link frames (R410), sub-request headers (R418),
and the texts of link-local messages.
-/

namespace Sys2Proof.Machine

/-! ## Packets -/

/-- `n` bytes of a number, most significant first (R416). -/
def beBytes (n v : Nat) : List Byte := (leBytes n v).reverse

/-- The big-endian field of `n` bytes at an offset. -/
def beFld (l : List Byte) (lo n : Nat) : Nat := beNat (slice l lo n)

/-- Bytes 43:0 of a packet header, with a given HOP bit (Table: Packet header). -/
def headBytes (p : Packet) (hop : Bool) : List Byte :=
  [0x10, BitVec.ofNat 8 (p.vc * 32 + 16 * b2n hop + 8 * b2n p.enc + 4 * b2n p.last)] ++ beBytes 2 (packetLen p) ++
    beBytes 2 p.dst ++ beBytes 2 p.src ++ beBytes 2 p.ws ++ beBytes 1 p.msg ++ zeros 1 ++ beBytes 2 p.flowSeq ++
    zeros 2 ++ beBytes 8 p.txn ++ beBytes 4 p.keyGen ++ beBytes 12 p.nonce ++ zeros 4

/-- The header checksum: CRC-32C over bytes 43:0 with HOP taken as 0. -/
def hcrcOf (p : Packet) : Nat := crc32c (headBytes p false)

/-- The trailer of a packet without ENC, as a number whose first byte is most significant: CRC-32C over the header, with
HOP taken as 0, and the payload; 12 zero bytes follow (DEDUCED, assumption 20). -/
def trailerOf (p : Packet) : Nat :=
  crc32c (headBytes p false ++ beBytes 4 (hcrcOf p) ++ pad16 p.payload) * 2 ^ 96

/-- A packet on the wire. A relayed packet keeps the trailer that its source gave it. -/
def packetBytes (p : Packet) : List Byte :=
  headBytes p p.hop ++ beBytes 4 (hcrcOf p) ++ pad16 p.payload ++
    beBytes 16 (if p.enc || p.hop then p.tag else trailerOf p)

/-- The packet at the front of received bytes, with its length; the trailer is kept in `tag`. -/
def parsePacket (l : List Byte) : Packet :=
  let b := fld l 1 1
  let n := beFld l 2 2
  { vc := b / 32, hop := bit b 4, enc := bit b 3, last := bit b 2, dst := beFld l 4 2, src := beFld l 6 2,
    ws := beFld l 8 2 % 4096, msg := fld l 10 1, flowSeq := beFld l 12 2, txn := beFld l 16 8, keyGen := beFld l 24 4,
    nonce := beFld l 28 12, payload := slice l 48 (n - 64), tag := beFld l (n - 16) 16, alarm := false }

/-- Whether a header's length is one that a packet can have. -/
def lengthOk (n : Nat) : Bool := decide (64 ≤ n) && decide (n ≤ 4160) && n % 16 == 0

/-- Whether a header passes its checksum (R416). -/
def headOk (l : List Byte) : Bool :=
  beFld l 44 4 == crc32c ((setAt (l.take 44) 1 (BitVec.ofNat 8 (fld l 1 1 - 16 * b2n (bit (fld l 1 1) 4)))))

/-- Cut whole packets off received bytes: the packets, the headers found bad, and the bytes left. Zero bytes at a packet
boundary fill a frame (DEDUCED, assumption 21); a bad header whose length cannot be a packet's loses the bytes received
(DEDUCED, assumption 21). -/
def cutPackets : Nat → List Byte → List Packet × Nat × List Byte
  | 0, l => ([], 0, l)
  | k + 1, l =>
    let m := l.dropWhile (· == 0)
    if m.length < 48 then ([], 0, m)
    else
      let n := beFld m 2 2
      if !lengthOk n then ([], 1, [])
      else if m.length < n then ([], 0, m)
      else
        let r := cutPackets k (m.drop n)
        if headOk m then (parsePacket m :: r.1, r.2.1, r.2.2) else (r.1, r.2.1 + 1, r.2.2)

/-! ## Frames -/

/-- A frame head (Table: Frame head). -/
structure FrameHead where
  kind : Nat
  seq : Nat
  ack : Nat
  ackKind : Nat
  vc : Nat
  cls : Nat
  cells : Nat
  deriving DecidableEq, Repr

/-- The head's 8 bytes, most significant first. -/
def FrameHead.bytes (h : FrameHead) : List Byte :=
  beBytes 8 (h.kind * 2 ^ 62 + h.seq * 2 ^ 50 + h.ack * 2 ^ 38 + h.ackKind * 2 ^ 36 + h.vc * 2 ^ 33 + h.cls * 2 ^ 32 +
    h.cells * 2 ^ 22)

/-- The head of a received frame. -/
def FrameHead.parse (l : List Byte) : FrameHead :=
  let w := beFld l 0 8
  ⟨bits w 63 62, bits w 61 50, bits w 49 38, bits w 37 36, bits w 35 33, bits w 32 32, bits w 31 22⟩

/-- A frame of 256 bytes (R410); its CRC is sent most significant byte first (DEDUCED, assumption 20). -/
def frameBytes (h : FrameHead) (body : List Byte) : List Byte :=
  let l := h.bytes ++ slice body 0 244
  l ++ beBytes 4 (crc32c l)

/-- Whether a received frame is whole and passes its CRC (R410). -/
def frameOk (f : List Byte) : Bool := f.length == 256 && beFld f 252 4 == crc32c (f.take 252)

/-- Whether sequence number `a` lies at or before `b`, of 12-bit numbers at most 2,047 apart. -/
def seqLe (a b : Nat) : Bool := decide ((b + 4096 - a) % 4096 < 2048)

/-! ## Sub-requests -/

/-- The bytes of a sub-request (Table: Sub-request header), then its body. -/
def subBytes (key kind shard homeSlot round bind0 bind1 group : Nat) (body : List Byte) : List Byte :=
  leBytes 8 key ++ leBytes 2 kind ++ leBytes 2 shard ++ leBytes 2 homeSlot ++ leBytes 1 round ++ zeros 1 ++
    leBytes 8 bind0 ++ leBytes 8 bind1 ++ leBytes 4 group ++ leBytes 4 body.length ++ zeros 8 ++ body

/-- A sub-request as it arrives. -/
def parseSub (ident src ws txn now vc : Nat) (l : List Byte) : SubIn :=
  { ident := ident, src := src, ws := ws, txn := txn, key := fld l 0 8, kind := fld l 8 2, shard := fld l 10 2,
    homeSlot := fld l 12 2, round := fld l 14 1, bind0 := fld l 16 8, bind1 := fld l 24 8, group := fld l 32 4,
    body := slice l 48 (fld l 36 4), slot := none, arrivedAt := now, threshold := false, vc := vc }

/-- Take a sub-request into the serving device's wait (R119). -/
def takeSub (s : State) (src ws txn vc : Nat) (l : List Byte) : State :=
  { s with hub := { s.hub with
      subreqs := s.hub.subreqs ++ [parseSub s.hub.nextSub src ws txn (ns s) vc l]
      nextSub := s.hub.nextSub + 1 } }

/-! ## Link-local and LINK_STATE messages -/

/-- The HELLO of a port (Table: Message types) (DESIGN CHOICE, assumption 80). -/
def helloBytes (s : State) (port : Nat) : List Byte :=
  leBytes 2 (fabricDev s) ++ [0] ++ leBytes 1 (meshPos s) ++ leBytes 2 s.boot.settings.rackId ++ leBytes 1 port

/-- The LINK_STATE of this device: per port usable, partner device and role (Table: Message types). -/
def linkStateBytes (s : State) : List Byte :=
  (List.range 32).flatMap fun p =>
    let x := (getPort s p).partner
    leBytes 1 (b2n (portUp s p)) ++ leBytes 2 (if x.status = 1 then x.device else 0) ++
      leBytes 1 (if x.status = 1 then x.role else 0)

/-- A packet on one link, never relayed, which waits to go between two packets (R417, R426). -/
def linkLocal (s : State) (port msg : Nat) (body : List Byte) : State :=
  let x := getPort s port
  let p : Packet :=
    { vc := 7, hop := false, enc := false, last := true, dst := x.partner.device, src := fabricDev s, ws := 0,
      msg := msg, flowSeq := 0, txn := 0, keyGen := 0, nonce := 0, payload := body, tag := 0, alarm := false }
  putPort s port { x with localQ := x.localQ ++ [p] }

end Sys2Proof.Machine
end

