-- ==== Sys2Proof/Machine/Links.lean ====
section
/-!
DEFINITION. Rows of ports and light (15): wavelengths and remaps, training, emission, feeds and connectors, hello.
-/

namespace Sys2Proof.Machine

/-! ## Shared -/

/-- Stages in which links live: discovery and RUN (R393). -/
def linksLive (s : State) : Bool := decide (s.boot.stage = .discover) || decide (s.boot.stage = .run)

/-- A port that has trained: UP or ISOLATED. -/
def trained (s : State) (p : Nat) : Bool := decide ((getPort s p).state = 4) || decide ((getPort s p).state = 5)

/-- One whole-port retraining more: counted and scored (R409, R492). -/
def noteRetrain (s : State) (p : Nat) : State :=
  let x := getPort s p
  score (putPort s p { x with retrains := satAdd 16 x.retrains 1 }) 7 p 32 0

/-- Take a trained port to training whole (R409). -/
def retrainPort (s : State) (p : Nat) : State := noteRetrain (setPort s p 3 2) p

/-- A direction of a port. -/
def dirOf (x : Port) (rx : Bool) : Direction := if rx then x.rx else x.tx

def putDir (x : Port) (rx : Bool) (d : Direction) : Port := if rx then { x with rx := d } else { x with tx := d }

/-- A port whose direction has fewer active lanes than MIN_LANES retrains whole (R403). -/
def checkLanes (s : State) (p : Nat) : State :=
  let x := getPort s p
  if trained s p && decide (min (activeLanes x.tx) (activeLanes x.rx) < x.minLanes) then
    emit (retrainPort s p) 0x0603 8 p (activeLanes x.tx) (activeLanes x.rx) x.minLanes
  else s

/-- The lane that a wavelength carries. -/
def laneOf (d : Direction) (w : Nat) : Option Nat := d.lanes.findIdx? (· == some w)

/-- The lowest healthy spare of a direction. -/
def spareWl (d : Direction) : Option Nat := d.wl.findIdx? (·.status == 1)

def setWl (d : Direction) (w : Nat) (f : Wavelength → Wavelength) : Direction := { d with wl := modAt d.wl w f }

def setLane (d : Direction) (lane : Nat) (w : Option Nat) : Direction := { d with lanes := setAt d.lanes lane w }

/-! ## Wavelengths -/

/-- A wavelength becomes FAILED and is due for retraining alone (R403). -/
def failWl (now : Nat) (w : Wavelength) : Wavelength := { w with status := 2, failedRetries := 0, retrainAt := now }

/-- A receiver declares a wavelength failed: its lane is promised to the lowest healthy spare, and a REMAP is asked
for; without one the lane is dropped (R402). -/
def wavelengthFail (s : State) (p w : Nat) : State :=
  let x := getPort s p
  let d := setWl x.rx w (failWl (ns s))
  match laneOf x.rx w, spareWl d with
  | none, _ => putPort s p { x with rx := d }
  | some lane, none => checkLanes (putPort s p { x with rx := setLane d lane none }) p
  | some lane, some n =>
    let e := { setWl d n fun v => { v with status := 0 } with remaps := d.remaps ++ [(lane, n)] }
    let t := putPort s p { x with rx := e, remaps := satAdd 16 x.remaps 1 }
    score (score (emit t 0x0601 8 p lane w n) 6 (p * 256 + 16 + w) 16 0x0601) 7 p 2 0x0601

/-- Whether a wavelength works: ACTIVE or SPARE. -/
def wlWorks (d : Direction) (w : Nat) : Bool :=
  match d.wl[w]? with | some v => v.status == 0 || v.status == 1 | none => false

/-- WAVELENGTH_FAIL (R402). -/
def execWavelengthFail (port wl : Nat) (s : State) : Host.Outcome State Fault Refusal :=
  guarded "WAVELENGTH_FAIL" (decide (port < 32) && decide (wl < 16))
    (when (linksLive s && trained s port && wlWorks (getPort s port).rx wl) (wavelengthFail · port wl) s)

/-- A REMAP frame: the answer to one's own request moves the receive lane; the partner's request moves the transmit lane,
whose old wavelength has failed there. A request that names no wavelength drops the lane (R402; DEDUCED, assumption 22). -/
def remapFrame (s : State) (p lane w : Nat) : State :=
  let x := getPort s p
  if x.rx.remaps.contains (lane, w) then
    putPort s p { x with rx := { setLane x.rx lane (some w) with remaps := x.rx.remaps.erase (lane, w) } }
  else
    let old := match x.tx.lanes.getD lane none with
      | some o => setWl x.tx o (failWl (ns s))
      | none => x.tx
    if w < 16 then
      let d := setLane (setWl old w fun v => { v with status := 0 }) lane (some w)
      putPort s p { x with tx := d, remaps := satAdd 16 x.remaps 1 }
    else checkLanes (putPort s p { x with tx := setLane old lane none }) p

/-- Whether a REMAP frame says something that its port can do (DEDUCED, assumption 76). -/
def remapActs (s : State) (p lane w : Nat) : Bool :=
  let x := getPort s p
  linksLive s && trained s p &&
    (x.rx.remaps.contains (lane, w) || decide (16 ≤ w) || ((x.tx.wl[w]?).map (·.status)) == some 1)

/-- REMAP (R402). -/
def execRemapFrame (port lane wl _first : Nat) (s : State) : Host.Outcome State Fault Refusal :=
  guarded "REMAP" (decide (port < 32) && decide (lane < 14))
    (when (remapActs s port lane wl) (remapFrame · port lane wl) s)

/-- Attempts after which a wavelength stays FAILED: the first and 16 retries (R403). -/
def wlAttempts : Nat := 17

/-- A wavelength passes: its waiting lane takes it back, else it is a spare (R403, R424). -/
def wlPass (d : Direction) (w : Nat) (v : Wavelength) : Direction :=
  let on := match v.home with | some lane => d.lanes.getD lane none == none | none => false
  let e := setWl d w fun _ => ⟨if on then 0 else 1, 0, 0, none, false⟩
  if on then setLane e (v.home.getD 0) (some w) else e

/-- The outcome of a wavelength's retraining (R403). -/
def wavelengthRetrain (s : State) (p w : Nat) (rx pass : Bool) : State :=
  let x := getPort s p
  let d := dirOf x rx
  match d.wl[w]? with
  | none => s
  | some v =>
    if pass then putPort s p (putDir x rx (wlPass d w v))
    else
      let n := v.failedRetries + 1
      let e := setWl d w fun u => { u with failedRetries := n, retrainAt := ns s + 10000000000, busy := false }
      let t := putPort s p (putDir x rx e)
      if n = wlAttempts then
        score (emit t 0x0602 8 p (b2n rx) w 0) 6 (p * 256 + 16 * b2n rx + w) 4096 0x0602
      else t

/-- Whether a wavelength is being retrained or due for it. -/
def wlDue (s : State) (p w : Nat) (rx : Bool) : Bool :=
  match (dirOf (getPort s p) rx).wl[w]? with
  | some v => v.status == 2 && (v.busy || (decide (v.failedRetries < wlAttempts) && decide (v.retrainAt ≤ ns s)))
  | none => false

/-- WAVELENGTH_RETRAIN (R403). -/
def execWavelengthRetrain (port : Nat) (rx : Bool) (wl : Nat) (pass : Bool) (s : State) :
    Host.Outcome State Fault Refusal :=
  guarded "WAVELENGTH_RETRAIN" (decide (port < 32) && decide (wl < 16))
    (when (linksLive s && trained s port && wlDue s port wl rx) (wavelengthRetrain · port wl rx pass) s)

/-! ## Training -/

/-- A training that ends without the port UP or ISOLATED: through DARK to PROBE, or DARK where the engine has no light
(R408, R409). -/
def trainTimeout (s : State) (p : Nat) : State :=
  let t := if caneLit s (caneOf p) then setPort s p 2 1 else setPort s p 1 0
  recalPortEnd (endRetrain (noteRetrain t p) p) p false

/-- PORT_TRAIN_TIMEOUT (R409). -/
def execPortTrainTimeout (port : Nat) (s : State) : Host.Outcome State Fault Refusal :=
  guarded "PORT_TRAIN_TIMEOUT" (decide (port < 32))
    (when (decide ((getPort s port).state = 3) && elapsed s (getPort s port).since 50000000)
      (trainTimeout · port) s)

/-- The lane map that training sets: lane j on the j-th wavelength that passes, those beyond the fourteenth spare
(R401). -/
def trainedDir (pass : List Bool) (now : Nat) : Direction :=
  let ok := (List.range 16).filter fun i => pass.getD i false
  { lanes := (List.range 14).map fun j => ok[j]?
    wl := (List.range 16).map fun i =>
      if pass.getD i false then ⟨if (ok.take 14).contains i then 0 else 1, 0, 0, none, false⟩
      else ⟨2, 0, now, none, false⟩
    remaps := [] }

/-- Training ends: lane maps in force, frame numbers and credits from their start (DEDUCED, assumption 23), ISOLATED for a
MISWIRED partner, else UP (R401, R409, R420). -/
def portUpRow (s : State) (p : Nat) (txPass rxPass : List Bool) (delay : Int) : State :=
  let x := getPort s p
  let st := if x.partner.status = 2 then 5 else 4
  let t := putPort s p { x with
    tx := trainedDir txPass (ns s), rx := trainedDir rxPass (ns s), peerDelay := some delay, txSeq := 0,
    unacked := [], txTail := [], txEnds := [], rxSeq := 0xFFF, rxTail := [], ackKind := 0, credits := [], owed := [] }
  recalPortEnd (endRetrain (noteLinks (setPort t p st 2)) p) p (st == 4)

/-- Whether a port's training can end now: within its 50 ms, enough wavelengths passed, hello exchanged. -/
def portUpActs (s : State) (p : Nat) (txPass rxPass : List Bool) : Bool :=
  let x := getPort s p
  let n := fun l : List Bool => ((l.take 16).filter id).length
  decide (x.state = 3) && decide (ns s < x.since + 50000000) &&
    (x.partner.status == 1 || x.partner.status == 2) && decide (x.since ≤ x.partner.helloAt) &&
    decide (x.minLanes ≤ min (n txPass) (n rxPass))

/-- PORT_UP (R409). -/
def execPortUp (port : Nat) (txPass rxPass : List Bool) (delay : Int) (s : State) :
    Host.Outcome State Fault Refusal :=
  guarded "PORT_UP" (decide (port < 32))
    (when (linksLive s && portUpActs s port txPass rxPass) (portUpRow · port txPass rxPass delay) s)

/-! ## Light -/

/-- PROBE_PULSE (R406): the pulse of each second. -/
def execProbePulse (port : Nat) (s : State) : Host.Outcome State Fault Refusal :=
  let x := getPort s port
  guarded "PROBE_PULSE" (decide (port < 32))
    (when (x.state == 2 && x.emission == 1 && caneLit s (caneOf port) && (x.pulses == 0 || elapsed s x.probeAt 1000000000))
      (fun t => putPort t port { x with probeAt := ns t, pulses := x.pulses + 1 }) s)

/-- Light at a PROBE port: first received, it draws one further pulse; received for 1 ms without a break during a pulse,
which lasts at most 2 ms, it takes the port to FULL (R406). -/
def lightAt (s : State) (p : Nat) : State :=
  let x := getPort s p
  match x.lightSince with
  | none => putPort s p { x with lightSince := some (ns s), probeAt := ns s, pulses := x.pulses + 1 }
  | some t =>
    if elapsed s (max t x.probeAt) 1000000 && decide (ns s ≤ x.probeAt + 2000000) && decide (0 < x.pulses) then
      setPort s p 3 2
    else s

/-- LIGHT_RECEIVED (R406). -/
def execLightReceived (port : Nat) (s : State) : Host.Outcome State Fault Refusal :=
  guarded "LIGHT_RECEIVED" (decide (port < 32))
    (when (linksLive s && (getPort s port).state == 2 && (getPort s port).emission == 1 && caneLit s (caneOf port))
      (lightAt · port) s)

/-- A port loses all light: from FULL to DARK, and it will train whole again; a PROBE port has its light broken (R406,
R409). -/
def openFibre (s : State) (p : Nat) : State :=
  let x := getPort s p
  let s0 := putPort s p { x with lightSince := none }
  if 3 ≤ x.state then
    let t := emit (noteRetrain (setPort s0 p 1 0) p) 0x0605 8 p 0 0 0
    if x.state = 3 then recalPortEnd (endRetrain t p) p false else t
  else s0

/-- OPEN_FIBRE (R406). -/
def execOpenFibre (port : Nat) (s : State) : Host.Outcome State Fault Refusal :=
  guarded "OPEN_FIBRE" (decide (port < 32))
    (when (decide (3 ≤ (getPort s port).state) || (getPort s port).lightSince.isSome) (openFibre · port) s)

/-- PROBE_RETURN (R406). -/
def execProbeReturn (port : Nat) (s : State) : Host.Outcome State Fault Refusal :=
  guarded "PROBE_RETURN" (decide (port < 32))
    (when (linksLive s && (getPort s port).state == 1 && caneLit s (caneOf port) &&
      elapsed s (getPort s port).since 1000000000) (setPort · port 2 1) s)

/-- Every port of an engine goes DARK, but for those DISABLED (R404, R407). -/
def darken (s : State) (c : Nat) : State :=
  (List.range 8).foldl (fun t i =>
    let p := 8 * c + i
    let st := (getPort t p).state
    if st = 0 then t
    else
      let u := setPort t p 1 0
      let u := putPort u p { getPort u p with lightSince := none }
      if st = 3 then recalPortEnd (endRetrain u p) p false else u) s

/-- A feed is lost: the engine runs on the other, or its ports go DARK (R404). -/
def feedLostRow (s : State) (f : Nat) : State :=
  let c := f / 2
  let t := { s with fab := { s.fab with feedLost := setAt s.fab.feedLost f true } }
  let t := score (emit t 0x0604 7 c f 0 0) 8 c 256 0x0604
  if feedLit t c 0 || feedLit t c 1 then t else darken t c

/-- LASER_FEED_LOST (R404). -/
def execLaserFeedLost (feed : Nat) (s : State) : Host.Outcome State Fault Refusal :=
  guarded "LASER_FEED_LOST" (decide (feed < 8))
    (when (linksLive s && feedLit s (feed / 2) (feed % 2)) (feedLostRow · feed) s)

/-- Whether the presence contacts are sensed: every stage from POWER onward (R597). -/
def contactsSensed (s : State) : Bool := !(decide (s.boot.stage = .off))

/-- A connector's contact rises: its engine's ports go DARK (R407, R597). -/
def connLost (s : State) (c : Nat) : State :=
  let t := { s with fab := { s.fab with
    connPresent := setAt s.fab.connPresent c false, connAt := setAt s.fab.connAt c (ns s) } }
  emit (darken t c) 0x0942 0 0 c 0 0

/-- FIBRE_CONN_LOST (R597). -/
def execFibreConnLost (cane : Nat) (s : State) : Host.Outcome State Fault Refusal :=
  guarded "FIBRE_CONN_LOST" (decide (cane < 4))
    (when (contactsSensed s && s.fab.connPresent.getD cane false) (connLost · cane) s)

/-- A connector is seated again: its DARK ports start at PROBE where their engine has light (R407, R597). -/
def connRestored (s : State) (c : Nat) : State :=
  let t := { s with fab := { s.fab with
    connPresent := setAt s.fab.connPresent c true, connAt := setAt s.fab.connAt c (ns s) } }
  let t := (List.range 8).foldl (fun u i =>
    if (getPort u (8 * c + i)).state = 1 ∧ linksLive u ∧ caneLit u c then setPort u (8 * c + i) 2 1 else u) t
  emit t 0x0943 0 0 c 0 0

/-- FIBRE_CONN_RESTORED (R597): a low held for 100 ms. -/
def execFibreConnRestored (cane : Nat) (s : State) : Host.Outcome State Fault Refusal :=
  guarded "FIBRE_CONN_RESTORED" (decide (cane < 4))
    (when (contactsSensed s && !(s.fab.connPresent.getD cane true) &&
      elapsed s (s.fab.connAt.getD cane 0) 100000000) (connRestored · cane) s)

/-! ## Hello -/

/-- The mesh position that a port leads to, under R400. -/
def wiredTo (s : State) (p : Nat) : Option Nat :=
  (List.range 64).find? fun q => match linkPorts (meshPos s) q with
    | some (a, b) => a == p || b == p
    | none => false

/-- Whether a partner fits the wiring: the peer and peer port that R400 gives, or on an uplink a gateway or
memory-pool node (R393, R399, R400). -/
def fitsWiring (s : State) (p dev role mesh rack port : Nat) : Bool :=
  if p % 8 = 7 then role == 1 || role == 2
  else
    match wiredTo s p with
    | some q =>
      let back := match linkPorts q (meshPos s) with | some (a, b) => if p < 16 then a else b | none => 32
      role == 0 && mesh == q && rack == s.boot.settings.rackId && dev == rack * 64 + q && port == back
    | none => false

/-- A hello is received: the partner is recorded as OK, or found MISWIRED, which isolates the port (R393, R425). -/
def helloAt (s : State) (p : Nat) (l : List Byte) : State :=
  let x := getPort s p
  let ok := fitsWiring s p (fld l 0 2) (fld l 2 1) (fld l 3 1) (fld l 4 2) (fld l 6 1)
  let y := { x with partner :=
    ⟨if ok then 1 else 2, fld l 0 2, fld l 2 1, fld l 6 1, fld l 3 1, fld l 4 2, ns s⟩ }
  let t := putPort s p y
  let t := if ok then t
    else if x.partner.status = 2 then t else emit t 0x0606 8 p y.partner.device y.partner.mesh y.partner.rack
  let t := if !ok ∧ x.state = 4 then
      let u := setPort t p 5 2
      putPort u p { getPort u p with partner := y.partner }
    else if ok ∧ x.state = 5 then setPort t p 4 2 else t
  if p % 8 = 7 ∧ (x.partner.status ≠ y.partner.status ∨ x.partner.device ≠ y.partner.device) then noteLinks t
  else if (getPort t p).state ≠ x.state then noteLinks t else t

/-- HELLO (R393). -/
def execHelloMsg (port : Nat) (msg : List Byte) (s : State) : Host.Outcome State Fault Refusal :=
  guarded "HELLO" (decide (port < 32))
    (when (linksLive s && decide (3 ≤ (getPort s port).state) && decide (7 ≤ msg.length)) (helloAt · port msg) s)

/-- No hello for 30 ms: the partner is LOST and the port retrains whole (R409, R425). -/
def helloTimeout (s : State) (p : Nat) : State :=
  let x := getPort s p
  retrainPort (putPort s p { x with partner := { x.partner with status := 3 } }) p

/-- HELLO_TIMEOUT (R409). -/
def execHelloTimeout (port : Nat) (s : State) : Host.Outcome State Fault Refusal :=
  guarded "HELLO_TIMEOUT" (decide (port < 32))
    (when (trained s port && elapsed s (getPort s port).partner.helloAt 30000000) (helloTimeout · port) s)

/-- HELLO_SEND_TIMER (R417): from the moment that link frames flow. -/
def execHelloSendTimer (port : Nat) (s : State) : Host.Outcome State Fault Refusal :=
  let x := getPort s port
  guarded "HELLO_SEND_TIMER" (decide (port < 32))
    (when (linksLive s && decide (3 ≤ x.state) && elapsed s x.helloSentAt 10000000)
      (fun t => linkLocal (putPort t port { x with helloSentAt := ns t }) port 0x60 (helloBytes t port)) s)

end Sys2Proof.Machine
end

