-- ==== Sys2Proof/Machine/Device.lean ====
section
/-!
DEFINITION. The device group (13): device information, guard settings, functions.
-/

namespace Sys2Proof.Machine

/-! ## Device information -/

/-- Whether a flash channel has an accepted target in service (R367, R477). -/
def chanAlive (c : FlashChan) : Bool := c.targets.any fun t => !t.2.failed

/-- A bit mask of the positions where a list holds true. -/
def maskOf (l : List Bool) : Nat := (l.zipIdx.map fun (b, i) => if b then 2 ^ i else 0).foldl (· + ·) 0

def partCode (s : State) : Nat := if s.fuse.is6412 then 0x0C else 0x10
def steppingCode (s : State) : Nat := if s.fuse.isB0 then 0xB0 else 0xA0

/-- STACK_PRESENT (R58). -/
def stackPresent (s : State) : Nat := if s.fuse.is6412 then 0x0FFF else 0xFFFF

/-- Table: DEV_INFO result (R367). -/
def devInfo (s : State) : List Byte :=
  leBytes 1 (partCode s) ++ leBytes 1 (steppingCode s) ++ leBytes 1 1 ++ leBytes 1 1 ++ leBytes 1 1 ++
  leBytes 1 s.mem.layout.ucodeRev ++ leBytes 2 1 ++ leBytes 8 s.fuse.serial ++ leBytes 4 s.boot.fwVersion ++
  leBytes 1 (b2n s.boot.fwSlot) ++ leBytes 1 (b2n s.boot.imgSlot) ++ zeros 2 ++
  leBytes 4 s.boot.imgVersion ++ leBytes 2 (stackPresent s) ++ leBytes 2 s.mem.layout.retired ++
  leBytes 1 (s.fab.canesAnswered + 16 * s.fab.canesRetired) ++ zeros 1 ++ leBytes 2 (fabricDev s) ++
  leBytes 4 (maskOf (s.flash.chans.map chanAlive)) ++
  leBytes 2 (s.fns.filter fun p => p.1 < 256 && p.2.state != 0).length ++
  leBytes 2 (s.wss.filter fun p => p.2.state == 1).length ++ zeros 4 ++ leBytes 8 (net s) ++ zeros 8

/-- DEV_INFO (R367). -/
def execDevInfo (m : MsgSrc) (s : State) : Host.Outcome State Fault Refusal :=
  serve ⟨0x101, .any, true, false, some 0⟩ m (fun _ t => (.reply stOk (devInfo t), t)) s

/-- The memory layout record, 64 bytes (R58). -/
def layoutRecord (s : State) : List Byte :=
  let l := s.mem.layout
  let n := l.stackMap.length
  let entry := fun i => l.stackMap.getD i 0xF
  leBytes 1 1 ++ leBytes 1 l.ucodeRev ++ leBytes 2 1 ++ zeros 4 ++ leBytes 8 ((9 - l.il) * n * 2 ^ 33) ++
  leBytes 8 (l.il * n * 2 ^ 33) ++ leBytes 1 l.il ++ leBytes 1 n ++ leBytes 2 (stackPresent s) ++
  leBytes 2 l.retired ++ zeros 2 ++ ((List.range 8).map fun i =>
    BitVec.ofNat 8 (entry (2 * i) + 16 * entry (2 * i + 1))) ++ zeros 24

/-- DEV_LAYOUT (R368). -/
def execDevLayout (m : MsgSrc) (s : State) : Host.Outcome State Fault Refusal :=
  serve ⟨0x102, .any, true, false, some 0⟩ m (fun _ t => (.reply stOk (layoutRecord t), t)) s

/-- The key identifier: the first 8 bytes of SHA-384 over a point (R368, R530). -/
def keyIdent (point : List Byte) : List Byte := (leBytes 48 (Config.sha384 point)).reverse.take 8

/-- DEV_IDENTITY (R368). -/
def execDevIdentity (m : MsgSrc) (s : State) : Host.Outcome State Fault Refusal :=
  serve ⟨0x103, .any, true, false, some 0⟩ m
    (fun _ t => (.reply stOk (t.fuse.identityPub ++ zeros 7 ++ keyIdent t.fuse.identityPub), t)) s

/-- DEV_ECHO: the payload unchanged (R369). -/
def execDevEcho (m : MsgSrc) (s : State) : Host.Outcome State Fault Refusal :=
  serve ⟨0x104, .any, true, false, none⟩ m (fun c t => (.reply stOk c.data, t)) s

/-- TICKET_INFO's answer (R370): only for the issuer's own tickets, ISSUED or DONE. -/
def ticketInfo (c : Ctx) (s : State) : Answer × State :=
  match zeroAt c.data 4 4, findTicket s ⟨c.owner, fld c.data 0 4⟩ with
  | true, some k =>
    (.reply stOk ([BitVec.ofNat 8 (b2n k.done), 0] ++ leBytes 2 k.opcode ++ zeros 4 ++ leBytes 8 k.tag), s)
  | _, _ => refuse stBadParam s

/-- TICKET_INFO (R370). -/
def execTicketInfo (m : MsgSrc) (s : State) : Host.Outcome State Fault Refusal :=
  serve ⟨0x105, .any, true, false, some 8⟩ m ticketInfo s

/-! ## Guard settings -/

/-- The guard limit record, 64 bytes (R324). -/
def guardRecord (s : State) : List Byte :=
  let g := s.guard
  leBytes 1 (b2n g.locked) ++ zeros 20 ++ leBytes 1 g.laserFeedEn ++ leBytes 2 g.eraseRate ++
  leBytes 2 s.fuse.eraseCeil ++ leBytes 2 g.egressPort ++ leBytes 4 g.egressDevActive ++
  leBytes 4 g.egressDev ++ leBytes 2 g.powerCapActive ++ leBytes 2 g.powerCap ++
  leBytes 2 s.fuse.powerCapCeil ++ leBytes 2 g.violHalt ++ leBytes 4 g.violTotal ++ zeros 16

/-- GUARD_INFO (R371). -/
def execGuardInfo (m : MsgSrc) (s : State) : Host.Outcome State Fault Refusal :=
  serve ⟨0x110, .any, true, false, some 0⟩ m (fun _ t => (.reply stOk (guardRecord t), t)) s

/-- GUARD_SET's effect: a field of 0 leaves its register; values above the locked limits are accepted (R325,
R371). -/
def guardSet (c : Ctx) (s : State) : Answer × State :=
  let p := fld c.data 0 2
  let e := fld c.data 4 4
  let t := { s with guard := { s.guard with
    powerCapActive := if p = 0 then s.guard.powerCapActive else p
    egressDevActive := if e = 0 then s.guard.egressDevActive else e } }
  checked [(zeroAt c.data 2 2 && zeroAt c.data 8 8, stBadParam),
      (p == 0 || decide (1000 ≤ p), stBadParam), (e == 0 || decide (100 ≤ e), stBadParam)]
    (.reply stOk (guardRecord t), t) s

/-- GUARD_SET (R371). -/
def execGuardSet (m : MsgSrc) (s : State) : Host.Outcome State Fault Refusal :=
  serve ⟨0x111, .ws0, false, false, some 16⟩ m guardSet s

/-! ## Functions -/

/-- The enable sequence of R374: window reset, unread messages discarded, ticket numbers and MBX_SEQ restarted,
workspace and gateway bound. -/
def enableFn (s : State) (fn ws gw : Nat) : State :=
  putFn s fn { resetFunc with state := 1, ws := ws, gateway := gw }

/-- The result of a FUNC_ENABLE that completes with ST_OK (R372). -/
def enableResult (fn ws : Nat) : List Byte := [BitVec.ofNat 8 fn, 0] ++ leBytes 2 ws ++ zeros 4

/-- FUNC_ENABLE under Table: Function transitions (R373) (DEDUCED, assumption 84). -/
def funcEnable (c : Ctx) (s : State) : Answer × State :=
  let fn := fld c.data 0 1
  let ws := fld c.data 2 2
  let gw := fld c.data 8 8
  let f := getFn s fn
  let run : Answer × State :=
    if f.state = 0 then
      (.issue stPending (doneWork c [] stOk (enableResult fn ws)), enableFn s fn ws gw)
    else if f.state = 1 then refuse stBadParam s
    else
      match f.pendingEnable with
      | none => (.issue stBusyPendingEnable (work c []),
          putFn s fn { f with pendingEnable := some ⟨ws, gw, [c.ticket]⟩ })
      | some e =>
        match e.tickets.find? (·.owner == c.owner) with
        | some t => (.again stBusyPendingEnable t, s)
        | none => (.issue stBusyPendingEnable (work c []),
            putFn s fn { f with pendingEnable := some { e with tickets := e.tickets ++ [c.ticket] } })
  checked [(zeroAt c.data 1 1 && zeroAt c.data 4 4, stBadParam), (decide (1 ≤ fn), stBadParam),
    (decide (ws < 4096) && wsActive s ws, stBadParam), (gw != 0, stBadParam)] run s

/-- FUNC_ENABLE (R372 to R375). -/
def execFuncEnable (m : MsgSrc) (s : State) : Host.Outcome State Fault Refusal :=
  serve ⟨0x120, .ws0, true, true, some 16⟩ m funcEnable s

/-- Wind down a function's rings and channels (R354, R460). -/
def windDown (s : State) (fn : Nat) : State :=
  (getFn s fn).rings.foldl (fun t p =>
    match p.2.channel with
    | some ch => drainChannel (closeChannel t ch []) ch
    | none => settleRing (putRing t fn p.1 { p.2 with state := 2 }) fn p.1) s

/-- A function enters DISABLING (R354). -/
def disableFn (s : State) (fn : Nat) (tickets : List TicketRef) : State :=
  windDown (putFn s fn { getFn s fn with state := 2, disable := tickets }) fn

/-- FUNC_DISABLE under Table: Function transitions (R373). -/
def funcDisable (c : Ctx) (s : State) : Answer × State :=
  let fn := fld c.data 0 1
  let f := getFn s fn
  let cancelled := match f.pendingEnable with
    | some e => finishAll (putFn s fn { f with pendingEnable := none }) e.tickets stCancelled []
    | none => s
  let run : Answer × State :=
    if f.state = 1 then (.issue stPending (work c []), disableFn s fn [c.ticket])
    else
      match f.disable.find? (·.owner == c.owner) with
      | some t => (.again stPending t, cancelled)
      | none => (.issue stPending (work c []),
          putFn cancelled fn { getFn cancelled fn with disable := f.disable ++ [c.ticket] })
  checked [(zeroAt c.data 1 7, stBadParam), (fn != 0 && fn != c.owner, stBadParam),
    (f.state != 0, stBadParam)] run s

/-- FUNC_DISABLE (R373). -/
def execFuncDisable (m : MsgSrc) (s : State) : Host.Outcome State Fault Refusal :=
  serve ⟨0x121, .ws0, true, true, some 8⟩ m funcDisable s

/-- Table: FUNC_INFO result (R372). -/
def funcInfo (s : State) (fn : Nat) : List Byte :=
  let f := getFn s fn
  let e := f.pendingEnable
  [BitVec.ofNat 8 f.state, BitVec.ofNat 8 (b2n e.isSome)] ++ leBytes 2 f.ws ++
  leBytes 4 ((e.bind (·.tickets.head?)).map (·.num) |>.getD 0) ++ leBytes 8 f.gateway ++
  leBytes 4 f.rings.length ++ leBytes 4 f.tickets.length ++ zeros 8

/-- FUNC_INFO (R372). -/
def execFuncInfo (m : MsgSrc) (s : State) : Host.Outcome State Fault Refusal :=
  serve ⟨0x122, .ws0, true, false, some 8⟩ m (fun c t =>
    checked [(zeroAt c.data 1 7, stBadParam)] (.reply stOk (funcInfo t (fld c.data 0 1)), t) t) s

/-- Whether a DISABLING function's rings are ABSENT and its tickets DONE (R354). -/
def disableReady (s : State) (fn : Nat) : Bool :=
  let f := getFn s fn
  decide (f.state = 2) && f.rings.isEmpty && f.tickets.all fun p => p.2.done

/-- The function becomes DISABLED: each D completes, then a latched enable is checked again and runs, and each E
completes (R373, R375). -/
def disableDone (s : State) (fn : Nat) : State :=
  let f := getFn s fn
  let t := putFn s fn { f with state := 0, ws := 0, gateway := 0, disable := [], pendingEnable := none }
  let t := finishAll t f.disable stOk ([BitVec.ofNat 8 fn] ++ zeros 7)
  match f.pendingEnable with
  | none => t
  | some e =>
    if wsActive t e.ws then finishAll (enableFn t fn e.ws e.gateway) e.tickets stOk (enableResult fn e.ws)
    else finishAll t e.tickets stBadParam []

/-- FUNC_DISABLE_DONE (R354). -/
def execFuncDisableDone (fn : Nat) (s : State) : Host.Outcome State Fault Refusal :=
  guarded "FUNC_DISABLE_DONE" (decide (fn < 256)) (when (disableReady s fn && firmwareRuns s) (disableDone · fn) s)

/-! ## Opcodes that are not served -/

/-- A message whose opcode is not in the catalogue, or whose header is bad (R338, R357). -/
def unknownMsg (m : MsgSrc) (s : State) : Bool :=
  canAccept s m && inRun s &&
    (!knownOpcodes.contains (fld (msgBytes s m) 0 2) || !headerOk (msgBytes s m))

/-- It gets a response with ST_BAD_PARAM and nothing is executed. -/
def answerUnknown (m : MsgSrc) (s : State) : State :=
  respond (takeRequest s m) (msgOwner m) (fld (msgBytes s m) 0 2) (fld (msgBytes s m) 8 8) stBadParam 0 []

/-- UNKNOWN_OPCODE (R357). -/
def execUnknownOpcode (m : MsgSrc) (s : State) : Host.Outcome State Fault Refusal :=
  .next (when (unknownMsg m s) (answerUnknown m) s)

end Sys2Proof.Machine
end

