-- ==== Sys2Proof/Machine/RecOps.lean ====
section
/-!
DEFINITION. The event recorder as shared operations (20): class and severity by code, record bytes, writing a
record with its forwarding, folding, latching, the archive's state and the snapshot window.
-/

namespace Sys2Proof.Machine

/-! ## Codes (R518) -/

/-- Codes of the ALARM class. -/
def alarmCodes : List Nat :=
  [0x104, 0x105, 0x202, 0x302, 0x304, 0x401, 0x603, 0x604, 0x606, 0x607, 0x704, 0x705, 0x706, 0x707, 0x708,
   0x709] ++
  [0x802, 0x803, 0x805, 0x807, 0x901, 0x903, 0x905, 0x906, 0x907, 0x908, 0x921, 0x924, 0x941, 0x942, 0x962] ++
  [0xA02, 0xA03, 0xA04, 0xB03, 0xB06, 0xB07, 0xB09, 0xB0A]

/-- Class of a code: 0 TRACE, 1 LOG, 2 ALARM. -/
def classOf (code : Nat) : Nat :=
  if 0xF000 ≤ code then 0 else if alarmCodes.contains code then 2 else 1

/-- Severity of a code: 0 DEBUG to 4 CRITICAL. -/
def severityOf (code : Nat) : Nat :=
  if 0xF000 ≤ code then 0
  else if [0x401, 0x708, 0x807, 0x901, 0x907, 0x908, 0x962].contains code then 4
  else if [0x104, 0x202, 0x302, 0x304, 0x603, 0x604, 0x606, 0x607, 0x704, 0x705, 0x707, 0x802, 0x803, 0x805,
      0x903, 0x921, 0x924, 0x942, 0xA04, 0xB03, 0xB09].contains code then 3
  else if [0x102, 0x105, 0x303, 0x501, 0x502, 0x601, 0x602, 0x605, 0x608, 0x701, 0x706, 0x709, 0x801, 0x804,
      0x904, 0x905, 0x906, 0x925, 0x941, 0x961, 0x963, 0xA02, 0xA03, 0xB06, 0xB07].contains code then 2
  else 1

/-! ## Records -/

/-- The source field of a record. -/
def sourceOf (e : Event) : Nat := e.srcKind * 4096 + e.inst % 4096

/-- Table: Event record (R517). -/
def recordBytes (r : Rec) : List Byte :=
  leBytes 2 r.ev.code ++ leBytes 2 (sourceOf r.ev) ++ leBytes 1 r.cls ++ leBytes 1 (severityOf r.ev.code) ++
  leBytes 1 (b2n r.ev.timeFree + 2 * b2n r.reserve) ++ zeros 1 ++ leBytes 8 r.ev.time ++ leBytes 8 r.ev.p0 ++
  leBytes 8 r.ev.p1 ++ leBytes 8 r.ev.p2 ++ leBytes 8 r.ev.p3 ++ leBytes 8 r.ev.p4 ++ leBytes 4 r.number ++
  leBytes 3 r.rep ++ [0xA5]

/-- U: records neither archived nor excluded (R520). -/
def unarchived (e : Recorder) : Nat := (e.recs.filter fun r => r.archived.isNone && !r.excluded).length

/-- The number of the newest record; 0 before any. -/
def evwNewest (e : Recorder) : Nat := e.nextNumber - 1

/-- Whether a record of this life is still readable: not cleared, and in the ring or in the archive (R529). -/
def readable (e : Recorder) (r : Rec) : Bool :=
  !r.cleared && (decide (e.nextNumber ≤ r.number + 65536) ||
    match r.archived with
    | some p => decide (e.archOldest ≤ p)
    | none => !r.excluded)

/-- The lowest record number of the life that is still readable. -/
def evwOldest (e : Recorder) : Nat := ((e.recs.find? (readable e)).map (·.number)).getD e.nextNumber

/-- The snapshot of records `n` to `n + 63`; a record not readable reads as 64 zero bytes (R529). -/
def snapshotAt (e : Recorder) (n : Nat) : List (List Byte) :=
  (List.range 64).map fun i =>
    match e.recs.find? (·.number == n + i) with
    | some r => if readable e r then recordBytes r else zeros 64
    | none => zeros 64

/-- The channel group that holds the EVENT_ARCHIVE stream (R465). -/
def archiveGroup (s : State) : Option Nat :=
  (List.range 8).find? fun g => ((s.flash.groups.getD g resetGroup).streams.any fun st => st.kind == 2)

/-- archive_state (R527): 0 NOT_MOUNTED, 1 WRITING, 2 ALARM_ONLY, 3 UNAVAILABLE. -/
def archiveState (s : State) : Nat :=
  if !s.evr.archMounted then 0
  else match archiveGroup s with
    | some g =>
      match (s.flash.groups.getD g resetGroup).state with
      | 3 => 1
      | 4 => 2
      | _ => 3
    | none => 3

/-! ## Writing -/

/-- Forward a record of a forwarded class to its slot of the forward ring (R529): ALARM in TC7 as an alarm
packet, LOG in TC7, TRACE in WS0's wclass; a window ring is written at once. -/
def forward (s : State) (r : Rec) : State :=
  let e := s.evr
  let bitOf := if r.cls = 2 then 0 else if r.cls = 1 then 1 else 2
  if e.fwdAddr ≠ 0 ∧ bit e.fwdClasses bitOf then
    let a := e.fwdAddr + e.fwdCount % (max 1 e.fwdEntries) * 64
    let t := { s with evr := { e with fwdCount := wrapAdd 64 e.fwdCount 1 } }
    if addrSpace e.fwdAddr = 0 then { t with mem := store t.mem (bits a 40 0) (recordBytes r) }
    else
      let u := { t with fab := { t.fab with nextTxn := wrapAdd 64 t.fab.nextTxn 1 } }
      (messagePackets u (gatewayDev (getFn u 0).gateway) (if r.cls = 0 then (getWs u 0).wclass else 7) 0 0x10
        t.fab.nextTxn (leBytes 8 a ++ recordBytes r) (decide (r.cls = 2))).foldl sendPacket u
  else s

/-- Write a record: it takes the next number; an ALARM record asserts the alarm output, and RESERVE is set where
the ring stood in its alarm reserve (R519, R520, R593). A LOG or TRACE record is excluded at once while the archive
takes only ALARM records (R527). -/
def writeRecord (s : State) (ev : Event) (rep : Nat) : State :=
  let e := s.evr
  let cls := classOf ev.code
  let excl := decide (archiveState s = 2) && decide (cls ≠ 2)
  let r : Rec := ⟨ev, cls, e.nextNumber, min rep 0xFFFFFF, decide (64512 ≤ unarchived e), none, excl, false⟩
  let t := { s with evr := { e with
    recs := e.recs ++ [r]
    nextNumber := e.nextNumber + 1
    excludedCount := satAdd 32 e.excludedCount (b2n excl)
    dExcl := e.dExcl + b2n excl
    dropAt := if excl && e.dropAt.isNone then some (ns s) else e.dropAt } }
  forward (if cls = 2 then assertAlarm t else t) r

/-- A drop begins a count if none runs (R525). -/
def markDrop (s : State) : State :=
  { s with evr := { s.evr with dropAt := if s.evr.dropAt.isNone then some (ns s) else s.evr.dropAt } }

/-- Fold an occurrence under its code, or under 0xFFFF once the table is full (R523, R524). -/
def foldEvent (s : State) (ev : Event) : State :=
  let e := s.evr
  let code := if (e.folds.any (·.code == ev.code)) || decide (e.folds.length < 1024) then ev.code else 0xFFFF
  let upd := fun f : Fold => if f.code = code then
    { f with count := satAdd 32 f.count 1, first := if f.count = 0 then ev.time else f.first,
             last := ev.time, source := sourceOf ev, fresh := true } else f
  let folds := if e.folds.any (·.code == code) then e.folds.map upd
    else e.folds ++ [⟨code, 1, ev.time, ev.time, sourceOf ev, ns s + 1000000000, true⟩]
  markDrop { s with evr := { e with folds := folds, logFolded := satAdd 32 e.logFolded 1, dFold := e.dFold + 1 } }

/-- Latch an ALARM event at its source, or count it as a repeat of the one latched (R522). -/
def latchEvent (s : State) (ev : Event) : State :=
  let e := s.evr
  let same := fun l : Latch => l.ev.code == ev.code && sourceOf l.ev == sourceOf ev
  if e.latches.any same then
    { s with evr := { e with
        latches := e.latches.map fun l => if same l then { l with rep := satAdd 24 l.rep 1 } else l
        alarmRepeats := satAdd 32 e.alarmRepeats 1
        dAlarm := e.dAlarm + 1 } }
  else { s with evr := { e with latches := e.latches ++ [⟨ev, 0⟩] } }

/-- The log bucket filled up to now: tokens × 10^9 (R523). -/
def logTokens (s : State) : Nat :=
  min (s.evr.logBurst * 10 ^ 9) (s.evr.tokens + (ns s - s.evr.filledAt) * s.evr.logRate)

/-- What the recorder does with an event by its class (R520 to R525). A TRACE event of a source kind that
trace_mask does not enable raises no record and is no drop (DEDUCED, assumption 13). -/
def recordEvent (s : State) (ev : Event) : State :=
  let u := unarchived s.evr
  match classOf ev.code with
  | 0 =>
    if !bit s.evr.traceMask ev.srcKind then s
    else if u < 32768 then writeRecord s ev 0
    else markDrop { s with evr := { s.evr with
      traceDropped := satAdd 32 s.evr.traceDropped 1, dTrace := s.evr.dTrace + 1 } }
  | 1 =>
    let tk := logTokens s
    let t := { s with evr := { s.evr with tokens := tk, filledAt := ns s } }
    if 10 ^ 9 ≤ tk ∧ u < 64512 then
      writeRecord { t with evr := { t.evr with tokens := tk - 10 ^ 9 } } ev 0
    else foldEvent t ev
  | _ => if u < 65536 then writeRecord s ev 0 else latchEvent s ev

end Sys2Proof.Machine
end

