-- ==== Sys2Proof/Machine/Window.lean ====
section
/-!
DEFINITION. The register window (12): which register packets are served, what every register reads, mailbox and
ring doorbells, interrupt vectors, and accesses of bad width.
-/

namespace Sys2Proof.Machine

/-! ## Which packets are served -/

/-- Widths that the window serves: 4 or 8 bytes, naturally aligned; in request slots also 16 to 256 bytes in
powers of two (R331). -/
def widthOk (off n : Nat) (isWrite : Bool) : Bool :=
  off % max 1 n == 0 && decide (off + n ≤ 0x10000) &&
    ([4, 8].contains n ||
      (isWrite && [16, 32, 64, 128, 256].contains n && decide (0x8000 ≤ off) && decide (off < 0xC000)))

/-- A packet from the function's own gateway to a function that is not DISABLED, in RUN (R331, R332, R374). -/
def packetHeard (s : State) (p : RegPkt) : Bool :=
  inRun s && decide (p.fn < 256) && (getFn s p.fn).state != 0 && p.gateway == (getFn s p.fn).gateway

/-- A write that acts: heard, of a legal width, and not during a guard halt (R332). -/
def writeHeard (s : State) (p : RegPkt) : Bool :=
  packetHeard s p && !s.guard.halted && widthOk p.offset p.data.length true

/-- Whether a write covers byte `b` of the window. -/
def covers (p : RegPkt) (b : Nat) : Bool := decide (p.offset ≤ b) && decide (b < p.offset + p.data.length)

/-- The value of the 64-bit register at `base` after the bytes that a write covers replace its own. -/
def mergeReg (p : RegPkt) (base old : Nat) : Nat :=
  leNat ((List.range 8).map fun i =>
    if covers p (base + i) then p.data.getD (base + i - p.offset) 0 else (leBytes 8 old).getD i 0)

/-- Only the bytes that a write covers, others 0: what a write-one register sees. -/
def writtenOnes (p : RegPkt) (base : Nat) : Nat := mergeReg p base 0

/-- Answer a write packet that waited in the inbox with an empty REG_RESP under its tag (Table: Message types). -/
def ackWrite (s : State) (p : RegPkt) : State :=
  match s.fab.inbox.find? fun q => q.msg == 0x02 && q.src == gatewayDev p.gateway with
  | some q => sendTxn (takeInbox s 0x02 (gatewayDev p.gateway)) q.src 7 (getFn s p.fn).ws 0x03 q.txn []
  | none => s

/-! ## What registers read -/

/-- The control word of an interrupt vector (Table: Interrupt vector v). -/
def vecCtrl (x : Vec) : Nat := x.coalCount * 2 ^ 32 + x.coalNs * 2 ^ 8 + 2 * b2n x.mask + b2n x.enable

/-- The state that a ring's status shows: its own, or its channel's (Table: RING_INFO result). -/
def ringShown (s : State) (g : Ring) : Nat :=
  match g.channel with
  | some c => (getChan s c).state
  | none => g.state

/-- The 64-bit register at an 8-aligned offset of a function's window. -/
def regRead (s : State) (fn off : Nat) : Nat :=
  let f := getFn s fn
  let live := f.state != 0
  let halted := s.guard.halted
  if off = 0 then partCode s * 2 ^ 48 + steppingCode s * 2 ^ 40 + 2 ^ 32 + 2 ^ 24 + fn
  else if off = 8 then (if f.state = 0 then 0 else f.ws * 2 ^ 20) + b2n f.pendingEnable.isSome * 128 + f.state
  else if !live then 0
  else if off = 0x10 then (if halted then 2 else 1)
  else if off = 0x18 then net s % 2 ^ 64
  else if fn = 0 ∧ off = 0x400 then s.evr.cursor.toNat
  else if fn = 0 ∧ off = 0x408 then evwNewest s.evr % 2 ^ 64
  else if fn = 0 ∧ off = 0x410 then evwOldest s.evr % 2 ^ 64
  else if fn = 0 ∧ 0x4000 ≤ off ∧ off < 0x5000 then
    fld (s.evr.window.getD ((off - 0x4000) / 64) (zeros 64)) (off % 64) 8
  else if halted then 0
  else if off = 0x108 then f.busy.toNat
  else if off = 0x110 then f.ready.toNat
  else if off = 0x118 then f.mbxVector * 2 ^ 16
  else if off = 0x120 then f.accepted * 2 ^ 32 + f.badBells
  else if off = 0x128 then f.seq.toNat
  else if 0x1000 ≤ off ∧ off < 0x2000 then
    let g := getRing f ((off - 0x1000) / 16)
    if off % 16 = 0 then g.sqPi.toNat else g.cqCi.toNat
  else if 0x2000 ≤ off ∧ off < 0x3000 then
    let g := getRing f ((off - 0x2000) / 16)
    if off % 16 = 0 then g.sqCi.toNat * 2 ^ 32 + 8 * b2n g.badDoorbell + ringShown s g else g.cqPi.toNat
  else if 0x3000 ≤ off ∧ off < 0x4000 then
    let x := getVec f ((off - 0x3000) / 16)
    if off % 16 = 0 then vecCtrl x else x.sent * 2 ^ 32 + x.unsignalled * 2 ^ 16 + b2n x.pending
  else if 0x8000 ≤ off ∧ off < 0xC000 then
    leNat ((List.range 8).map fun i => Tab.get 0 f.reqSlots (off - 0x8000 + i))
  else if 0xC000 ≤ off then fld ((Tab.get [] f.respSlots ((off - 0xC000) / 1024))) (off % 1024) 8
  else 0

/-- A register read of `n` bytes: 0 where the access is of bad width (R331). -/
def readWindow (s : State) (fn off n : Nat) : List Byte :=
  if widthOk off n false then slice (leBytes 8 (regRead s fn (off / 8 * 8))) (off % 8) n else zeros n

/-! ## Mailbox doorbells -/

/-- One doorbell bit: a slot already BUSY is counted, another becomes BUSY in arrival order (R334, R337). -/
def ringSlot (f : Func) (i : Nat) : Func :=
  if f.busy.getLsbD i then { f with badBells := satAdd 32 f.badBells 1 }
  else { f with busy := f.busy ||| BitVec.ofNat 16 (2 ^ i), arrival := f.arrival ++ [i] }

/-- The slots a doorbell value names, ascending (R336). -/
def bellSlots (v : Nat) : List Nat := (List.range 16).filter (bit v)

/-- MBX_DOORBELL acts on an ENABLED function (R332, R334). -/
def doorbell (p : RegPkt) (s : State) : State :=
  let f := getFn s p.fn
  ackWrite (putFn s p.fn ((bellSlots (writtenOnes p 0x100)).foldl ringSlot f)) p

def doorbellActs (s : State) (p : RegPkt) : Bool :=
  writeHeard s p && p.offset / 8 * 8 == 0x100 && (getFn s p.fn).state == 1

/-- MBX_DOORBELL (R334). -/
def execMbxDoorbell (p : RegPkt) (s : State) : Host.Outcome State Fault Refusal :=
  .next (when (doorbellActs s p) (doorbell p) s)

/-- Free the response slots a value names: a DONE message's ticket becomes RETIRED (R339, R341). -/
def freeSlots (f : Func) (v : Nat) : Func :=
  let freed := (bellSlots v).filter f.ready.getLsbD
  let nums := freed.filterMap fun i => let m := Tab.get [] f.respSlots i
    if isDone m then some (fld m 16 4) else none
  { f with
    ready := freed.foldl (fun r i => r &&& ~~~(BitVec.ofNat 16 (2 ^ i))) f.ready
    tickets := f.tickets.filter fun t => !nums.contains t.1 }

/-- MBX_RESP_READY: slots return to the Bamgor and queued responses are posted in order (R339). -/
def respReady (p : RegPkt) (s : State) : State :=
  ackWrite (drainQueue (putFn s p.fn (freeSlots (getFn s p.fn) (writtenOnes p 0x110))) p.fn 16) p

def respReadyActs (s : State) (p : RegPkt) : Bool := writeHeard s p && p.offset / 8 * 8 == 0x110

/-- MBX_RESP_READY (R339). -/
def execMbxRespReady (p : RegPkt) (s : State) : Host.Outcome State Fault Refusal :=
  .next (when (respReadyActs s p) (respReady p) s)

/-! ## Ring doorbells -/

/-- An ignored doorbell: BAD_DOORBELL, and EV_RING_DOORBELL_BAD at most once per second per ring (R345, R350). -/
def badDoorbell (s : State) (fn r reg value : Nat) : State :=
  let g := getRing (getFn s fn) r
  let due := match g.badAt with | some t => elapsed s t 1000000000 | none => true
  if due then
    emitFull (putRing s fn r { g with badDoorbell := true, badAt := some (ns s), badCount := 0 })
      0x0502 0 0 fn r reg value (g.badCount + 1)
  else putRing s fn r { g with badDoorbell := true, badCount := g.badCount + 1 }

/-- Whether a submission doorbell of value `x` acts (R345). -/
def sqBellOk (g : Ring) (x : Word32) : Bool :=
  decide ((x - g.sqCi).toNat ≤ g.sqEntries) && decide ((g.sqPi - g.sqCi).toNat ≤ (x - g.sqCi).toNat)

/-- Whether a ring or channel still takes submission doorbells (R353, R446). -/
def takesBells (s : State) (g : Ring) : Bool :=
  match g.channel with
  | some c => (getChan s c).state != 4
  | none => g.state == 1

/-- SQ_PI: hands entries over, or is ignored and flagged. -/
def sqBell (p : RegPkt) (s : State) : State :=
  let r := (p.offset - 0x1000) / 16
  let g := getRing (getFn s p.fn) r
  let x : Word32 := BitVec.ofNat 32 (mergeReg p (0x1000 + 16 * r) g.sqPi.toNat)
  ackWrite (if !takesBells s g then s
    else if sqBellOk g x then putRing s p.fn r { g with sqPi := x }
    else badDoorbell s p.fn r 0 x.toNat) p

def sqBellActs (s : State) (p : RegPkt) : Bool :=
  writeHeard s p && decide (0x1000 ≤ p.offset) && decide (p.offset < 0x2000) && p.offset % 16 == 0 &&
    (getFn s p.fn).state == 1

/-- SQ_PI_DOORBELL (R345). -/
def execSqPiDoorbell (p : RegPkt) (s : State) : Host.Outcome State Fault Refusal :=
  .next (when (sqBellActs s p) (sqBell p) s)

/-- Whether a completion consumer count acts: it neither moves backwards nor passes CQ_PI (R350). -/
def cqBellOk (g : Ring) (x : Word32) : Bool := decide ((x - g.cqCi).toNat ≤ (g.cqPi - g.cqCi).toNat)

/-- CQ_CI: returns completion positions, or is ignored and flagged. -/
def cqBell (p : RegPkt) (s : State) : State :=
  let r := (p.offset - 0x1000) / 16
  let g := getRing (getFn s p.fn) r
  let x : Word32 := BitVec.ofNat 32 (mergeReg p (0x1008 + 16 * r) g.cqCi.toNat)
  ackWrite (if g.state = 0 then s
    else if cqBellOk g x then putRing s p.fn r { g with cqCi := x }
    else badDoorbell s p.fn r 1 x.toNat) p

def cqBellActs (s : State) (p : RegPkt) : Bool :=
  writeHeard s p && decide (0x1000 ≤ p.offset) && decide (p.offset < 0x2000) && p.offset % 16 == 8

/-- CQ_CI_WRITE (R350). -/
def execCqCiWrite (p : RegPkt) (s : State) : Host.Outcome State Fault Refusal :=
  .next (when (cqBellActs s p) (cqBell p) s)

/-! ## Interrupt vectors -/

/-- A write to a vector's control register; clearing MASK sends a message that MASK held (R355). -/
def vecWrite (p : RegPkt) (s : State) : State :=
  let v := (p.offset - 0x3000) / 16
  let x := getVec (getFn s p.fn) v
  let w := mergeReg p (0x3000 + 16 * v) (vecCtrl x)
  let y := { x with coalCount := bits w 47 32, coalNs := bits w 31 8, mask := bit w 1, enable := bit w 0 }
  let t := putVec s p.fn v y
  ackWrite (if x.pending ∧ !y.mask ∧ y.enable then sendInterrupt t p.fn v else t) p

def vecWriteActs (s : State) (p : RegPkt) : Bool :=
  writeHeard s p && decide (0x3000 ≤ p.offset) && decide (p.offset < 0x4000) && decide (p.offset % 16 < 8)

/-- INTERRUPT_VECTOR_WRITE (R355). -/
def execInterruptVectorWrite (p : RegPkt) (s : State) : Host.Outcome State Fault Refusal :=
  .next (when (vecWriteActs s p) (vecWrite p) s)

/-- Whether COAL_NS has passed since a vector's first unsignalled event. -/
def timerDue (s : State) (fn v : Nat) : Bool :=
  let x := getVec (getFn s fn) v
  decide (v < 256) && x.enable && vectorDue s x && !(x.mask && x.pending)

/-- COALESCING_TIMER (R355). -/
def execCoalescingTimer (fn vec : Nat) (s : State) : Host.Outcome State Fault Refusal :=
  guarded "COALESCING_TIMER" (decide (fn < 256) && decide (vec < 256))
    (when (timerDue s fn vec) (interruptDue · fn vec) s)

/-! ## Other registers -/

/-- A write into a request slot: ignored while the slot is BUSY (R334). -/
def writeSlotBytes (f : Func) (p : RegPkt) : Func :=
  let slot := (p.offset - 0x8000) / 1024
  if f.busy.getLsbD slot then f
  else { f with reqSlots := (p.data.zipIdx).foldl (fun t b => Tab.set 0 t (p.offset - 0x8000 + b.2) b.1) f.reqSlots }

/-- A write to a register without behaviour of its own: MBX_CTRL, request slots and the W1C BAD_DOORBELL bit take
it; a read-only, Reserved or response-slot address ignores it (R11, R331, R339). -/
def plainWrite (p : RegPkt) (s : State) : State :=
  let f := getFn s p.fn
  let r := (p.offset - 0x2000) / 16
  ackWrite (if p.offset / 8 * 8 = 0x118 then
      putFn s p.fn { f with mbxVector := bits (mergeReg p 0x118 (f.mbxVector * 2 ^ 16)) 31 16 }
    else if 0x8000 ≤ p.offset ∧ p.offset < 0xC000 then putFn s p.fn (writeSlotBytes f p)
    else if 0x2000 ≤ p.offset ∧ p.offset < 0x3000 ∧ p.offset % 16 < 8 then
      let g := getRing f r
      if bit (writtenOnes p (0x2000 + 16 * r)) 3 then putRing s p.fn r { g with badDoorbell := false } else s
    else s) p

/-- Addresses whose writes have a row of their own. -/
def ownRow (p : RegPkt) : Bool :=
  [0x100, 0x110].contains (p.offset / 8 * 8) || (p.fn == 0 && p.offset / 8 * 8 == 0x400) ||
  (decide (0x1000 ≤ p.offset) && decide (p.offset < 0x2000)) ||
  (decide (0x3000 ≤ p.offset) && decide (p.offset < 0x4000) && decide (p.offset % 16 < 8))

/-- REGISTER_WRITE (R331). -/
def execRegisterWrite (p : RegPkt) (s : State) : Host.Outcome State Fault Refusal :=
  .next (when (writeHeard s p && !ownRow p) (plainWrite p) s)

/-- A bad access: ignored, counted, and reported at most once per second per function (R331). -/
def badAccess (p : RegPkt) (s : State) : State :=
  let f := getFn s p.fn
  let due := match f.badAt with | some t => elapsed s t 1000000000 | none => true
  ackWrite (if due then
      emitFull (putFn s p.fn { f with badAt := some (ns s), badCount := 0 })
        0x0501 0 0 p.fn p.offset p.data.length (f.badCount + 1) 0
    else putFn s p.fn { f with badCount := f.badCount + 1 }) p

/-- WINDOW_BAD_ACCESS (R331). -/
def execWindowBadAccess (p : RegPkt) (isWrite : Bool) (s : State) : Host.Outcome State Fault Refusal :=
  .next (when (packetHeard s p && !s.guard.halted && !widthOk p.offset p.data.length isWrite) (badAccess p) s)

/-! ## The event read window -/

/-- A write to EVW_CURSOR sets the bytes it covers and takes a snapshot of 64 records (R529). -/
def cursorWrite (p : RegPkt) (s : State) : State :=
  let c := mergeReg p 0x400 s.evr.cursor.toNat
  ackWrite { s with evr := { s.evr with cursor := BitVec.ofNat 64 c, window := snapshotAt s.evr c } } p

def cursorWriteActs (s : State) (p : RegPkt) : Bool :=
  writeHeard s p && p.fn == 0 && p.offset / 8 * 8 == 0x400

/-- EVW_CURSOR_WRITE (R529). -/
def execEvwCursorWrite (p : RegPkt) (s : State) : Host.Outcome State Fault Refusal :=
  .next (when (cursorWriteActs s p) (cursorWrite p) s)

end Sys2Proof.Machine
end

