-- ==== Sys2Proof/Machine/Packets.lean ====
section
/-!
DEFINITION. Rows of frames, packets and routes (15): retry and credits, delivery, end-to-end acknowledgement, fabric
memory accesses, and LINK_STATE.
-/

namespace Sys2Proof.Machine

/-! ## Frames -/

/-- Frames that a received acknowledgement covers leave the sender's store (R411). -/
def ackFrames (x : Port) (ack : Nat) : Port := { x with unacked := x.unacked.filter fun f => !seqLe f.seq ack }

/-- The sender replays every frame that it still holds; a frame replayed 8 times without progress takes the port to
training (R409, R411). -/
def replayFrames (s : State) (p : Nat) : State :=
  let x := getPort s p
  let fs := x.unacked.map fun f => { f with replays := f.replays + 1, sentAt := ns s }
  let t := putPort s p { x with unacked := fs, replays := satAdd 32 x.replays fs.length }
  if fs.any fun f => decide (8 ≤ f.replays) then retrainPort t p else t

/-- Change a credit count by its channel and class. -/
def modCredit (l : List Credit) (vc cls : Nat) (f : Nat → Nat) : List Credit :=
  let u := ((l.find? fun c => c.vc == vc && c.cls == cls).map (·.used)).getD 0
  let rest := l.filter fun c => !(c.vc == vc && c.cls == cls)
  if f u = 0 then rest else ⟨vc, cls, f u⟩ :: rest

/-- What a frame head brings: credits, then an acknowledgement or a NAK (R411, R412). -/
def headActs (s : State) (p : Nat) (h : FrameHead) : State :=
  let x := getPort s p
  let y := { x with credits := modCredit x.credits h.vc h.cls (· - h.cells) }
  if h.ackKind = 1 then putPort s p (ackFrames y h.ack)
  else if h.ackKind = 2 then replayFrames (putPort s p (ackFrames y h.ack)) p
  else putPort s p y

/-- Bytes of a DATA frame in sequence join those not yet whole; the whole packets have arrived, and bad headers are
counted (R410, R416). -/
def frameBody (s : State) (p : Nat) (body : List Byte) : State :=
  let x := getPort s p
  let l := x.rxTail ++ body
  let r := cutPackets (l.length / 48 + 1) l
  let t := putPort s p { x with
    rxSeq := (x.rxSeq + 1) % 4096, rxTail := r.2.2, badHcrc := satAdd 32 x.badHcrc r.2.1, ackKind := 1 }
  { t with fab := { t.fab with arrived := t.fab.arrived ++ r.1.map fun q => (p, q) } }

/-- The port answers with a NAK in its next frame head (R411). -/
def nakFrame (s : State) (p : Nat) : State := putPort s p { getPort s p with ackKind := 2 }

/-- A link frame is received (R410 to R412): kinds and ack kinds that are reserved do nothing. -/
def dataFrame (s : State) (p : Nat) (f : List Byte) : State :=
  if !frameOk f then nakFrame s p
  else
    let h := FrameHead.parse f
    let t := headActs s p h
    if !trained t p then t
    else
      let due := ((getPort t p).rxSeq + 1) % 4096
      match h.kind with
      | 0 => if h.seq = due then frameBody t p (slice f 8 244) else nakFrame t p
      | 1 => if h.seq = due then t else nakFrame t p
      | _ => t

/-- What the receiver's FEC met: corrected symbols and uncorrectable codewords are counted, and each of the latter is one
point against the port (R422, R492) (DESIGN CHOICE, assumption 152). -/
def fecSeen (s : State) (p corrected uncorrectable : Nat) : State :=
  let x := getPort s p
  let t := putPort s p { x with
    fecCorrected := satAdd 64 x.fecCorrected corrected, fecUncorrectable := satAdd 32 x.fecUncorrectable uncorrectable }
  if uncorrectable = 0 then t else score t 7 p uncorrectable 0

/-- A link frame arrives: its FEC is counted, then its content acts, unless the port's score has just disabled it
(R411, R493). -/
def frameArrives (s : State) (p corrected uncorrectable : Nat) (f : List Byte) : State :=
  let t := fecSeen s p corrected uncorrectable
  if trained t p then dataFrame t p f else t

/-- DATA_FRAME (R411). -/
def execDataFrame (port corrected uncorrectable : Nat) (f : List Byte) (s : State) : Host.Outcome State Fault Refusal :=
  guarded "DATA_FRAME" (decide (port < 32))
    (when (linksLive s && trained s port) (frameArrives · port corrected uncorrectable f) s)

/-- FRAME_REPLAY_TIMEOUT (R411). -/
def execFrameReplayTimeout (port : Nat) (s : State) : Host.Outcome State Fault Refusal :=
  guarded "FRAME_REPLAY_TIMEOUT" (decide (port < 32))
    (when (trained s port && (getPort s port).unacked.any fun f => elapsed s f.sentAt 10000)
      (replayFrames · port) s)

/-! ## Delivery -/

/-- Cells of a packet in a receive buffer (R412). -/
def cellsOf (p : Packet) : Nat := cdiv (packetLen p) 64

/-- The cells of a packet that leaves a port's receive buffer are owed to the partner (R412). -/
def freeCells (s : State) (port : Nat) (p : Packet) : State :=
  let x := getPort s port
  putPort s port { x with owed := modCredit x.owed p.vc (b2n p.hop) (· + cellsOf p) }

/-- A packet for another device goes on to its second hop; one that has made two hops goes no further (R413). -/
def relay (s : State) (p : Packet) : State :=
  if p.hop then s
  else match secondHop s p.src p.dst p.vc with
    | some q => enqueue s q { p with hop := true }
    | none => unreachable s p.dst

/-- An end-to-end acknowledgement of a TC7 flow: the highest number delivered in order (Table: Message types). One that
is sent for a gap is the NAK (DEDUCED, assumption 19). -/
def sendE2e (s : State) (src vc upTo : Nat) : State :=
  sendMsg s src 7 0 0x53 (leBytes 2 src ++ leBytes 1 vc ++ zeros 1 ++ leBytes 2 upTo)

def putRxFlow (s : State) (f : RxFlow) : State :=
  { s with fab := { s.fab with
      rxFlows := f :: s.fab.rxFlows.filter fun g => !(g.src == f.src && g.vc == f.vc) } }

/-- The flow of a received packet; one not known yet starts at the packet's own number (DEDUCED, assumption 19). -/
def rxFlowOf (s : State) (p : Packet) : RxFlow :=
  (s.fab.rxFlows.find? fun f => f.src == p.src && f.vc == p.vc).getD ⟨p.src, p.vc, p.flowSeq, 0, 0, [], false⟩

/-- Answer a register read with its data, under its tag; one of a bad width reads 0 (R331, R332). -/
def answerRegRead (s : State) (p : Packet) : State :=
  let fn := fld p.payload 0 1
  let n := fld p.payload 1 1
  let off := fld p.payload 4 4
  let f := getFn s fn
  if f.state = 0 ∨ gatewayDev f.gateway = p.src then
    sendTxn s p.src 7 f.ws 0x03 p.txn (if widthOk off n false then readWindow s fn off n else zeros n)
  else s

/-- A MEM_WRITE_ACK ends the wait for its write (R417). -/
def writeAcked (s : State) (src txn : Nat) : State :=
  { s with fab := { s.fab with
      held := s.fab.held.filter fun h => !(h.pkt.msg == 0x10 && h.pkt.dst == src && h.pkt.txn == txn) } }

/-- A whole message reaches its unit: register reads are answered, sub-requests wait for their slot, acknowledgements of
writes end their wait; any other message waits for the row that acts on it. -/
def deliver (s : State) (p : Packet) : State :=
  match p.msg with
  | 0x01 => answerRegRead s p
  | 0x11 => writeAcked s p.src p.txn
  | 0x20 => takeSub s p.src p.ws p.txn p.vc p.payload
  | _ => { s with fab := { s.fab with inbox := s.fab.inbox ++ [p] } }

/-- A packet in its flow's order joins its message; the last one completes it, unless a packet of the message was
missing (R417) (DEDUCED, assumption 81). -/
def joinMessage (s : State) (f : RxFlow) (p : Packet) (gap : Bool) : State :=
  let same := !f.parts.isEmpty && f.txn == p.txn
  let broken := same && (f.broken || gap)
  let parts := if same then f.parts ++ p.payload else p.payload
  let g := { f with expect := wrapAdd 16 p.flowSeq 1, gaps := satAdd 32 f.gaps (b2n gap), txn := p.txn, parts := parts,
                    broken := broken }
  if p.last then
    let t := putRxFlow s { g with parts := [], broken := false }
    if broken then t else deliver t { p with payload := parts }
  else putRxFlow s g

/-- A packet at its destination (R416, R417). -/
def receiveHere (s : State) (port : Nat) (p : Packet) : State :=
  if !p.enc && p.tag != trailerOf p then
    let x := getPort s port
    putPort s port { x with badTrailer := satAdd 32 x.badTrailer 1 }
  else if p.msg = 0x60 ∨ p.msg = 0x61 then s
  else if p.msg = 0x53 then deliver s p
  else
    let f := rxFlowOf s p
    let ahead := (p.flowSeq + 65536 - f.expect) % 65536
    if p.vc = 7 then
      if ahead = 0 then sendE2e (joinMessage s f p false) p.src p.vc p.flowSeq
      else sendE2e (putRxFlow s f) p.src p.vc (wrapAdd 16 f.expect 65535)
    else if 32768 ≤ ahead then s
    else joinMessage s f p (decide (0 < ahead))

/-- The oldest packet that has arrived is received or relayed, and its cells are freed (R412, R413, R417). -/
def receive (s : State) : State :=
  match s.fab.arrived with
  | [] => s
  | (port, p) :: rest =>
    let t := freeCells { s with fab := { s.fab with arrived := rest } } port p
    if p.dst = fabricDev s then receiveHere t port p else relay t p

/-! ## End-to-end acknowledgement -/

/-- Put a held packet back on the path that its flow uses now. -/
def requeue (s : State) (p : Packet) : State :=
  match flowPort s (findFlow s p.dst p.vc) with
  | some (port, _) => enqueue s port p
  | none => unreachable s p.dst

/-- Whether a flow number lies at or before another. -/
def flowLe (a b : Nat) : Bool := decide ((b + 65536 - a) % 65536 < 32768)

/-- An acknowledgement releases the TC7 packets that it covers, but for writes, which wait for their own; a NAK has the
others resent (R417). -/
def e2eAck (s : State) (src vc seq : Nat) (nak : Bool) : State :=
  let mine := fun h : Held => h.pkt.dst == src && h.pkt.vc == vc && vc == 7
  let held := s.fab.held.filterMap fun h =>
    if mine h && flowLe h.pkt.flowSeq seq then
      (if h.pkt.msg = 0x10 then some { h with delivered := true } else none)
    else if nak && mine h && !h.delivered then some { h with sentAt := ns s, resends := h.resends + 1 }
    else some h
  let t := takeInbox { s with fab := { s.fab with held := held } } 0x53 src
  if nak then
    (s.fab.held.filter fun h => mine h && !h.delivered && !flowLe h.pkt.flowSeq seq).foldl
      (fun u h => requeue u h.pkt) t
  else t

/-- E2E_ACK (R417). -/
def execE2eAck (src vc seq : Nat) (nak : Bool) (s : State) : Host.Outcome State Fault Refusal :=
  .next (when (linksLive s) (e2eAck · src vc seq nak) s)

/-- A packet unacknowledged for 200 µs goes again, with its own number in TC7, at most 50 times, after which the
destination is unreachable; a write that only waits for its MEM_WRITE_ACK goes again as a new message (R417). -/
def resendHeld (s : State) (h : Held) : State :=
  let rest := s.fab.held.filter (· != h)
  let same := fun g : Held => g.pkt.msg == 0x10 && g.pkt.dst == h.pkt.dst && g.pkt.txn == h.pkt.txn
  if h.pkt.vc = 7 ∧ !h.delivered then
    if 50 ≤ h.resends then unreachable { s with fab := { s.fab with held := rest } } h.pkt.dst
    else
      let again := s.fab.held.map fun g => if g = h then { g with sentAt := ns s, resends := g.resends + 1 } else g
      requeue { s with fab := { s.fab with held := again } } h.pkt
  else
    (s.fab.held.filter same).foldl (fun u g => sendPacket u g.pkt)
      { s with fab := { s.fab with held := s.fab.held.filter fun g => !same g } }

/-- The held packet that a TC7_RESEND names. -/
def heldOf (s : State) (dst vc seq : Nat) : Option Held :=
  s.fab.held.find? fun h => h.pkt.dst == dst && h.pkt.vc == vc && h.pkt.flowSeq == seq && elapsed s h.sentAt 200000

/-- TC7_RESEND (R417). -/
def execTc7Resend (dst vc seq : Nat) (s : State) : Host.Outcome State Fault Refusal :=
  .next (match heldOf s dst vc seq with
    | some h => when (linksLive s) (resendHeld · h) s
    | none => s)

/-! ## Fabric memory accesses -/

/-- Whether an access touches the guard reserve (R314). -/
def inReserve (s : State) (dpa n : Nat) : Bool :=
  decide (dpa < windowBytes s) && decide (windowBytes s < dpa + n + 2 ^ 26)

/-- Whether a partly covered granule at an end of a write is poisoned (R86). -/
def endsPoisoned (m : Mem) (dpa n : Nat) : Bool :=
  (decide (dpa % 32 ≠ 0) && m.poison.contains (dpa / 32)) ||
    (decide ((dpa + n) % 32 ≠ 0) && m.poison.contains ((dpa + n) / 32))

/-- The check of a fabric access: a window buffer address inside the workspace (R318); one in the guard reserve is a
violation (R314). A refused access is not answered (DEDUCED, assumption 24). -/
def fabricOk (s : State) (p : Packet) (n : Nat) : Bool :=
  addrSpace (fld p.payload 0 8) == 0 && bufOk s p.ws (fld p.payload 0 8) n

/-- What a refused access leaves (DEDUCED, assumption 51). -/
def refuseAccess (s : State) (p : Packet) (n : Nat) : State :=
  let a := fld p.payload 0 8
  if addrSpace a = 0 ∧ inReserve s (bits a 40 0) n then violation s 8 (bits a 40 0) else s

/-- A message that a row acts on leaves the inbox. -/
def takeMsg (s : State) (p : Packet) : State := { s with fab := { s.fab with inbox := s.fab.inbox.erase p } }

/-- A fabric write: checked, performed whole or, for a poisoned end granule, not at all, and acknowledged (R86, R417);
the poison indication is one byte of 1 (DEDUCED, assumption 24) (DEDUCED, assumption 79). -/
def memWrite (s : State) (p : Packet) : State :=
  let t := takeMsg s p
  let a := bits (fld p.payload 0 8) 40 0
  let d := p.payload.drop 8
  if !fabricOk t p d.length then refuseAccess t p d.length
  else if endsPoisoned t.mem a d.length then sendTxn t p.src p.vc p.ws 0x11 p.txn [1]
  else sendTxn { t with mem := store t.mem a d } p.src p.vc p.ws 0x11 p.txn []

/-- MEM_WRITE (R417). -/
def execMemWrite (p : Packet) (s : State) : Host.Outcome State Fault Refusal :=
  .next (when (decide (s.boot.stage = .run) && p.msg == 0x10 && decide (8 ≤ p.payload.length)) (memWrite · p) s)

/-- A fabric read: checked and answered with its data, or with none where a granule is poisoned (R86, R417). -/
def memRead (s : State) (p : Packet) : State :=
  let t := takeMsg s p
  let a := bits (fld p.payload 0 8) 40 0
  let n := fld p.payload 8 4
  if !fabricOk t p n then refuseAccess t p n
  else sendTxn t p.src p.vc p.ws 0x13 p.txn (if poisonIn t.mem a n then [] else readBytes t.mem a n)

/-- MEM_READ (R417). -/
def execMemRead (p : Packet) (s : State) : Host.Outcome State Fault Refusal :=
  .next (when (decide (s.boot.stage = .run) && p.msg == 0x12 && decide (12 ≤ p.payload.length)) (memRead · p) s)

/-! ## Routes -/

/-- The 14 mesh peers of this device (R400). -/
def meshPeers (s : State) : List Nat := (List.range 64).filter fun q => (linkPorts (meshPos s) q).isSome

/-- A peer's LINK_STATE is recorded, and routes follow it (R415) (DEDUCED, assumption 90). -/
def linkStateRow (s : State) (src : Nat) (ls : List LinkEntry) : State :=
  let t := takeInbox s 0x52 src
  { t with fab := { t.fab with peers := (src % 64, ls) :: t.fab.peers.filter (·.1 != src % 64) } }

/-- LINK_STATE (R415). -/
def execLinkState (src : Nat) (ls : List LinkEntry) (s : State) : Host.Outcome State Fault Refusal :=
  .next (when (linksLive s && inMesh s src && (meshPeers s).contains (src % 64) && ls.length == 32)
    (linkStateRow · src ls) s)

/-- Send LINK_STATE to the 14 peers. -/
def sendLinkState (s : State) : State :=
  let body := linkStateBytes s
  (meshPeers s).foldl (fun t q => sendMsg t (s.boot.settings.rackId * 64 + q) 7 0 0x52 body)
    { s with fab := { s.fab with linkChanged := none, linkSentAt := ns s } }

/-- LINK_STATE_TIMER (R415). -/
def execLinkStateTimer (s : State) : Host.Outcome State Fault Refusal :=
  .next (when (linksLive s && (s.fab.linkChanged.isSome || elapsed s s.fab.linkSentAt 10000000)) sendLinkState s)

/-- FLOW_IDLE (R415): an idle flow returns to its primary path. -/
def execFlowIdle (dst vc : Nat) (s : State) : Host.Outcome State Fault Refusal :=
  let f := findFlow s dst vc
  .next (when (s.fab.flows.contains f && elapsed s f.lastAt 100000) (putFlow · { f with path := 0 }) s)

end Sys2Proof.Machine
end

