-- ==== Sys2Proof/Machine/FabCmd.lean ====
section
/-!
DEFINITION. The fabric commands (15): FAB_PORT_INFO, FAB_PORT_SET, FAB_RETRAIN, FAB_PEERS.
-/

namespace Sys2Proof.Machine

/-- FAB_PORT_INFO's answer (R422). -/
def fabPortInfo (c : Ctx) (s : State) : Answer × State :=
  checked [(zeroAt c.data 1 7 && decide (fld c.data 0 1 < 32), stBadParam)]
    (.reply stOk (portInfo s (fld c.data 0 1)), s) s

/-- FAB_PORT_INFO (R422). -/
def execFabPortInfo (m : MsgSrc) (s : State) : Host.Outcome State Fault Refusal :=
  serve ⟨0x701, .any, true, false, some 8⟩ m fabPortInfo s

/-- FAB_PORT_SET's effect: DISABLE darkens the port, its packets moved first; ENABLE takes a DISABLED port to PROBE, or
to DARK where its engine has no light (R408, R423). -/
def portSet (s : State) (p pflags lanes : Nat) : State :=
  let x := getPort s p
  let t := putPort s p { x with minLanes := if lanes = 0 then x.minLanes else lanes }
  let t := if bit pflags 0 ∧ x.state ≠ 0 then
      let u := endRetrain (setPort t p 0 0) p
      if x.state = 3 then recalPortEnd u p false else u
    else if bit pflags 1 ∧ x.state = 0 then
      (if caneLit t (caneOf p) then setPort t p 2 1 else setPort t p 1 0)
    else t
  checkLanes t p

/-- FAB_PORT_SET's checks and answer (R423). -/
def fabPortSet (c : Ctx) (s : State) : Answer × State :=
  let p := fld c.data 0 1
  let fl := fld c.data 1 1
  let t := portSet s p fl (fld c.data 2 1)
  checked [(zeroAt c.data 3 5 && decide (p < 32) && decide (fl < 4), stBadParam),
    (decide (fl ≠ 3) && decide (fld c.data 2 1 ≤ 14), stBadParam)]
    (.reply stOk (portInfo t p), t) s

/-- FAB_PORT_SET (R423). -/
def execFabPortSet (m : MsgSrc) (s : State) : Host.Outcome State Fault Refusal :=
  serve ⟨0x702, .ws0, true, false, some 8⟩ m fabPortSet s

/-- FAB_RETRAIN takes up one wavelength of a direction: a spare or FAILED one is retrained; an ACTIVE one first swaps
with a healthy spare, or is retrained in place with its lane dropped for the time (R424). -/
def retrainWl (now : Nat) (d : Direction) (w : Nat) : Direction :=
  let go := fun (home : Option Nat) (e : Direction) =>
    setWl e w fun _ => ⟨2, 0, now, home, true⟩
  match laneOf d w, spareWl d with
  | none, _ => go none d
  | some lane, some n => go none (setLane (setWl d n fun v => { v with status := 0 }) lane (some n))
  | some lane, none => go (some lane) (setLane d lane none)

/-- The wavelengths that a mask names. -/
def namedWl (mask : Nat) : List Nat := (List.range 16).filter (bit mask)

/-- The work of FAB_RETRAIN (R424): a port in training, or one that must stay DARK or at PROBE first (R408), ends the
ticket with its next training. -/
def fabRetrainNow (s : State) (p mask : Nat) (t : TicketRef) : State :=
  let x := getPort s p
  let join := fun u : State => putPort u p { getPort u p with retrainTickets := (getPort u p).retrainTickets ++ [t] }
  if !trained s p then join s
  else if mask = 0 then join (retrainPort s p)
  else
    let f := fun d : Direction => (namedWl mask).foldl (retrainWl (ns s)) d
    checkLanes (putPort s p { x with tx := f x.tx, rx := f x.rx }) p

/-- FAB_RETRAIN's checks (R424). -/
def fabRetrain (c : Ctx) (s : State) : Answer × State :=
  let p := fld c.data 0 1
  checked [(zeroAt c.data 1 1 && zeroAt c.data 4 4 && decide (p < 32), stBadParam),
    ((getPort s p).state != 0, stBadParam)]
    (.issue stPending (work c [p, fld c.data 2 2]), fabRetrainNow s p (fld c.data 2 2) c.ticket) s

/-- FAB_RETRAIN (R424). -/
def execFabRetrain (m : MsgSrc) (s : State) : Host.Outcome State Fault Refusal :=
  serve ⟨0x703, .ws0, true, true, some 8⟩ m fabRetrain s

/-- FAB_RETRAIN of named wavelengths completes once none of them is being retrained, or once their port has left UP and
ISOLATED and trained (R424). -/
def finishRetrain (s : State) (k : Ticket) (t : TicketRef) : Option (Nat × List Byte × State) :=
  let p := k.work.args.getD 0 0
  let x := getPort s p
  let busy := fun d : Direction => (namedWl (k.work.args.getD 1 0)).any fun w =>
    ((d.wl[w]?).map (·.busy)).getD false
  if x.retrainTickets.contains t || busy x.tx || busy x.rx then none
  else some (stOk, [BitVec.ofNat 8 x.state, BitVec.ofNat 8 (activeLanes x.tx), BitVec.ofNat 8 (activeLanes x.rx)] ++
    zeros 5, s)

/-- One entry of FAB_PEERS (R425). -/
def peerEntry (s : State) (p : Nat) : List Byte :=
  let x := (getPort s p).partner
  leBytes 2 x.device ++ leBytes 1 x.role ++ leBytes 1 x.port ++ leBytes 1 x.status ++ leBytes 1 x.mesh ++ zeros 2

/-- FAB_PEERS (R425). -/
def execFabPeers (m : MsgSrc) (s : State) : Host.Outcome State Fault Refusal :=
  serve ⟨0x704, .any, true, false, some 0⟩ m
    (fun _ t => (.reply stOk (leBytes 2 32 ++ zeros 6 ++ (List.range 32).flatMap (peerEntry t)), t)) s

end Sys2Proof.Machine
end

