-- ==== Sys2Proof/Machine/Gates.lean ====
section
/-!
DEFINITION. Gate lists and the fit rule (R437 to R439), rate buckets (R429, R435), fair-queuing tags (R430), and the
building of link frames (R410).
-/

namespace Sys2Proof.Machine

/-! ## Gates -/

/-- The cycle time of a list: the sum of its durations. -/
def cycleNs (g : GateList) : Nat := (g.entries.map (·.1)).foldl (· + ·) 0

/-- The entry that holds an offset, counted from `i`, with what is left of its span. -/
def entryAt : Nat → Nat → List (Nat × Nat) → Option (Nat × Nat × Nat)
  | _, _, [] => none
  | i, off, (d, m) :: t => if off < d then some (i, d - off, m) else entryAt (i + 1) (off - d) t

/-- The offset of network time `t` in a list (R438); none once a ONE_SHOT list has run out, or in mode NONE. -/
def gateOffset (g : GateList) (t : Nat) : Option Nat :=
  match g.mode with
  | 1 => some (((t : Int) - (g.base : Int)) % (max 1 (cycleNs g) : Nat)).toNat
  | 2 => if t - g.takeOver < cycleNs g then some (t - g.takeOver) else none
  | _ => none

/-- The entry index and the mask in force at network time `t`. -/
def gateAt (g : GateList) (t : Nat) : Nat × Nat :=
  match (gateOffset g t).bind fun o => entryAt 0 o g.entries with
  | some (i, _, m) => (i, m % 128)
  | none => (g.entries.length, if g.mode = 2 then g.afterMask % 128 else 0x7F)

/-- Walk entries while the class stays open: the time at which it closes, none if it is open throughout. -/
def closeWalk (cls : Nat) : Nat → List (Nat × Nat) → Option Nat
  | _, [] => none
  | t, (d, m) :: r => if bit m cls then closeWalk cls (t + d) r else some t

/-- The first network time from `t` at which a class is closed under one list. -/
def closesAt (g : GateList) (cls t : Nat) : Option Nat :=
  match (gateOffset g t).bind fun o => entryAt 0 o g.entries with
  | some (i, left, m) =>
    let rest := g.entries.drop (i + 1)
    if g.mode = 1 then closeWalk cls t ((left, m) :: (rest ++ g.entries))
    else closeWalk cls t ((left, m) :: (rest ++ [(1, g.afterMask)]))
  | none => if g.mode = 2 ∧ !bit g.afterMask cls then some t else none

/-- The first time from `t` at which a class of a port is closed, a pending list counting from its take-over (R439). -/
def portCloses (sc : Sched) (cls t : Nat) : Option Nat :=
  match sc.pendingGates with
  | none => closesAt sc.gates cls t
  | some g =>
    match closesAt sc.gates cls t with
    | some c => if c < g.takeOver then some c else closesAt g cls (max t g.takeOver)
    | none => closesAt g cls (max t g.takeOver)

/-- Frames that a packet spans at most (R439). -/
def framesOf (len : Nat) : Nat := cdiv len 244 + 1

/-- The fit rule: the class stays open for the time of the packet's frames, 20.48 ns over the active lanes each. -/
def fits (sc : Sched) (lanes cls len t : Nat) : Bool :=
  decide (7 ≤ cls) ||
    match portCloses sc cls t with
    | none => true
    | some c => decide (framesOf len * 2048 ≤ (c - t) * 100 * lanes)

/-! ## Buckets, in byte × 2,048 -/

/-- A bucket filled up to now at `rate` a ns, to at most `cap`. -/
def fillBucket (b : Bucket) (rate cap now : Nat) : Bucket :=
  ⟨min (cap : Int) (b.level + ((rate * (now - b.at_) : Nat) : Int)), now⟩

/-- A bucket debited. -/
def debit (b : Bucket) (bytes : Nat) : Bucket := { b with level := b.level - ((bytes * 2048 : Nat) : Int) }

/-- The class ceiling and alarm buckets of a port, filled (R429): 25/2 bytes a ns and lane at a ceiling of 256. -/
def fillClass (s : State) (p : Nat) : Sched :=
  let x := getPort s p
  let sc := x.sched
  let n := activeLanes x.tx
  { sc with
    bucket6 := fillBucket sc.bucket6 (sc.ceil6 * n * 100) (8320 * 2048) (ns s)
    bucket7 := fillBucket sc.bucket7 (sc.ceil7 * n * 100) (8320 * 2048) (ns s)
    alarmBucket := fillBucket sc.alarmBucket (sc.ceil7 * n) (4160 * 2048) (ns s)
    portBucket := fillBucket sc.portBucket (s.guard.egressPort * 256) (16640 * 2048) (ns s) }

/-- The device's egress ceiling in force: run-time settings only lower it (R325). -/
def egressDevNow (s : State) : Nat := min s.guard.egressDev s.guard.egressDevActive

/-- The device bucket, filled (R435). -/
def devBucketNow (s : State) : Bucket :=
  fillBucket s.fab.devBucket (egressDevNow s * 256) (16640 * 2048) (ns s)

/-- The ceiling of a workspace in Gb/s; 0 is no ceiling (R308). -/
def wsEgress (s : State) (ws : Nat) : Nat := (getWs s ws).quota.egressGbps

/-- The bucket of a workspace, filled. -/
def wsBucketNow (s : State) (ws : Nat) : Bucket :=
  fillBucket (Tab.get ⟨0, 0⟩ s.fab.wsBuckets ws) (wsEgress s ws * 256) (16640 * 2048) (ns s)

/-! ## Fair queuing -/

/-- Whether tag `a` comes before tag `b`: their difference as a signed number (R430). -/
def tagLt (a b : Word64) : Bool := (a - b).msb

/-- The lowest of a list of tags. -/
def lowestTag : List Word64 → Option Word64
  | [] => none
  | a :: t => match lowestTag t with | some b => if tagLt b a then some b else some a | none => some a

/-- The winner of a fair level: the lowest tag, equal tags by round-robin from the pointer over `n` requesters (R430,
R431). -/
def fairPick (n ptr : Nat) (cands : List (Nat × Word64)) : Option (Nat × Word64) :=
  (lowestTag (cands.map (·.2))).bind fun low =>
    (roundRobin n ptr fun r => cands.any fun c => c.1 == r && c.2 == low).map fun r => (r, low)

/-- The accounted length of a packet (R434). -/
def accounted (sc : Sched) (p : Packet) : Nat := (max 1 ((packetLen p : Int) + sc.overhead)).toNat

/-- The cost of a packet at a weight (R430). -/
def fairCost (a w : Nat) : Word64 := BitVec.ofNat 64 (cdiv (a * 256) (max 1 w))

/-- The weight of a workspace in a class: its own in TC6 and its wclass, 16 elsewhere (R433) (DEDUCED, assumption 77). -/
def wsWeight (s : State) (ws cls : Nat) : Nat :=
  if cls = 6 ∨ cls = (getWs s ws).wclass then Tab.get 16 s.fab.wsWeights ws else 16

/-! ## Frames -/

/-- The next frame of a port from the first 244 bytes that wait, with its acknowledgement and one return of credits
(R410 to R412). -/
def sendFrame (s : State) (p : Nat) : State :=
  let x := getPort s p
  let (vc, cls, n) := match x.owed with | c :: _ => (c.vc, c.cls, min 1023 c.used) | [] => (0, 0, 0)
  let h : FrameHead := ⟨0, x.txSeq, x.rxSeq, x.ackKind, vc, cls, n⟩
  let done := (x.txEnds.filter fun e => decide (e.1 ≤ 244)).map (·.2)
  let left := (x.txEnds.filter fun e => decide (244 < e.1)).map fun e => (e.1 - 244, e.2)
  putPort s p { x with
    txSeq := (x.txSeq + 1) % 4096
    unacked := x.unacked ++ [⟨x.txSeq, frameBytes h (x.txTail.take 244), ns s, 0, done⟩]
    txTail := x.txTail.drop 244
    txEnds := left
    ackKind := 0
    owed := modCredit x.owed vc cls (· - n) }

/-- Send every whole frame that waits and, with `flush`, the last one filled with zeros (DEDUCED, assumption 21). -/
def sendFrames (p : Nat) (flush : Bool) : Nat → State → State
  | 0, s => s
  | k + 1, s =>
    let x := getPort s p
    if 244 ≤ x.txTail.length ∨ (flush ∧ !x.txTail.isEmpty) then sendFrames p flush k (sendFrame s p) else s

/-- Put a packet's bytes on a port, and send the frames that they fill. -/
def putOnWire (s : State) (p : Nat) (q : Packet) (flush : Bool) : State :=
  let x := getPort s p
  let b := packetBytes q
  let t := putPort s p { x with
    txTail := x.txTail ++ b, txEnds := x.txEnds ++ [(x.txTail.length + b.length, q)] }
  sendFrames p flush (x.txTail.length + b.length) t

end Sys2Proof.Machine
end

