-- ==== Sys2Proof/Machine/Sched.lean ====
section
/-!
DEFINITION. Rows of the egress schedulers (16): selection of a packet, gates, samples, and the scheduler commands.
-/

namespace Sys2Proof.Machine

/-! ## Eligibility -/

/-- Whether the next hop has credits for a packet: 32 cells reserved per channel and class, 3,584 shared (R412). -/
def hasCredits (x : Port) (q : Packet) : Bool :=
  let l := modCredit x.credits q.vc (b2n q.hop) (· + cellsOf q)
  decide (((l.map fun c => c.used - 32).foldl (· + ·) 0) ≤ 3584)

/-- The class of a queue number: TC7's two queues are of class 7. -/
def classOfQ (cls : Nat) : Nat := min 7 cls

/-- Whether the class ceiling bucket of a queue is not negative (R428). -/
def ceilingOk (sc : Sched) (cls : Nat) : Bool :=
  match classOfQ cls with
  | 7 => decide (0 ≤ sc.bucket7.level)
  | 6 => decide (0 ≤ sc.bucket6.level)
  | _ => true

/-- Whether the guard's buckets for port, device and workspace are not negative (R428, R435). -/
def guardOk (s : State) (sc : Sched) (ws : Nat) : Bool :=
  decide (0 ≤ sc.portBucket.level) && decide (0 ≤ (devBucketNow s).level) &&
    (wsEgress s ws == 0 || decide (0 ≤ (wsBucketNow s ws).level))

/-- Why the head of a queue is passed over: 0 it is eligible, 1 its gate or the fit rule, 2 a class ceiling or guard
bucket, 3 credits (R428). -/
def headCause (s : State) (p : Nat) (sc : Sched) (q : PQueue) : Nat :=
  let x := getPort s p
  match q.pkts with
  | [] => 0
  | h :: _ =>
    if !fits sc (activeLanes x.tx) (classOfQ q.cls) (packetLen h.pkt) (net s) then 1
    else if !(ceilingOk sc q.cls && guardOk s sc h.pkt.ws) then 2
    else if !hasCredits x h.pkt then 3
    else 0

/-- A guard halt stops every class but TC7 (R328). -/
def mayLeave (s : State) (q : PQueue) : Bool := !q.pkts.isEmpty && (!s.guard.halted || decide (7 ≤ q.cls))

/-- Add the time since a queue's head was last looked at to what it was passed over for (R445). -/
def addHeld (t : QStat) (cause ns : Nat) : QStat :=
  match cause with
  | 1 => { t with gate := satAdd 32 t.gate ns }
  | 2 => { t with shaper := satAdd 32 t.shaper ns }
  | 3 => { t with credit := satAdd 32 t.credit ns }
  | _ => t

/-- Look at a queue's head: account the time it was passed over, and note why it is passed over now. -/
def lookAt (s : State) (p : Nat) (sc : Sched) (q : PQueue) : PQueue :=
  let c := headCause s p sc q
  { q with
    own := addHeld q.own q.cause (ns s - q.seenAt)
    summed := addHeld q.summed q.cause (ns s - q.seenAt)
    seenAt := ns s
    cause := c
    unfitSince := if c = 1 then q.unfitSince.or (some (ns s)) else none }

/-! ## Gates too short -/

/-- Queues whose head has waited a whole cycle without fitting (R440). -/
def tooShort (s : State) (sc : Sched) : Nat :=
  if sc.gates.mode = 1 then
    (sc.queues.filter fun q => match q.unfitSince with
      | some t => elapsed s t (cycleNs sc.gates)
      | none => false).length
  else 0

/-- Count them, once per cycle waited, with EV_GATE_TOO_SHORT at most once per second (R440). -/
def noteTooShort (s : State) (p : Nat) : State :=
  let x := getPort s p
  let sc := x.sched
  let n := tooShort s sc
  if n = 0 then s
  else
    let again := fun q : PQueue => match q.unfitSince with
      | some t => if elapsed s t (cycleNs sc.gates) then { q with unfitSince := some (ns s) } else q
      | none => q
    let due := match sc.gateShortAt with | some t => elapsed s t 1000000000 | none => true
    let y := { x with sched := { sc with
      queues := sc.queues.map again
      gateTooShort := satAdd 32 sc.gateTooShort n
      gateShortAt := if due then some (ns s) else sc.gateShortAt } }
    if due then emit (putPort s p y) 0x0608 8 p y.sched.gateTooShort 0 0 else putPort s p y

/-! ## Selection -/

/-- The eligible queue of TC7's pair, with the number of its step in R429. -/
def pickStrict (ok : List PQueue) (sc : Sched) : Option (PQueue × Bool) :=
  let a := ok.find? (·.cls == 8)
  let c := ok.find? (·.cls == 7)
  match a, c, decide (0 ≤ sc.alarmBucket.level) with
  | some q, _, true => some (q, true)
  | _, some q, _ => some (q, false)
  | some q, none, false => some (q, false)
  | none, none, _ => none

/-- The workspace queue that a class sends from (R430, R431). -/
def pickWs (ok : List PQueue) (sc : Sched) (cls : Nat) : Option PQueue :=
  let cands := (ok.filter (·.cls == cls)).map fun q => (q.ws, q.start)
  (fairPick 4096 (sc.ptrWs.getD cls 0) cands).bind fun w => ok.find? fun q => q.cls == cls && q.ws == w.1

/-- The weighted class that sends (R430, R431). -/
def pickClass (ok : List PQueue) (sc : Sched) : Option Nat :=
  let cands := ((List.range 6).filter fun c => ok.any (·.cls == c)).map fun c => (c, sc.classStart.getD c 0)
  (fairPick 6 sc.ptrClass cands).map (·.1)

/-- The queue that sends next and whether it sends as an alarm of step 1 (R429). -/
def pickQueue (ok : List PQueue) (sc : Sched) : Option (PQueue × Bool) :=
  match pickStrict ok sc, pickWs ok sc 6, (pickClass ok sc).bind (pickWs ok sc) with
  | some r, _, _ => some r
  | none, some q, _ => some (q, false)
  | none, none, some q => some (q, false)
  | none, none, none => none

/-- Virtual time and tags after a queue has sent a packet of accounted length `a` (R430, R431). -/
def advanceTags (s : State) (sc : Sched) (q : PQueue) (a : Nat) : Sched :=
  let rest := { q with start := q.start + fairCost a (wsWeight s q.ws q.cls) }
  let t := { sc with queues := insertQueue rest sc.queues }
  if 7 ≤ q.cls then t
  else
    let u := { t with vWs := setAt t.vWs q.cls q.start, ptrWs := setAt t.ptrWs q.cls ((q.ws + 1) % 4096) }
    if q.cls = 6 then u
    else
      let st := u.classStart.getD q.cls 0
      { u with
        vClass := st
        ptrClass := (q.cls + 1) % 6
        classStart := setAt u.classStart q.cls (st + fairCost a (u.weights.getD q.cls 1)) }

/-- Debit the buckets of a packet that is sent (R429, R434, R435). -/
def debitClass (sc : Sched) (cls a len : Nat) (alarm : Bool) : Sched :=
  { sc with
    bucket7 := if classOfQ cls = 7 then debit sc.bucket7 a else sc.bucket7
    bucket6 := if cls = 6 then debit sc.bucket6 a else sc.bucket6
    alarmBucket := if alarm then debit sc.alarmBucket a else sc.alarmBucket
    portBucket := debit sc.portBucket len }

/-- Debit the device's and the workspace's bucket. -/
def debitGuard (s : State) (ws len : Nat) : State :=
  { s with fab := { s.fab with
      devBucket := debit (devBucketNow s) len
      wsBuckets := if wsEgress s ws = 0 then s.fab.wsBuckets
        else Tab.insert s.fab.wsBuckets ws (debit (wsBucketNow s ws) len) } }

/-- Send the head of the queue that the scheduler picked. -/
def sendHead (s : State) (p : Nat) (q : PQueue) (alarm : Bool) : State :=
  match q.pkts with
  | [] => s
  | h :: rest =>
    let x := getPort s p
    let len := packetLen h.pkt
    let a := accounted x.sched h.pkt
    let r := { q with pkts := rest, bytesSent := wrapAdd 64 q.bytesSent len, cause := 0, unfitSince := none }
    let sc := advanceTags s (debitClass x.sched q.cls a len alarm) r a
    let y := { x with sched := sc, credits := modCredit x.credits h.pkt.vc (b2n h.pkt.hop) (· + cellsOf h.pkt) }
    putOnWire (debitGuard (putPort s p y) h.pkt.ws len) p h.pkt (sc.queues.all (·.pkts.isEmpty))

/-- One selection of a port's scheduler: buckets filled, heads looked at, gates too short counted, and then a HELLO or
TIME message, or the packet that R429 gives, or, with nothing eligible, the last frame (R426 to R432). -/
def packetSelect (s : State) (p : Nat) : State :=
  let x := getPort s p
  match x.localQ with
  | q :: rest => putOnWire (putPort s p { x with localQ := rest }) p q (x.sched.queues.all (·.pkts.isEmpty))
  | [] =>
    let sc := fillClass s p
    let qs := sc.queues.map (lookAt s p sc)
    let t := noteTooShort (putPort s p { x with sched := { sc with queues := qs } }) p
    let t := if qs.any fun q => q.cause == 2 && ceilingOk sc q.cls then guardHold t 1 p else t
    let sc := (getPort t p).sched
    match pickQueue (sc.queues.filter fun q => mayLeave t q && q.cause == 0) sc with
    | some (q, alarm) => sendHead t p q alarm
    | none => sendFrames p true 2 t

/-- Whether a port can send: trained, with room for the frames of a packet among its 1,024 (R411); an ISOLATED port
carries only hello (Table: Port states). -/
def canSelect (s : State) (p : Nat) : Bool :=
  let x := getPort s p
  linksLive s && decide (x.unacked.length + 18 ≤ 1024) && (portUp s p || (decide (3 ≤ x.state) && !x.localQ.isEmpty))

/-- PACKET_SELECT (R429). -/
def execPacketSelect (port : Nat) (s : State) : Host.Outcome State Fault Refusal :=
  guarded "PACKET_SELECT" (decide (port < 32)) (when (canSelect s port) (packetSelect · port) s)

/-! ## Gate lists -/

/-- The pending list takes over, and its ticket completes with the network time (R442). -/
def takeOver (s : State) (p : Nat) : State :=
  let x := getPort s p
  match x.sched.pendingGates with
  | none => s
  | some g =>
    let e := gateAt g (net s)
    let t := putPort s p { x with sched := { x.sched with
      gates := { g with ticket := none }, pendingGates := none, gateEntry := e.1, gateMask := e.2 } }
    match g.ticket with
    | some k => finishTicket t k stOk (leBytes 8 g.takeOver)
    | none => t

/-- GATE_TAKE_OVER (R442). -/
def execGateTakeOver (port : Nat) (s : State) : Host.Outcome State Fault Refusal :=
  guarded "GATE_TAKE_OVER" (decide (port < 32))
    (when (match (getPort s port).sched.pendingGates with | some g => decide (g.takeOver ≤ net s) | none => false)
      (takeOver · port) s)

/-- The entry in force changes, and with it the gates (R438). -/
def gateChange (s : State) (p : Nat) : State :=
  let x := getPort s p
  let e := gateAt x.sched.gates (net s)
  putPort s p { x with sched := { x.sched with gateEntry := e.1, gateMask := e.2 } }

/-- GATE_ENTRY_CHANGE (R438). -/
def execGateEntryChange (port : Nat) (s : State) : Host.Outcome State Fault Refusal :=
  guarded "GATE_ENTRY_CHANGE" (decide (port < 32))
    (when (decide ((getPort s port).sched.gates.mode ≠ 0)) (gateChange · port) s)

/-! ## Samples -/

/-- Bytes that wait in a queue. -/
def depthOf (q : PQueue) : Nat := (q.pkts.map fun h => packetLen h.pkt).foldl (· + ·) 0

/-- Age of a queue's head, 0 of an empty queue. -/
def headAge (s : State) (q : PQueue) : Nat := match q.pkts with | h :: _ => ns s - h.joined | [] => 0

/-- One sample more (DEDUCED, assumption 78). -/
def addSample (t : QStat) (depth age : Nat) : QStat :=
  { t with depthSum := satAdd 64 t.depthSum depth, samples := satAdd 32 t.samples 1, maxAge := max t.maxAge age,
           maxDepth := max t.maxDepth depth }

/-- Sample every queue of a port (R445). -/
def sampleQueues (s : State) (p : Nat) : State :=
  let x := getPort s p
  let qs := x.sched.queues.map fun q => { q with
    own := addSample q.own (depthOf q) (headAge s q), summed := addSample q.summed (depthOf q) (headAge s q) }
  putPort s p { x with sched := { x.sched with queues := qs, sampledAt := ns s } }

/-- QUEUE_SAMPLE (R445). -/
def execQueueSample (port : Nat) (s : State) : Host.Outcome State Fault Refusal :=
  let sc := (getPort s port).sched
  guarded "QUEUE_SAMPLE" (decide (port < 32))
    (when (elapsed s sc.sampledAt (sc.sampleUs * 1000)) (sampleQueues · port) s)

/-! ## Commands -/

/-- Table: SCHED_INFO result (R444). -/
def schedRecord (s : State) (p : Nat) : List Byte :=
  let x := getPort s p
  let sc := x.sched
  leBytes 1 p ++ leBytes 1 (activeLanes x.tx) ++ leBytes 1 sc.gates.mode ++ leBytes 1 (128 + sc.gateMask) ++
    leBytes 2 sc.gates.entries.length ++ leBytes 1 (b2n sc.pendingGates.isSome) ++ zeros 1 ++
    leBytes 8 sc.gates.base ++ leBytes 8 (if sc.gates.mode = 1 then cycleNs sc.gates else 0) ++
    leBytes 8 ((sc.pendingGates.map (·.takeOver)).getD 0) ++ (sc.weights.map (BitVec.ofNat 8)) ++
    leBytes 2 sc.ceil6 ++ leBytes 2 sc.ceil7 ++ leBytes 2 (ofSigned 16 sc.overhead) ++ leBytes 4 sc.sampleUs ++
    leBytes 4 sc.gateTooShort ++ zeros 12

/-- SCHED_INFO (R444). -/
def execSchedInfo (m : MsgSrc) (s : State) : Host.Outcome State Fault Refusal :=
  serve ⟨0x710, .ws0, true, false, some 8⟩ m (fun c t =>
    checked [(zeroAt c.data 1 7 && decide (fld c.data 0 1 < 32), stBadParam)]
      (.reply stOk (schedRecord t (fld c.data 0 1)), t) t) s

/-- Change a setting of one port, or of all with 0xFF. -/
def modScheds (s : State) (port : Nat) (f : Sched → Sched) : State :=
  { s with fab := { s.fab with ports := s.fab.ports.zipIdx.map fun (x, i) =>
      if port = 0xFF ∨ i = port then { x with sched := f x.sched } else x } }

/-- The checks of SCHED_CLASS_SET (Table: SCHED_CLASS_SET payload). -/
def classValueOk (s : State) (tgt port cls ws : Nat) (v : Int) : Bool :=
  (decide (port < 32) || port == 0xFF) && (tgt == 2 || ws == 0) &&
  match tgt with
  | 0 => decide (cls ≤ 5) && decide (1 ≤ v) && decide (v ≤ 255)
  | 1 => (cls == 6 && decide (1 ≤ v) && decide (v ≤ 256)) || (cls == 7 && decide (4 ≤ v) && decide (v ≤ 256))
  | 2 => cls == 0 && port == 0xFF && decide (ws < 4096) && wsActive s ws && decide (1 ≤ v) && decide (v ≤ 255)
  | 3 => cls == 0 && decide (-64 ≤ v) && decide (v ≤ 255)
  | 4 => cls == 0 && decide (1 ≤ v) && decide (v ≤ 1000000)
  | _ => false

/-- What SCHED_CLASS_SET sets (R443). -/
def classValueSet (s : State) (tgt port cls ws : Nat) (v : Int) : State :=
  match tgt with
  | 0 => modScheds s port fun sc => { sc with weights := setAt sc.weights cls v.toNat }
  | 1 => modScheds s port fun sc =>
      if cls = 6 then { sc with ceil6 := v.toNat } else { sc with ceil7 := v.toNat }
  | 2 => { s with fab := { s.fab with wsWeights := Tab.set 16 s.fab.wsWeights ws v.toNat } }
  | 3 => modScheds s port fun sc => { sc with overhead := v }
  | _ => modScheds s port fun sc => { sc with sampleUs := v.toNat }

/-- SCHED_CLASS_SET's answer (R443). -/
def schedClassSet (c : Ctx) (s : State) : Answer × State :=
  let v := toSigned 32 (fld c.data 8 4)
  let port := fld c.data 1 1
  let t := classValueSet s (fld c.data 0 1) port (fld c.data 2 1) (fld c.data 4 2) v
  checked [(zeroAt c.data 3 1 && zeroAt c.data 6 2 && zeroAt c.data 12 4, stBadParam),
    (classValueOk s (fld c.data 0 1) port (fld c.data 2 1) (fld c.data 4 2) v, stBadParam)]
    (.reply stOk (schedRecord t (if port = 0xFF then 0 else port)), t) s

/-- SCHED_CLASS_SET (R443). -/
def execSchedClassSet (m : MsgSrc) (s : State) : Host.Outcome State Fault Refusal :=
  serve ⟨0x711, .ws0, false, false, some 16⟩ m schedClassSet s

/-- The entries of a list buffer. -/
def readGates (s : State) (dpa n : Nat) : List (Nat × Nat) :=
  (List.range n).map fun i =>
    let l := readBytes s.mem (dpa + 8 * i) 8
    (fld l 0 4, fld l 4 1)

/-- Whether a gate entry is in range: duration, bit 7 of the mask, and Reserved bytes (Table: Gate entry). -/
def gateEntryOk (s : State) (a : Nat) : Bool :=
  let l := readBytes s.mem a 8
  decide (16 ≤ fld l 0 4) && decide (fld l 0 4 ≤ 1000000000) && decide (fld l 4 1 < 128) && zeroAt l 5 3

/-- The checks of SCHED_GATE_LOAD (R442, Table: SCHED_GATE_LOAD payload); a poisoned buffer cannot be read (R86;
DEDUCED, assumption 25). -/
def gateLoadOk (s : State) (d : List Byte) : Bool :=
  let mode := fld d 1 1
  let n := fld d 4 2
  let a := fld d 24 8
  decide (fld d 0 1 < 32) && decide (mode ≤ 2) && zeroAt d 3 1 && zeroAt d 6 2 && zeroAt d 32 16 &&
    (if mode = 2 then decide (fld d 2 1 < 128) else fld d 2 1 == 0) && (mode == 1 || fld d 16 8 == 0) &&
    (if mode = 0 then n == 0 && a == 0
     else decide (1 ≤ n) && decide (n ≤ 256) && a % 8 == 0 && decide (a < 2 ^ 41) && bufferOk s 0 a (8 * n) &&
       !poisonIn s.mem a (8 * n) && ((List.range n).all fun i => gateEntryOk s (a + 8 * i)) &&
       decide (((readGates s a n).map (·.1)).foldl (· + ·) 0 ≤ 256 * 10 ^ 9)) &&
    decide (net s + 100000 ≤ fld d 8 8) && decide (fld d 8 8 ≤ net s + 100 * 10 ^ 9)

/-- SCHED_GATE_LOAD: the list becomes the port's pending list, and the ticket of one that it replaces is cancelled
(R442). -/
def schedGateLoad (c : Ctx) (s : State) : Answer × State :=
  let d := c.data
  let p := fld d 0 1
  let x := getPort s p
  let g : GateList := ⟨fld d 1 1, readGates s (fld d 24 8) (fld d 4 2), fld d 16 8, fld d 2 1, fld d 8 8, some c.ticket⟩
  let t := putPort s p { x with sched := { x.sched with pendingGates := some g } }
  let t := match x.sched.pendingGates.bind (·.ticket) with
    | some k => finishTicket t k stCancelled []
    | none => t
  checked [(gateLoadOk s d, stBadParam)] (.issue stPending (work c []), t) s

/-- SCHED_GATE_LOAD (R442). -/
def execSchedGateLoad (m : MsgSrc) (s : State) : Host.Outcome State Fault Refusal :=
  serve ⟨0x712, .ws0, false, true, some 48⟩ m schedGateLoad s

/-- The queues that a SCHED_SAMPLE covers: TC7 with both of its queues (R445). -/
def covered (cls ws : Nat) (q : PQueue) : Bool := classOfQ q.cls == cls && (ws == 0xFFFF || q.ws == ws)

/-- The greatest of a list of numbers. -/
def greatest (l : List Nat) : Nat := l.foldl max 0

/-- Table: SCHED_SAMPLE result: sums over the queues covered, and the greatest of ages and depths (R445). -/
def sampleRecord (s : State) (p cls ws : Nat) : List Byte :=
  let sc := (getPort s p).sched
  let qs := (sc.queues.filter (covered cls ws)).map fun q => lookAt s p sc q
  let st := qs.map fun q => if ws = 0xFFFF then q.summed else q.own
  let sum := fun f : QStat → Nat => (st.map f).foldl (· + ·) 0
  leBytes 8 ((qs.map depthOf).foldl (· + ·) 0) ++ leBytes 4 ((qs.map (·.pkts.length)).foldl (· + ·) 0) ++
    leBytes 4 (greatest (qs.map (headAge s))) ++ leBytes 8 (sum (·.depthSum)) ++ leBytes 4 (sum (·.samples)) ++
    leBytes 4 (greatest (st.map (·.maxAge))) ++ leBytes 8 (greatest (st.map (·.maxDepth))) ++
    leBytes 8 ((qs.map (·.bytesSent)).foldl (· + ·) 0) ++ leBytes 4 (sum (·.gate)) ++ leBytes 4 (sum (·.shaper)) ++
    leBytes 4 (sum (·.credit)) ++ zeros 4

/-- RESET starts a new interval for the same port, class and workspace. -/
def resetSample (s : State) (p cls ws : Nat) : State :=
  let x := getPort s p
  let qs := x.sched.queues.map fun q =>
    if covered cls ws q then
      let r := lookAt s p x.sched q
      if ws = 0xFFFF then { r with summed := noStat } else { r with own := noStat }
    else q
  putPort s p { x with sched := { x.sched with queues := qs } }

/-- SCHED_SAMPLE's answer (R445). -/
def schedSample (c : Ctx) (s : State) : Answer × State :=
  let p := fld c.data 0 1
  let cls := fld c.data 1 1
  let ws := fld c.data 2 2
  checked [(zeroAt c.data 5 3 && decide (fld c.data 4 1 < 2), stBadParam),
    (decide (p < 32) && decide (cls < 8) && (ws == 0xFFFF || (decide (ws < 4096) && cls != 7)), stBadParam)]
    (.reply stOk (sampleRecord s p cls ws), if bit (fld c.data 4 1) 0 then resetSample s p cls ws else s) s

/-- SCHED_SAMPLE (R445). -/
def execSchedSample (m : MsgSrc) (s : State) : Host.Outcome State Fault Refusal :=
  serve ⟨0x713, .ws0, true, false, some 8⟩ m schedSample s

end Sys2Proof.Machine
end

