-- ==== Sys2Proof/Machine/Time.lean ====
section
/-!
DEFINITION. Clocks and network time (22) and the time messages of the fabric (15).
-/

namespace Sys2Proof.Machine

/-! ## The servo -/

/-- An offset in ns × 2^16 within `k` ns. -/
def within (o : Int) (k : Nat) : Bool := decide (o.natAbs ≤ k * 65536)

/-- An offset in whole ns, as records and TIME_INFO carry it. -/
def wholeNs (o : Int) : Nat := ofSigned 64 (o / 65536)

/-- The rate that the servo sets: a free value of at most 500 ppm, toward the master while UNLOCKED (R551, R555;
DESIGN CHOICE, assumption 3). -/
def setRate (s : State) : State :=
  let r := drawFree s 64
  let mag : Int := ((r.1 % 500001 : Nat) : Int)
  let v := if s.clk.state = 4 then (if s.clk.offset < 0 then -mag else mag)
    else ((r.1 % 1000001 : Nat) : Int) - 500000
  { r.2 with clk := { r.2.clk with rate := v } }

/-- Enter LOCKED (R555). -/
def enterLocked (s : State) : State :=
  emitDev { s with clk := { s.clk with state := 2 } } 0x0923 (wholeNs s.clk.offset) 0 0

/-- Enter UNLOCKED (R555). -/
def enterUnlocked (s : State) : State :=
  emitDev { s with clk := { s.clk with state := 4, good := 0, unlocks := satAdd 32 s.clk.unlocks 1 } } 0x0924
    (wholeNs s.clk.offset) 0 0

/-- The state after a Sync of a given offset (Table: Time states). -/
def servoStep (s : State) (o : Int) : State :=
  let good := if within o 10 then s.clk.good + 1 else 0
  let t := { s with clk := { s.clk with offset := o, good := good, lastSync := ns s } }
  match s.clk.state with
  | 2 => if within o 20 then t else enterUnlocked t
  | 3 => if within o 20 then enterLocked t else enterUnlocked t
  | _ => if 16 ≤ good then enterLocked t else t

/-- A new master: counted, with EV_MASTER_CHANGED, unless it is the first (R561). -/
def takeMaster (s : State) (port : Nat) (m : PtpMsg) (o : Int) : State :=
  if s.clk.masterPort = port ∧ s.clk.masterDevice = m.device then s
  else
    let c := { s.clk with masterPort := port, masterDevice := m.device, steps := m.steps + 1 }
    if s.clk.masterPort = 0xFFFF then { s with clk := c }
    else emitDev { s with clk := { c with masterChanges := satAdd 32 c.masterChanges 1 } } 0x0926 m.device (wholeNs o) 0

/-- The first lock: the counter is stepped forward to the master's time (R552). -/
def firstLock (s : State) (m : PtpMsg) : State :=
  { s with clk := { s.clk with
      time := max s.clk.time (m.masterTime * 2 ^ 32), state := 1, good := 0, firstLock := m.masterTime,
      lastSync := ns s, offset := 0 } }

/-- A time message is received (R419, R420, R552, R555): a Sync of the best master steers the counter, an Announce
gives the hops or takes the master away, a Pdelay exchange gives the peer delay. -/
def timeMsg (s : State) (port : Nat) (m : PtpMsg) : State :=
  match m.kind with
  | 0 =>
    if !m.best then s
    else
      let t := takeMaster s port m m.offset
      setRate (if s.clk.state = 0 then firstLock t m else servoStep t m.offset)
  | 1 =>
    if s.clk.masterPort = port ∧ s.clk.masterDevice = m.device then
      (if m.best then { s with clk := { s.clk with steps := m.steps + 1 } }
       else { s with clk := { s.clk with masterPort := 0xFFFF, masterDevice := 0, steps := 0 } })
    else s
  | _ => putPort s port { getPort s port with peerDelay := some m.delay }

/-- TIME (R420). -/
def execPtpTime (port : Nat) (msg : PtpMsg) (s : State) : Host.Outcome State Fault Refusal :=
  guarded "TIME" (decide (port < 32))
    (when (linksLive s && (portUp s port || ((getPort s port).state == 3 && msg.kind == 2))) (timeMsg · port msg) s)

/-- Whether this device is the rack's grandmaster: its 1PPS input locked and no master chosen (R558; DEDUCED, assumption 26). -/
def isGrandmaster (s : State) : Bool := s.clk.ppsLocked && s.clk.masterPort == 0xFFFF

/-- HOLDOVER (R555): 4 ms without a Sync while LOCKED begin it, and 10 ms more end it. -/
def execHoldover (s : State) : Host.Outcome State Fault Refusal :=
  .next (when (!isGrandmaster s && ((s.clk.state == 2 && elapsed s s.clk.lastSync 4000000) ||
      (s.clk.state == 3 && elapsed s s.clk.lastSync 14000000)))
    (fun t => if t.clk.state = 2 then { t with clk := { t.clk with state := 3 } } else enterUnlocked t) s)

/-! ## A core cycle -/

/-- The counter's advance in a core cycle: 0.5 ns × (1 + r), in units of 2^-32 ns, the part below one unit dropped (R551;
DESIGN CHOICE, assumption 49). -/
def tickAdvance (rate : Int) : Nat := (2 ^ 31 * (1000000000 + rate) / 1000000000).toNat

/-- One core cycle: the device's own count and network time advance, and nothing else does (R551; DESIGN CHOICE, assumption 49)
(DEDUCED, assumption 142). -/
def tick (s : State) : State :=
  { s with clk := { s.clk with cycles := s.clk.cycles + 1, time := wrapAdd 96 s.clk.time (tickAdvance s.clk.rate) } }

/-! ## The reference -/

/-- REF_LOST (R550): holdover in RUN; before it, stop code CLOCK. -/
def execRefLost (s : State) : Host.Outcome State Fault Refusal :=
  .next (when (!s.clk.refLost && !(decide (s.boot.stage = .off)) && !(decide (s.boot.stage = .stopped)))
    (fun t => if t.boot.stage = .run then emitDev { t with clk := { t.clk with refLost := true } } 0x0921 0 0 0
      else stopWith t 2) s)

/-- REF_RESTORED (R550). -/
def execRefRestored (s : State) : Host.Outcome State Fault Refusal :=
  .next (when s.clk.refLost (fun t => emitDev { t with clk := { t.clk with refLost := false } } 0x0922 0 0 0) s)

/-! ## 1PPS -/

/-- The offset of now from the nearest whole second of network time, in ns. -/
def ppsError (s : State) : Int := (((net s + 500000000) % 1000000000 : Nat) : Int) - 500000000

/-- A pulse of the 1PPS input: locked after four in a row, each 1 s ± 100 µs after the one before; the grandmaster's
servo follows it (R558). -/
def ppsPulse (s : State) : State :=
  let ok := match s.clk.ppsAt with
    | some t => elapsed s t 999900000 && decide (ns s ≤ t + 1000100000)
    | none => false
  let n := if ok then s.clk.ppsCount + 1 else 0
  let t := { s with clk := { s.clk with
    ppsAt := some (ns s), ppsCount := n, ppsLocked := decide (4 ≤ n), ppsOffset := ppsError s } }
  if isGrandmaster t ∧ t.clk.state ≠ 0 then setRate t else t

/-- PPS_PULSE (R558). -/
def execPpsPulse (s : State) : Host.Outcome State Fault Refusal :=
  .next (when (decide (s.boot.stage = .run)) ppsPulse s)

/-- Whether 1.5 s have passed without a pulse of a locked input. -/
def ppsGone (s : State) : Bool :=
  s.clk.ppsLocked && match s.clk.ppsAt with | some t => elapsed s t 1500000000 | none => true

/-- PPS_LOST (R558). -/
def execPpsLost (s : State) : Host.Outcome State Fault Refusal :=
  .next (when (ppsGone s) (fun t => emitDev { t with clk := { t.clk with
      ppsLocked := false, ppsCount := 0, ppsAt := none, ppsOffset := 0 } } 0x0925 0 0 0) s)

/-- PPS_OUTPUT_EDGE (R559): at each whole second of network time, while within budget. -/
def execPpsOutputEdge (s : State) : Host.Outcome State Fault Refusal :=
  .next (when (inRun s && withinBudget s && decide (s.clk.ppsOutAt < net s / 1000000000 * 1000000000))
    (fun t => { t with clk := { t.clk with ppsOutAt := net t / 1000000000 * 1000000000 } }) s)

/-! ## Sending time -/

/-- clockClass announced (R420). -/
def clockClass (s : State) : Nat := if s.clk.ppsLocked then 6 else 248

/-- clockIdentity (R420). -/
def clockIdentity (s : State) : List Byte := [0x51, 0x52, 0xFF, 0xFE, 0, 0] ++ beBytes 2 (fabricDev s)

/-- A time stamp of IEEE 1588: seconds and ns of network time. -/
def timeStamp (s : State) : List Byte := beBytes 6 (net s / 10 ^ 9) ++ beBytes 4 (net s % 10 ^ 9)

/-- A time message of kind 0 Sync, 1 Announce or 2 Pdelay_Req (R419, R420; the layout is IEEE 1588-2019's, assumption
27) (PRESUMED, assumption 27). -/
def timeBytes (s : State) (port kind : Nat) : List Byte :=
  let typ := match kind with | 0 => 0x0 | 1 => 0xB | _ => 0x2
  let len := match kind with | 0 => 44 | 1 => 64 | _ => 54
  let interval : Int := match kind with | 0 => -10 | 1 => -3 | _ => -10
  let head := leBytes 1 typ ++ [0x12] ++ beBytes 2 len ++ zeros 2 ++ zeros 2 ++ zeros 8 ++ zeros 4 ++ clockIdentity s ++
    beBytes 2 (port + 1) ++ beBytes 2 s.clk.ptpSeq ++ zeros 1 ++ leBytes 1 (ofSigned 8 interval)
  match kind with
  | 0 => head ++ timeStamp s
  | 1 => head ++ timeStamp s ++ zeros 3 ++ [128] ++ leBytes 1 (clockClass s) ++ [0xFE, 0xFF, 0xFF] ++
      leBytes 1 (meshPos s) ++ clockIdentity s ++ beBytes 2 s.clk.steps ++ [0x20]
  | _ => head ++ timeStamp s ++ zeros 10

/-- Whether a port sends a kind now: Sync and Announce once first lock is made and not toward the master; Pdelay_Req from
training on (R419, R420, R553). -/
def ptpDue (s : State) (port kind : Nat) : Bool :=
  let span := if kind = 1 then 125000000 else 976562
  linksLive s && elapsed s (Tab.get 0 s.clk.ptpSent (port * 4 + kind)) span &&
    (if kind = 2 then portUp s port || (getPort s port).state == 3
     else portUp s port && s.clk.state != 0 && port != s.clk.masterPort)

/-- Send a time message on a port. -/
def ptpSend (s : State) (port kind : Nat) : State :=
  let t := linkLocal s port 0x61 (timeBytes s port kind)
  { t with clk := { t.clk with
      ptpSeq := wrapAdd 16 t.clk.ptpSeq 1, ptpSent := Tab.insert t.clk.ptpSent (port * 4 + kind) (ns s) } }

/-- PTP_SEND_TIMER (R420). -/
def execPtpSendTimer (port kind : Nat) (s : State) : Host.Outcome State Fault Refusal :=
  guarded "PTP_SEND_TIMER" (decide (port < 32) && decide (kind < 3)) (when (ptpDue s port kind) (ptpSend · port kind) s)

/-! ## TIME_INFO -/

/-- Table: TIME_INFO result (R560). -/
def timeRecord (s : State) : List Byte :=
  let c := s.clk
  let delay := if c.masterPort < 32 then (getPort s c.masterPort).peerDelay.getD 0 else 0
  leBytes 8 (net s) ++ leBytes 1 c.state ++ leBytes 1 (b2n c.refLost) ++ leBytes 1 (b2n c.ppsLocked) ++
    leBytes 1 (clockClass s) ++ leBytes 2 c.masterPort ++ leBytes 2 c.masterDevice ++ leBytes 1 c.steps ++ zeros 7 ++
    leBytes 4 (ofSigned 32 (c.offset / 65536)) ++ leBytes 4 (ofSigned 32 c.rate) ++
    leBytes 4 (ofSigned 32 (delay / 65536)) ++ leBytes 4 (ofSigned 32 (if c.ppsAt.isSome then c.ppsOffset else 0)) ++
    leBytes 8 c.firstLock ++ leBytes 4 c.unlocks ++ leBytes 4 c.masterChanges ++ zeros 8

/-- TIME_INFO (R560). -/
def execTimeInfo (m : MsgSrc) (s : State) : Host.Outcome State Fault Refusal :=
  serve ⟨0x705, .any, true, false, some 0⟩ m (fun _ t => (.reply stOk (timeRecord t), t)) s

end Sys2Proof.Machine
end

