-- ==== Sys2Proof/Machine/RingCmd.lean ====
section
/-!
DEFINITION. Quotas of workspaces (R308), and the ring commands (12).
-/

namespace Sys2Proof.Machine

/-! ## Quotas -/

/-- Marver pages of the device. -/
def marverPages (s : State) : Nat := nStacks s * stackPages s

/-- The device's physical limits, which are WS0's quotas (R304); WS0 has no egress ceiling. -/
def deviceLimits (s : State) : Quota :=
  { slots := 57344, latencySlots := 2048, indexes := 1024, tables := 256, programs := 256, sessions := 16384,
    rings := 4096, moveChannels := 64, tickets := 65535, egressGbps := 0, windowPages := windowPages s - 1024,
    marverPages := marverPages s, flashMib := (s.flash.groups.map userUnits).foldl (· + ·) 0 / 16, poolReads := 4096 }

/-- The quota block in force for a workspace. -/
def quotaOf (s : State) (ws : Nat) : Quota := if ws = 0 then deviceLimits s else (getWs s ws).quota

/-- Functions bound to a workspace. -/
def wsFns (s : State) (ws : Nat) : List (Nat × Func) :=
  s.fns.filter fun p => decide (p.1 < 256) && decide (p.2.state ≠ 0) && decide (p.2.ws = ws)

/-- Rings of a workspace, work rings and channels alike (R446). -/
def wsRings (s : State) (ws : Nat) : Nat := ((wsFns s ws).map fun p => p.2.rings.length).foldl (· + ·) 0

/-- Whether a session state counts against the sessions quota: ACTIVE, ANNEALING or RESUMING (R283). -/
def sessionCounts (st : Nat) : Bool := st == 1 || st == 2 || st == 4

/-- What a workspace holds now (R308, R624). -/
def useOf (s : State) (ws : Nat) : Quota :=
  let slots := s.hub.slots.filter fun p => p.2.ws == ws && p.2.pool != .remote
  { slots := slots.length
    latencySlots := (slots.filter fun p => p.2.pool == .latency).length
    indexes := (s.indexes.filter fun p => p.2.ws == ws).length
    tables := (s.tables.filter fun p => p.2.ws == ws).length
    programs := (s.hub.programs.filter fun p => p.2.ws == ws).length
    sessions := (s.sessions.filter fun x => x.ws == ws && sessionCounts x.state).length
    rings := wsRings s ws
    moveChannels := (s.move.chans.filter fun p => p.2.ws == ws && p.2.state != 0).length
    tickets := wsTickets s ws
    egressGbps := 0
    windowPages := ownedPages s ws fun k => k == 0 || k == 2
    marverPages := ownedPages s ws (· == 1)
    flashMib := cdiv (wsUnits s ws) 16
    poolReads := (s.poolReads.filter fun r =>
      ((s.hub.slots.find? (·.1 == r.slot)).map (·.2.ws)) == some ws).length }

/-- Whether `n` more of a resource stay within a workspace's quota. -/
def roomFor (s : State) (ws n : Nat) (f : Quota → Nat) : Bool := decide (f (useOf s ws) + n ≤ f (quotaOf s ws))

/-! ## Rings -/

/-- A power of 2 from 16 to 65,536. -/
def ringSize (n : Nat) : Bool := ((List.range 13).map fun i => 2 ^ (i + 4)).contains n

/-- Device ring numbers in use. -/
def devRings (s : State) : List Nat :=
  s.fns.flatMap fun p => p.2.rings.map fun r => r.2.devRing

/-- The lowest device ring number that is free (DESIGN CHOICE, assumption 29). -/
def freeDevRing (s : State) : Option Nat :=
  let used := devRings s
  if used.length < 4096 then (List.range (used.length + 1)).find? fun n => !used.contains n else none

/-- A queue in a window buffer of the workspace, at a multiple of 4 KiB (R344). -/
def sqOk (s : State) (ws a n : Nat) : Bool := a % 4096 == 0 && decide (a < 2 ^ 41) && bufferOk s ws a n

/-- A completion queue: a buffer address at a multiple of 4 KiB (R344). -/
def cqOk (s : State) (ws a n : Nat) : Bool := a % 4096 == 0 && bufOk s ws a (64 * n)

/-- The checks that RING_CREATE and MOVE_OPEN share (R344, R447): queues, ring number and vector; then the quota and the
device's rings. -/
def ringChecks (s : State) (owner ws sq cq sqN cqN entry ring vec : Nat) : List (Bool × Nat) :=
  [(ringSize sqN && ringSize cqN && (decide (vec < 256) || vec == 0xFFFF) && decide (ring < 256), stBadParam),
   ((getRing (getFn s owner) ring).state == 0, stBadParam),
   (sqOk s ws sq (sqN * entry) && cqOk s ws cq cqN, stBadParam),
   (roomFor s ws 1 (·.rings) && (freeDevRing s).isSome, stQuota)]

/-- A new ring with every count at 0 (R344). -/
def newRing (creation : List Byte) (chan : Option Nat) (sq cq sqN cqN entry vec dev : Nat) : Ring :=
  { absentRing with state := 1, channel := chan, creation := creation, sqDpa := sq, cqAddr := cq, sqEntries := sqN,
                    cqEntries := cqN, entryBytes := entry, vector := vec, devRing := dev }

/-- RING_CREATE's answer (R344). -/
def ringCreate (c : Ctx) (s : State) : Answer × State :=
  let d := c.data
  let entry := 64 * 2 ^ fld d 24 1
  let dev := (freeDevRing s).getD 0
  let g := newRing d none (fld d 0 8) (fld d 8 8) (fld d 16 4) (fld d 20 4) entry (fld d 26 2) dev
  checked ([(zeroAt d 28 36 && decide (fld d 24 1 ≤ 2), stBadParam)] ++
      ringChecks s c.owner c.ws (fld d 0 8) (fld d 8 8) (fld d 16 4) (fld d 20 4) entry (fld d 25 1) (fld d 26 2))
    (.reply stOk (leBytes 2 dev ++ zeros 6), putRing s c.owner (fld d 25 1) g) s

/-- RING_CREATE (R344). -/
def execRingCreate (m : MsgSrc) (s : State) : Host.Outcome State Fault Refusal :=
  serve ⟨0x601, .own, false, false, some 64⟩ m ringCreate s

/-- RING_DESTROY: a work ring becomes DESTROYING; a ring of a move channel and an ABSENT one are refused (R353, R446).
The ticket completes when the ring has posted its last completion. -/
def ringDestroy (c : Ctx) (s : State) : Answer × State :=
  let r := fld c.data 0 1
  let g := getRing (getFn s c.owner) r
  checked [(zeroAt c.data 1 7, stBadParam), (g.state != 0 && g.channel == none, stBadParam)]
    (.issue stPending (work c [r]), putRing s c.owner r { g with state := 2, destroy := g.destroy ++ [c.ticket] }) s

/-- RING_DESTROY (R353). -/
def execRingDestroy (m : MsgSrc) (s : State) : Host.Outcome State Fault Refusal :=
  serve ⟨0x602, .own, false, true, some 8⟩ m ringDestroy s

/-- Table: RING_INFO result (R625). -/
def ringRecord (s : State) (g : Ring) : List Byte :=
  slice g.creation 0 64 ++ leBytes 1 (ringShown s g) ++ leBytes 1 (b2n g.channel.isSome) ++ leBytes 2 g.devRing ++
    leBytes 4 g.sqCi.toNat ++ leBytes 4 g.sqPi.toNat ++ leBytes 4 g.cqPi.toNat ++ leBytes 4 g.cqCi.toNat ++
    leBytes 4 g.inFlight ++ zeros 8

/-- RING_INFO (R625). -/
def execRingInfo (m : MsgSrc) (s : State) : Host.Outcome State Fault Refusal :=
  serve ⟨0x603, .own, false, false, some 8⟩ m (fun c t =>
    let g := getRing (getFn t c.owner) (fld c.data 0 1)
    checked [(zeroAt c.data 1 7, stBadParam), (g.state != 0, stBadParam)] (.reply stOk (ringRecord t g), t) t) s

end Sys2Proof.Machine
end

