-- ==== Sys2Proof/Machine/Move.lean ====
section
/-!
DEFINITION. Move engines (17): descriptors and bursts, the result queue, and the channel commands.
-/

namespace Sys2Proof.Machine

/-! ## Descriptors -/

def dSrc (d : List Byte) : Nat := fld d 0 8
def dDst (d : List Byte) : Nat := fld d 8 8
def dBytes (d : List Byte) : Nat := fld d 16 4
def dFill (d : List Byte) : Bool := fld d 20 1 == 1
def dMa (d : List Byte) : Bool := bit (fld d 21 1) 0
def dHalt (d : List Byte) : Bool := bit (fld d 21 1) 1

/-- Whether an address's space and range are ones that a descriptor may name (R452 step 3). -/
def moveAddrOk (ma : Bool) (a n : Nat) : Bool :=
  match addrSpace a with
  | 0 => bits a 55 41 == 0 && decide (bits a 40 0 + n ≤ 2 ^ 41)
  | 1 => !ma && decide (bits a 55 0 + n ≤ 2 ^ 56)
  | _ => false

/-- The checks of R452: status and reason at the first that fails. -/
def descCheck (ws : Nat) (d : List Byte) : Option (Nat × Nat) :=
  if !(zeroAt d 22 2 && zeroAt d 40 24 && decide (fld d 21 1 < 8) && decide (fld d 20 1 ≤ 1) && decide (1 ≤ dBytes d) &&
      decide (dBytes d ≤ 2 ^ 30) && (if dFill d then dSrc d == 0 else fld d 32 8 == 0)) then some (stBadParam, 2)
  else if dMa d ∧ ws ≠ 0 then some (stNoAuth, 0)
  else if !(moveAddrOk (dMa d) (dDst d) (dBytes d) && (dFill d || moveAddrOk (dMa d) (dSrc d) (dBytes d))) then
    some (stBadParam, 5)
  else none

/-- A channel copies the descriptor at the head of its queue and runs it (R449, R452). -/
def startDescriptor (s : State) (c : Nat) : State :=
  let x := getChan s c
  let g := getRing (getFn s x.fn) x.ring
  let d := readBytes s.mem (g.sqDpa + g.sqCi.toNat % g.sqEntries * 64) 64
  let j : MoveJob := ⟨d, g.sqCi.toNat, 0, 0, [], 0, 0, 0, ns s⟩
  let t := putRing s x.fn x.ring { g with sqCi := g.sqCi + 1, inFlight := g.inFlight + 1 }
  match descCheck x.ws d with
  | some (st, reason) => completeMove t c j st 0 reason false false
  | none => putChan t c { x with job := some j }

/-- Whether a channel starts a descriptor: RUNNING, none in hand, one in its queue, and a completion position free. -/
def canStart (s : State) (c : Nat) : Bool :=
  let x := getChan s c
  let g := getRing (getFn s x.fn) x.ring
  firmwareRuns s && x.state == 1 && x.job.isNone && g.sqPi != g.sqCi && cqRoom g

/-- MOVE_DESCRIPTOR_START (R449). -/
def execMoveDescriptorStart (chan : Nat) (s : State) : Host.Outcome State Fault Refusal :=
  guarded "MOVE_DESCRIPTOR_START" (decide (chan < 64)) (when (canStart s chan) (startDescriptor · chan) s)

/-! ## Bursts -/

/-- The length of the burst that starts at an offset (R451). -/
def burstLen (d : List Byte) (off : Nat) : Nat :=
  let a := min (256 - (dDst d + off) % 256) (dBytes d - off)
  if dMa d ∧ !dFill d then min a (256 - (dSrc d + off) % 256) else a

/-- The byte at distance `off` of a fill: the pattern is aligned to dst (R449, R459). -/
def fillBytes (d : List Byte) (off n : Nat) : List Byte :=
  (List.range n).map fun i => (slice d 32 8).getD ((off + i) % 8) 0

/-- Whether a memory address of a burst is valid (R57). -/
def burstValid (s : State) (ma : Bool) (a n : Nat) : Bool :=
  if ma then maValid s (bits a 40 0) && maValid s (bits a 40 0 + n - 1)
  else addrSpace a == 1 || dpaValid s (bits a 40 0 + n - 1)

/-- Whether the guard lets a burst through (R453): the owner check, and for WINDOW addresses the buffer check. -/
def burstOwned (s : State) (ws : Nat) (ma : Bool) (a n : Nat) : Bool :=
  if ma then
    let p := fun x => pageOfDpa s (dpaOf s x)
    pagesOwned s ws (p (bits a 40 0)) (p (bits a 40 0)) false &&
      pagesOwned s ws (p (bits a 40 0 + n - 1)) (p (bits a 40 0 + n - 1)) false
  else addrSpace a == 1 || bufOk s ws a n

/-- The bus error that a burst meets at an address before it moves anything, 0 for none. -/
def burstCause (s : State) (ws : Nat) (ma : Bool) (a n : Nat) : Nat :=
  if !burstValid s ma a n then 5 else if !burstOwned s ws ma a n then 1 else 0

/-- Whether a source granule of a burst is poisoned. -/
def srcPoisoned (s : State) (ma : Bool) (a n : Nat) : Bool :=
  if ma then
    (List.range (cdiv (a % 32 + n) 32)).any fun i => s.mem.poison.contains (dpaOf s (bits a 40 0 / 32 * 32 + 32 * i) / 32)
  else addrSpace a == 0 && poisonIn s.mem (bits a 40 0) n

/-- Whether a destination granule that a burst writes only in part is poisoned. -/
def dstPoisoned (s : State) (ma : Bool) (a n : Nat) : Bool :=
  if ma then
    let part := fun x => decide (x % 32 ≠ 0) && s.mem.poison.contains (dpaOf s (x / 32 * 32) / 32)
    part (bits a 40 0) || part (bits a 40 0 + n)
  else addrSpace a == 0 && endsPoisoned s.mem (bits a 40 0) n

/-- Read a local source. -/
def burstRead (s : State) (ma : Bool) (a n : Nat) : List Byte :=
  if ma then readMa s (bits a 40 0) n else readBytes s.mem (bits a 40 0) n

/-- Write a local destination. -/
def burstWrite (s : State) (ma : Bool) (a : Nat) (data : List Byte) : State :=
  if ma then storeMa s (bits a 40 0) data else { s with mem := store s.mem (bits a 40 0) data }

/-- The transaction tag of a burst's fabric message. -/
def burstTxn (c off : Nat) : Nat := 2 ^ 62 + c * 2 ^ 32 + off

/-- Replace a burst of a job. -/
def putBurst (j : MoveJob) (b : Burst) : MoveJob :=
  { j with bursts := j.bursts.map fun x => if x.off = b.off then b else x }

/-- The prefix of the destination that is written in full (R455): bursts that have ended well leave the list from its
front. -/
def settleBursts (j : MoveJob) : Nat → MoveJob
  | 0 => j
  | n + 1 =>
    match j.bursts with
    | b :: rest =>
      if b.outcome = some 0 then settleBursts { j with bursts := rest, bytesDone := b.off + b.len } n else j
    | [] => j

/-- Status and reason of a bus error cause (Table: Bus error causes) (DEDUCED, assumption 103). -/
def causeStatus (c : Nat) : Nat × Nat :=
  match c with
  | 1 => (stBadParam, 5)
  | 2 => (stStateLost, 0)
  | 3 => (stBadParam, 5)
  | 4 => (stFenced, 0)
  | _ => (stBadParam, 5)

/-- A PAUSING channel whose bursts have drained is PAUSED, and its pause tickets carry the position (R458). -/
def settlePause (s : State) (c : Nat) : State :=
  let x := getChan s c
  let busy := match x.job with | some j => j.bursts.any (·.outcome == none) | none => false
  if x.state = 2 ∧ !busy then
    let sqCi := (getRing (getFn s x.fn) x.ring).sqCi
    finishAll (putChan s c { x with state := 3, pauseTickets := [] }) x.pauseTickets stOk
      (leBytes 4 sqCi.toNat ++ leBytes 4 ((x.job.map (·.bytesDone)).getD 0))
  else s

/-- A descriptor whose bursts have all ended completes: whole, or with the bus error of its first failed burst; with
HALT_ON_BAD the channel then pauses (R454, R456). -/
def settleJob (s : State) (c : Nat) : State :=
  let x := getChan s c
  match x.job with
  | none => s
  | some j0 =>
    let j := settleBursts j0 j0.bursts.length
    let t := putChan s c { x with job := some j }
    if j.bursts.any (·.outcome == none) ∨ x.state = 4 then t
    else
      match j.bursts with
      | b :: _ =>
        let cause := b.outcome.getD 0
        let halt := dHalt j.desc && x.state == 1
        let u := completeMove t c { j with faultAddr := b.fault } (causeStatus cause).1 cause (causeStatus cause).2 true halt
        if halt then putChan u c { getChan u c with state := 3 } else u
      | [] => if dBytes j.desc ≤ j.bytesDone then completeMove t c j stOk 0 0 false false else t

/-- What follows the end of a burst: its descriptor, a pause, a close. -/
def settleChannel (s : State) (c : Nat) : State := drainChannel (settlePause (settleJob s c) c) c

/-! ## The move bus -/

/-- The bucket of a channel, filled to now: s × 4 bytes a ns, at most 4,096 (R457). -/
def chanBucket (s : State) (x : Channel) : Bucket := fillBucket x.bucket (4 * x.share) 4096 (ns s)

/-- Whether a channel has a burst to issue (R451, R454, R457). -/
def burstReady (s : State) (c : Nat) : Bool :=
  let x := getChan s c
  match x.job with
  | some j => x.state == 1 && j.cause == 0 && decide (j.nextOff < dBytes j.desc) && decide (j.bursts.length < 512) &&
      decide (0 ≤ (chanBucket s x).level)
  | none => false

/-- The requester that the move bus grants: 0 the result queue, n + 1 channel n (Table: Move bus arbiter). -/
def busGrant (s : State) : Option Nat :=
  roundRobin 65 s.move.ptr fun r => if r = 0 then !s.move.results.isEmpty else burstReady s (r - 1)

/-- A granted burst of the result queue: up to the next 256-byte boundary of its buffer (R451). A write into the host's
memory carries a tag of its query slot, so that the slot is not released before its acknowledgement (R198). -/
def grantResult (s : State) : State :=
  match s.move.results with
  | [] => s
  | w :: rest =>
    let n := min (256 - w.addr % 256) w.data.length
    let left := if n < w.data.length then [{ w with addr := w.addr + n, data := w.data.drop n }] else []
    let txn := 2 ^ 63 + w.slot * 2 ^ 32 + s.fab.nextTxn % 2 ^ 32
    let t := { s with
      move := { s.move with results := left ++ rest }
      fab := { s.fab with nextTxn := wrapAdd 64 s.fab.nextTxn 1 } }
    writeBuf t w.fn w.ws w.addr (w.data.take n) txn

/-- Send what a HOST burst needs: the read of a HOST source, or the write of a HOST destination with its data (R457). -/
def sendBurst (s : State) (c : Nat) (d : List Byte) (b : Burst) : State :=
  let x := getChan s c
  let gw := gatewayDev (getFn s x.fn).gateway
  let cls := (getWs s x.ws).wclass
  match b.data with
  | some l => if addrSpace (dDst d) = 1 ∧ !dMa d then sendMemWrite s gw cls x.ws (burstTxn c b.off) (dDst d + b.off) l else s
  | none => sendTxn s gw cls x.ws 0x12 (burstTxn c b.off) (leBytes 8 (dSrc d + b.off) ++ leBytes 4 b.len ++ zeros 4)

/-- The first look at a burst: its addresses, and the data of a local source (R453, R454). -/
def openBurst (s : State) (ws : Nat) (d : List Byte) (off n : Nat) : Burst :=
  let src := dSrc d + off
  let dst := dDst d + off
  let sc := if dFill d then 0 else burstCause s ws (dMa d) src n
  let dc := burstCause s ws (dMa d) dst n
  if sc ≠ 0 then ⟨off, n, some sc, src, none⟩
  else if !dFill d && srcPoisoned s (dMa d) src n then ⟨off, n, some 2, src, none⟩
  else if dc ≠ 0 then ⟨off, n, some dc, dst, none⟩
  else if dstPoisoned s (dMa d) dst n then ⟨off, n, some 2, dst, none⟩
  else if dFill d then ⟨off, n, none, 0, some (fillBytes d off n)⟩
  else if addrSpace src = 1 ∧ !dMa d then ⟨off, n, none, 0, none⟩
  else ⟨off, n, none, 0, some (burstRead s (dMa d) src n)⟩

/-- A channel issues its next burst; an address in the guard reserve is a violation as well (R314). -/
def grantChannel (s : State) (c : Nat) : State :=
  let x := getChan s c
  match x.job with
  | none => s
  | some j =>
    let n := burstLen j.desc j.nextOff
    let b := openBurst s x.ws j.desc j.nextOff n
    let bad := match b.outcome with | some k => k | none => 0
    let k := { j with bursts := j.bursts ++ [b], nextOff := j.nextOff + n, cause := bad }
    let lev := (chanBucket s x).level - (n : Int)
    let t := putChan s c { x with job := some k, bucket := ⟨lev, ns s⟩ }
    let t := if bad = 1 ∧ !dMa j.desc ∧ addrSpace b.fault = 0 ∧ inReserve s (bits b.fault 40 0) n then
        violation t 8 (bits b.fault 40 0) else t
    if bad = 0 then sendBurst t c j.desc b else settleChannel t c

/-- One grant of the move bus. -/
def moveGrant (s : State) : State :=
  match busGrant s with
  | none => s
  | some r =>
    let t := { s with move := { s.move with ptr := (r + 1) % 65 } }
    if r = 0 then grantResult t else grantChannel t (r - 1)

/-- MOVE_BURST_ISSUE (R451, R457). -/
def execMoveBurstIssue (s : State) : Host.Outcome State Fault Refusal := .next (when (firmwareRuns s) moveGrant s)

/-- Whether a burst still waits for the answer to its HOST read, and whether for that to its HOST write. -/
def hostSource (d : List Byte) (b : Burst) : Bool := b.data.isNone && addrSpace (dSrc d) == 1
def hostDest (d : List Byte) : Bool := !dMa d && addrSpace (dDst d) == 1

/-- A burst ends (R453 to R455): a HOST read brings its data, which a HOST write then carries; a HOST write is
acknowledged; a local write is performed, unless a granule of its destination has become poisoned. -/
def burstEnd (s : State) (c : Nat) (j : MoveJob) (b : Burst) (h : HostAnswer) : State :=
  let x := getChan s c
  let d := j.desc
  let put := fun (t : State) (y : Burst) =>
    putChan t c { x with job := some (putBurst { j with cause := if y.outcome.getD 0 = 0 then j.cause else y.outcome.getD 0 } y) }
  let failed := fun (cause addr : Nat) => put s { b with outcome := some cause, fault := addr }
  let writeLocal := fun (t : State) (l : List Byte) =>
    if dstPoisoned t (dMa d) (dDst d + b.off) b.len then failed 2 (dDst d + b.off)
    else put (burstWrite t (dMa d) (dDst d + b.off) l) { b with outcome := some 0, data := some l }
  if hostSource d b then
    match h with
    | .ok l =>
      let y := { b with data := some (slice l 0 b.len) }
      if hostDest d then sendBurst (put s y) c d y else writeLocal s (slice l 0 b.len)
    | .refused => failed 3 (dSrc d + b.off)
    | .silent => failed 4 (dSrc d + b.off)
  else if hostDest d then
    match h with
    | .ok _ => put s { b with outcome := some 0 }
    | .refused => failed 3 (dDst d + b.off)
    | .silent => failed 4 (dDst d + b.off)
  else writeLocal s (b.data.getD [])

/-- The burst of a channel that is in flight at an offset. -/
def findBurst (s : State) (c off : Nat) : Option (MoveJob × Burst) :=
  (getChan s c).job.bind fun j => (j.bursts.find? fun b => b.off == off && b.outcome == none).map fun b => (j, b)

/-- MOVE_BURST_DONE (R455). -/
def execMoveBurstDone (chan off : Nat) (h : HostAnswer) (s : State) : Host.Outcome State Fault Refusal :=
  guarded "MOVE_BURST_DONE" (decide (chan < 64)) (match findBurst s chan off with
    | some (j, b) => when (inRun s) (fun t => settleChannel (burstEnd t chan j b h) chan) s
    | none => s)

/-! ## Commands -/

/-- The lowest CLOSED channel (R447). -/
def closedChan (s : State) : Option Nat := (List.range 64).find? fun c => (getChan s c).state == 0

/-- MOVE_OPEN's answer (R447). -/
def moveOpen (c : Ctx) (s : State) : Answer × State :=
  let d := c.data
  let dev := (freeDevRing s).getD 0
  let ch := (closedChan s).getD 0
  let g := newRing d (some ch) (fld d 0 8) (fld d 8 8) (fld d 16 4) (fld d 20 4) 64 (fld d 26 2) dev
  let x : Channel := ⟨1, c.ws, c.owner, fld d 24 1, 16, ⟨4096, ns s⟩, none, [], []⟩
  checked ([(zeroAt d 25 1 && zeroAt d 28 4, stBadParam)] ++
      ringChecks s c.owner c.ws (fld d 0 8) (fld d 8 8) (fld d 16 4) (fld d 20 4) 64 (fld d 24 1) (fld d 26 2) ++
      [(roomFor s c.ws 1 (·.moveChannels) && (closedChan s).isSome, stQuota)])
    (.reply stOk (leBytes 1 ch ++ zeros 1 ++ leBytes 2 dev ++ zeros 4), putChan (putRing s c.owner (fld d 24 1) g) ch x) s

/-- MOVE_OPEN (R447). -/
def execMoveOpen (m : MsgSrc) (s : State) : Host.Outcome State Fault Refusal :=
  serve ⟨0x610, .own, false, false, some 32⟩ m moveOpen s

/-- The checks that the channel commands share: Reserved bytes, a channel that is open, of the issuer's workspace
(R458). -/
def chanChecks (c : Ctx) (s : State) (reserved : Bool) : List (Bool × Nat) :=
  let n := fld c.data 0 1
  [(reserved && decide (n < 64), stBadParam), ((getChan s n).state != 0, stBadParam), ((getChan s n).ws == c.ws, stNoAuth)]

/-- MOVE_CLOSE's answer: CLOSING, and CLOSED once its bursts have drained (R458). -/
def moveClose (c : Ctx) (s : State) : Answer × State :=
  let n := fld c.data 0 1
  checked (chanChecks c s (zeroAt c.data 1 7)) (.issue stPending (work c [n]), closeChannel s n [c.ticket]) s

/-- MOVE_CLOSE (R458). -/
def execMoveClose (m : MsgSrc) (s : State) : Host.Outcome State Fault Refusal :=
  serve ⟨0x611, .own, false, true, some 8⟩ m moveClose s

/-- MOVE_PAUSE's answer by state (Table: Pause and close transitions); a CLOSING channel refuses it (DEDUCED, assumption 31). -/
def movePause (c : Ctx) (s : State) : Answer × State :=
  let n := fld c.data 0 1
  let x := getChan s n
  let at_ := leBytes 4 (getRing (getFn s x.fn) x.ring).sqCi.toNat ++ leBytes 4 ((x.job.map (·.bytesDone)).getD 0)
  let run : Answer × State := match x.state with
    | 3 => (.issue stPending (doneWork c [n] stOk at_), s)
    | _ => (.issue stPending (work c [n]), putChan s n { x with state := 2, pauseTickets := x.pauseTickets ++ [c.ticket] })
  checked (chanChecks c s (zeroAt c.data 1 7) ++ [(x.state != 4, stBadParam)]) run s

/-- MOVE_PAUSE (R458). -/
def execMovePause (m : MsgSrc) (s : State) : Host.Outcome State Fault Refusal :=
  serve ⟨0x612, .own, false, true, some 8⟩ m movePause s

/-- MOVE_RESUME's effect: PAUSING loses its pause tickets, PAUSED goes on from bytes_done (R458, R459). -/
def resumeChan (s : State) (n : Nat) : State :=
  let x := getChan s n
  if x.state = 2 then finishAll (putChan s n { x with state := 1, pauseTickets := [] }) x.pauseTickets stCancelled []
  else putChan s n { x with state := 1, job := x.job.map fun j => { j with resumed := satAdd 32 j.resumed 1 } }

/-- MOVE_RESUME's answer (R458). -/
def moveResume (c : Ctx) (s : State) : Answer × State :=
  let n := fld c.data 0 1
  let st := (getChan s n).state
  checked (chanChecks c s (zeroAt c.data 1 7) ++ [(st == 2 || st == 3, stBadParam)]) (.reply stOk [], resumeChan s n) s

/-- MOVE_RESUME (R458). -/
def execMoveResume (m : MsgSrc) (s : State) : Host.Outcome State Fault Refusal :=
  serve ⟨0x613, .own, false, false, some 8⟩ m moveResume s

/-- Table: MOVE_INFO result (R627). -/
def moveRecord (s : State) (n : Nat) : List Byte :=
  let x := getChan s n
  let g := getRing (getFn s x.fn) x.ring
  leBytes 1 n ++ leBytes 1 x.state ++ leBytes 2 x.share ++ leBytes 1 x.ring ++ zeros 1 ++ leBytes 2 g.devRing ++
    leBytes 4 g.sqCi.toNat ++ leBytes 4 ((x.job.map (·.bytesDone)).getD 0) ++ leBytes 4 g.sqPi.toNat ++
    leBytes 4 g.cqPi.toNat ++ leBytes 4 g.cqCi.toNat ++ zeros 4

/-- MOVE_INFO (R627). -/
def execMoveInfo (m : MsgSrc) (s : State) : Host.Outcome State Fault Refusal :=
  serve ⟨0x614, .own, false, false, some 8⟩ m (fun c t =>
    checked (chanChecks c t (zeroAt c.data 1 7)) (.reply stOk (moveRecord t (fld c.data 0 1)), t) t) s

/-- MOVE_RATE's answer (R457). -/
def moveRate (c : Ctx) (s : State) : Answer × State :=
  let n := fld c.data 0 1
  let v := fld c.data 2 2
  let x := getChan s n
  checked [(zeroAt c.data 1 1 && zeroAt c.data 4 4 && decide (n < 64), stBadParam), (x.state != 0, stBadParam),
    (decide (1 ≤ v) && decide (v ≤ 256), stBadParam)]
    (.reply stOk [], putChan s n { x with share := v, bucket := chanBucket s x }) s

/-- MOVE_RATE (R457). -/
def execMoveRate (m : MsgSrc) (s : State) : Host.Outcome State Fault Refusal :=
  serve ⟨0x615, .ws0, false, false, some 8⟩ m moveRate s

end Sys2Proof.Machine
end

