-- ==== Sys2Proof/Machine/Workspace.lean ====
section
/-!
DEFINITION. The workspace commands (11): creation, quotas, settings, keys and window buffers.
-/

namespace Sys2Proof.Machine

/-! ## Quota blocks -/

/-- A quota block read from bytes (Table: Quota block). -/
def parseQuota (l : List Byte) : Quota :=
  { slots := fld l 0 4, latencySlots := fld l 4 2, indexes := fld l 6 2, tables := fld l 8 2, programs := fld l 10 2,
    sessions := fld l 12 2, rings := fld l 14 2, moveChannels := fld l 16 2, tickets := fld l 18 2,
    egressGbps := fld l 20 4, windowPages := fld l 24 4, marverPages := fld l 28 4, flashMib := fld l 32 8,
    poolReads := fld l 40 2 }

/-- A quota block as 64 bytes. -/
def quotaBytes (q : Quota) : List Byte :=
  leBytes 4 q.slots ++ leBytes 2 q.latencySlots ++ leBytes 2 q.indexes ++ leBytes 2 q.tables ++ leBytes 2 q.programs ++
    leBytes 2 q.sessions ++ leBytes 2 q.rings ++ leBytes 2 q.moveChannels ++ leBytes 2 q.tickets ++
    leBytes 4 q.egressGbps ++ leBytes 4 q.windowPages ++ leBytes 4 q.marverPages ++ leBytes 8 q.flashMib ++
    leBytes 2 q.poolReads ++ zeros 22

/-- Whether every field of a quota block is in range, and its Reserved bytes 0 (R308). -/
def quotaOk (l : List Byte) : Bool :=
  let q := parseQuota l
  decide (q.slots ≤ 57344) && decide (q.latencySlots ≤ 2048) && decide (q.indexes ≤ 1024) && decide (q.tables ≤ 256) &&
    decide (q.programs ≤ 256) && decide (q.sessions ≤ 16384) && decide (q.rings ≤ 4096) &&
    decide (q.moveChannels ≤ 64) && decide (q.egressGbps ≤ 44800) && decide (q.poolReads ≤ 4096) && zeroAt l 42 22

/-! ## Creation and settings -/

/-- WS_CREATE's answer (R307). -/
def wsCreate (c : Ctx) (s : State) : Answer × State :=
  let d := c.data
  let n := fld d 0 2
  let w : Ws := ⟨1, fld d 2 1, fld d 3 1, parseQuota (slice d 16 64), [], none⟩
  checked [(decide (1 ≤ n) && decide (n < 4096) && decide (fld d 2 1 < 2) && decide (fld d 3 1 ≤ 5) && zeroAt d 4 12 &&
      zeroAt d 80 16 && quotaOk (slice d 16 64), stBadParam), ((getWs s n).state == 0, stBadParam)]
    (.reply stOk [], putWs s n w) s

/-- WS_CREATE (R307). -/
def execWsCreate (m : MsgSrc) (s : State) : Host.Outcome State Fault Refusal :=
  serve ⟨0x201, .ws0, false, false, some 96⟩ m wsCreate s

/-- WS_DESTROY's answer: DESTROYING; the rest follows once admitted requests have completed (R310). -/
def wsDestroy (c : Ctx) (s : State) : Answer × State :=
  let n := fld c.data 0 2
  checked [(zeroAt c.data 2 6 && decide (1 ≤ n) && decide (n < 4096), stBadParam), (wsActive s n, stBadParam)]
    (.issue stPending (work c [n]), putWs s n { getWs s n with state := 2, destroy := some c.ticket }) s

/-- WS_DESTROY (R310). -/
def execWsDestroy (m : MsgSrc) (s : State) : Host.Outcome State Fault Refusal :=
  serve ⟨0x202, .ws0, false, true, some 8⟩ m wsDestroy s

/-- The key store's entry of a workspace. -/
def keySet (s : State) (ws : Nat) : KeySet := ((s.guard.keys.find? (·.1 == ws)).map (·.2)).getD ⟨[], [], 0⟩

/-- The generation at a place of a list of keys, 0 for none. -/
def genAt (l : List Key) (i : Nat) : Nat := ((l[i]?).map (·.gen)).getD 0

/-- Table: WS_INFO result (R624). -/
def wsRecord (s : State) (n : Nat) : List Byte :=
  let w := getWs s n
  let k := keySet s n
  leBytes 2 n ++ leBytes 1 w.state ++ leBytes 1 w.wflags ++ leBytes 1 w.wclass ++ zeros 3 ++ quotaBytes (quotaOf s n) ++
    quotaBytes (useOf s n) ++ leBytes 4 (genAt k.flash 0) ++ leBytes 4 (genAt k.flash 1) ++ leBytes 4 (genAt k.pool 0) ++
    leBytes 4 (genAt k.pool 1) ++ zeros 8

/-- WS_INFO's answer: of any workspace for WS0, of its own for a tenant (R306, R624). -/
def wsInfo (c : Ctx) (s : State) : Answer × State :=
  let n := fld c.data 0 2
  checked [(c.ws == 0 || n == c.ws, stNoAuth), (zeroAt c.data 2 6 && decide (n < 4096), stBadParam),
    ((getWs s n).state != 0, stBadParam)] (.reply stOk (wsRecord s n), s) s

/-- WS_INFO (R624). -/
def execWsInfo (m : MsgSrc) (s : State) : Host.Outcome State Fault Refusal :=
  serve ⟨0x203, .self, false, false, some 8⟩ m wsInfo s

/-- WS_SET_QUOTA's answer (R309). -/
def wsSetQuota (c : Ctx) (s : State) : Answer × State :=
  let n := fld c.data 0 2
  checked [(zeroAt c.data 2 14 && decide (1 ≤ n) && decide (n < 4096) && quotaOk (slice c.data 16 64), stBadParam),
    (wsActive s n, stBadParam)]
    (.reply stOk [], putWs s n { getWs s n with quota := parseQuota (slice c.data 16 64) }) s

/-- WS_SET_QUOTA (R309). -/
def execWsSetQuota (m : MsgSrc) (s : State) : Host.Outcome State Fault Refusal :=
  serve ⟨0x204, .ws0, false, false, some 80⟩ m wsSetQuota s

/-- WS_SETTINGS's answer (R312). -/
def wsSettings (c : Ctx) (s : State) : Answer × State :=
  let n := fld c.data 0 2
  checked [(c.ws == 0 || n == c.ws, stNoAuth), (zeroAt c.data 3 5 && decide (n < 4096) && decide (fld c.data 2 1 ≤ 5), stBadParam),
    (wsActive s n, stBadParam)] (.reply stOk [], putWs s n { getWs s n with wclass := fld c.data 2 1 }) s

/-- WS_SETTINGS (R312). -/
def execWsSettings (m : MsgSrc) (s : State) : Host.Outcome State Fault Refusal :=
  serve ⟨0x205, .self, false, false, some 8⟩ m wsSettings s

/-! ## Keys -/

def putKeys (s : State) (ws : Nat) (k : KeySet) : State :=
  { s with guard := { s.guard with keys := Tab.insert s.guard.keys ws k } }

/-- The keys of a kind: 0 FLASH, 1 POOL. -/
def keysOf (k : KeySet) (kind : Nat) : List Key := if kind = 0 then k.flash else k.pool

def setKeys (k : KeySet) (kind : Nat) (l : List Key) : KeySet :=
  if kind = 0 then { k with flash := l } else { k with pool := l, poolCounter := 0 }

/-- Whether a generation may be loaded: one more than the newest held, any from 1 where none is held (DEDUCED, assumption 28); a
third is refused (R319, R322). -/
def genOk (l : List Key) (gen : Nat) : Bool :=
  decide (1 ≤ gen) && decide (l.length < 2) && (l.isEmpty || gen == genAt l 0 + 1)

/-- The key in a blob: the service's point, then the wrap (R319). -/
def unwrapBlob (s : State) (dpa n : Nat) : Option (List Byte) :=
  let b := readBytes s.mem dpa n
  if poisonIn s.mem dpa n then none else Config.keyUnwrap (s.fuse.identityKey ++ b.take 97) (b.drop 97)

/-- WS_KEY_LOAD's answer (R319, R322). -/
def wsKeyLoad (c : Ctx) (s : State) : Answer × State :=
  let d := c.data
  let ws := fld d 0 2
  let kind := fld d 2 1
  let n := fld d 16 2
  let k := keySet s ws
  let key := unwrapBlob s (fld d 8 8) n
  let l := key.getD []
  checked [(zeroAt d 3 1 && zeroAt d 18 14 && decide (ws < 4096) && decide (kind < 2) && n == (if kind = 0 then 169 else 137) &&
      decide (fld d 8 8 < 2 ^ 41) && bufferOk s 0 (fld d 8 8) n, stBadParam), (wsActive s ws, stBadParam),
    (genOk (keysOf k kind) (fld d 4 4), stBadParam), (key.isSome, stNoAuth),
    (kind == 1 || l.take 32 != (l.drop 32).take 32, stBadParam)]
    (.reply stOk [], putKeys s ws (setKeys k kind (⟨fld d 4 4, l⟩ :: keysOf k kind))) s

/-- WS_KEY_LOAD (R319). -/
def execWsKeyLoad (m : MsgSrc) (s : State) : Host.Outcome State Fault Refusal :=
  serve ⟨0x206, .ws0, false, false, some 32⟩ m wsKeyLoad s

/-- WS_KEY_RETIRE's checks: two generations of the kind are held (R322; DEDUCED, assumption 28). -/
def wsKeyRetire (c : Ctx) (s : State) : Answer × State :=
  let ws := fld c.data 0 2
  let kind := fld c.data 2 1
  checked [(zeroAt c.data 3 5 && decide (ws < 4096) && decide (kind < 2), stBadParam), (wsActive s ws, stBadParam),
    ((keysOf (keySet s ws) kind).length == 2, stBadParam)] (.issue stPending (work c [ws, kind]), s) s

/-- WS_KEY_RETIRE (R322). -/
def execWsKeyRetire (m : MsgSrc) (s : State) : Host.Outcome State Fault Refusal :=
  serve ⟨0x207, .ws0, false, true, some 8⟩ m wsKeyRetire s

/-- Map units of a workspace that an older generation encrypts: group, unit, contents. -/
def oldUnits (s : State) (ws gen : Nat) : List (Nat × Nat × MapUnit) :=
  (List.range 8).flatMap fun g =>
    let x := getGroup s g
    let mine := (x.streams.filter (·.ws == ws)).flatMap (·.units)
    (x.units.filter fun u => mine.contains u.1 && u.2.gen == gen).map fun u => (g, u.1, u.2)

/-- Rewrite map units under the newer key, and say whether each could be written (R322). -/
def rewriteUnits (ws : Nat) (old new : Key) : List (Nat × Nat × MapUnit) → State → Bool × State
  | [], s => (true, s)
  | (g, u, x) :: t, s =>
    let r := if x.lost then (true, s) else
      writeUnit s g u (encryptAt new.bytes ws (flashAddr g u 0) 16 (decryptAt old.bytes ws (flashAddr g u 0) 16 x.data))
        new.gen true
    let v := rewriteUnits ws old new t r.2
    (r.1 && v.1, v.2)

/-- Whether no running activity conflicts with a WEAR_MOVE of any group (R510, R322). -/
def wearFree (s : State) : Bool :=
  (List.range 8).all fun g => !s.rack.running.any (conflicts (newActivity s 2 true 2 0 g 0 none))

/-- The end of WS_KEY_RETIRE: the older generation's data is rewritten and its key erased (R322; DESIGN CHOICE, assumption 30). -/
def finishKeyRetire (s : State) (k : Ticket) : Option (Nat × List Byte × State) :=
  let ws := k.work.args.getD 0 0
  let kind := k.work.args.getD 1 0
  let ks := keySet s ws
  match keysOf ks kind with
  | [new, old] =>
    if !wearFree s then none
    else
      let r := if kind = 0 then rewriteUnits ws old new (oldUnits s ws old.gen) s else (true, s)
      if r.1 then
        some (stOk, [], putKeys r.2 ws (if kind = 0 then { ks with flash := [new] } else { ks with pool := [new] }))
      else some (stMediaExhausted, [], r.2)
  | _ => some (stOk, [], s)

/-! ## Window buffers -/

/-- REGION_ALLOC's answer (R315). -/
def regionAlloc (c : Ctx) (s : State) : Answer × State :=
  let n := fld c.data 0 4
  let w := getWs s c.ws
  let got := allocWindow s c.ws 0 n
  let run : Answer × State := match got with
    | some (p, t) => (.reply stOk (leBytes 8 (p * 65536)),
        putWs t c.ws { w with regions := w.regions ++ [⟨p * 65536, n, none⟩] })
    | none => refuse stQuota s
  checked [(zeroAt c.data 4 4 && decide (1 ≤ n) && decide (n ≤ 65536), stBadParam),
    (roomFor s c.ws n (·.windowPages) && decide (w.regions.length < 256), stQuota)] run s

/-- REGION_ALLOC (R315). -/
def execRegionAlloc (m : MsgSrc) (s : State) : Host.Outcome State Fault Refusal :=
  serve ⟨0x208, .self, false, false, some 8⟩ m regionAlloc s

/-- Whether a buffer holds a queue of a ring or open channel of its workspace, or the recorder's forward ring (R316). -/
def holdsQueue (s : State) (ws : Nat) (r : Region) : Bool :=
  let inside := fun a => decide (r.base ≤ a) && decide (a < r.base + r.pages * 65536)
  ((wsFns s ws).any fun p => p.2.rings.any fun g =>
      inside g.2.sqDpa || (addrSpace g.2.cqAddr == 0 && inside g.2.cqAddr)) ||
    (ws == 0 && s.evr.fwdClasses != 0 && addrSpace s.evr.fwdAddr == 0 && inside s.evr.fwdAddr)

/-- REGION_FREE's answer: CLOSING from acceptance (R316); an entry that is CLOSING already names none (DEDUCED, assumption 31). -/
def regionFree (c : Ctx) (s : State) : Answer × State :=
  let base := fld c.data 0 8
  let w := getWs s c.ws
  match w.regions.find? (·.base == base) with
  | none => refuse stBadParam s
  | some r =>
    let t := putWs s c.ws { w with regions := w.regions.map fun x =>
      if x.base = base then { x with closing := some c.ticket } else x }
    checked [(r.closing.isNone && !holdsQueue s c.ws r, stBadParam)] (.issue stPending (work c [base]), t) s

/-- REGION_FREE (R316). -/
def execRegionFree (m : MsgSrc) (s : State) : Host.Outcome State Fault Refusal :=
  serve ⟨0x209, .self, false, true, some 8⟩ m regionFree s

/-- Whether some 8-byte field of bytes holds a window address inside a region. -/
def namesRegion (r : Region) (l : List Byte) : Bool :=
  (List.range (l.length / 4)).any fun i =>
    let a := fld l (4 * i) 8
    decide (r.base ≤ a) && decide (a < r.base + r.pages * 65536)

/-- Whether an access accepted before the close may still touch a region: a request whose payload names it, a result
write, or a descriptor (R316). -/
def regionBusy (s : State) (ws : Nat) (r : Region) : Bool :=
  (s.hub.slots.any fun p => p.2.ws == ws && namesRegion r p.2.payload) ||
    (s.move.results.any fun w => w.ws == ws && namesRegion r (leBytes 8 w.addr)) ||
    (s.move.chans.any fun p => p.2.ws == ws &&
      (match p.2.job with | some j => namesRegion r (j.desc.take 16) | none => false))

/-- Release a buffer: its pages are cleared and free, and its ticket completes (R316, R317). -/
def releaseRegion (s : State) (ws : Nat) (r : Region) : State :=
  let w := getWs s ws
  let t := freePages (clearPages s (r.base / 65536) r.pages) (r.base / 65536)
  let u := putWs t ws { w with regions := w.regions.filter (·.base != r.base) }
  match r.closing with
  | some k => finishTicket u k stOk []
  | none => u

/-- REGION_RELEASE (R316). -/
def execRegionRelease (ws base : Nat) (s : State) : Host.Outcome State Fault Refusal :=
  .next (match (getWs s ws).regions.find? (·.base == base) with
    | some r => when (firmwareRuns s && r.closing.isSome && !regionBusy s ws r) (releaseRegion · ws r) s
    | none => s)

end Sys2Proof.Machine
end

