-- ==== Sys2Proof/Machine/IndexMem.lean ====
section
/-!
DEFINITION. Items in the banks (R143 to R151, R158 to R161) and the operations that append, mark, find and move them;
statistics (R157).
-/

namespace Sys2Proof.Machine

/-! ## Reading a chunk -/

/-- Visible at an epoch: inserted at or before it and not deleted at or before it (R24, R145). -/
def visibleAt (ins del e : Nat) : Bool := decide (ins ≤ e) && decide (e < del)

/-- A slot of a chunk, or an entry of a bucket (whose key stands as the ID). -/
structure Item where
  ma : Nat
  slot : Nat
  ins : Nat
  del : Nat
  ord : Nat
  ident : Nat
  attrs : List Byte
  codes : List Byte
  deriving DecidableEq, Repr

/-- Slots of a chunk in use (R146). -/
def chunkFill (s : State) (ma : Nat) : Nat := fld (readMa s ma 32) 16 2

/-- Code bytes of a slot: its part A, then its part B (R144). -/
def slotCodes (s : State) (x : Index) (ma i : Nat) : List Byte :=
  readMa s (ma + 256 + i * x.partA) x.partA ++ readMa s (ma + 256 + x.chunkSlots * 64 + i * x.partB) x.partB

/-- The slot of a chunk (R144, R145). -/
def readItem (s : State) (x : Index) (ma i : Nat) : Item :=
  let v := readMa s (ma + x.visOff + 16 * i) 16
  { ma := ma, slot := i, ins := fld v 0 8, del := fld v 8 8, ord := leNat (readMa s (ma + x.ordOff + 8 * i) 8),
    ident := leNat (readMa s (ma + x.idOff + 8 * i) 8),
    attrs := if x.attributes then readMa s (ma + x.attrOff + 32 * i) 32 else [], codes := slotCodes s x ma i }

/-- The slots in use of a chunk (DEDUCED, assumption 59). -/
def chunkItems (s : State) (x : Index) (ma : Nat) : List Item :=
  (List.range (chunkFill s ma)).map (readItem s x ma)

/-- The codewords of a slot by subquantiser (R144). -/
def codewords (x : Index) (codes : List Byte) : List Nat :=
  (List.range x.m).map fun j =>
    if x.kind = 2 then (if j % 2 = 0 then bits (fld codes (j / 2) 1) 3 0 else bits (fld codes (j / 2) 1) 7 4)
    else fld codes j 1

/-- Granules, by MA / 32, that hold bytes `ma` to `ma + n - 1`. -/
def granulesOf (ma n : Nat) : List Nat := (List.range (cdiv (ma % 32 + n) 32)).map fun i => ma / 32 + i

/-- Whether the granule of an MA is poisoned. -/
def granuleBad (s : State) (g : Nat) : Bool := s.mem.poison.contains (dpaOf s (g * 32) / 32)

/-- Whether any byte of a span lies in a poisoned granule. -/
def spanBad (s : State) (ma n : Nat) : Bool := (granulesOf ma n).any (granuleBad s)

/-- Whether a chunk needs its visibility column at an epoch (R149). -/
def needsVis (s : State) (ma e : Nat) : Bool :=
  let h := readMa s ma 32
  !(decide (fld h 0 8 ≤ e) && decide (e < fld h 8 8))

/-- Granules that a scan reads of a slot: codes, its visibility entry where the chunk needs it, its attribute record
where a predicate is applied, its ordinal and ID. -/
def slotGranules (x : Index) (ma i : Nat) (vis attr : Bool) : List Nat :=
  granulesOf (ma + 256 + i * x.partA) x.partA ++
    (if x.partB = 0 then [] else granulesOf (ma + 256 + x.chunkSlots * 64 + i * x.partB) x.partB) ++
    (if vis then granulesOf (ma + x.visOff + 16 * i) 16 else []) ++
    (if attr then granulesOf (ma + x.attrOff + 32 * i) 32 else []) ++
    granulesOf (ma + x.ordOff + 8 * i) 8 ++ granulesOf (ma + x.idOff + 8 * i) 8

/-- A list without repeats, first places kept. -/
def distinct {α : Type} [DecidableEq α] (l : List α) : List α :=
  l.foldl (fun r a => if r.contains a then r else r ++ [a]) []

/-! ## Writing a chunk -/

/-- The header of an empty chunk (R146). -/
def chunkHeader (idx : Nat) (x : Index) (maxIns minDel fill tombs list seq : Nat) : List Byte :=
  leBytes 8 maxIns ++ leBytes 8 minDel ++ leBytes 2 fill ++ leBytes 2 tombs ++ leBytes 4 list ++ leBytes 4 seq ++
    [1, BitVec.ofNat 8 x.kind] ++ leBytes 2 idx

/-- An item enters a slot: codes, ordinal, ID, attributes, then visibility, then the header (R147). -/
def writeSlot (s : State) (x : Index) (ma i : Nat) (it : Item) : State :=
  let t := storeMa s (ma + 256 + i * x.partA) (it.codes.take x.partA)
  let t := if x.partB = 0 then t else storeMa t (ma + 256 + x.chunkSlots * 64 + i * x.partB) (it.codes.drop x.partA)
  let t := storeMa t (ma + x.ordOff + 8 * i) (leBytes 8 it.ord)
  let t := storeMa t (ma + x.idOff + 8 * i) (leBytes 8 it.ident)
  let t := if x.attributes then storeMa t (ma + x.attrOff + 32 * i) (slice it.attrs 0 32) else t
  let t := storeMa t (ma + x.visOff + 16 * i) (leBytes 8 it.ins ++ leBytes 8 it.del)
  let h := readMa t ma 32
  storeMa t ma (leBytes 8 (max (fld h 0 8) it.ins) ++ leBytes 8 (min (fld h 8 8) it.del) ++ leBytes 2 (i + 1) ++
    leBytes 2 (fld h 18 2 + b2n (decide (it.del ≠ NEVER))) ++ h.drop 20)

/-- MARK: the delete epoch enters the visibility entry and then the header; a slot that has one keeps it (R148). -/
def markSlot (s : State) (x : Index) (ma i epoch : Nat) : State :=
  let v := readMa s (ma + x.visOff + 16 * i) 16
  if fld v 8 8 ≠ NEVER then s
  else
    let t := storeMa s (ma + x.visOff + 16 * i + 8) (leBytes 8 epoch)
    let h := readMa t ma 32
    storeMa t ma (h.take 8 ++ leBytes 8 (min (fld h 8 8) epoch) ++ (slice h 16 2) ++ leBytes 2 (fld h 18 2 + 1) ++ h.drop 20)

/-! ## Placement (R150) -/

/-- Bytes of one chunk, or of one bucket. -/
def Index.itemLen (x : Index) : Nat := if x.kind = 3 then 2304 else x.chunkLen

/-- Positions that a region of `pages` pages offers. -/
def positionsIn (ma pages len : Nat) : List Nat := (List.range (pages * 65536 / len)).map fun i => ma + i * len

/-- Pages of a region that a bank can still offer: 64, or the smaller tail of its marver segments (R150). -/
def regionSizes (s : State) (len : Nat) : List Nat :=
  ([64, bankPages s % 64]).filter fun n => decide (0 < n) && decide (len ≤ n * 65536)

/-- Pages that an unspilled unit needs first for an index of M 96 or 128 (R151). -/
def spillPages (x : Index) : Nat := if x.kind = 1 ∧ 64 < x.m then 2 else 0

/-- Whether a unit holds table spill pages: a run of 2 pages of WS0 in its banks (R151). -/
def hasSpill (s : State) (u : Nat) : Bool :=
  s.guard.owners.any fun r => r.ws == 0 && r.kind == 1 && r.pages == 2 && decide (windowPages s ≤ r.base) &&
    unitOfMa (maOfPage s r.base) == u

/-- Take the spill pages that a unit lacks (R151). -/
def ensureSpill (s : State) (x : Index) (u : Nat) : State :=
  if spillPages x = 0 ∨ hasSpill s u then s
  else match allocMarver s 0 u 2 with | some (_, t) => t | none => s

/-- Add a region on a unit to a copy: the new free positions and the region. -/
def growCopy (s : State) (x : Index) (c : Copy) (u : Nat) : Option (Copy × State) :=
  let rec go : List Nat → Option (Copy × State)
    | [] => none
    | n :: t =>
      if !roomFor s x.ws n (·.marverPages) then go t
      else match allocMarver s x.ws u n with
        | some (p, s') => some ({ c with regions := c.regions ++ [(p, n)],
                                         freePos := c.freePos ++ positionsIn (maOfPage s' p) n x.itemLen }, s')
        | none => go t
  go (regionSizes s x.itemLen)

/-- Whether a unit has space for one more chunk of a copy: a free position, or pages for a region. -/
def unitSpace (s : State) (x : Index) (c : Copy) (u : Nat) : Bool :=
  (c.freePos.any fun p => unitOfMa p == u) ||
    ((regionSizes s x.itemLen).any fun n => roomFor s x.ws n (·.marverPages) && (allocMarver s x.ws u n).isSome)

/-- Take a free position on a unit, growing the copy there where it has none. -/
def takeOnUnit (s : State) (x : Index) (c : Copy) (u : Nat) : Option (Nat × Copy × State) :=
  let pick := fun (c : Copy) (s : State) => (c.freePos.find? fun p => unitOfMa p == u).map fun p =>
    (p, { c with freePos := c.freePos.filter (· != p) }, s)
  match pick c s with
  | some r => some r
  | none => (growCopy (ensureSpill s x u) x c u).bind fun r => pick r.1 r.2

/-- Place chunk number `k` of a list: not on a unit that holds one of the 63 chunks before it, when at least 64 units have
space; of the others the unit with the most free region pages (R150). -/
def placeChunk (s : State) (x : Index) (c : Copy) (chunks : List Nat) : Option (Nat × Copy × State) :=
  let near := (chunks.drop (chunks.length - 63)).map unitOfMa
  let avail := (placeUnits s).filter (unitSpace s x c)
  let allowed := if 64 ≤ avail.length then avail.filter fun u => !near.contains u else avail
  (freestUnit s allowed.contains).bind (takeOnUnit s x c)

/-- Chunks of a list of a copy. -/
def listChunks (c : Copy) (list : Nat) : List Nat := ((c.lists.find? (·.1 == list)).map (·.2)).getD []

def putList (c : Copy) (list : Nat) (l : List Nat) : Copy :=
  { c with lists := if l.isEmpty then Tab.erase c.lists list else Tab.insert c.lists list l }

/-- The place of the next item of a list: its last chunk while that has room, else a new one with its header written
(R147). -/
def nextSlot (s : State) (idx : Nat) (x : Index) (c : Copy) (list : Nat) : Option (Nat × Nat × Copy × State) :=
  let chunks := listChunks c list
  match chunks.getLast? with
  | some ma =>
    if chunkFill s ma < x.chunkSlots then some (ma, chunkFill s ma, c, s)
    else (placeChunk s x c chunks).map fun r =>
      (r.1, 0, putList r.2.1 list (chunks ++ [r.1]), storeMa r.2.2 r.1 (chunkHeader idx x 0 NEVER 0 0 list chunks.length))
  | none => (placeChunk s x c chunks).map fun r =>
      (r.1, 0, putList r.2.1 list [r.1], storeMa r.2.2 r.1 (chunkHeader idx x 0 NEVER 0 0 list 0))

/-- Items that a copy holds, tombstones included. -/
def copyItems (s : State) (x : Index) (c : Copy) : List Item :=
  c.lists.flatMap fun l => l.2.flatMap (chunkItems s x)

/-! ## Buckets (R158 to R161) -/

/-- An entry of a bucket. -/
def readEntry (s : State) (ma i : Nat) : Item :=
  let v := readMa s (ma + 256 + 32 * i) 32
  { ma := ma, slot := i, ins := fld v 16 8, del := fld v 24 8, ord := fld v 8 8, ident := fld v 0 8, attrs := [],
    codes := [] }

/-- The buckets of a chain, in chain order; a chain holds at most 16. -/
def chainFrom (s : State) : Nat → Nat → List Nat
  | 0, _ => []
  | _ + 1, 0 => []
  | n + 1, ma => ma :: chainFrom s n (bits (fld (readMa s ma 32) 16 8) 40 0)

/-- The chain of a primary bucket of a copy. -/
def chainOf (s : State) (c : Copy) (b : Nat) : List Nat :=
  match c.buckets.find? (·.1 == b) with | some p => chainFrom s 16 p.2 | none => []

/-- Entries of a chain, in chain order and then entry order. -/
def chainEntries (s : State) (chain : List Nat) : List Item :=
  chain.flatMap fun ma => (List.range (fld (readMa s ma 32) 24 1)).map (readEntry s ma)

/-- Entries in use of a HASH copy. -/
def hashItems (s : State) (c : Copy) : List Item := c.buckets.flatMap fun b => chainEntries s (chainFrom s 16 b.2)

/-- Mark an entry deleted (R161); one that has a delete epoch keeps it. -/
def markEntry (s : State) (ma i epoch : Nat) : State :=
  let v := readMa s (ma + 256 + 32 * i) 32
  if fld v 24 8 ≠ NEVER then s
  else
    let t := storeMa s (ma + 256 + 32 * i) (v.take 24 ++ leBytes 8 epoch)
    let h := readMa t ma 32
    storeMa t ma (h.take 8 ++ leBytes 8 (min (fld h 8 8) epoch) ++ slice h 16 9 ++ leBytes 1 (fld h 25 1 + 1) ++ h.drop 26)

/-- The header of a bucket (R159). -/
def bucketHeader (maxIns minDel next fill tombs pos bucket : Nat) : List Byte :=
  leBytes 8 maxIns ++ leBytes 8 minDel ++ leBytes 8 next ++ leBytes 1 fill ++ leBytes 1 tombs ++ leBytes 1 pos ++ zeros 1 ++
    leBytes 4 bucket

/-- An entry enters a bucket: the entry granule first, the header second (R160). -/
def appendEntry (s : State) (ma key value ins del : Nat) : State :=
  let h := readMa s ma 32
  let i := fld h 24 1
  let t := storeMa s (ma + 256 + 32 * i) (leBytes 8 key ++ leBytes 8 value ++ leBytes 8 ins ++ leBytes 8 del)
  storeMa t ma (leBytes 8 (max (fld h 0 8) ins) ++ leBytes 8 (min (fld h 8 8) del) ++ slice h 16 8 ++ leBytes 1 (i + 1) ++
    leBytes 1 (fld h 25 1 + b2n (decide (del ≠ NEVER))) ++ h.drop 26)

/-- Overflow buckets that the pool of a unit holds (R160): by the unit's place in the unit set. -/
def overflowPool (x : Index) (place units : Nat) : Nat :=
  x.overflowBuckets / max 1 units + b2n (decide (place < x.overflowBuckets % max 1 units))

/-- Units of the unit set, by stack, die and group (R150, R158). -/
def unitSet (s : State) : List Nat := (sortNat s.mem.layout.stackMap).flatMap fun k =>
    (List.range 1024).map fun i => k * 1024 + i
where
  /-- Ascending order. -/
  sortNat (l : List Nat) : List Nat := l.foldl ins []
  /-- Insertion in ascending order. -/
  ins : List Nat → Nat → List Nat
    | [], a => [a]
    | b :: t, a => if a < b then a :: b :: t else b :: ins t a

/-- The bucket that takes the next entry of a chain: its last one while it has room, else an overflow bucket of the same
unit's pool, linked to it (R160). -/
def bucketRoom (s : State) (x : Index) (c : Copy) (b : Nat) : Option (Nat × Copy × State) :=
  let chain := chainOf s c b
  match chain.getLast? with
  | none => none
  | some ma =>
    if fld (readMa s ma 32) 24 1 < 64 then some (ma, c, s)
    else
      let u := unitOfMa ma
      let us := unitSet s
      let used := Tab.get 0 c.overflow u
      if 16 ≤ chain.length ∨ overflowPool x ((us.findIdx? (· == u)).getD 0) us.length ≤ used then none
      else
        (takeOnUnit s x c u).map fun r =>
          let t := storeMa r.2.2 r.1 (bucketHeader 0 NEVER 0 0 0 chain.length b)
          let h := readMa t ma 32
          (r.1, { r.2.1 with overflow := Tab.set 0 r.2.1.overflow u (used + 1) },
           storeMa t ma (h.take 16 ++ leBytes 8 r.1 ++ h.drop 24))

/-! ## Item counts and statistics -/

/-- Every item of a copy. -/
def allItems (s : State) (x : Index) (c : Copy) : List Item := if x.kind = 3 then hashItems s c else copyItems s x c

/-- Items in all indexes of the device (R131). -/
def deviceItems (s : State) : Nat :=
  (s.indexes.map fun p => (([p.2.primary, p.2.mirror].filterMap id).map fun c => (allItems s p.2 c).length).foldl
    (· + ·) 0).foldl (· + ·) 0

/-- The order key of a numeric field by its type (R156). -/
def orderKey (ty v : Nat) : Nat :=
  match ty with
  | 2 => v ^^^ 0x80000000
  | 3 => distKey v
  | _ => v

/-- Add one to a counter of a table, saturating at 64 bits. -/
def bump (t : Tab Nat) (k : Nat) : Tab Nat := Tab.insert t k (satAdd 64 (Tab.get 0 t k) 1)

/-- The time bucket of an item (Table: Statistics snapshot). -/
def timeBucket (x : Index) (time : Nat) : Nat :=
  if time < x.timeOrigin then 0 else min 255 ((time - x.timeOrigin) / 2 ^ x.timeShift)

/-- Count one visible item into a snapshot. -/
def countItem (x : Index) (sn : Snapshot) (it : Item) : Snapshot :=
  if x.attributes then
    let tags := (List.range 64).foldl (fun t b => if bit (fld it.attrs 0 8) b then bump t b else t) sn.tags
    let hist := (List.range 4).foldl (fun t f =>
      bump t (f * 256 + orderKey (x.attrType f) (fld it.attrs (8 + 4 * f) 4) / 2 ^ 24)) sn.hist
    { sn with tags := tags, hist := hist, times := bump sn.times (timeBucket x (fld it.attrs 24 8)) }
  else sn

/-- Snapshot `num` of a copy: a function of its items (R157). -/
def takeSnapshot (s : State) (x : Index) (c : Copy) (num : Nat) : Snapshot :=
  let e := num * 2 ^ x.statsLog
  let all := allItems s x c
  let vis := all.filter fun it => visibleAt it.ins it.del e
  vis.foldl (countItem x) ⟨num, vis.length, (all.filter fun it => decide (it.del ≤ e)).length, [], [], []⟩

/-- The layout of a snapshot (Table: Statistics snapshot, 10,816 bytes). -/
def snapshotBytes (x : Index) (sn : Snapshot) : List Byte :=
  leBytes 8 (sn.num * 2 ^ x.statsLog) ++ leBytes 8 sn.live ++ leBytes 8 sn.tombstones ++ zeros 40 ++
    ((List.range 64).flatMap fun t => leBytes 8 (Tab.get 0 sn.tags t)) ++
    ((List.range 1024).flatMap fun h => leBytes 8 (Tab.get 0 sn.hist h)) ++
    ((List.range 256).flatMap fun h => leBytes 8 (Tab.get 0 sn.times h))

/-- Counter by counter with saturation (R184). -/
def addTab (a b : Tab Nat) : Tab Nat := b.foldl (fun t p => Tab.insert t p.1 (satAdd 64 (Tab.get 0 t p.1) p.2)) a

/-- The sum of two snapshots of one number (R184). -/
def addSnapshot (a b : Snapshot) : Snapshot :=
  { num := a.num, live := satAdd 64 a.live b.live, tombstones := satAdd 64 a.tombstones b.tombstones,
    tags := addTab a.tags b.tags, hist := addTab a.hist b.hist, times := addTab a.times b.times }

end Sys2Proof.Machine
end

