-- ==== Sys2Proof/Machine/Select.lean ====
section
/-!
DEFINITION. Selection, ordering and merging (07): sort keys, the walk that removes duplicates, value keys of tensor
elements, jack passes, and the counts of a merge.
-/

namespace Sys2Proof.Machine

/-! ## Order -/

/-- Insert in ascending order of a key, after equal keys. -/
def insertOn {α : Type} (key : α → Nat) (a : α) : List α → List α
  | [] => [a]
  | b :: t => if key a < key b then a :: b :: t else b :: insertOn key a t

/-- Stable ascending order of a key. -/
def sortOn {α : Type} (key : α → Nat) (l : List α) : List α := l.foldl (fun r a => insertOn key a r) []

/-- The 96-bit sort key of a query entry (R199). -/
def entryKey (e : Entry) : Nat := e.dist * 2 ^ 64 + e.ordinal

/-- The sort key of a list in the coarse ranking (R199). -/
def listKey (score list : Nat) : Nat := distKey score * 2 ^ 64 + list

/-- The walk of R209 over candidates in key order: the kept ones. -/
def keepDistinct {α : Type} (ident : α → Nat) (l : List α) : List α :=
  (l.foldl (fun (r : List α × List Nat) a =>
    if r.2.contains (ident a) then r else (a :: r.1, ident a :: r.2)) ([], [])).1.reverse

/-- Kept entries of a set of candidates (R209). -/
def keptEntries (l : List Entry) : List Entry := keepDistinct (·.ident) (sortOn entryKey l)

/-- Kept entries after place k whose distance is that of place k (R213). -/
def tiesAfter {α : Type} (dist : α → Nat) (l : List α) (k : Nat) : Nat :=
  match (l.take k).getLast?, decide (k ≤ l.length) with
  | some a, true => ((l.drop k).filter fun b => dist b == dist a).length
  | _, _ => 0

/-! ## Tensor keys (R201) -/

/-- Element formats of TOPK (Table: TOPK element formats): the format, none for INT32. -/
def topkFmt : Nat → Option Fmt
  | 1 => some .e4m3
  | 2 => some .bf16
  | 3 => some .fp16
  | 4 => some .fp32
  | 5 => some .e5m2
  | 6 => some .int8
  | _ => none

/-- Bytes of an element. -/
def topkWidth (f : Nat) : Nat := match topkFmt f with | some x => x.width / 8 | none => 4

/-- Whether a format code is one of the table's. -/
def topkKnown (f : Nat) : Bool := decide (1 ≤ f) && decide (f ≤ 7)

/-- Whether an element code is NaN. -/
def elementNaN (f c : Nat) : Bool := match topkFmt f with | some x => (x.decode c).isNaN | none => false

/-- The key of an FP32 bit pattern without the fold of −0 (R201). -/
def floatKey (c : Nat) : Nat := if c.testBit 31 then 0xFFFFFFFF - c else c ||| 0x80000000

/-- The value key of an element (R201). -/
def valueKey (f c : Nat) (descending : Bool) : Nat :=
  if elementNaN f c then 0xFFC00000
  else
    let up := match topkFmt f with
      | some .int8 => ofSigned 32 (toSigned 8 c) ^^^ 0x80000000
      | some x => floatKey (convert .fp32 (x.decode c)).1
      | none => c % 2 ^ 32 ^^^ 0x80000000
    if descending then 0xFFFFFFFF - up else up

/-- The canonical NaN of a float element, the element's own bits otherwise (R220). -/
def elementOut (f c : Nat) : Nat :=
  if elementNaN f c then (match topkFmt f with | some x => x.canonicalNaN | none => c) else c

/-- The elements of a row with their index, in key order (R199, R207). -/
def rankRow (f : Nat) (descending : Bool) (row : List Nat) : List (Nat × Nat) :=
  sortOn (fun p => valueKey f p.1 descending * 2 ^ 64 + p.2) row.zipIdx

/-- The tie count of a row at place k (R213). -/
def rowTies (f : Nat) (descending : Bool) (ranked : List (Nat × Nat)) (k : Nat) : Nat :=
  tiesAfter (fun p => valueKey f p.1 descending) ranked k

/-! ## Jack passes (R202, R206) -/

/-- One record competes for the keep. -/
def keepRecord (dedup : Bool) (kept : List Nat) (floor : Option Nat) (depth : Nat) (keep : List JackRec) (r : JackRec) :
    List JackRec :=
  let below := match floor with | some f => decide (r.key ≤ f) | none => false
  if below || (dedup && kept.contains r.ident) then keep
  else
    let rival := if dedup then keep.find? (·.ident == r.ident) else none
    match rival with
    | some q =>
      if r.key < q.key then (insertOn (·.key) r (keep.filter (· != q))).take (min 64 depth) else keep
    | none => (insertOn (·.key) r keep).take (min 64 depth)

/-- One pass over the input (R202). -/
def jackPass (dedup : Bool) (kept : List Nat) (floor : Option Nat) (depth : Nat) (input : List JackRec) : List JackRec :=
  input.foldl (keepRecord dedup kept floor depth) []

/-! ## Merges of device lists (R217, R218) -/

/-- The latest device list of each shard, in ascending shard number (R217, R218). -/
def latestLists (ls : List DeviceList) : List DeviceList :=
  sortOn (·.shard) (ls.foldl (fun r l => r.filter (·.shard != l.shard) ++ [l]) [])

/-- The entries of the merge of device lists, in key order (R218). -/
def mergedEntries (ls : List DeviceList) : List DLEntry :=
  keepDistinct (·.e.ident) (sortOn (fun d => entryKey d.e) ((latestLists ls).flatMap (·.entries)))

/-- The tie count of a merge at place k: listed entries after it at its distance, and tail_ties of each FULL list that
ends there (R218). -/
def mergeTies (ls : List DeviceList) (k : Nat) : Nat :=
  let m := mergedEntries ls
  match (m.take k).getLast?, decide (k ≤ m.length) with
  | some a, true =>
    let d := a.e.dist
    let tails := ((latestLists ls).filter fun l => decide (l.entries.length = l.kDev) &&
      ((l.entries.getLast?).map (·.e.dist)) == some d).map (·.tailTies)
    satAdd 32 (((m.drop k).filter fun b => b.e.dist == d).length) (tails.foldl (· + ·) 0)
  | _, _ => 0

end Sys2Proof.Machine
end

