-- ==== Sys2Proof/Machine/Graph.lean ====
section
/-!
DEFINITION. Model programs as graphs (R98 to R110): tensors, the operator set of R107, and its sequences of R108. The
layout of a container's IO descriptors, attributes and schedule is not stated; the graph that a container holds is an
opaque constant (DESIGN CHOICE, assumption 32).
-/

namespace Sys2Proof.Machine

/-- The element of a tensor: a format, an MX form of a format, an integer or a Boolean (R107). -/
inductive Elem where
  | fmt (f : Fmt)
  | mx (f : Fmt)
  | int32 | int64 | bool
  deriving DecidableEq, Repr

/-- A tensor descriptor: its element, its dimensions, and whether axis 0 is the dynamic one (R98, R99). -/
structure TensorDesc where
  elem : Elem
  dims : List Nat
  batched : Bool
  deriving DecidableEq, Repr

/-- The operators of Table: Operator set with their attributes. -/
inductive GOp where
  | matMul
  | gemm (transA transB : Bool) (alpha beta : Nat)
  | conv (kernel stride dilation pads : List Nat) (groups : Nat)
  | add | sub | mul | div | sqrt | max | min | abs | neg | clip
  | equal | less | greater | where_ | not | and | or
  | exp | log | tanh | erf | sigmoid
  | relu | leakyRelu (alpha : Nat)
  | gelu (tanhForm : Bool)
  | softmax (axis : Nat)
  | layerNorm (axis eps : Nat) | rmsNorm (axis eps : Nat) | lpNorm (axis : Nat)
  | reduceSum (axes : List Nat) | reduceMean (axes : List Nat) | reduceSumSquare (axes : List Nat)
  | reduceMax (axes : List Nat) | reduceMin (axes : List Nat) | reduceProd (axes : List Nat)
  | argMax (axis : Nat) | argMin (axis : Nat)
  | topK (axis : Nat) (largest : Bool)
  | gather (axis : Nat)
  | reshape | transpose (perm : List Nat) | concat (axis : Nat) | slice (starts steps : List Int) | expand | identity
  | cast | quantize (axis : Option Nat) | dequantize (axis : Option Nat)
  | dropout
  deriving DecidableEq, Repr

/-- An operator record: the operator, its input and output tensors. -/
structure GNode where
  op : GOp
  ins : List Nat
  outs : List Nat
  deriving DecidableEq, Repr

/-- A program's graph: descriptors of all tensors, inputs first, then outputs, then internal ones; constants with their
stored bytes; operators in execution order. -/
structure Graph where
  tensors : List TensorDesc
  inputs : Nat
  outputs : Nat
  consts : List (Nat × List Byte)
  nodes : List GNode
  deriving DecidableEq, Repr, Inhabited

end Sys2Proof.Machine

namespace Sys2Proof.Config

/-- The index of the first operator record of a container that is refused, an attribute or shape beyond its limit among
them (R102, R109; DESIGN CHOICE, assumption 32). -/
opaque programRefused : List Byte → Option Nat

/-- The graph in a container that is not refused (DESIGN CHOICE, assumption 32). -/
opaque programGraph : List Byte → Machine.Graph

/-- The quotient of an integer division by 0 in a program, which the spec does not state (DESIGN CHOICE, assumption 32). -/
opaque intDivZero : Int → Int

end Sys2Proof.Config
end

