-- ==== Sys2Proof/Machine/ModelOps.lean ====
section
/-!
DEFINITION. The meaning of a model program's operators (R92, R93, R107, R108, R110) and of one invocation.
-/

namespace Sys2Proof.Machine

/-- A tensor: its descriptor's element and dimensions, and its values in row-major order. -/
structure Tensor where
  elem : Elem
  dims : List Nat
  vals : List Val
  deriving DecidableEq, Repr

/-! ## Indices -/

/-- Product of dimensions. -/
def volume (dims : List Nat) : Nat := dims.foldl (· * ·) 1

/-- The multi-index of a position in row-major order. -/
def unravel : List Nat → Nat → List Nat
  | [], _ => []
  | _ :: t, n => n / volume t :: unravel t (n % volume t)

/-- The position of a multi-index. -/
def ravel : List Nat → List Nat → Nat
  | d :: t, i :: u => i % max 1 d * volume t + ravel t u
  | _, _ => 0

/-- The value at a multi-index. -/
def Tensor.at_ (x : Tensor) (idx : List Nat) : Val := x.vals.getD (ravel x.dims idx) Val.zero

/-- The value at a multi-index under ONNX broadcasting: axes are aligned at the last, an axis of 1 repeats. -/
def Tensor.bcast (x : Tensor) (idx : List Nat) : Val :=
  let i := idx.drop (idx.length - x.dims.length)
  x.at_ (List.zipWith (fun k d => if d = 1 then 0 else k) i x.dims)

/-- Every multi-index of dimensions. -/
def indices (dims : List Nat) : List (List Nat) := (List.range (volume dims)).map (unravel dims)

/-- Multi-indices of the slice through an output index along some axes; the reduced axes keep place 1 in the output. -/
def sliceAlong (dims axes idx : List Nat) : List (List Nat) :=
  let span := dims.zipIdx.map fun (d, a) => if axes.contains a then d else 1
  (indices span).map fun j => List.zipWith (fun p q => p + q) (idx.zipIdx.map fun (k, a) => if axes.contains a then 0 else k) j

/-! ## Values and rounding -/

/-- Bits of an element code. -/
def Elem.width : Elem → Nat
  | .fmt f => f.width
  | .mx f => f.width
  | .int32 => 32
  | .int64 => 64
  | .bool => 8

/-- Bytes of a stored tensor: its packed elements, then with MX its scale plane (R31; DESIGN CHOICE, assumption 32). -/
def Elem.bytes (e : Elem) (n : Nat) : Nat := cdiv (n * e.width) 8 + (match e with | .mx _ => cdiv n 32 | _ => 0)

/-- Whether an element takes integer arithmetic (R107). -/
def Elem.isInt : Elem → Bool
  | .int32 => true
  | .int64 => true
  | .fmt f => f == .int4 || f == .int8
  | _ => false

/-- Values of a stored tensor. -/
def loadTensor (e : Elem) (n : Nat) (l : List Byte) : List Val :=
  match e with
  | .fmt f => (List.range n).map fun i => f.decode (f.elem l i)
  | .mx f =>
    let plane := l.drop (cdiv (n * f.width) 8)
    (List.range n).map fun i => mxValue f (fld plane (i / 32) 1) (f.elem l i)
  | .int32 => (List.range n).map fun i => .ofInt (toSigned 32 (fld l (4 * i) 4))
  | .int64 => (List.range n).map fun i => .ofInt (toSigned 64 (fld l (8 * i) 8))
  | .bool => (List.range n).map fun i => .ofInt (fld l i 1 : Nat)

end Sys2Proof.Machine

namespace Sys2Proof

/-- The integer that a value stands for. -/
def Val.toInt : Val → Int
  | .fin s n d => (if s then -1 else 1) * ((n / Nat.max 1 d : Nat) : Int)
  | _ => 0

end Sys2Proof

namespace Sys2Proof.Machine

/-- The bytes of a tensor as it is stored. -/
def storeTensor (e : Elem) (vs : List Val) : List Byte :=
  match e with
  | .fmt f => f.pack (vs.map fun v => (convert f v).1)
  | .mx f =>
    let blocks := (List.range (cdiv vs.length 32)).map fun b => mxBlock f ((vs.drop (32 * b)).take 32)
    f.pack (blocks.flatMap fun b => b.2.1) ++ blocks.flatMap fun b => leBytes 1 b.1
  | .int32 => vs.flatMap fun v => leBytes 4 (ofSigned 32 v.toInt)
  | .int64 => vs.flatMap fun v => leBytes 8 (ofSigned 64 v.toInt)
  | .bool => vs.flatMap fun v => leBytes 1 (b2n (!v.isZero))

/-- The rounding of a value to an element, with its arith_status. -/
def roundElem (e : Elem) (v : Val) : Val × Nat :=
  match e with
  | .fmt f => let c := convert f v; (f.decode c.1, c.2)
  | .mx _ => (v, 0)
  | .int32 => let c := convertInt 32 v; (.ofInt (toSigned 32 c.1), c.2)
  | .int64 => let c := convertInt 64 v; (.ofInt (toSigned 64 c.1), c.2)
  | .bool => (.ofInt (b2n (!v.isZero) : Nat), 0)

/-- A tensor from exact values with the arith_status of forming them; each takes one rounding to the element, an MX block
its own (R32, R33). -/
def finish (e : Elem) (dims : List Nat) (vs : List (Val × Nat)) : Tensor × Nat :=
  let st := vs.foldl (fun a v => a ||| v.2) 0
  match e with
  | .mx f =>
    let blocks := (List.range (cdiv vs.length 32)).map fun b => mxBlock f (((vs.drop (32 * b)).take 32).map Prod.fst)
    (⟨e, dims, blocks.flatMap fun b => b.2.1.map (mxValue f b.1)⟩, blocks.foldl (fun a b => a ||| b.2.2) st)
  | _ =>
    let rs := vs.map fun v => roundElem e v.1
    (⟨e, dims, rs.map Prod.fst⟩, rs.foldl (fun a r => a ||| r.2) st)

/-- A long accumulator's sum with its status (R40, R42). -/
def accValue (a : LAcc) : Val × Nat := (a.value, a.status)

/-- One FP32 rounding of a value with its status carried on. -/
def r32 (v : Val × Nat) : Val × Nat := let c := round32 v.1; (f32 c.1, v.2 ||| c.2)

/-- Apply a function on FP32 bit patterns. -/
def via32 (f : Nat → Coded) (v : Val × Nat) : Val × Nat := let c := f (round32 v.1).1; (f32 c.1, v.2 ||| c.2)

/-- A value with no status. -/
def pure_ (v : Val) : Val × Nat := (v, 0)

/-- A binary FP32 step: exact, then one rounding. -/
def op32 (f : Val → Val → Val) (a b : Val × Nat) : Val × Nat := r32 (f a.1 b.1, a.2 ||| b.2)

/-! ## Array operators (R92) -/

/-- The addends of an inner product: element products, or block terms of 32 where an operand is MX (R39). -/
def dotAddends (mx : Bool) (a b : List Val) : List Val :=
  let ps := List.zipWith Val.mul a b
  if mx then (List.range (cdiv ps.length 32)).map fun i => ((ps.drop (32 * i)).take 32).foldl Val.add Val.zero
  else ps

/-- Whether a tensor holds MX blocks. -/
def Tensor.isMx (x : Tensor) : Bool := match x.elem with | .mx _ => true | _ => false

/-- A tensor seen as a stack of matrices: leading dimensions, rows, columns. -/
def matDims (x : Tensor) (left : Bool) : List Nat × Nat × Nat :=
  match x.dims.reverse with
  | [] => ([], 1, 1)
  | [k] => if left then ([], 1, k) else ([], k, 1)
  | n :: m :: t => (t.reverse, m, n)

/-- MatMul with ONNX batch broadcasting, one rounding per element. -/
def matMulVals (a b : Tensor) : List (Val × Nat) :=
  let (la, m, k) := matDims a true
  let (lb, _, n) := matDims b false
  let lead := if la.length < lb.length then lb else la
  let lead := lead.zipIdx.map fun (d, i) =>
    max d (max ((la.drop (la.length - lead.length + i)).headD 1) ((lb.drop (lb.length - lead.length + i)).headD 1))
  let a' : Tensor := { a with dims := la ++ [m, k] }
  let b' : Tensor := { b with dims := lb ++ [k, n] }
  (indices lead).flatMap fun l => (List.range m).flatMap fun i => (List.range n).map fun j =>
    accValue (LAcc.sum (dotAddends (a.isMx || b.isMx) ((List.range k).map fun p => a'.bcast (l ++ [i, p]))
      ((List.range k).map fun p => b'.bcast (l ++ [p, j]))))

/-- A matrix transposed. -/
def matT (x : Tensor) : Tensor :=
  match x.dims with
  | [m, n] => { x with dims := [n, m], vals := (indices [n, m]).map fun i => x.at_ i.reverse }
  | _ => x

/-- Gemm: one rounding of alpha × X + Y, X the exact sum of A × B and Y the exact beta × C (R108). -/
def gemmVals (alpha beta : Nat) (a b : Tensor) (c : Option Tensor) (dims : List Nat) : List (Val × Nat) :=
  ((indices dims).zip (matMulVals a b)).map fun (i, x) =>
    let y := match c with | some t => (f32 beta).mul (t.bcast i) | none => Val.zero
    (((f32 alpha).mul x.1).add y, x.2)

/-- Conv, 1-D or 2-D (R107): sums over the channels of a group and the kernel, zero padding outside. -/
def convVals (kernel stride dilation pads : List Nat) (groups : Nat) (x w : Tensor) (bias : Option Tensor)
    (dims : List Nat) : List (Val × Nat) :=
  let cg := w.dims.getD 1 1
  let mg := (w.dims.getD 0 1) / max 1 groups
  (indices dims).map fun o =>
    let n := o.getD 0 0
    let oc := o.getD 1 0
    let pos := o.drop 2
    let taps := (List.range cg).flatMap fun c => (indices kernel).map fun k => (c, k)
    let prods := taps.map fun (c, k) =>
      let at_ := (pos.zipIdx.map fun (p, a) => (p * stride.getD a 1 + k.getD a 0 * dilation.getD a 1, pads.getD a 0))
      let inside := (at_.zip (x.dims.drop 2)).all fun (q, d) => decide (q.2 ≤ q.1) && decide (q.1 - q.2 < d)
      let v := if inside then x.at_ ([n, oc / max 1 mg * cg + c] ++ at_.map fun q => q.1 - q.2) else Val.zero
      (v, w.at_ ([oc, c] ++ k))
    let b := match bias with | some t => [t.at_ [oc]] | none => []
    accValue (LAcc.sum (dotAddends (x.isMx || w.isMx) (prods.map Prod.fst) (prods.map Prod.snd) ++ b))

/-! ## Vector operators -/

/-- Integer quotient, truncated toward zero; by 0 it is unstated. -/
def intDiv (a b : Val) : Val := if b.toInt = 0 then .ofInt (Config.intDivZero a.toInt) else .ofInt (a.toInt.tdiv b.toInt)

/-- A Boolean as a value. -/
def ofBool (b : Bool) : Val := .ofInt (b2n b : Nat)

/-- Elementwise result of an operator on its broadcast operands: integers exactly, floats with one FP32 rounding (R107). -/
def elementwise (isInt : Bool) (op : GOp) (xs : List Val) : Option (Val × Nat) :=
  let a := xs.getD 0 Val.zero
  let b := xs.getD 1 Val.zero
  let out := fun v : Val => if isInt then pure_ v else r32 (pure_ v)
  match op with
  | .add => some (out (a.add b))
  | .sub => some (out (a.sub b))
  | .mul => some (out (a.mul b))
  | .div => some (if isInt then pure_ (intDiv a b) else r32 (pure_ (a.div b)))
  | .sqrt => some (via32 sqrt32 (pure_ a))
  | .max => some (out (xs.tail.foldl Val.max a))
  | .min => some (out (xs.tail.foldl Val.min a))
  | .abs => some (out a.abs)
  | .neg => some (out a.negate)
  | .clip =>
    let lo := match xs[1]? with | some l => a.max l | none => a
    some (out (match xs[2]? with | some h => lo.min h | none => lo))
  | .equal => some (pure_ (ofBool (!a.isNaN && !b.isNaN && !a.numLt b && !b.numLt a)))
  | .less => some (pure_ (ofBool (a.numLt b)))
  | .greater => some (pure_ (ofBool (b.numLt a)))
  | .where_ => some (pure_ (if a.isZero then xs.getD 2 Val.zero else b))
  | .not => some (pure_ (ofBool a.isZero))
  | .and => some (pure_ (ofBool (!a.isZero && !b.isZero)))
  | .or => some (pure_ (ofBool (!a.isZero || !b.isZero)))
  | .exp => some (via32 exp32 (pure_ a))
  | .log => some (via32 log32 (pure_ a))
  | .tanh => some (via32 tanh32 (pure_ a))
  | .erf => some (via32 erf32 (pure_ a))
  | .sigmoid => some (via32 sigmoid32 (pure_ a))
  | .relu => some (out (a.max Val.zero))
  | .leakyRelu al => some (if a.numLt Val.zero then r32 (pure_ (a.mul (f32 al))) else out a)
  | .gelu false =>
    let x := r32 (pure_ a)
    let c := op32 Val.add (pure_ Val.one) (via32 erf32 (op32 Val.mul x (pure_ (f32 0x3F3504F3))))
    some (r32 (((f32 0x3F000000).mul x.1).mul c.1, c.2 ||| x.2))
  | .gelu true =>
    let x := r32 (pure_ a)
    let q := op32 Val.mul (op32 Val.mul x x) x
    let u := (LAcc.sum [x.1, (f32 0x3D372713).mul q.1]).read .fp32
    let t := via32 tanh32 (r32 ((f32 0x3F4C422A).mul (f32 u.1), q.2 ||| u.2))
    let c := op32 Val.add (pure_ Val.one) t
    some (r32 (((f32 0x3F000000).mul x.1).mul c.1, c.2 ||| x.2))
  | _ => none

/-- The rows of a tensor along one axis or the last axes, each with the multi-indices of its elements. -/
def rowsAlong (dims axes : List Nat) : List (List (List Nat)) :=
  let outer := dims.zipIdx.map fun (d, a) => if axes.contains a then 1 else d
  (indices outer).map (sliceAlong dims axes)

/-- Put the results of rows back into row-major order. -/
def scatter (dims : List Nat) (rows : List (List (List Nat × (Val × Nat)))) : List (Val × Nat) :=
  let all := rows.flatten
  (indices dims).map fun i => ((all.find? (·.1 == i)).map (·.2)).getD (pure_ Val.zero)

/-- Softmax of a row (R108). -/
def softmaxRow (x : List Val) : List (Val × Nat) :=
  let m := x.foldl Val.max (.inf true)
  if m = .inf true then x.map fun _ => (.nan, ARITH_NAN)
  else
    let e := x.map fun v => via32 exp32 (op32 Val.sub (pure_ v) (pure_ m))
    let s := (LAcc.sum (e.map Prod.fst)).read .fp32
    e.map fun v => op32 Val.div v (f32 s.1, s.2)

/-- An exact sum divided by a count, one rounding. -/
def meanOf (l : List Val) (n : Nat) : Val × Nat :=
  let a := LAcc.sum l
  r32 (a.value.div (.ofInt (n : Int)), a.status)

/-- LayerNormalization of a row with its scale and bias (R108). -/
def layerNormRow (eps : Nat) (x g b : List Val) : List (Val × Nat) :=
  let n := x.length
  let mu := meanOf x n
  let d := x.map fun v => op32 Val.sub (pure_ v) mu
  let v := meanOf (d.map fun y => y.1.mul y.1) n
  let r := via32 sqrt32 (op32 Val.add v (pure_ (f32 eps)))
  (List.range n).map fun i =>
    let q := op32 Val.div (d.getD i (pure_ Val.zero)) r
    let c := (LAcc.sum [q.1.mul (g.getD i Val.one), b.getD i Val.zero]).read .fp32
    (f32 c.1, q.2 ||| c.2)

/-- RMSNormalization of a row with its scale (R108). -/
def rmsNormRow (eps : Nat) (x g : List Val) : List (Val × Nat) :=
  let v := meanOf (x.map fun y => y.mul y) x.length
  let r := via32 sqrt32 (op32 Val.add v (pure_ (f32 eps)))
  (List.range x.length).map fun i =>
    op32 Val.mul (op32 Val.div (pure_ (x.getD i Val.zero)) r) (pure_ (g.getD i Val.one))

/-- LpNormalization of a row, p = 2; a norm of 0 gives 0 (R108). -/
def lpNormRow (x : List Val) : List (Val × Nat) :=
  let s := (LAcc.sum (x.map fun y => y.mul y)).read .fp32
  let r := via32 sqrt32 (f32 s.1, s.2)
  x.map fun v => if r.1.isZero then (Val.zero, r.2) else op32 Val.div (pure_ v) r

/-- The reduction of a row to one value (R107, R44). -/
def reduceRow (op : GOp) (x : List Val) : Option (Val × Nat) :=
  match op with
  | .reduceSum _ => some (accValue (LAcc.sum x))
  | .reduceMean _ => some (let a := LAcc.sum x; (a.value.div (.ofInt (x.length : Int)), a.status))
  | .reduceSumSquare _ => some (accValue (LAcc.sum (x.map fun v => v.mul v)))
  | .reduceMax _ => some (pure_ (x.tail.foldl Val.max (x.headD Val.zero)))
  | .reduceMin _ => some (pure_ (x.tail.foldl Val.min (x.headD Val.zero)))
  | .reduceProd _ => some (canonicalTree (op32 Val.mul) (pure_ Val.one) (x.map pure_))
  | .argMax _ => some (pure_ (.ofInt (argmax x : Nat)))
  | .argMin _ => some (pure_ (.ofInt (argmin x : Nat)))
  | _ => none

/-- The axes that a reduction removes. -/
def reduceAxes : GOp → List Nat
  | .reduceSum a => a | .reduceMean a => a | .reduceSumSquare a => a | .reduceMax a => a | .reduceMin a => a
  | .reduceProd a => a | .argMax a => [a] | .argMin a => [a] | _ => []

/-- The key by which TopK ranks a value (R201): floats by their FP32 pattern, integers by value. -/
def rankKey (isInt largest : Bool) (v : Val) : Nat :=
  if v.isNaN then 0xFFC00000
  else
    let up := if isInt then (v.toInt + 2 ^ 63).toNat else floatKey (round32 v).1
    if largest then (if isInt then 2 ^ 64 - 1 else 0xFFFFFFFF) - up else up

/-- TopK of a row: the places of its k best elements in key order (R207, R221). -/
def topkRow (isInt largest : Bool) (x : List Val) (k : Nat) : List Nat :=
  ((sortOn (fun p : Val × Nat => rankKey isInt largest p.1 * 2 ^ 32 + p.2) x.zipIdx).take k).map Prod.snd

/-- A quantisation parameter of the position: one for the tensor, or one along an axis (R107). -/
def paramAt (t : Option Tensor) (axis : Option Nat) (idx : List Nat) (d : Val) : Val :=
  match t with
  | none => d
  | some x => match axis with
    | some a => x.vals.getD (idx.getD a 0) d
    | none => x.vals.getD 0 d

/-- Gather index `i` of an axis of `d` elements; none outside it; negative counts from the end (R110). -/
def gatherAt (i : Int) (d : Nat) : Option Nat :=
  let j := if i < 0 then i + (d : Int) else i
  if 0 ≤ j ∧ j < (d : Int) then some j.toNat else none

/-- Operators that move elements: where the output element at an index comes from; none where a Gather index is outside
its axis. -/
def moveFrom (op : GOp) (xs : List Tensor) (dims idx : List Nat) : Option (Option Val) :=
  let x := xs.getD 0 ⟨.bool, [], []⟩
  match op with
  | .reshape => some (some (x.vals.getD (ravel dims idx) Val.zero))
  | .identity => some (some (x.vals.getD (ravel dims idx) Val.zero))
  | .dropout => some (some (x.vals.getD (ravel dims idx) Val.zero))
  | .cast => some (some (x.vals.getD (ravel dims idx) Val.zero))
  | .expand => some (some (x.bcast idx))
  | .transpose p => some (some (x.at_ ((List.range x.dims.length).map fun a => idx.getD (p.findIdx (· == a)) 0)))
  | .slice starts steps => some (some (x.at_ (idx.zipIdx.map fun (k, a) =>
      (starts.getD a 0 + (k : Int) * steps.getD a 1).toNat)))
  | .concat axis =>
    let rec go : List Tensor → Nat → Val
      | [], _ => Val.zero
      | t :: ts, k => if k < t.dims.getD axis 0 then t.at_ (setAt idx axis k) else go ts (k - t.dims.getD axis 0)
    some (some (go xs (idx.getD axis 0)))
  | .gather axis =>
    let ix := xs.getD 1 ⟨.bool, [], []⟩
    let mid := (idx.drop axis).take ix.dims.length
    some ((gatherAt (ix.at_ mid).toInt (x.dims.getD axis 1)).map fun k =>
      x.at_ (idx.take axis ++ [k] ++ idx.drop (axis + ix.dims.length)))
  | _ => none

/-- What an operator yields: exact values for each output; none where a Gather index is outside its axis (R110). -/
def runOp (op : GOp) (xs : List Tensor) (outs : List TensorDesc) : Option (List (List (Val × Nat))) :=
  let x := xs.getD 0 ⟨.bool, [], []⟩
  let y := xs.getD 1 ⟨.bool, [], []⟩
  let dims := (outs.headD ⟨.bool, [], false⟩).dims
  let one := fun vs : List (Val × Nat) => some [vs]
  match op with
  | .matMul => one (matMulVals x y)
  | .gemm ta tb al be => one (gemmVals al be (if ta then matT x else x) (if tb then matT y else y) xs[2]? dims)
  | .conv k st dl pd g => one (convVals k st dl pd g x y xs[2]? dims)
  | .softmax a => one (scatter x.dims ((rowsAlong x.dims [a]).map fun r => r.zip (softmaxRow (r.map x.at_))))
  | .layerNorm a eps =>
    let axes := (List.range x.dims.length).drop a
    let b := (xs.getD 2 ⟨.bool, [], []⟩).vals
    one (scatter x.dims ((rowsAlong x.dims axes).map fun r => r.zip (layerNormRow eps (r.map x.at_) y.vals b)))
  | .rmsNorm a eps =>
    let axes := (List.range x.dims.length).drop a
    one (scatter x.dims ((rowsAlong x.dims axes).map fun r => r.zip (rmsNormRow eps (r.map x.at_) y.vals)))
  | .lpNorm a => one (scatter x.dims ((rowsAlong x.dims [a]).map fun r => r.zip (lpNormRow (r.map x.at_))))
  | .topK a largest =>
    let k := dims.getD a 0
    let rows := (rowsAlong x.dims [a]).map fun r =>
      let v := r.map x.at_
      (topkRow x.elem.isInt largest v k).zipIdx.map fun (p, j) =>
        (setAt (r.headD []) a j, pure_ (v.getD p Val.zero), pure_ (.ofInt (p : Nat)))
    some [scatter dims (rows.map fun r => r.map fun e => (e.1, e.2.1)),
          scatter dims (rows.map fun r => r.map fun e => (e.1, e.2.2))]
  | .quantize axis => one ((indices dims).map fun i =>
      pure_ (((x.at_ i).div (paramAt (some y) axis i Val.one)).add (paramAt xs[2]? axis i Val.zero)))
  | .dequantize axis => one ((indices dims).map fun i =>
      pure_ (((x.at_ i).sub (paramAt xs[2]? axis i Val.zero)).mul (paramAt (some y) axis i Val.one)))
  | op =>
    if !(reduceAxes op).isEmpty then
      one ((rowsAlong x.dims (reduceAxes op)).filterMap fun r => reduceRow op (r.map x.at_))
    else
      match moveFrom op xs dims (List.replicate dims.length 0) with
      | some _ =>
        let vs := (indices dims).map fun i => (moveFrom op xs dims i).getD none
        if vs.any (·.isNone) then none else one (vs.map fun v => pure_ (v.getD Val.zero))
      | none => one ((indices dims).map fun i =>
          (elementwise x.elem.isInt op (xs.map fun t => t.bcast i)).getD (pure_ Val.zero))

/-! ## One invocation (R106) -/

/-- A descriptor with the dynamic axis at a batch. -/
def TensorDesc.atBatch (d : TensorDesc) (batch : Nat) : TensorDesc :=
  if d.batched then { d with dims := batch :: d.dims.tail } else d

/-- Bytes of a tensor at a batch. -/
def TensorDesc.size (d : TensorDesc) (batch : Nat) : Nat := d.elem.bytes (volume (d.atBatch batch).dims)

/-- Bytes that a program's inputs, or outputs, take at a batch. -/
def Graph.inBytes (g : Graph) (batch : Nat) : Nat := ((g.tensors.take g.inputs).map (·.size batch)).foldl (· + ·) 0
def Graph.outBytes (g : Graph) (batch : Nat) : Nat :=
  (((g.tensors.drop g.inputs).take g.outputs).map (·.size batch)).foldl (· + ·) 0

/-- Inputs cut from a buffer, one after another. -/
def cutInputs (batch : Nat) : Nat → List TensorDesc → List Byte → List (Nat × Tensor)
  | _, [], _ => []
  | i, d :: t, l =>
    let e := d.atBatch batch
    (i, ⟨e.elem, e.dims, loadTensor e.elem (volume e.dims) l⟩) :: cutInputs batch (i + 1) t (l.drop (d.size batch))

/-- The tensor of a number. -/
def tensorOf (env : List (Nat × Tensor)) (i : Nat) : Tensor :=
  ((env.find? (·.1 == i)).map (·.2)).getD ⟨.bool, [], []⟩

/-- Run the operators in order: tensors so far and arith_status; none where a Gather index is outside its axis. -/
def runNodes (g : Graph) (batch : Nat) : List GNode → List (Nat × Tensor) → Nat → Option (List (Nat × Tensor) × Nat)
  | [], env, st => some (env, st)
  | n :: t, env, st =>
    let descs := n.outs.map fun o => (g.tensors.getD o ⟨.bool, [], false⟩).atBatch batch
    match runOp n.op (n.ins.map (tensorOf env)) descs with
    | none => none
    | some vs =>
      let outs := (descs.zip vs).map fun (d, v) => finish d.elem d.dims v
      runNodes g batch t ((n.outs.zip (outs.map Prod.fst)) ++ env) (outs.foldl (fun a o => a ||| o.2) st)

/-- One invocation: output bytes and arith_status; none where it fails (R106, R110). -/
def runGraph (g : Graph) (batch : Nat) (input : List Byte) : Option (List Byte × Nat) :=
  let consts := g.consts.map fun (i, l) =>
    let d := (g.tensors.getD i ⟨.bool, [], false⟩).atBatch batch
    (i, (⟨d.elem, d.dims, loadTensor d.elem (volume d.dims) l⟩ : Tensor))
  (runNodes g batch g.nodes (cutInputs batch 0 (g.tensors.take g.inputs) input ++ consts) 0).map fun (env, st) =>
    (((List.range g.outputs).flatMap fun i => let x := tensorOf env (g.inputs + i); storeTensor x.elem x.vals), st)

end Sys2Proof.Machine
end

