-- ==== Sys2Proof/Machine/Programs.lean ====
section
/-!
DEFINITION. Model programs (R98 to R105): the container's checks in the order of Table: Load rejection reasons,
residency sets, and the three commands.
-/

namespace Sys2Proof.Machine

/-! ## The container -/

def pTotal (l : List Byte) : Nat := fld l 24 8
def pResident (l : List Byte) : Nat := fld l 32 4
def pSections (l : List Byte) : Nat := fld l 12 4
def pSigned (l : List Byte) : Bool := bit (fld l 10 2) 0
def pStreams (l : List Byte) : Bool := bit (fld l 10 2) 1
def pIdent (l : List Byte) : Nat := fld l 16 8
def pDigest (l : List Byte) : Nat := beNat (slice l 64 48)
def pMaxBatch (l : List Byte) : Nat := fld l 46 4

/-- A section entry (Table: Section entry): type, RESIDENT, offset, size. -/
structure PSection where
  ty : Nat
  flags : Nat
  off : Nat
  size : Nat
  reserved : Bool
  deriving DecidableEq, Repr

/-- The section table (R99). -/
def pTable (l : List Byte) : List PSection :=
  (List.range (min 64 (pSections l))).map fun i =>
    let b := 128 + 32 * i
    ⟨fld l b 2, fld l (b + 2) 2, fld l (b + 8) 8, fld l (b + 16) 8, zeroAt l (b + 4) 4 && zeroAt l (b + 24) 8⟩

/-- Sections of a type. -/
def countTy (t : List PSection) (ty : Nat) : Nat := (t.filter fun e => e.ty == ty).length

/-- Whether no two sections overlap. -/
def disjointSections : List PSection → Bool
  | [] => true
  | e :: t => (t.all fun f => decide (e.off + e.size ≤ f.off) || decide (f.off + f.size ≤ e.off)) && disjointSections t

/-- Whether the sections keep R99. -/
def sectionsOk (l : List Byte) : Bool :=
  let t := pTable l
  decide (3 ≤ pSections l) && decide (pSections l ≤ 64) &&
  (t.all fun e => e.reserved && decide (1 ≤ e.ty) && decide (e.ty ≤ 7) && decide (e.flags < 2) && e.off % 64 == 0 &&
    decide (128 + 32 * t.length ≤ e.off) && decide (e.off + e.size ≤ pTotal l)) && disjointSections t &&
  countTy t 1 == 1 && countTy t 2 == 1 && countTy t 5 == 1 && decide (countTy t 4 ≤ 1) &&
  countTy t 6 == b2n (pSigned l) &&
  (t.all fun e => e.ty != 6 || (e.size == 104 && e.off + 104 == pTotal l))

/-- The bytes that body_digest covers (Table: Model program container header). -/
def bodyOf (l : List Byte) : List Byte := (l.take (if pSigned l then pTotal l - 104 else pTotal l)).drop 128

/-- Whether the signature holds under a program key of the image (R99, R102). -/
def programSigned (s : State) (l : List Byte) : Bool :=
  if pSigned l then
    let sec := slice l (pTotal l - 104) 104
    match s.boot.settings.programKeys.find? fun k => k.ident == fld sec 0 8 with
    | some k => Config.ecdsaVerify k.point (Config.sha384 (l.take 128)) (sec.drop 8)
    | none => false
  else !s.boot.settings.requireSigned

/-- Bytes of the non-resident weights (R104). -/
def streamedBytes (l : List Byte) : Nat :=
  ((pTable l).filter fun e => e.ty == 3 && !bit e.flags 0).foldl (fun a e => a + e.size) 0

/-! ## Residency -/

def getGaffer (s : State) (e : Nat) : Gaffer := Tab.get resetGaffer s.hub.gaffers e

def putGaffer (s : State) (e : Nat) (g : Gaffer) : State :=
  { s with hub := { s.hub with gaffers := if g = resetGaffer then Tab.erase s.hub.gaffers e else Tab.insert s.hub.gaffers e g } }

/-- Whether an engine in service can give `n` pages and keep 4 WORK pages (R94). -/
def engineRoom (s : State) (n e : Nat) : Bool :=
  !scoreRetired s 3 e && decide (n + 4 ≤ ((getGaffer s e).pages.filter (· == 0)).length)

/-- The engines of a residency set of `k`: the lowest with room (R95). -/
def pickEngines (s : State) (k n : Nat) : List Nat := ((List.range 128).filter (engineRoom s n)).take k

/-- Change the class of the first `n` pages of a class. -/
def reclass (src dst : Nat) : Nat → List Nat → List Nat
  | _, [] => []
  | 0, l => l
  | n + 1, p :: t => if p = src then dst :: reclass src dst n t else p :: reclass src dst (n + 1) t

/-- Give, or take back, PROGRAM pages on engines (R94). -/
def setPages (s : State) (src dst n : Nat) (es : List Nat) : State :=
  es.foldl (fun t e => putGaffer t e { getGaffer t e with pages := reclass src dst n (getGaffer t e).pages }) s

/-! ## Handles -/

/-- The next object handle: one more than the last given, never 0xFFFF_FFFF or 0 (DESIGN CHOICE, assumption 33). -/
def freshHandle (s : State) : Nat := if 0xFFFFFFFE ≤ s.nextHandle then 1 else s.nextHandle + 1

def getProgram (s : State) (h : Nat) : Option Program := (s.hub.programs.find? (·.1 == h)).map (·.2)

def putProgram (s : State) (h : Nat) (p : Program) : State :=
  { s with hub := { s.hub with programs := Tab.insert s.hub.programs h p } }

/-- Free a closing program without references, and complete its tickets (R105). -/
def settleProgram (s : State) (h : Nat) : State :=
  match getProgram s h with
  | some p =>
    if p.closing ∧ p.refs = 0 then
      let t := { s with hub := { s.hub with programs := Tab.erase s.hub.programs h } }
      let t := setPages t 1 0 (pResident p.header / 65536) p.engines
      let t := match p.weightsAt with | some b => freePages t b | none => t
      finishAll t p.unloadTickets stOk []
    else s
  | none => s

/-- Take, or release, a reference to a program (R105). -/
def refProgram (s : State) (h : Nat) (up : Bool) : State :=
  match getProgram s h with
  | some p => settleProgram (putProgram s h { p with refs := if up then p.refs + 1 else p.refs - 1 }) h
  | none => s

/-! ## PROGRAM_LOAD -/

/-- PROGRAM_LOAD's result (Table: PROGRAM_LOAD result). -/
def loadResult (handle reason engines opIndex : Nat) : List Byte :=
  leBytes 4 handle ++ leBytes 2 reason ++ leBytes 2 engines ++ leBytes 4 opIndex ++ zeros 4

/-- A rejection of a container: status and result. -/
def loadReject (st reason opIndex : Nat) (s : State) : Nat × List Byte × State :=
  (st, loadResult 0xFFFFFFFF reason 0 opIndex, s)

/-- Checks FORMAT to OPERATOR of R102: status, reason and op_index at the first that fails (DEDUCED, assumption 65). -/
def containerCheck (s : State) (bytes : Nat) (l : List Byte) : Option (Nat × Nat × Nat) :=
  if !(fld l 0 4 == 0x43504D51 && fld l 4 2 == 1 && fld l 6 2 == 128 && decide (fld l 10 2 < 4) && zeroAt l 52 12 &&
      zeroAt l 112 16) then some (stBadParam, 1, 0)
  else if fld l 8 2 ≠ 1 then some (stBadParam, 2, 0)
  else if pTotal l ≠ bytes ∨ 2 ^ 32 < pTotal l then some (stBadParam, 3, 0)
  else if Config.sha384 (bodyOf l) ≠ pDigest l then some (stBadParam, 4, 0)
  else if !programSigned s l then some (stNoAuth, 5, 0)
  else if !sectionsOk l then some (stBadParam, 6, 0)
  else match Config.programRefused l with
    | some i => some (stBadParam, 7, i)
    | none =>
      if decide (1 ≤ fld l 40 2) && decide (1 ≤ fld l 42 2) && decide (fld l 42 2 ≤ 16) && decide (1 ≤ fld l 44 2) &&
          decide (fld l 44 2 ≤ 16) && decide (1 ≤ pMaxBatch l) && decide (pMaxBatch l ≤ 65536) then none
      else some (stBadParam, 7, 0)

/-- Programs of a workspace that are not closing and carry a program_id. -/
def sameProgram (s : State) (ws ident : Nat) : Option (Nat × Program) :=
  s.hub.programs.find? fun p => p.2.ws == ws && !p.2.closing && pIdent p.2.header == ident

/-- Load a container that has passed every check but RESOURCES (R95, R102, R104). -/
def placeProgram (ws want : Nat) (l : List Byte) (s : State) : Nat × List Byte × State :=
  let emin := fld l 36 2
  let emax := fld l 38 2
  let k := if want = 0 then emin else want
  let pages := pResident l / 65536
  let es := pickEngines s k pages
  let wpages := cdiv (streamedBytes l) 65536
  let okSize := pResident l % 65536 == 0 && decide (pages ≤ 28) && decide (1 ≤ emin) && decide (emin ≤ emax) &&
    decide (emax ≤ 128) && decide (emin ≤ k) && decide (k ≤ emax) && es.length == k
  let room := decide (s.hub.programs.length < 256) && roomFor s ws 1 (·.programs) && roomFor s ws wpages (·.windowPages)
  let win := if wpages = 0 then some (none, s) else (allocWindow s ws 2 wpages).map fun r => (some r.1, r.2)
  match okSize && room, win with
  | true, some (at_, t) =>
    let h := freshHandle s
    let t := setPages { t with nextHandle := h } 0 1 pages es
    (stOk, loadResult h 0 k 0, putProgram t h ⟨ws, l.take 128, l, 1, false, es, 0, 0, [], at_⟩)
  | _, _ => loadReject stQuota 8 0 s

/-- The outcome of a load: status, result and state (R102, R103). -/
def loadProgram (ws bytes want : Nat) (l : List Byte) (s : State) : Nat × List Byte × State :=
  match containerCheck s bytes l with
  | some (st, reason, i) => loadReject st reason i s
  | none =>
    match sameProgram s ws (pIdent l) with
    | some (h, p) =>
      if pDigest p.header = pDigest l then
        (stOk, loadResult h 0 p.engines.length 0, putProgram s h { p with loads := p.loads + 1 })
      else
        let r := placeProgram ws want l s
        if r.1 = stOk then loadReject stBadParam 9 0 s else r
    | none => placeProgram ws want l s

/-- PROGRAM_LOAD's answer (R101): the load runs when the ticket is issued and its DONE message carries the outcome. -/
def programLoad (c : Ctx) (s : State) : Answer × State :=
  let d := c.data
  let dpa := fld d 0 8
  let n := fld d 8 8
  let r := loadProgram c.ws n (fld d 16 2) (readBytes s.mem dpa n) s
  checked [(zeroAt d 18 14 && dpa % 256 == 0 && decide (dpa < 2 ^ 41) && decide (n ≤ 2 ^ 32) && bufferOk s c.ws dpa n &&
      !poisonIn s.mem dpa n, stBadParam)]
    (.issue stPending (doneWork c [] r.1 r.2.1), r.2.2) s

/-- PROGRAM_LOAD (R101 to R103). -/
def execProgramLoad (m : MsgSrc) (s : State) : Host.Outcome State Fault Refusal :=
  serve ⟨0x340, .own, false, true, some 32⟩ m programLoad s

/-- PROGRAM_UNLOAD's answer: the last unload closes the handle, and its ticket completes once it is freed (R103,
R105). -/
def programUnload (c : Ctx) (s : State) : Answer × State :=
  let h := fld c.data 0 4
  match zeroAt c.data 4 4, getProgram s h with
  | true, some p =>
    if p.ws ≠ c.ws then refuse stNoAuth s
    else if p.closing then refuse stBadParam s
    else if 1 < p.loads then
      (.issue stPending (doneWork c [h] stOk []), putProgram s h { p with loads := p.loads - 1 })
    else
      (.issue stPending (work c [h]),
       putProgram s h { p with loads := 0, closing := true, unloadTickets := p.unloadTickets ++ [c.ticket] })
  | _, _ => refuse stBadParam s

/-- PROGRAM_UNLOAD (R105). A handle without references is freed when its ticket completes. -/
def execProgramUnload (m : MsgSrc) (s : State) : Host.Outcome State Fault Refusal :=
  serve ⟨0x341, .own, false, true, some 8⟩ m programUnload s

/-- The end of PROGRAM_UNLOAD: the handle's pages are freed once no reference is left (R105). -/
def finishUnload (s : State) (k : Ticket) : Option (Nat × List Byte × State) :=
  let h := k.work.args.getD 0 0
  match getProgram s h with
  | some p => if p.closing ∧ p.refs = 0 then some (stOk, [], settleProgram s h) else none
  | none => some (stOk, [], s)

/-- Invocations of a program in flight: MODEL_RUN requests that have not passed COMPLETING (R105). -/
def inFlight (s : State) (h : Nat) : Nat := (s.hub.slots.filter fun p => p.2.kind == 9 && p.2.obj == h).length

/-- PROGRAM_INFO's answer (R101; DESIGN CHOICE, assumption 33). -/
def programInfo (c : Ctx) (s : State) : Answer × State :=
  let h := fld c.data 0 4
  match zeroAt c.data 4 4, getProgram s h with
  | true, some p =>
    if p.ws ≠ c.ws then refuse stNoAuth s
    else (.reply stOk (p.header.take 112 ++ leBytes 2 p.engines.length ++ zeros 2 ++ leBytes 4 (inFlight s h)), s)
  | _, _ => refuse stBadParam s

/-- PROGRAM_INFO (R101). -/
def execProgramInfo (m : MsgSrc) (s : State) : Host.Outcome State Fault Refusal :=
  serve ⟨0x342, .own, false, false, some 8⟩ m programInfo s

/-! ## Invocations -/

/-- One invocation of a loaded program (R106): output bytes and arith_status; none where it fails. -/
def invoke (p : Program) (batch : Nat) (input : List Byte) : Option (List Byte × Nat) :=
  runGraph (Config.programGraph p.container) batch input

end Sys2Proof.Machine
end

