-- ==== Sys2Proof/Machine/Roles.lean ====
section
/-!
DEFINITION. Roles of a device group (R498, R502) and the copies that a home device may choose (R182).
-/

namespace Sys2Proof.Machine

/-- The device of a member number; 0xFF names none (Table: Role map entry). -/
def memberDev (m : Membership) (n : Nat) : Option Nat := if n = 0xFF then none else m.members[n]?

/-- This device's member number of a group. -/
def ownMember (s : State) (gid : Nat) : Option Nat := (findGroup s gid).bind fun g => memberOf s g.mem

/-- The role map entry of a shard. -/
def roleOf (s : State) (gid shard : Nat) : Option Role := (findGroup s gid).bind fun g => g.mem.roles[shard]?

/-- S, the group's shard count (R174, R498). -/
def shardCount (s : State) (gid : Nat) : Nat := match findGroup s gid with | some g => g.mem.roles.length | none => 0

/-- Whether the role map names this device in a place of a shard's entry. -/
def holdsRole (s : State) (gid shard : Nat) (place : Role → Nat) : Bool :=
  match ownMember s gid, roleOf s gid shard with
  | some n, some r => place r == n
  | _, _ => false

/-- The device that holds a shard's primary role: until network time reaches effective_epoch, the holder before the membership
in force (R508). -/
def primaryDev (s : State) (gid shard : Nat) : Option Nat :=
  (findGroup s gid).bind fun g =>
    if net s < g.mem.effective ∧ g.prev.getD shard 0xFFFF ≠ 0xFFFF then g.prev[shard]?
    else (g.mem.roles[shard]?).bind fun r => memberDev g.mem r.primary

/-- The device that holds a shard's mirror role. -/
def mirrorDev (s : State) (gid shard : Nat) : Option Nat :=
  (findGroup s gid).bind fun g => (g.mem.roles[shard]?).bind fun r => memberDev g.mem r.mirror

/-- Copies of a shard that may serve: the holders of a WHOLE or DEGRADED shard, never the rebuild target (R182, R502);
each with whether it is the mirror. -/
def servers (s : State) (gid shard : Nat) (mirrored : Bool) : List (Nat × Bool) :=
  match findGroup s gid with
  | some g =>
    match g.mem.roles[shard]? with
    | some r =>
      if r.state ≤ 1 then
        ((memberDev g.mem r.primary).toList.map fun d => (d, false)) ++
          (if mirrored ∧ r.mirror ≠ r.target then (memberDev g.mem r.mirror).toList.map fun d => (d, true) else [])
      else []
    | none => []
  | none => []

/-- Sub-requests that this device awaits from a holder (R182). -/
def outstanding (s : State) (dev : Nat) : Nat :=
  (s.hub.slots.map fun p => (p.2.subs.filter fun x => x.device == dev).length).foldl (· + ·) 0

/-- Whether a holder is left out for what this device knows of it: itself, while it holds no lease or holds a poisoned
granule of the object (R182). -/
def ruledOut (s : State) (gid : Nat) (poisoned : Bool) (dev : Nat) : Bool :=
  dev == fabricDev s && (!leaseHeld s gid || poisoned)

/-- The copy that a sub-request goes to: of those not tried, the holder with the fewer outstanding, the primary on a tie
(R182). -/
def chooseCopy (s : State) (gid shard : Nat) (mirrored poisoned : Bool) (tried : List Nat) : Option (Nat × Bool) :=
  ((servers s gid shard mirrored).filter fun c => !tried.contains c.1 && !ruledOut s gid poisoned c.1).foldl (fun b c =>
    match b with
    | some a => if outstanding s c.1 < outstanding s a.1 then some c else b
    | none => some c) none

/-- Devices of a group. -/
def groupDevs (s : State) (gid : Nat) : List Nat := match findGroup s gid with | some g => g.mem.members | none => []

/-- Send a message to every other device of a group. -/
def tellGroup (s : State) (gid vc ws msg : Nat) (body : List Byte) : State :=
  ((groupDevs s gid).filter (· != fabricDev s)).foldl (fun t d => sendMsg t d vc ws msg body) s

/-- The device group of which this device is a member, and its role map, agree with a parameter block's shard, mirror shard
and MIRRORED flag (R134, R256). -/
def rolesAgree (s : State) (gid shard mirrorShard : Nat) (mirrored : Bool) : Bool :=
  (ownMember s gid).isSome && holdsRole s gid shard (·.primary) && (!mirrored || holdsRole s gid mirrorShard (·.mirror))

/-- The primary, or the mirror, shard that the role map in force gives this device; as given where it gives none. -/
def roleShard (s : State) (gid : Nat) (mirror : Bool) (given : Nat) : Nat :=
  match ownMember s gid, findGroup s gid with
  | some n, some g => (g.mem.roles.findIdx? fun r => (if mirror then r.mirror else r.primary) == n).getD given
  | _, _ => given

end Sys2Proof.Machine
end

