-- ==== Sys2Proof/Machine/Coarse.lean ====
section
/-!
DEFINITION. Scores and codes of an index (R124, R125, R138, R140, R142): coarse scores, sub-distances, lookup tables,
encoding of an item, and training.
-/

namespace Sys2Proof.Machine

/-- FP32 codes of a vector as values. -/
def vals32 (v : List Nat) : List Val := v.map f32

/-- The squared norm of a centroid, kept without read-out (R138). -/
def centroidNorm (f : Fmt) (c : List Nat) : LAcc := LAcc.sum (c.map fun x => let v := f.decode x; v.mul v)

/-- The coarse score of a vector against a centroid, read out once to FP32 (R124). -/
def coarseScore (metric : Nat) (q c : List Val) (norm : LAcc) : Coded :=
  let ps := List.zipWith Val.mul q c
  if metric = 0 then (norm.join (LAcc.sum (ps.map fun p => ((Val.ofInt 2).mul p).negate))).read .fp32
  else (LAcc.sum (ps.map Val.negate)).read .fp32

/-- Coarse scores of a vector against every centroid of an index. -/
def coarseScores (x : Index) (q : List Val) : List Coded :=
  List.zipWith (fun c n => coarseScore x.metric q (c.map x.centroidFmt.decode) n) x.centroids x.norms

/-- Lists in coarse rank (R183, R199), and the arith_status of their scores. -/
def rankLists (x : Index) (q : List Val) : List Nat × Nat :=
  let sc := coarseScores x q
  ((sortOn (fun p : Coded × Nat => listKey p.1.1 p.2) sc.zipIdx).map Prod.snd, sc.foldl (fun a c => a ||| c.2) 0)

/-- The exact squared L2 distance or negated inner product of a slice and a codeword, read out to FP32 (R36, R617). -/
def subDistance (metric : Nat) (q c : List Val) : Coded :=
  if metric = 0 then (exactL2 q c).read .fp32
  else (LAcc.sum ((List.zipWith Val.mul q c).map Val.negate)).read .fp32

/-- Slice m of a vector of an index. -/
def Index.slice_ (x : Index) (v : List Val) (m : Nat) : List Val := (v.drop (m * (x.dim / x.m))).take (x.dim / x.m)

/-- Sub-distances t[m][c] of a query (R36), with their arith_status. -/
def subDistances (x : Index) (q : List Val) : List (List Nat) × Nat :=
  let t : List (List Coded) := x.codebooks.zipIdx.map fun (b, m) =>
    b.map fun c => subDistance x.metric (x.slice_ q m) (c.map x.codebookFmt.decode)
  (t.map fun r => r.map Prod.fst, t.foldl (fun a r => r.foldl (fun a c => a ||| c.2) a) 0)

/-- QMAX of an index's table (R36). -/
def Index.qmax (x : Index) : Nat := if x.kind = 1 then 65535 else 255

/-- The lookup table of a query vector in codebook_format, with its arith_status (R36, R125). -/
def lookupTable (x : Index) (q : List Val) : List (List Nat) × Nat :=
  let t := subDistances x q
  let r := lutBuild x.qmax t.1
  (r.1, t.2 ||| r.2)

/-- The lookup distance of an item's codes (R36). -/
def codeDist (x : Index) (lut : List (List Nat)) (codes : List Byte) : Nat :=
  lookupDist (List.zipWith (fun row c => row.getD c 0) lut (codewords x codes))

/-- The query vector converted to a format (R165). -/
def convertVec (f : Fmt) (v : List Nat) : List Val × Nat :=
  let cs := v.map fun c => convert f (f32 c)
  (cs.map fun c => f.decode c.1, cs.foldl (fun a c => a ||| c.2) 0)

/-- A vector of stored elements as FP32 codes, an exact conversion (R107, R165). -/
def vector32 (f : Fmt) (dim : Nat) (l : List Byte) : List Nat :=
  (List.range dim).map fun i => (convert .fp32 (f.decode (f.elem l i))).1

/-- Whether a vector holds a NaN or an infinity. -/
def notFinite32 (v : List Nat) : Bool := v.any fun c => (f32 c).notFinite

/-! ## Encoding of an item (R142) -/

/-- The nearest list, by coarse score and then the lowest number. -/
def nearestList (x : Index) (v : List Val) : Nat := argmin ((coarseScores x v).map fun c => f32 c.1)

/-- Codewords of a vector: per subquantiser the nearest by exact squared L2 distance, the lowest on a tie. -/
def encodeItem (x : Index) (v : List Val) : List Nat :=
  x.codebooks.zipIdx.map fun (b, m) =>
    argmin (b.map fun c => f32 (subDistance 0 (x.slice_ v m) (c.map x.codebookFmt.decode)).1)

/-- Code bytes of codewords (R144). -/
def packCodes (x : Index) (cs : List Nat) : List Byte :=
  if x.kind = 2 then Fmt.int4.pack cs else cs.map fun c => BitVec.ofNat 8 c

/-! ## Training (R138) -/

/-- Assign each sample its best codeword by a score. -/
def assignAll (score : List Val → List Val → Val) (samples : List (List Val)) (cs : List (List Nat)) : List Nat :=
  samples.map fun v => argmin (cs.map fun c => score v (vals32 c))

/-- Means of the assigned samples; an empty codeword keeps its value. -/
def refit (samples : List (List Val)) (a : List Nat) (cs : List (List Nat)) : List (List Nat) :=
  cs.zipIdx.map fun (c, i) =>
    let mine := ((samples.zip a).filter fun p => p.2 == i).map Prod.fst
    if mine.isEmpty then c
    else c.zipIdx.map fun (_, j) =>
      (round32 ((LAcc.sum (mine.map fun v => v.getD j Val.zero)).value.div (.ofInt (mine.length : Int)))).1

/-- The loop of R138: codewords, iterations begun, and the samples whose codeword changed in the last one
(DEDUCED, assumption 57). -/
def trainLoop (score : List Val → List Val → Val) (samples : List (List Val)) :
    Nat → Nat → List Nat → List (List Nat) → List (List Nat) × Nat × Nat
  | 0, it, _, cs => (cs, it, 0)
  | n + 1, it, prev, cs =>
    let a := assignAll score samples cs
    let changed := if it = 0 then samples.length else ((a.zip prev).filter fun p => p.1 != p.2).length
    if 0 < it ∧ changed = 0 then (cs, it + 1, 0)
    else
      let r := trainLoop score samples n (it + 1) a (refit samples a cs)
      if n = 0 then (r.1, r.2.1, changed) else r

/-- Train a set of `k` codewords from samples held in FP32 codes (R138). -/
def trainSet (score : List Val → List Val → Val) (samples : List (List Nat)) (k iters : Nat) :
    List (List Nat) × Nat × Nat :=
  trainLoop score (samples.map vals32) iters 0 [] ((List.range k).map fun i => samples.getD (i * samples.length / max 1 k) [])

/-- The artefacts of an index trained from a sample: centroids, codebooks, and what the ticket's result reports (R138,
R139). -/
def trainIndex (x : Index) (samples : List (List Nat)) (itersC itersP : Nat) :
    List (List Nat) × List (List (List Nat)) × List Byte :=
  let score := fun v c => f32 (coarseScore x.metric v c (LAcc.sum (c.map fun y => y.mul y))).1
  let l2 := fun v c => f32 (subDistance 0 v c).1
  let c := trainSet score samples x.nlist itersC
  let books := (List.range x.m).map fun m =>
    trainSet l2 (samples.map fun v => (v.drop (m * (x.dim / x.m))).take (x.dim / x.m)) x.k itersP
  let put := fun (f : Fmt) (l : List (List Nat)) => l.map (·.map fun v => (convert f (f32 v)).1)
  (put x.centroidFmt c.1, books.map fun b => put x.codebookFmt b.1,
   leBytes 2 c.2.1 ++ leBytes 2 ((books.map fun b => b.2.1).foldl max 0) ++ leBytes 4 c.2.2 ++ zeros 8)

/-- Install artefacts in an index: centroids receive their norms (R138) (DESIGN CHOICE, assumption 55). -/
def Index.install (x : Index) (cs : List (List Nat)) (books : List (List (List Nat))) : Index :=
  { x with state := 2, centroids := cs, norms := cs.map (centroidNorm x.centroidFmt), codebooks := books }

/-! ## Artefact buffers (R140) -/

/-- Centroids and codebooks read from the layout of R140. -/
def readArtefacts (x : Index) (l : List Byte) : List (List Nat) × List (List (List Nat)) :=
  let w := x.dim / max 1 x.m
  let books := l.drop x.artefactA
  ((List.range x.nlist).map fun i => (List.range x.dim).map fun j => x.centroidFmt.elem l (i * x.dim + j),
   (List.range x.m).map fun m => (List.range x.k).map fun c => (List.range w).map fun j =>
     x.codebookFmt.elem books ((m * x.k + c) * w + j))

/-- The layout of R140. -/
def artefactLayout (x : Index) : List Byte :=
  slice (x.centroids.flatMap x.centroidFmt.pack) 0 x.artefactA ++ x.codebooks.flatMap fun b => b.flatMap x.codebookFmt.pack

/-- Whether an artefact holds a NaN or an infinity (R141). -/
def artefactsBad (x : Index) (a : List (List Nat) × List (List (List Nat))) : Bool :=
  (a.1.any fun c => c.any fun v => (x.centroidFmt.decode v).notFinite) ||
    a.2.any fun b => b.any fun c => c.any fun v => (x.codebookFmt.decode v).notFinite

end Sys2Proof.Machine
end

