-- ==== Sys2Proof/Machine/IndexCmd.lean ====
section
/-!
DEFINITION. The index commands (05, R173): creation, training, artefacts, statistics, pins and drop.
-/

namespace Sys2Proof.Machine

/-! ## Creation (R134) -/

/-- Subquantiser counts of a type (Table: Index types). -/
def mAllowed (kind m : Nat) : Bool :=
  if kind = 1 then [8, 16, 32, 48, 64, 96, 128].contains m
  else m % 16 == 0 && decide (16 ≤ m) && decide (m ≤ 256)

/-- Ranges of the fields of an IVF block. -/
def ivfFieldsOk (x : Index) (p : List Byte) : Bool :=
  let top := min 4096 x.nlist
  mAllowed x.kind x.m && decide (x.metric ≤ 1) && decide (fld p 11 1 ≤ (if x.m = 96 ∨ x.m = 128 then 0 else 1)) &&
    decide (8 ≤ x.dim) && decide (x.dim ≤ 4096) && x.dim % 8 == 0 && x.dim % x.m == 0 &&
    decide (1 ≤ x.nlist) && decide (x.nlist ≤ 2 ^ 22) && decide (1 ≤ x.nprobeDefault) && decide (x.nprobeDefault ≤ top) &&
    decide (x.nprobeDefault ≤ x.maxProbeDefault) && decide (x.maxProbeDefault ≤ top) && x.hashLog == 0 &&
    x.overflowBuckets == 0

/-- Ranges of the fields of a HASH block; it probes no list, and its two probe fields are not checked (DEDUCED, assumption 34). -/
def hashFieldsOk (x : Index) (p : List Byte) : Bool :=
  x.metric == 0 && fld p 11 1 == 0 && x.dim == 0 && x.m == 0 && x.nlist == 0 && decide (10 ≤ x.hashLog) &&
    decide (x.hashLog ≤ 26) && decide (x.overflowBuckets ≤ 2 ^ 24)

/-- Ranges of the fields of every block, and its Reserved bytes (Table: Index parameter block). -/
def commonFieldsOk (x : Index) (p : List Byte) : Bool :=
  decide (1 ≤ x.kind) && decide (x.kind ≤ 3) && decide (fld p 10 1 < 4) && decide (fld p 20 1 ≤ 1) && decide (fld p 21 1 ≤ 1) &&
    decide (fld p 22 1 ≤ 4) && decide (x.refineKind ≤ 2) && ((x.refineKind == 0) == (fld p 22 1 == 0)) &&
    decide (1 ≤ x.compactPercent) && decide (x.compactPercent ≤ 100) && decide (10 ≤ x.statsLog) && decide (x.statsLog ≤ 24) &&
    ((List.range 4).all fun i => decide (x.attrType i ≤ (if x.attributes then 3 else 0))) && decide (x.timeShift ≤ 56) &&
    zeroAt p 37 3 && decide (1 ≤ x.maxItems) && decide (x.maxItems ≤ 2 ^ 33) && decide (x.shard ≤ 65534) &&
    (if x.mirrored then decide (x.mirrorShard ≤ 65534) else x.mirrorShard == 0xFFFF) && zeroAt p 69 3 && zeroAt p 76 52

/-- Whether the transform program's shapes fit the index (R134). -/
def transformOk (s : State) (ws : Nat) (x : Index) : Bool :=
  x.transform == 0xFFFFFFFF ||
    match getProgram s x.transform with
    | some p =>
      let g := Config.programGraph p.container
      p.ws == ws && !p.closing && g.inputs == 1 && g.outputs == 1 &&
        (g.tensors.take 2).all fun d => volume (d.atBatch 1).dims == x.dim
    | none => false

/-- An index not yet on the device, from its parameter block. -/
def bareIndex (ws : Nat) (p : List Byte) : Index :=
  { ws := ws, params := p, state := 0, centroids := [], norms := [], codebooks := [], primary := none, mirror := none,
    groupSnaps := [], pins := [], refs := 0, lowEpochs := [], lowSentAt := 0, windowBase := 0, windowPages := 0,
    refineBase := 0, training := none, dropTickets := [], oldChunks := [] }

/-- Every check of the block but the issuer's right to HASH (R134). -/
def indexBlockOk (s : State) (ws : Nat) (p : List Byte) : Bool :=
  let x := bareIndex ws p
  commonFieldsOk x p && (if x.kind = 3 then hashFieldsOk x p else ivfFieldsOk x p) && (indexByKey s ws x.key).isNone &&
    rolesAgree s x.gid x.shard x.mirrorShard x.mirrored && transformOk s ws x

/-- Copies of shards that an index has on one device. -/
def Index.copies (x : Index) : Nat := 1 + b2n x.mirrored

/-- Bytes of one copy's refine store when it lies in the window (R153). -/
def Index.refineBytes (x : Index) : Nat :=
  if x.refineKind = 1 then x.maxItems * x.dim * ((x.vectorFmt.map Fmt.width).getD 0 / 8) else 0

/-- Bytes of the window structures that INDEX_CREATE reserves (R153, R162): artefacts, and per copy the directories sized
by nlist and max_items, or the bucket table; then the refine stores. -/
def Index.fixedBytes (x : Index) : Nat :=
  if x.kind = 3 then x.copies * 8 * 2 ^ x.hashLog
  else
    x.nlist * x.dim * (x.centroidFmt.width / 8) + x.nlist * 24 + x.m * x.k * (x.dim / x.m) * (x.codebookFmt.width / 8) +
      x.copies * (16 * x.nlist + 256 * cdiv (9 * x.maxItems) 128)

def Index.windowBytes (x : Index) : Nat := x.fixedBytes + x.copies * x.refineBytes

/-- A new copy of a shard. -/
def newCopy (shard : Nat) : Copy :=
  { shard := shard, frontier := 0, pLast := 0, nextSeq := 1, lists := [], ids := [], ords := [], flashVecs := [],
    snapshots := [], buckets := [], overflow := [], changes := [], regions := [], freePos := [], ordPages := [],
    noticeAt := 0, live := true }

/-- Place the primary buckets of a HASH copy: bucket i on unit i mod U (R158). -/
def placeBuckets (x : Index) (us : List Nat) : Nat → Nat → Copy → State → Option (Copy × State)
  | 0, _, c, s => some (c, s)
  | n + 1, i, c, s =>
    match takeOnUnit s x c (us.getD (i % max 1 us.length) 0) with
    | some (ma, d, t) =>
      placeBuckets x us n (i + 1) { d with buckets := d.buckets ++ [(i, ma)] } (storeMa t ma (bucketHeader 0 NEVER 0 0 0 0 i))
    | none => none

/-- A copy with what a HASH index needs at once. -/
def startCopy (s : State) (x : Index) (shard : Nat) : Option (Copy × State) :=
  if x.kind = 3 then placeBuckets x (unitSet s) (2 ^ x.hashLog) 0 (newCopy shard) s else some (newCopy shard, s)

/-- Stream owner number of a copy of an index. -/
def copyOwner (idx : Nat) (mirror : Bool) : Nat := 2 * idx + b2n mirror

/-- Create the streams of a copy where a group can take them (R465); one that cannot be made now is made at its first
write. -/
def copyStreams (s : State) (x : Index) (idx : Nat) (mirror : Bool) : State :=
  let mk := fun (t : State) (kind : Nat) => match createStream t kind x.ws (copyOwner idx mirror) x.gid with
    | some r => r.2.2
    | none => t
  let t := mk s 3
  if x.refineKind = 2 then mk t 5 else t

/-- The lowest index number not in use. -/
def freeIndex (s : State) : Nat := ((List.range 1024).find? fun i => (getIndex s i).isNone).getD 1024

/-- Allocate an index: window structures, copies and streams; none where something does not fit (R130, R162). -/
def buildIndex (s : State) (ws : Nat) (p : List Byte) : Option (Nat × State) :=
  let x := bareIndex ws p
  let idx := freeIndex s
  let pages := max 1 (cdiv x.windowBytes 65536)
  let room := decide (s.indexes.length < 1024) && roomFor s ws 1 (·.indexes) && roomFor s ws pages (·.windowPages) &&
    (x.kind != 3 || decide ((s.indexes.filter fun i => i.2.kind == 3).length < 16))
  if !room then none
  else
    (allocWindow s ws 2 pages).bind fun r =>
      (startCopy r.2 x x.shard).bind fun a =>
        let rest : Option (Option Copy × State) :=
          if x.mirrored then (startCopy a.2 x x.mirrorShard).map fun b => (some b.1, b.2) else some (none, a.2)
        rest.map fun b =>
          let y := { x with
            state := if x.kind = 3 then 2 else 0
            primary := some a.1
            mirror := b.1
            windowBase := r.1
            windowPages := pages
            refineBase := r.1 * 65536 + x.fixedBytes }
          let t := copyStreams (putIndex b.2 idx y) y idx false
          let t := if x.mirrored then copyStreams t y idx true else t
          (idx, if x.transform = 0xFFFFFFFF then t else refProgram t x.transform true)

/-- Whether a workspace is privileged (R311). -/
def privileged (s : State) (ws : Nat) : Bool := ws == 0 || bit (getWs s ws).wflags 0

/-- INDEX_CREATE's answer. -/
def indexCreate (c : Ctx) (s : State) : Answer × State :=
  checked [(indexBlockOk s c.ws c.data, stBadParam), (fld c.data 8 1 != 3 || privileged s c.ws, stNoAuth)]
    (match buildIndex s c.ws c.data with
      | some (i, t) => (.issue stPending (doneWork c [i] stOk (leBytes 2 i ++ zeros 6)), t)
      | none => refuse stQuota s) s

/-- INDEX_CREATE (R134). -/
def execIndexCreate (m : MsgSrc) (s : State) : Host.Outcome State Fault Refusal :=
  serve ⟨0x301, .own, false, true, some 128⟩ m indexCreate s

/-! ## Drop (R137) -/

/-- Free the marver regions and ordinal-map pages of a copy. -/
def freeCopy (s : State) (c : Copy) : State :=
  (c.regions.map Prod.fst ++ c.ordPages.map Prod.snd).foldl freePages s

/-- Free table spill pages on units where no chunk of an index of M 96 or 128 is left (R151). -/
def dropSpills (s : State) : State :=
  let wide := (s.indexes.filter fun p => spillPages p.2 != 0).flatMap fun p =>
    (([p.2.primary, p.2.mirror].filterMap id).flatMap fun c => c.regions.map fun r => unitOfMa (maOfPage s r.1))
  let keep := fun r : OwnRun => !(r.ws == 0 && r.kind == 1 && r.pages == 2 && decide (windowPages s ≤ r.base)) ||
    wide.contains (unitOfMa (maOfPage s r.base))
  { s with guard := { s.guard with owners := s.guard.owners.filter keep } }

/-- Free everything that an index holds (R137). -/
def removeIndex (s : State) (idx : Nat) : State :=
  match getIndex s idx with
  | none => s
  | some x =>
    let t := { s with indexes := Tab.erase s.indexes idx }
    let t := ([x.primary, x.mirror].filterMap id).foldl freeCopy (freePages t x.windowBase)
    let t := deleteStreams t fun st => (st.kind == 3 || st.kind == 5) && st.ws == x.ws &&
      (st.owner == copyOwner idx false || st.owner == copyOwner idx true)
    let t := { t with flash := { t.flash with pinned := t.flash.pinned.filter fun p => !(p.1 == x.ws && p.2.1 == x.key) } }
    let t := if x.transform = 0xFFFFFFFF then t else refProgram t x.transform false
    dropSpills t

/-- A DROPPING index without references is freed, and its drop tickets complete (R137). -/
def settleIndex (s : State) (idx : Nat) : State :=
  match getIndex s idx with
  | some x => if x.state = 3 ∧ x.refs = 0 then finishAll (removeIndex s idx) x.dropTickets stOk [] else s
  | none => s

/-- Take, or release, a reference to an index (R137). -/
def refIndex (s : State) (idx : Nat) (up : Bool) : State :=
  match getIndex s idx with
  | some x => settleIndex (putIndex s idx { x with refs := if up then x.refs + 1 else x.refs - 1 }) idx
  | none => s

/-- Move an index to DROPPING; a training in progress stops, its ticket cancelled (R137). -/
def dropIndex (s : State) (idx : Nat) (ts : List TicketRef) : State :=
  match getIndex s idx with
  | some x =>
    let t := putIndex s idx { x with state := 3, training := none, dropTickets := x.dropTickets ++ ts }
    match x.training with | some k => finishTicket t k stCancelled [] | none => t
  | none => s

/-- The index that a command names, with its checks: an index of the issuer's workspace (R133). -/
def withIndex (c : Ctx) (s : State) (idx : Nat) (f : Index → Answer × State) : Answer × State :=
  match getIndex s idx with
  | some x => if x.ws ≠ c.ws then refuse stNoAuth s else f x
  | none => refuse stBadParam s

/-- INDEX_DROP's answer (DEDUCED, assumption 64). -/
def indexDrop (c : Ctx) (s : State) : Answer × State :=
  if !zeroAt c.data 2 6 then refuse stBadParam s
  else withIndex c s (fld c.data 0 2) fun _ =>
    (.issue stPending (work c [fld c.data 0 2]), dropIndex s (fld c.data 0 2) [c.ticket])

/-- INDEX_DROP (R137). -/
def execIndexDrop (m : MsgSrc) (s : State) : Host.Outcome State Fault Refusal :=
  serve ⟨0x302, .own, false, true, some 8⟩ m indexDrop s

/-- The end of INDEX_DROP: the last reference is released (R137). -/
def finishDrop (s : State) (k : Ticket) : Option (Nat × List Byte × State) :=
  let idx := k.work.args.getD 0 0
  match getIndex s idx with
  | some x => if x.state = 3 ∧ x.refs = 0 then some (stOk, [], settleIndex s idx) else none
  | none => some (stOk, [], s)

/-! ## INDEX_INFO (R620) -/

/-- The oldest epoch that a primary copy has assigned and not yet applied. -/
def oldestPending (c : Copy) : Option Nat :=
  ((c.changes.filter fun x => x.epoch != 0 && !x.primaryDone).map (·.epoch)).foldl (fun b e =>
    match b with | some a => some (min a e) | none => some e) none

/-- The applied frontier A of a copy (R170). -/
def copyFrontier (s : State) (c : Copy) (mirror : Bool) : Nat :=
  let top := if mirror then c.frontier else net s - 1
  let pend := if mirror then ((c.changes.filter fun x => !x.mirrorDone).map (·.epoch)).foldl (fun b e =>
      match b with | some a => some (min a e) | none => some e) none
    else oldestPending c
  match pend with | some e => min top (e - 1) | none => top

/-- Items of a copy that are visible at its frontier; its tombstones; its latest snapshot's epoch. -/
def copyCounts (s : State) (x : Index) (mirror : Bool) : Nat × Nat × Nat :=
  match x.role mirror with
  | some c =>
    let l := allItems s x c
    ((l.filter fun it => visibleAt it.ins it.del (copyFrontier s c mirror)).length,
     (l.filter fun it => it.del != NEVER).length,
     ((c.snapshots.getLast?).map fun n => n.num * 2 ^ x.statsLog).getD 0)
  | none => (0, 0, 0)

/-- Table: INDEX_INFO result. -/
def indexRecord (s : State) (x : Index) : List Byte :=
  let p := copyCounts s x false
  let q := copyCounts s x true
  x.params.take 56 ++ leBytes 2 (roleShard s x.gid false x.shard) ++
    leBytes 2 (if x.mirrored then roleShard s x.gid true x.mirrorShard else 0xFFFF) ++ slice x.params 60 68 ++
    leBytes 1 x.state ++ leBytes 1 (b2n x.primary.isSome + 2 * b2n x.mirror.isSome) ++ zeros 6 ++
    leBytes 8 p.1 ++ leBytes 8 p.2.1 ++ leBytes 8 q.1 ++ leBytes 8 q.2.1 ++ leBytes 8 p.2.2 ++ leBytes 8 q.2.2 ++ zeros 8

/-- INDEX_INFO's answer. -/
def indexInfo (c : Ctx) (s : State) : Answer × State :=
  if !zeroAt c.data 2 6 then refuse stBadParam s
  else withIndex c s (fld c.data 0 2) fun x => (.reply stOk (indexRecord s x), s)

/-- INDEX_INFO (R620). -/
def execIndexInfo (m : MsgSrc) (s : State) : Host.Outcome State Fault Refusal :=
  serve ⟨0x303, .own, false, false, some 8⟩ m indexInfo s

/-! ## Training and artefacts (R136 to R141) -/

/-- INDEX_TRAIN's answer: the index is TRAINING until the ticket's end (R136). -/
def indexTrain (c : Ctx) (s : State) : Answer × State :=
  let d := c.data
  let n := fld d 8 4
  withIndex c s (fld d 16 2) fun x =>
    let w := ((vecFmt (fld d 12 1)).map Fmt.width).getD 0 / 8
    checked [(zeroAt d 15 1 && zeroAt d 18 14 && (vecFmt (fld d 12 1)).isSome && decide (fld d 13 1 ≤ 64) &&
        decide (fld d 14 1 ≤ 64) && decide (max x.nlist x.k ≤ n) && decide (n ≤ 2 ^ 24) && fld d 0 8 % 256 == 0 &&
        decide (fld d 0 8 < 2 ^ 41) && bufferOk s c.ws (fld d 0 8) (n * x.dim * w), stBadParam), (x.state == 0, stBadParam)]
      (.issue stPending (work c [fld d 16 2]), putIndex s (fld d 16 2) { x with state := 1, training := some c.ticket }) s

/-- INDEX_TRAIN (R138). -/
def execIndexTrain (m : MsgSrc) (s : State) : Host.Outcome State Fault Refusal :=
  serve ⟨0x304, .own, false, true, some 32⟩ m indexTrain s

/-- The end of INDEX_TRAIN: artefacts and norms, or a failure that returns the index to CREATED (R136, R138, R139). -/
def finishTrain (s : State) (k : Ticket) : Option (Nat × List Byte × State) :=
  let d := k.work.payload
  let idx := k.work.args.getD 0 0
  match getIndex s idx, vecFmt (fld d 12 1) with
  | some x, some f =>
    let n := fld d 8 4
    let len := n * x.dim * (f.width / 8)
    let l := readBytes s.mem (fld d 0 8) len
    let samples := (List.range n).map fun i => vector32 f x.dim (l.drop (i * x.dim * (f.width / 8)))
    if poisonIn s.mem (fld d 0 8) len ∨ samples.any notFinite32 then
      some (stBadParam, [], putIndex s idx { x with state := 0, training := none })
    else
      let pick := fun v => if v = 0 then 20 else v
      let r := trainIndex x samples (pick (fld d 13 1)) (pick (fld d 14 1))
      some (stOk, r.2.2, putIndex s idx { x.install r.1 r.2.1 with training := none })
  | _, _ => none

/-- INDEX_IMPORT's answer. -/
def indexImport (c : Ctx) (s : State) : Answer × State :=
  let d := c.data
  withIndex c s (fld d 16 2) fun x =>
    checked [(zeroAt d 18 14 && fld d 8 8 == x.artefactBytes && decide (fld d 0 8 < 2 ^ 41) &&
        bufferOk s c.ws (fld d 0 8) (fld d 8 8), stBadParam), (x.state == 0, stBadParam)]
      (.issue stPending (work c [fld d 16 2]), putIndex s (fld d 16 2) { x with state := 1, training := some c.ticket }) s

/-- INDEX_IMPORT (R141). -/
def execIndexImport (m : MsgSrc) (s : State) : Host.Outcome State Fault Refusal :=
  serve ⟨0x305, .own, false, true, some 32⟩ m indexImport s

/-- The end of INDEX_IMPORT (R136, R138, R141). -/
def finishImport (s : State) (k : Ticket) : Option (Nat × List Byte × State) :=
  let d := k.work.payload
  let idx := k.work.args.getD 0 0
  match getIndex s idx with
  | some x =>
    let a := readArtefacts x (readBytes s.mem (fld d 0 8) (fld d 8 8))
    if poisonIn s.mem (fld d 0 8) (fld d 8 8) ∨ artefactsBad x a then
      some (stBadParam, [], putIndex s idx { x with state := 0, training := none })
    else some (stOk, [], putIndex s idx { x.install a.1 a.2 with training := none })
  | none => none

/-- INDEX_EXPORT's answer. -/
def indexExport (c : Ctx) (s : State) : Answer × State :=
  let d := c.data
  withIndex c s (fld d 16 2) fun x =>
    checked [(zeroAt d 18 14 && decide (x.artefactBytes ≤ fld d 8 8) && decide (fld d 0 8 < 2 ^ 41) &&
        bufferOk s c.ws (fld d 0 8) (fld d 8 8) && x.kind != 3, stBadParam), (x.state == 2, stBadParam)]
      (.issue stPending (work c [fld d 16 2]), s) s

/-- INDEX_EXPORT (R141). -/
def execIndexExport (m : MsgSrc) (s : State) : Host.Outcome State Fault Refusal :=
  serve ⟨0x306, .own, false, true, some 32⟩ m indexExport s

/-- The end of INDEX_EXPORT: the layout of R140 is in the buffer. -/
def finishExport (s : State) (k : Ticket) : Option (Nat × List Byte × State) :=
  match getIndex s (k.work.args.getD 0 0) with
  | some x => some (stOk, [], { s with mem := store s.mem (fld k.work.payload 0 8) (artefactLayout x) })
  | none => some (stBadParam, [], s)

/-! ## Statistics (R621) -/

/-- The snapshot that INDEX_STATS selects: the snapshot and the shards in it. -/
def pickSnapshot (s : State) (x : Index) (copy num : Nat) : Option (Snapshot × Nat) :=
  let latest := num == 2 ^ 64 - 1
  if copy = 2 then
    let live := (List.range (shardCount s x.gid)).filter fun k => !(servers s x.gid k x.mirrored).isEmpty
    let pool := if latest then x.groupSnaps.filter fun g => live.all g.2.1.contains else x.groupSnaps.filter (·.1 == num)
    (pool.getLast?).map fun g => (g.2.2, g.2.1.length)
  else
    (x.role (copy == 1)).bind fun c =>
      (if latest then c.snapshots.getLast? else c.snapshots.find? (·.num == num)).map fun n => (n, 1)

/-- INDEX_STATS's answer. -/
def indexStats (c : Ctx) (s : State) : Answer × State :=
  let d := c.data
  withIndex c s (fld d 0 2) fun x =>
    match pickSnapshot s x (fld d 2 1) (fld d 8 8) with
    | some (n, k) =>
      checked [(zeroAt d 3 5 && zeroAt d 24 8 && decide (fld d 2 1 ≤ 2) && fld d 16 8 % 16 == 0 && addrSpace (fld d 16 8) == 0 &&
          bufOk s c.ws (fld d 16 8) 10816, stBadParam)]
        (.reply stOk (leBytes 8 n.num ++ leBytes 4 k ++ zeros 4),
         { s with mem := store s.mem (bits (fld d 16 8) 40 0) (snapshotBytes x n) }) s
    | none => refuse stBadParam s

/-- INDEX_STATS (R621). -/
def execIndexStats (m : MsgSrc) (s : State) : Host.Outcome State Fault Refusal :=
  serve ⟨0x307, .own, false, false, some 32⟩ m indexStats s

/-! ## Pins (R173) -/

/-- Journal the pins of an index, so that they survive restart. -/
def journalPins (s : State) (idx : Nat) (x : Index) (pins : List Nat) : Nat × State :=
  let r := streamWrite s 3 x.ws (copyOwner idx false) x.gid (leBytes 8 x.key ++ pins.flatMap (leBytes 8))
  if r.1 = stOk then
    (stOk, { putIndex r.2.2 idx { x with pins := pins } with
      flash := { r.2.2.flash with pinned := (r.2.2.flash.pinned.filter fun p => !(p.1 == x.ws && p.2.1 == x.key)) ++
        (if pins.isEmpty then [] else [(x.ws, x.key, pins)]) } })
  else (r.1, s)

/-- INDEX_PIN's answer. -/
def indexPin (c : Ctx) (s : State) : Answer × State :=
  let e := fld c.data 8 8
  let idx := fld c.data 0 2
  withIndex c s idx fun x =>
    let r := journalPins s idx x (x.pins ++ [e])
    checked [(zeroAt c.data 2 6 && x.state != 3, stBadParam), (decide (net s ≤ e + 100000000) && decide (e ≤ net s), stBadParam),
      (decide (x.pins.length < 16), stQuota), (leaseHeld s x.gid, stFenced), (r.1 == stOk, r.1)] (.reply stOk [], r.2) s

/-- INDEX_PIN (R173). -/
def execIndexPin (m : MsgSrc) (s : State) : Host.Outcome State Fault Refusal :=
  serve ⟨0x308, .own, false, false, some 16⟩ m indexPin s

/-- INDEX_UNPIN's answer: one pin of the epoch is released (DEDUCED, assumption 35). -/
def indexUnpin (c : Ctx) (s : State) : Answer × State :=
  let e := fld c.data 8 8
  let idx := fld c.data 0 2
  withIndex c s idx fun x =>
    let r := journalPins s idx x (x.pins.erase e)
    checked [(zeroAt c.data 2 6 && x.pins.contains e, stBadParam), (leaseHeld s x.gid, stFenced)]
      (.reply stOk [], if r.1 = stOk then r.2 else putIndex s idx { x with pins := x.pins.erase e }) s

/-- INDEX_UNPIN (R173). -/
def execIndexUnpin (m : MsgSrc) (s : State) : Host.Outcome State Fault Refusal :=
  serve ⟨0x309, .own, false, false, some 16⟩ m indexUnpin s

end Sys2Proof.Machine
end

