-- ==== Sys2Proof/Machine/Admit.lean ====
section
/-!
DEFINITION. Ring admission (04, 12): entry checks (R346 to R348), query slots and their pools (R112, R118, R122), the
buffers of a request (R349), and the end of a request in its slot (R114, R626).
-/

namespace Sys2Proof.Machine

/-! ## Ring entries -/

/-- Table: Ring entry kinds: value and payload bytes. -/
def entryKinds : List (Nat × Nat) :=
  [(1, 128), (2, 64), (3, 32), (4, 128), (5, 64), (6, 80), (7, 64), (8, 64), (9, 48), (10, 48), (11, 48), (12, 48)]

/-- Payload bytes of a kind. -/
def kindBytes (k : Nat) : Option Nat := (entryKinds.find? (·.1 == k)).map (·.2)

/-- Whether an entry is one that R348 does not reject. -/
def entryOk (e : List Byte) : Bool :=
  match kindBytes (fld e 0 1) with
  | some p => fld e 2 2 == p && decide (16 + p ≤ e.length) && decide (fld e 1 1 < 2) && zeroAt e 4 12 &&
      zeroAt e (16 + p) (e.length - 16 - p)
  | none => false

/-- The payload of an entry. -/
def entryPayload (e : List Byte) : List Byte := slice e 16 (fld e 2 2)

/-- Whether a request carries the latency class: the LATENCY bit of QUERY, ATTN_STEP, GATHER and REQUEST payloads. -/
def wantsLatency (kind : Nat) (p : List Byte) : Bool :=
  match kind with
  | 1 => bit (fld p 3 1) 2
  | 4 => bit (fld p 7 1) 1
  | 5 => bit (fld p 6 1) 0
  | 8 => bit (fld p 9 1) 0
  | _ => false

/-- The entry at the head of a work ring. -/
def workHead (s : State) (fn r : Nat) : Option (List Byte) :=
  let g := getRing (getFn s fn) r
  if g.channel = none then headEntry s g else none

/-- A 64-byte entry from its fields. -/
def entryOf (fs : List (Nat × List Byte)) : List Byte :=
  fs.foldl (fun l f => l.take f.1 ++ f.2 ++ l.drop (f.1 + f.2.length)) (zeros 64)

/-- Fields that every completion entry of a kind begins with (R350). -/
def entryHead (tag status kind : Nat) : List (Nat × List Byte) :=
  [(0, leBytes 8 tag), (8, leBytes 2 status), (10, leBytes 1 kind)]

/-! ## Slots -/

/-- Local slot indices of a pool: the first and how many (Table: Slot pools). -/
def poolRange : Pool → Nat × Nat
  | .localPool => (0, 108)
  | .latency => (108, 4)
  | .remote => (112, 16)

/-- Whether a device slot is held. -/
def slotHeld (s : State) (n : Nat) : Bool :=
  s.hub.slots.any (·.1 == n) || s.hub.subreqs.any (·.slot == some n)

/-- The lowest FREE local index of a pool on a core that admits new slots (R122, R493). -/
def freeLocal (s : State) (p : Pool) (core : Nat) : Option Nat :=
  if scoreRetired s 4 core then none
  else ((List.range (poolRange p).2).map (· + (poolRange p).1)).find? fun i => !slotHeld s (128 * core + i)

/-- Position of a pool in the choice pointers. -/
def poolIdx : Pool → Nat
  | .localPool => 0
  | .latency => 1
  | .remote => 2

/-- The core that gives the next slot of a pool (R122). -/
def slotCore (s : State) (p : Pool) : Option Nat :=
  roundRobin 512 (s.hub.corePtr.getD (poolIdx p) 0) fun c => (freeLocal s p c).isSome

/-- The slot that the next claim of a pool takes. -/
def freePoolSlot (s : State) (p : Pool) : Option Nat :=
  (slotCore s p).bind fun c => (freeLocal s p c).map fun i => 128 * c + i

/-- The choice pointer passes the core of a claimed slot. -/
def passCore (s : State) (p : Pool) (slot : Nat) : State :=
  { s with hub := { s.hub with corePtr := setAt s.hub.corePtr (poolIdx p) ((slot / 128 + 1) % 512) } }

/-- Pools that a request may use, LOCAL first (Table: Slot pools). -/
def poolsOf (latency : Bool) : List Pool := if latency then [.localPool, .latency] else [.localPool]

/-- Whether a claim in a pool stays within the workspace's slot quota (R308). -/
def slotQuota (s : State) (ws : Nat) (p : Pool) : Bool :=
  roomFor s ws 1 (·.slots) && (p != .latency || roomFor s ws 1 (·.latencySlots))

/-- The pool and slot that a request of a workspace is given now. -/
def slotFor (s : State) (ws : Nat) (latency : Bool) : Option (Pool × Nat) :=
  (poolsOf latency).findSome? fun p =>
    if slotQuota s ws p then (freePoolSlot s p).map fun n => (p, n) else none

/-- Whether an entry waits for a slot or for its workspace's quota (R118). -/
def waitsForSlot (s : State) (fn : Nat) (e : List Byte) : Bool :=
  entryOk e && (slotFor s (getFn s fn).ws (wantsLatency (fld e 0 1) (entryPayload e))).isNone

/-- Whether rings admit: firmware runs, the workspace is ACTIVE, and no drain has begun (R310, R545). -/
def ringsAdmit (s : State) (fn : Nat) : Bool :=
  firmwareRuns s && decide ((getFn s fn).state = 1) && wsActive s (getFn s fn).ws && !s.live.draining

/-- Whether the head entry of a ring is headAdmits (R118, R346). -/
def headAdmits (s : State) (fn r : Nat) : Bool :=
  match workHead s fn r with
  | some e => entryOk e && ringsAdmit s fn && cqRoom (getRing (getFn s fn) r) && !waitsForSlot s fn e
  | none => false

/-- Work rings of the device: device ring number, function, ring. -/
def workRings (s : State) : List (Nat × Nat × Nat) :=
  s.fns.flatMap fun f => (f.2.rings.filter fun r => r.2.channel == none).map fun r => (r.2.devRing, f.1, r.1)

/-- The ring that the admission arbiter grants: of those with an headAdmits head, the first at or after the pointer by
ring number (R122). -/
def ringGrant (s : State) : Option (Nat × Nat × Nat) :=
  ((workRings s).filter fun x => headAdmits s x.2.1 x.2.2).foldl (fun best x =>
    match best with
    | none => some x
    | some y => if (x.1 + 4096 - s.hub.ringPtr) % 4096 < (y.1 + 4096 - s.hub.ringPtr) % 4096 then some x else best) none

def getSlot (s : State) (n : Nat) : Option Slot := (s.hub.slots.find? (·.1 == n)).map (·.2)

def putSlot (s : State) (n : Nat) (x : Slot) : State :=
  { s with hub := { s.hub with slots := Tab.insert s.hub.slots n x } }

def dropSlot (s : State) (n : Nat) : State :=
  { s with hub := { s.hub with slots := Tab.erase s.hub.slots n } }

/-- Change a slot that is held. -/
def modSlot (s : State) (n : Nat) (f : Slot → Slot) : State :=
  match getSlot s n with
  | some x => putSlot s n (f x)
  | none => s

/-- A request just claimed (R114). -/
def claimedSlot (pool : Pool) (ws fn ring kind eflags count : Nat) (payload : List Byte) (now : Nat) (req : Option Nat) :
    Slot :=
  { pool := pool, st := .admitted, wait := 0, ws := ws, fn := fn, ring := ring, kind := kind, eflags := eflags,
    count := count, payload := payload, at_ := now, obj := 0, bind := [], prog := [], vec := [], pred := [], subs := [],
    replies := [], missing := [], arith := 0, done := none, writes := [], req := req }

/-! ## Buffers of a request -/

/-- Where a request's buffers are read: its function and workspace, the host as the command shows it, and, for a phase, the
state area (R293, R349). -/
structure Src where
  fn : Nat
  ws : Nat
  host : HostView
  area : Option (List Byte)
  deriving DecidableEq, Repr

/-- The check of a buffer of `n` bytes (R349); STATE is valid in a phase only (R293). -/
def Src.ok (b : Src) (s : State) (a n : Nat) : Bool :=
  if addrSpace a = 0xFE then
    match b.area with
    | some l => bits a 55 32 == 0 && decide (bits a 31 0 + n ≤ l.length)
    | none => false
  else bufOk s b.ws a n

/-- The bytes of a buffer. -/
def Src.read (b : Src) (s : State) (a n : Nat) : List Byte :=
  if addrSpace a = 0xFE then slice (b.area.getD []) (bits a 31 0) n else readBuf s b.fn b.host a n

/-- What a read of a buffer meets: none where it goes well; a poisoned window granule, a host that refuses, a host that
gives no answer. -/
inductive ReadFail where
  | poison | refused | silent
  deriving DecidableEq, Repr

/-- The failure that a read of `n` bytes meets. -/
def Src.fail (b : Src) (s : State) (a n : Nat) : Option ReadFail :=
  if n = 0 then none
  else match addrSpace a with
    | 0 => if poisonIn s.mem (bits a 40 0) n then some .poison else none
    | 1 => if b.host.silent then some .silent else if b.host.refuse then some .refused else none
    | _ => none

/-- The status that a failed read gives a request whose chapter names none (DEDUCED, assumption 36). -/
def readStatus : ReadFail → Nat
  | .silent => stFenced
  | _ => stBadParam

/-! ## The end of a request -/

/-- A request finishes with its completion entry and the bytes that it writes first: host and window buffers through the
result queue, a state area with the slot (R114, R198, R293). -/
def completeSlot (s : State) (n : Nat) (e : List Byte) (arith : Nat) (writes : List (Nat × List Byte)) : State :=
  match getSlot s n with
  | some x =>
    let inArea := fun (w : Nat × List Byte) => addrSpace w.1 == 0xFE
    let t := putSlot s n { x with
      st := .completing, done := some e, arith := arith, subs := [], wait := 0, writes := writes.filter inArea }
    let out := (writes.filter fun w => !inArea w && !w.2.isEmpty).map fun w =>
      ({ slot := n, fn := x.fn, ws := x.ws, addr := w.1, data := w.2 } : ResultWrite)
    { t with move := { t.move with results := t.move.results ++ out } }
  | none => s

/-! ## Admission -/

/-- Claim a slot for the head entry of a ring and copy it: SQ_CI advances and a completion position is taken (R346). -/
def claimEntry (s : State) (fn r : Nat) (e : List Byte) (p : Pool) (slot : Nat) : State :=
  let f := getFn s fn
  let g := getRing f r
  let t := putRing s fn r { g with sqCi := g.sqCi + 1, inFlight := g.inFlight + 1 }
  let t := { t with hub := { t.hub with ringPtr := (g.devRing + 1) % 4096 } }
  putSlot (passCore t p slot) slot
    (claimedSlot p f.ws fn r (fld e 0 1) (fld e 1 1) g.sqCi.toNat (entryPayload e) (ns s) none)

/-- Admit the head entry of a ring as a kind, where the arbiter grants it: the request is claimed, and its kind starts it
(R118, R122). -/
def admitAs (kind fn r : Nat) (h : HostView) (start : Src → Nat → State → State) (s : State) : State :=
  match workHead s fn r, ringGrant s with
  | some e, some (_, fn', r') =>
    if fld e 0 1 = kind ∧ fn' = fn ∧ r' = r then
      match slotFor s (getFn s fn).ws (wantsLatency kind (entryPayload e)) with
      | some (p, slot) => start ⟨fn, (getFn s fn).ws, h, none⟩ slot (claimEntry s fn r e p slot)
      | none => s
    else s
  | _, _ => s

/-- A ring entry's row: functions 0 to 255, rings 0 to 255. -/
def admitRow (row : String) (kind fn r : Nat) (h : HostView) (start : Src → Nat → State → State) (s : State) :
    Host.Outcome State Fault Refusal :=
  guarded row (decide (fn < 256) && decide (r < 256)) (admitAs kind fn r h start s)

/-- The ring rejection entry (Table: Ring rejection entry). -/
def rejectionEntry (e : List Byte) (count : Nat) : List Byte :=
  entryOf [(8, leBytes 2 stBadParam), (12, leBytes 1 (fld e 0 1)), (14, [2]), (16, leBytes 4 count)]

/-- Reject the entry at the head of a ring: it claims no slot, and waits only for a completion position (R348). -/
def rejectHead (fn r : Nat) (s : State) : State :=
  let g := getRing (getFn s fn) r
  match workHead s fn r with
  | some e =>
    if !entryOk e && ringsAdmit s fn && cqRoom g then
      postEntry (putRing s fn r { g with sqCi := g.sqCi + 1, inFlight := g.inFlight + 1 }) fn r
        (rejectionEntry e g.sqCi.toNat) (bit (fld e 1 1) 0)
    else s
  | none => s

/-- RING_REJECTION (R348). -/
def execRingRejection (fn ring : Nat) (s : State) : Host.Outcome State Fault Refusal :=
  guarded "RING_REJECTION" (decide (fn < 256) && decide (ring < 256)) (rejectHead fn ring s)

/-- Head entries that wait for a slot or a quota, by function (R118). -/
def waitingHeads (s : State) : List (Nat × List Byte) :=
  (workRings s).filterMap fun x =>
    match workHead s x.2.1 x.2.2 with
    | some e => if ringsAdmit s x.2.1 && waitsForSlot s x.2.1 e then some (x.2.1, e) else none
    | none => none

/-- Whether the quota alone holds an entry: a slot is free in a pool that it may use (R118). -/
def heldByQuota (s : State) (w : Nat × List Byte) : Bool :=
  (poolsOf (wantsLatency (fld w.2 0 1) (entryPayload w.2))).any fun p => (freePoolSlot s p).isSome

/-- EV_SLOTS_EXHAUSTED while entries wait: at the start of the wait and once in every second of it (R118)
(DEDUCED, assumption 52). -/
def slotsExhausted (s : State) : State :=
  let l := waitingHeads s
  let due := match s.hub.exhaustedAt with | some t => elapsed s t 1000000000 | none => true
  if l.isEmpty then { s with hub := { s.hub with exhaustedAt := none } }
  else if due then
    let full := fun p => b2n (freePoolSlot s p).isNone
    emitDev { s with hub := { s.hub with exhaustedAt := some (ns s) } } 0x0303 l.length
      (full .localPool + 2 * full .latency) ((l.filter (heldByQuota s)).length)
  else s

/-- SLOTS_EXHAUSTED (R118). -/
def execSlotsExhausted (s : State) : Host.Outcome State Fault Refusal := .next (when (firmwareRuns s) slotsExhausted s)

end Sys2Proof.Machine
end

