-- ==== Sys2Proof/Machine/Remote.lean ====
section
/-!
DEFINITION. Sub-requests as shared operations (R113, R119, R182, R191, R418): sending one from a home slot, the claim of a
REMOTE slot, device lists on the wire (R216), and replies.
-/

namespace Sys2Proof.Machine

/-! ## Whole messages -/

/-- Send a message that is whole where it goes to this device itself. -/
def sendWhole (s : State) (dst vc ws msg txn : Nat) (body : List Byte) : State :=
  if dst = fabricDev s then
    deliver s { vc := vc, hop := false, enc := false, last := true, dst := dst, src := dst, ws := ws, msg := msg,
                flowSeq := 0, txn := txn, keyGen := 0, nonce := 0, payload := body, tag := 0, alarm := false }
  else sendTxn s dst vc ws msg txn body

/-- The class of a request's sub-requests: TC6 where it carries the latency class, else the workspace's (R182, R240). -/
def subClass (s : State) (x : Slot) : Nat :=
  if wantsLatency x.kind x.payload then 6 else (getWs s x.ws).wclass

/-- Send a sub-request of a slot to a device and await its reply (R115). -/
def sendSub (s : State) (n : Nat) (key kind shard round bind0 bind1 gid : Nat) (body : List Byte) (dev : Nat)
    (mirror retried : Bool) : State :=
  match getSlot s n with
  | some x =>
    let txn := s.fab.nextTxn
    let t := { s with fab := { s.fab with nextTxn := wrapAdd 64 txn 1 } }
    let o : SubOut := { kind := kind, shard := shard, round := round, device := dev, mirror := mirror, retried := retried,
                        sentAt := ns s, txn := txn }
    let t := putSlot t n { x with st := .waiting, wait := x.wait + 1, subs := x.subs ++ [o] }
    sendWhole t dev (subClass s x) x.ws 0x20 txn (subBytes key kind shard n round bind0 bind1 gid body)
  | none => s

/-- A sub-request of a slot that is answered or abandoned no longer counts. -/
def closeSub (s : State) (n : Nat) (o : SubOut) : State :=
  modSlot s n fun x => { x with subs := x.subs.filter (· != o), wait := x.wait - 1 }

/-! ## Device lists (R216) -/

/-- A device list entry, with its attribute record where the list is EXTENDED. -/
def dlEntryBytes (ext : Bool) (d : DLEntry) : List Byte :=
  leBytes 4 d.e.dist ++ leBytes 4 d.dups ++ leBytes 8 d.e.ordinal ++ leBytes 8 d.e.ident ++ zeros 8 ++
    (if ext then slice d.attrs 0 32 else [])

/-- Table: Device list header, then the entries. -/
def listBytes (l : DeviceList) : List Byte :=
  leBytes 2 l.entries.length ++ leBytes 2 l.kDev ++ leBytes 2 l.shard ++ leBytes 1 l.round ++
    leBytes 1 (b2n (decide (l.entries.length = l.kDev)) + 2 * b2n l.poison + 4 * b2n l.extended) ++ leBytes 8 l.passed ++
    leBytes 8 l.examined ++ leBytes 4 l.tailTies ++ leBytes 2 l.poisonedGranules ++
    leBytes 2 (if l.fenced then stFenced else stOk) ++ leBytes 8 l.epoch ++ zeros 24 ++
    l.entries.flatMap (dlEntryBytes l.extended)

/-- A partial as it travels: m, l and o, FP32 (R249). -/
def partialBytes (p : FPartial) : List Byte := leBytes 4 p.1.m ++ leBytes 4 p.1.l ++ p.1.o.flatMap (leBytes 4)

/-- Bytes of a reply (Table: Sub-request kinds). A reply that only says ST_FENCED is that status, and what the layouts
leave out, arith_status and blocks read back, travels behind them (DESIGN CHOICE, assumption 38). -/
def replyBytes : Reply → List Byte
  | .fenced => leBytes 2 stFenced ++ zeros 6
  | .list l => listBytes l ++ leBytes 1 l.arith
  | .heads ls => ls.flatMap listBytes ++ ls.flatMap fun l => leBytes 1 l.arith
  | .partials ps n => (ps.flatMap fun p => partialBytes p.2.2) ++ (ps.flatMap fun p => leBytes 1 p.2.2.2) ++ leBytes 2 n
  | .gather bags missing _ _ => (bags.flatMap fun b => leBytes 4 b.1 ++ b.2.flatMap LAcc.toBytes) ++ leBytes 4 missing
  | .update st cs => leBytes 2 st ++ zeros 6 ++ cs.flatMap (leBytes 8)
  | .hash st found poison v e =>
    leBytes 2 st ++ leBytes 1 (b2n found + 2 * b2n poison) ++ zeros 5 ++ leBytes 8 v ++ leBytes 8 e

/-! ## Serving -/

def getSub (s : State) (ident : Nat) : Option SubIn := s.hub.subreqs.find? (·.ident == ident)

def putSub (s : State) (x : SubIn) : State :=
  { s with hub := { s.hub with subreqs := s.hub.subreqs.map fun y => if y.ident = x.ident then x else y } }

/-- Reply to a sub-request and free its REMOTE slot: the reply takes the class and transaction tag of the sub-request. -/
def replySub (s : State) (x : SubIn) (r : Reply) : State :=
  sendWhole { s with hub := { s.hub with subreqs := s.hub.subreqs.filter (·.ident != x.ident) } } x.src x.vc x.ws 0x21 x.txn
    (replyBytes r)

/-- Whether a sub-request is the next to be admitted: the oldest without a REMOTE slot (R119). -/
def nextSubOf (s : State) (ident : Nat) : Bool :=
  ((s.hub.subreqs.find? (·.slot.isNone)).map (·.ident)) == some ident

/-- Admit a sub-request of a kind into a REMOTE slot, and serve it (R119, R501): a device without the group's lease answers
ST_FENCED. -/
def admitSub (kind ident : Nat) (serve : State → SubIn → State) (s : State) : State :=
  match getSub s ident, freePoolSlot s .remote with
  | some x, some slot =>
    if firmwareRuns s && x.kind == kind && nextSubOf s ident then
      let y := { x with slot := some slot }
      let t := putSub (passCore s .remote slot) y
      if leaseHeld s x.group then serve t y else replySub t y .fenced
    else s
  | _, _ => s

/-- The reply message that waits for a slot's sub-request. -/
def replyPacket (s : State) (o : SubOut) : Option Packet :=
  s.fab.inbox.find? fun p => p.msg == 0x21 && p.src == o.device && p.txn == o.txn

/-- Whether a reply may be taken as the answer of a sub-request: this device's own is exactly what it has sent
(DESIGN CHOICE, assumption 38). -/
def replyMatches (s : State) (o : SubOut) (r : Reply) : Bool :=
  match replyPacket s o with
  | some p => p.payload == replyBytes r
  | none => o.device != fabricDev s

/-- Take a reply's message off the inbox. -/
def takeReply (s : State) (o : SubOut) : State :=
  match replyPacket s o with
  | some p => takeMsg s p
  | none => s

end Sys2Proof.Machine
end

