-- ==== Sys2Proof/Machine/Entries.lean ====
section
/-!
DEFINITION. Completion entries that report a failure, for every kind (R626), and the place of service_time in each.
-/

namespace Sys2Proof.Machine

/-- Where service_time lies in the completion entry of a kind, and its bytes. -/
def serviceField : Nat → Option (Nat × Nat)
  | 1 => some (56, 4)
  | 4 => some (48, 8)
  | 5 => some (48, 8)
  | 6 => some (48, 8)
  | 7 => some (40, 8)
  | 8 => some (48, 8)
  | 9 => some (48, 8)
  | _ => none

/-- Where user_tag lies in the payload of a kind. -/
def tagOffset : Nat → Nat
  | 1 => 48
  | 2 => 24
  | 3 => 16
  | 4 => 72
  | 5 => 44
  | 6 => 56
  | 7 => 36
  | 8 => 40
  | _ => 32

/-- user_tag of a request. -/
def Slot.tag (x : Slot) : Nat := fld x.payload (tagOffset x.kind) 8

/-- The fields of a kind that a failure keeps: repeated payload values, bindings that were made, and what its chapter fixes
(R626). -/
def failFields (x : Slot) : List (Nat × List Byte) :=
  let b := fun i => x.bind.getD i 0
  match x.kind with
  | 1 => [(16, leBytes 2 (fld x.payload 4 2)), (32, leBytes 8 (b 0))]
  | 2 => [(24, leBytes 8 SENTINEL_ORD)]
  | 3 => [(24, leBytes 8 SENTINEL_ORD)]
  | 4 => [(16, leBytes 4 (b 0)), (20, leBytes 4 (b 0)), (32, leBytes 4 0xFFFFFFFF)]
  | 5 => [(16, leBytes 4 (b 0)), (24, leBytes 8 (b 1))]
  | 6 => [(16, leBytes 4 (b 0)), (24, leBytes 8 (b 1))]
  | 7 => [(16, leBytes 4 (fld x.payload 20 4))]
  | 8 => [(16, leBytes 8 (fld x.payload 0 8))]
  | 9 => [(16, leBytes 8 (fld x.payload 0 8))]
  | 10 => [(16, leBytes 8 (b 0))]
  | _ => []

/-- The reason byte: only the kinds whose layout has one show it. -/
def reasonField (kind reason : Nat) : List (Nat × List Byte) := if kind = 7 ∨ kind = 8 then [] else [(14, leBytes 1 reason)]

/-- The completion entry of a request that fails (R626). -/
def failEntry (x : Slot) (status reason : Nat) : List Byte :=
  entryOf (entryHead x.tag status x.kind ++ reasonField x.kind reason ++ failFields x)

/-- A request completes with a status other than ST_OK: it writes nothing (R626). -/
def failSlot (s : State) (n status reason : Nat) : State :=
  match getSlot s n with
  | some x => completeSlot s n (failEntry x status reason) 0 []
  | none => s

/-- The first check that fails, of status and reason. -/
def firstFail : List (Bool × Nat × Nat) → Option (Nat × Nat)
  | [] => none
  | (ok, st, r) :: t => if ok then firstFail t else some (st, r)

end Sys2Proof.Machine
end

