-- ==== Sys2Proof/Machine/ReqBase.lean ====
section
/-!
DEFINITION. Durable requests as shared operations (10): state pools and keepers (R297), tokens (R298), the STATE messages
between devices (DESIGN CHOICE, assumption 46), and the hold of a phase until its binding is recorded (R294).
-/

namespace Sys2Proof.Machine

/-! ## Pools (R297) -/

/-- The hash of R297 over NP pools. -/
def homePool (np ident : Nat) : Nat := (ident * 0x9E3779B97F4A7C15 % 2 ^ 64) * np / 2 ^ 64

/-- The live pool at or after a position that a condition accepts, in list order, wrapping. -/
def livePool (s : State) (start : Nat) (ok : Nat → Bool) : Option Nat :=
  let n := s.requests.pools.length
  ((List.range n).map fun i => (start + i) % n).find? fun p => s.requests.poolLive.getD p false && ok p

/-- The pool that this device belongs to. -/
def ownPool (s : State) : Option Nat := s.requests.pools.findIdx? fun m => m.contains (fabricDev s)

/-- Whether this device's pool holds its lease: its keeper may beat and write (R299). -/
def poolLease (s : State) : Bool :=
  firmwareRuns s && match ownPool s with
  | some p => s.rack.groups.any fun g => g.mem.members == s.requests.pools.getD p [] && g.lease == 1
  | none => false

/-- The keeper of a request in a pool. -/
def keeperOf (s : State) (pool ident : Nat) : Option Nat :=
  let m := s.requests.pools.getD pool []
  if m.isEmpty then none else m[ident % m.length]?

/-- Where a request's claims are made now: the home pool, or the first live pool after it. -/
def homeKeeper (s : State) (ident : Nat) : Option Nat :=
  (livePool s (homePool s.requests.pools.length ident) fun _ => true).bind fun p => keeperOf s p ident

/-- Whether a token is at least as high as another (R298). -/
def tokenGe (a b : Nat × Nat) : Bool := decide (b.1 < a.1) || (a.1 == b.1 && decide (a.2 ≤ b.2))

/-- The token of a copy. -/
def ReqCopy.token (c : ReqCopy) : Nat × Nat := (c.epoch, c.pool)

def reqCopyOf (s : State) (ws ident : Nat) : Option ReqCopy :=
  s.requests.copies.find? fun c => c.ws == ws && c.ident == ident

/-- Put a copy in place of that of its request. -/
def putReqCopy (s : State) (c : ReqCopy) : State :=
  let others := s.requests.copies.filter fun x => !(x.ws == c.ws && x.ident == c.ident)
  { s with requests := { s.requests with copies := c :: others } }

def dropReqCopy (s : State) (ws ident : Nat) : State :=
  let others := s.requests.copies.filter fun x => !(x.ws == ws && x.ident == ident)
  { s with requests := { s.requests with copies := others } }

def stubOf (s : State) (ws ident : Nat) : Option ReqStub :=
  s.requests.stubs.find? fun c => c.ws == ws && c.ident == ident

/-- Change the stub of a request. -/
def modStub (s : State) (ws ident : Nat) (f : ReqStub → ReqStub) : State :=
  let l := s.requests.stubs.map fun x => if x.ws = ws ∧ x.ident = ident then f x else x
  { s with requests := { s.requests with stubs := l } }

/-! ## Messages -/

/-- A durable-request message of the STATE type (DESIGN CHOICE, assumption 46): 0 WRITE, 1 BEAT, 2 HANDOFF, 3 ACK, 5 ORPHAN, 6 PROBE,
7 STATE_LOST, 8 PHASE, 9 BINDING, 10 PHASE DONE, 11 DONE, 12 REFUSED, 13 ACCEPTED, 14 GO, 15 REPORT, 21 CANCEL, 22 MOVE. -/
def reqBytes (op ws ident epoch pool : Nat) (rest : List Byte) : List Byte :=
  leBytes 1 op ++ zeros 1 ++ leBytes 2 ws ++ zeros 4 ++ leBytes 8 ident ++ leBytes 8 epoch ++ leBytes 2 pool ++ zeros 6 ++ rest

/-- Send a durable-request message under a fresh tag; one to this device waits in its own inbox. -/
def sendReq (s : State) (dev op ws ident epoch pool : Nat) (rest : List Byte) : State :=
  sendWhole { s with fab := { s.fab with nextTxn := wrapAdd 64 s.fab.nextTxn 1 } } dev 7 ws 0x40 s.fab.nextTxn
    (reqBytes op ws ident epoch pool rest)

/-- The oldest message of an op for a request that waits here. -/
def reqPacket (s : State) (op ws ident : Nat) : Option Packet :=
  s.fab.inbox.find? fun p =>
    p.msg == 0x40 && fld p.payload 0 1 == op && fld p.payload 2 2 == ws && fld p.payload 8 8 == ident

/-- A number of bytes with its length. -/
def sized (l : List Byte) : List Byte := leBytes 4 l.length ++ l

/-- A copy as a WRITE or HANDOFF carries it: its request, checkpoint, completions, binding record and outcome. -/
def copyBytes (c : ReqCopy) : List Byte :=
  let b := c.binding.getD (0, [])
  let flags := c.rflags + 2 * b2n c.binding.isSome + 4 * b2n c.cancelled + 8 * b2n c.doneEntry.isSome
  leBytes 1 flags ++ leBytes 1 c.checkpoint.phase ++ leBytes 2 c.entryDevice ++ leBytes 8 c.userTag ++ leBytes 2 c.partner ++ leBytes 2 c.reexec ++
    leBytes 2 c.phases.length ++ leBytes 2 b.1 ++ leBytes 4 b.2.length ++ sized c.plan ++ sized c.checkpoint.area ++
    sized c.checkpoint.completion ++ c.phases.flatMap (slice · 0 64) ++ b.2.flatMap (leBytes 8) ++ c.doneEntry.getD []

/-- What a message says of a copy: its request, its token and its content. -/
def sameCopy (p : Packet) (c : ReqCopy) (op : Nat) : Bool :=
  p.payload == reqBytes op c.ws c.ident c.epoch c.pool (copyBytes c)

/-- The message that carries a copy. -/
def copyPacket (s : State) (op : Nat) (c : ReqCopy) : Option Packet :=
  s.fab.inbox.find? fun p => p.msg == 0x40 && sameCopy p c op

/-- Send a copy to a pool's keeper. -/
def writeTo (s : State) (pool : Nat) (c : ReqCopy) : State :=
  match keeperOf s pool c.ident with
  | some d => sendReq s d 0 c.ws c.ident c.epoch c.pool (copyBytes c)
  | none => s

/-! ## Phases on their home device (R294) -/

/-- Whether a phase waits for its binding record to stand on both copies. In a phase's slot `ring` is the runner, `count` the
phase's number, and `eflags` says whether the record is unsent (0), sent (2) or recorded (1). -/
def phaseHeld (x : Slot) : Bool := x.req.isSome && x.eflags != 1

/-- Hold a phase: its bindings go to the runner, once. -/
def holdPhase (s : State) (n : Nat) : State :=
  match getSlot s n with
  | some x =>
    match x.req, x.eflags with
    | some id, 0 =>
      sendReq (putSlot s n { x with eflags := 2 }) x.ring 9 x.ws id 0 0
        (leBytes 1 x.count ++ leBytes 1 x.kind ++ leBytes 2 x.bind.length ++ zeros 4 ++ x.bind.flatMap (leBytes 8))
    | _, _ => s
  | none => s

end Sys2Proof.Machine
end

