-- ==== Sys2Proof/Machine/AttnBase.lean ====
section
/-!
DEFINITION. Sessions and their blocks as shared operations (08, 10): geometry (R223), codebook sets (R225, R226), the
placement and records of blocks (R227 to R232), journals (R284), and references.
-/

namespace Sys2Proof.Machine

/-! ## Geometry (Table: KV geometry block) -/

def geoLayers (g : List Byte) : Nat := fld g 0 2
def geoHeads (g : List Byte) : Nat := fld g 2 1
def geoGroup (g : List Byte) : Nat := fld g 3 1
def geoDim (g : List Byte) : Nat := fld g 4 2
def geoBook (g : List Byte) : Nat := fld g 8 4
def geoMax (g : List Byte) : Nat := fld g 12 4
def geoDevices (g : List Byte) : Nat := fld g 16 1
def geoBudget (g : List Byte) : Nat := fld g 24 8

/-- The geometry block with another codebook handle. -/
def geoWithBook (g : List Byte) (h : Nat) : List Byte := g.take 8 ++ leBytes 4 h ++ g.drop 12

/-- Ranges of the geometry block (R223, R224). -/
def geoOk (g : List Byte) : Bool :=
  decide (1 ≤ geoLayers g) && decide (geoLayers g ≤ 128) && decide (1 ≤ geoHeads g) && decide (geoHeads g ≤ 16) &&
    decide (1 ≤ geoGroup g) && decide (geoGroup g ≤ 16) && [64, 128, 256].contains (geoDim g) && zeroAt g 6 2 &&
    decide (64 ≤ geoMax g) && decide (geoMax g ≤ 2 ^ 24) && geoMax g % 64 == 0 && decide (1 ≤ geoDevices g) &&
    decide (geoDevices g ≤ 64) && zeroAt g 17 7 && geoBudget g % (4 * 2 ^ 20) == 0 && zeroAt g 32 32 &&
    decide (geoMax g ≤ geoDevices g * 2 ^ 22)

/-! ## Sessions -/

def sessionByKey (s : State) (ws key : Nat) : Option Session := s.sessions.find? fun x => x.ws == ws && x.key == key

/-- The session that has a handle. -/
def sessionOf (s : State) (h : Nat) : Option Session :=
  s.sessions.find? fun x => x.handle == h && x.handle != 0 && x.state != 3

/-- Put a session record in place of that of its key. -/
def putSession (s : State) (x : Session) : State :=
  let same := fun (y : Session) => y.ws == x.ws && y.key == x.key
  { s with sessions := if s.sessions.any same then s.sessions.map fun y => if same y then x else y else s.sessions ++ [x] }

/-- Forget a session record. -/
def eraseSession (s : State) (x : Session) : State :=
  { s with sessions := s.sessions.filter fun y => !(y.ws == x.ws && y.key == x.key) }

/-- T_ℓ. -/
def Session.count (x : Session) (layer : Nat) : Nat := x.tokens.getD layer 0

/-- Set T_ℓ. -/
def Session.setCount (x : Session) (layer n : Nat) : Session := { x with tokens := setAt x.tokens layer n }

/-- Owner number of a session's journal and spill streams. -/
def sessionOwner (x : Session) : Nat := 2 ^ 41 + x.handle

/-! ## Codebook sets (R225, R226) -/

def getBook (s : State) (h : Nat) : Option CodebookSet := (s.cbSets.find? (·.1 == h)).map (·.2)

def putBook (s : State) (h : Nat) (b : CodebookSet) : State := { s with cbSets := Tab.insert s.cbSets h b }

/-- A closing set without references is freed, and its unload tickets complete (R105, R225). -/
def settleBook (s : State) (h : Nat) : State :=
  match getBook s h with
  | some b =>
    if b.closing ∧ b.refs = 0 then
      finishAll (freePages { s with cbSets := Tab.erase s.cbSets h } b.page) b.unloadTickets stOk []
    else s
  | none => s

/-- Take, or release, a session's reference to its set. -/
def refBook (s : State) (h : Nat) (up : Bool) : State :=
  match getBook s h with
  | some b => settleBook (putBook s h { b with refs := if up then b.refs + 1 else b.refs - 1 }) h
  | none => s

/-- Codeword c of subquantiser m of a layer and head (R226). -/
def CodebookSet.word (b : CodebookSet) (layer head m c : Nat) : List Val :=
  let w := b.dim / 16
  let at_ := (((layer * b.heads + head) * 16 + m) * 256 + c) * w * 2
  (List.range w).map fun i => Fmt.decode .bf16 (fld b.bytes (at_ + 2 * i) 2)

/-- The code of a key: the nearest codeword of each subquantiser, ties to the lowest (R233). -/
def CodebookSet.encode (b : CodebookSet) (layer head : Nat) (key : List Val) : List Byte :=
  let w := b.dim / 16
  (List.range 16).flatMap fun m =>
    let part := (key.drop (m * w)).take w
    leBytes 1 (argmin ((List.range 256).map fun c => (exactL2 part (b.word layer head m c)).value))

/-! ## Placement (R227, R228) -/

/-- Device position of a block by the hash alone. -/
def hashPos (D b : Nat) : Nat := (b * 0x9E3779B9 % 2 ^ 32) * D / 2 ^ 32

/-- The position that a block takes: the hash's, or the next with room for it (R227). -/
def Session.placeBlock (x : Session) (b : Nat) : Nat :=
  let D := max 1 (geoDevices x.geometry)
  let held := fun p => (x.blockMap.filter (·.2 == p)).length
  (((List.range D).map fun i => (hashPos D b + i) % D).find? fun p => decide (held p < 65536)).getD (hashPos D b)

/-- The position of a block that is in the block map. -/
def Session.posOf (x : Session) (b : Nat) : Nat := ((x.blockMap.find? (·.1 == b)).map (·.2)).getD (x.placeBlock b)

/-- The block map with a block in it (DESIGN CHOICE, assumption 108). -/
def Session.mapBlock (x : Session) (b : Nat) : Session :=
  if x.blockMap.any (·.1 == b) then x else { x with blockMap := x.blockMap ++ [(b, x.placeBlock b)] }

/-- The device at a position. -/
def Session.deviceAt (x : Session) (p : Nat) : Nat := x.devices.getD p 0xFFFF

/-- The journal partner of a position (R284). -/
def Session.partnerOf (s : State) (x : Session) (p : Nat) : Option Nat :=
  if 1 < x.devices.length then some (x.deviceAt ((p + 1) % x.devices.length))
  else (groupDevs s x.group)[x.partner]?

/-! ## Records (R229) -/

/-- Bytes of a KV record. -/
def kvBytes (g : List Byte) : Nat := 128 * geoDim g

def Session.blockAt (x : Session) (layer head b : Nat) : Option Block :=
  x.blocks.find? fun y => y.layer == layer && y.head == head && y.block == b

/-- Put a block record. -/
def Session.putBlock (x : Session) (y : Block) : Session :=
  let same := fun (z : Block) => z.layer == y.layer && z.head == y.head && z.block == y.block
  { x with blocks := if x.blocks.any same then x.blocks.map fun z => if same z then y else z else x.blocks ++ [y] }

/-- The kv_locator field (Table: Block header): the MA as a DPA, or a flash address. -/
def kvLocator (s : State) (y : Block) (flashAt : Nat) : Nat :=
  match y.kvMa with
  | some ma => 2 ^ 62 + dpaOf s ma
  | none => 2 * 2 ^ 62 + flashAt

/-- The header granule of a block. -/
def blockHeader (x : Session) (y : Block) (fill locator : Nat) : List Byte :=
  leBytes 4 y.block ++ leBytes 2 y.layer ++ leBytes 1 y.head ++ leBytes 1 fill ++ leBytes 8 locator ++ leBytes 4 x.handle ++
    zeros 12

/-- The fill of a block. -/
def blockFill (s : State) (y : Block) : Nat := fld (readMa s y.codeMa 8) 7 1

/-- Take pages of a unit for a session, cut into places of a size: the first place is used at once. -/
def cutPage (s : State) (x : Session) (unit size : Nat) : Option (Nat × List Nat × Nat × State) :=
  if !roomFor s x.ws 1 (·.marverPages) then none
  else (allocMarver s x.ws unit 1).map fun a =>
    let ma := maOfPage a.2 a.1
    (ma, ((List.range (65536 / size)).drop 1).map fun i => ma + i * size, a.1, a.2)

/-- A place for a code record on a unit. -/
def takeCode (s : State) (x : Session) (unit : Nat) : Option (Nat × Session × State) :=
  match x.freePos.find? fun ma => unitOfMa ma == unit with
  | some ma => some (ma, { x with freePos := x.freePos.filter (· != ma) }, s)
  | none => (cutPage s x unit 1280).map fun r =>
    (r.1, { x with freePos := x.freePos ++ r.2.1, regions := x.regions ++ [(r.2.2.1, 1)] }, r.2.2.2)

/-- A place for a KV record on a unit. -/
def takeKv (s : State) (x : Session) (unit : Nat) : Option (Nat × Session × State) :=
  match x.freeKv.find? fun ma => unitOfMa ma == unit with
  | some ma => some (ma, { x with freeKv := x.freeKv.filter (· != ma) }, s)
  | none => (cutPage s x unit (kvBytes x.geometry)).map fun r =>
    (r.1, { x with freeKv := x.freeKv ++ r.2.1, regions := x.regions ++ [(r.2.2.1, 1)] }, r.2.2.2)

/-- Staging pages of a unit that holds blocks (R231). -/
def takeStaging (s : State) (x : Session) (unit : Nat) : Option (Session × State) :=
  if x.staging.any fun p => unitOfMa (maOfPage s p) == unit then some (x, s)
  else if !roomFor s x.ws 1 (·.marverPages) then none
  else (allocMarver s x.ws unit 1).map fun a => ({ x with staging := x.staging ++ [a.1] }, a.2)

/-- Open a block on this device: its unit, its records, its header with fill 0 (R228, R229). -/
def openBlock (s : State) (x : Session) (layer head b : Nat) : Option (Block × Session × State) :=
  let H := max 1 (geoHeads x.geometry)
  (freestUnit s fun u => u % 64 % H == head).bind fun u =>
    (takeStaging s x u).bind fun a =>
      (takeCode a.2 a.1 u).bind fun c =>
        (takeKv c.2.2 c.2.1 u).map fun k =>
          let y : Block := { layer := layer, head := head, block := b, codeMa := c.1, kvMa := some k.1, flash := [], lost := false }
          let t := storeMa k.2.2 c.1 (blockHeader x y 0 (kvLocator k.2.2 y 0) ++ zeros 1248)
          (y, k.2.1.putBlock y, t)

/-- A new token of a head: its code, its key and its value bytes. -/
structure Token where
  code : List Byte
  key : List Byte
  value : List Byte
  deriving DecidableEq, Repr

/-- Write tokens into a block from place `at_` on: codes and KV elements, then the header with fill raised (R233). -/
def writeTokens (s : State) (x : Session) (y : Block) (at_ : Nat) (ts : List Token) : State :=
  let d := geoDim x.geometry
  let kv := y.kvMa.getD 0
  let t := ts.zipIdx.foldl (fun u p =>
    let i := at_ + p.2
    let u := storeMa u (y.codeMa + 256 + 16 * i) p.1.code
    storeMa (storeMa u (kv + i * d) p.1.key) (kv + 64 * d + i * d) p.1.value) s
  storeMa t y.codeMa (blockHeader x y (at_ + ts.length) (kvLocator t y 0))

/-- The KV record of a block, from its region or from flash (R230). -/
def readKv (s : State) (x : Session) (y : Block) : List Byte :=
  match y.kvMa with
  | some ma => readMa s ma (kvBytes x.geometry)
  | none => y.flash

/-- Whether a block's records can be read here: no granule poisoned, and a spilled record's stream at hand (R253). -/
def blockReadable (s : State) (x : Session) (y : Block) : Bool :=
  poisonMa s y.codeMa 1280 == 0 &&
    match y.kvMa with
    | some ma => poisonMa s ma (kvBytes x.geometry) == 0
    | none => (findStream s 6 x.ws (sessionOwner x)).isSome

/-! ## Journals (R284) -/

/-- Bytes of a journal entry as they are written to flash. -/
def journalEntBytes (e : JournalEnt) : List Byte :=
  leBytes 2 e.layer ++ leBytes 1 e.head ++ leBytes 1 e.fill ++ leBytes 4 e.block ++ e.code ++ e.kv

/-- Whether two entries are of one block and side of the pair. -/
def sameEnt (a b : JournalEnt) : Bool :=
  a.layer == b.layer && a.head == b.head && a.block == b.block && a.own == b.own

/-- Write an entry to a session's journal on this device: the newest entry of a block stands. Its status, and the state. -/
def journalEnt (s : State) (x : Session) (e : JournalEnt) : Nat × State :=
  let r := streamWrite s 4 x.ws (sessionOwner x) x.group (journalEntBytes e)
  if r.1 ≠ stOk then (r.1, s)
  else (stOk, putSession r.2.2 { x with journal := x.journal.filter (fun q => !sameEnt q e) ++ [e] })

/-- The entry of a block as it stands in its records. -/
def entOf (s : State) (x : Session) (y : Block) (own : Bool) : JournalEnt :=
  { layer := y.layer, head := y.head, block := y.block, fill := blockFill s y, code := readMa s (y.codeMa + 256) 1024,
    kv := readKv s x y, own := own, striped := false }

/-! ## Freeing -/

/-- Free everything in memory that a session holds here: records, staging pages, block map (R286). -/
def freeSessionPages (s : State) (x : Session) : State :=
  (x.regions.map (·.1) ++ x.staging ++ x.mapPage.toList).foldl freePages s

/-- A session without its records, journals and handle. -/
def Session.emptied (x : Session) (state : Nat) : Session :=
  { x with state := state, handle := 0, devices := [], lost := 0, tokens := [], blocks := [], blockMap := [], journal := [],
           appends := [], oldKv := [], regions := [], freePos := [], freeKv := [], staging := [], mapPage := none,
           annealPhase := 0, roll := none, ticket := none, destroy := [] }

/-- Free a session's records, journals and spilled records, and its codebook reference; images stay (R279, R286). -/
def releaseSession (s : State) (x : Session) (state : Nat) : State :=
  let t := deleteStreams (freeSessionPages s x) fun st =>
    (st.kind == 4 || st.kind == 6) && st.ws == x.ws && st.owner == sessionOwner x
  refBook (putSession t (x.emptied state)) (geoBook x.geometry) false

/-- A DESTROYING session without references is freed, and its tickets complete; a key with images stays ANNEALED (R279,
R281). -/
def settleSession (s : State) (ws key : Nat) : State :=
  match sessionByKey s ws key with
  | some x =>
    if x.state = 5 ∧ x.refs = 0 then
      let t := releaseSession s x 3
      let t := if x.images.isEmpty then eraseSession t x else t
      finishAll t x.destroy stOk []
    else s
  | none => s

/-- Take, or release, a step's reference to a session. -/
def refSession (s : State) (ws key : Nat) (up : Bool) : State :=
  match sessionByKey s ws key with
  | some x => settleSession (putSession s { x with refs := if up then x.refs + 1 else x.refs - 1 }) ws key
  | none => s

/-! ## Session messages -/

/-- A session message of the STATE type: 16 CREATE, 17 APPEND, 18 JOURNAL, 19 COUNT, 20 RELEASE (DESIGN CHOICE, assumption 45). -/
def sessBytes (op ws key : Nat) (rest : List Byte) : List Byte :=
  leBytes 1 op ++ zeros 1 ++ leBytes 2 ws ++ zeros 4 ++ leBytes 8 key ++ rest

/-- Send a session message under a tag. -/
def sendSess (s : State) (dev txn : Nat) (x : Session) (op : Nat) (rest : List Byte) : State :=
  sendWhole s dev 7 x.ws 0x40 txn (sessBytes op x.ws x.key rest)

/-- Send a session message to every other device of the session under a fresh tag. -/
def tellSession (s : State) (x : Session) (op : Nat) (rest : List Byte) : State :=
  (x.devices.filter (· != fabricDev s)).foldl (fun t d =>
    sendSess { t with fab := { t.fab with nextTxn := wrapAdd 64 t.fab.nextTxn 1 } } d t.fab.nextTxn x op rest) s

end Sys2Proof.Machine
end

