-- ==== Sys2Proof/Machine/Predicate.lean ====
section
/-!
DEFINITION. Predicates (R166 to R168): the checks of a block, its evaluation on an attribute record, and its estimate from
a snapshot (R185, R186).
-/

namespace Sys2Proof.Machine

/-- A clause (Table: Clause). -/
structure Clause where
  op : Nat
  field : Nat
  neg : Bool
  raw : List Byte
  deriving DecidableEq, Repr

/-- Operands of a clause: a and b of a numeric field, a of the others. -/
def Clause.a (c : Clause) : Nat := if c.field ≤ 3 then fld c.raw 8 4 else fld c.raw 8 8
def Clause.b (c : Clause) : Nat := fld c.raw 12 4

/-- Clause `i` of a predicate block. -/
def clauseAt (l : List Byte) (i : Nat) : Clause :=
  let c := slice l (16 + 16 * i) 16
  ⟨fld c 0 1, fld c 1 1, bit (fld c 2 1) 0, c⟩

/-- Bytes of a block. -/
def predBytes (l : List Byte) : Nat := 16 + 16 * fld l 1 1

/-- Clauses of a term, by the counts of the terms before it. -/
def predTerms (l : List Byte) : List (List Clause) :=
  let counts := (List.range (fld l 0 1)).map fun t => fld l (2 + t) 1
  counts.zipIdx.map fun (n, t) => (List.range n).map fun i => clauseAt l ((counts.take t).foldl (· + ·) 0 + i)

/-- The order key of an operand or of an item's value (R168). -/
def Clause.key (x : Index) (c : Clause) (v : Nat) : Nat := if c.field ≤ 3 then orderKey (x.attrType c.field) v else v

/-- Operators that a field takes (Table: Clause operators). -/
def opTaken (field op : Nat) : Bool :=
  if field ≤ 3 then decide (1 ≤ op) && decide (op ≤ 7)
  else if field = 4 then decide (1 ≤ op) && decide (op ≤ 6)
  else field == 5 && decide (0x10 ≤ op) && decide (op ≤ 0x12)

/-- A clause that R168 does not refuse. -/
def clauseOk (x : Index) (c : Clause) : Bool :=
  let ty := x.attrType c.field
  let nan := fun v => ty == 3 && isNaN32 v
  opTaken c.field c.op && decide (fld c.raw 2 1 < 2) && zeroAt c.raw 3 5 &&
    (if c.field ≤ 3 then
      ty != 0 && !nan c.a && (if c.op = 7 then !nan c.b && decide (c.key x c.a ≤ c.key x c.b) else c.b == 0)
    else if c.field = 5 then c.a != 0
    else true)

/-- Checks of a block (R166, R168). -/
def predOk (x : Index) (l : List Byte) : Bool :=
  let tc := fld l 0 1
  let cc := fld l 1 1
  let counts := (List.range 4).map fun t => fld l (2 + t) 1
  x.attributes && decide (1 ≤ tc) && decide (tc ≤ 4) && decide (1 ≤ cc) && decide (cc ≤ 32) && counts.foldl (· + ·) 0 == cc &&
    (counts.zipIdx.all fun (n, t) => if t < tc then decide (1 ≤ n) && decide (n ≤ 8) else n == 0) && zeroAt l 6 10 &&
    (List.range cc).all fun i => clauseOk x (clauseAt l i)

/-- Whether the operator of a comparison holds between a key and its operands. -/
def compareOp (op k a b : Nat) : Bool :=
  match op with
  | 1 => k == a
  | 2 => k != a
  | 3 => decide (k < a)
  | 4 => decide (k ≤ a)
  | 5 => decide (a < k)
  | 6 => decide (a ≤ k)
  | 7 => decide (a ≤ k) && decide (k ≤ b)
  | 0x10 => k &&& a == a
  | 0x11 => k &&& a != 0
  | 0x12 => k &&& a == 0
  | _ => false

/-- The value of a clause's field in an attribute record. -/
def attrValue (field : Nat) (attrs : List Byte) : Nat :=
  if field ≤ 3 then fld attrs (8 + 4 * field) 4 else if field = 4 then fld attrs 24 8 else fld attrs 0 8

/-- Whether a clause passes (R167). -/
def clausePass (x : Index) (attrs : List Byte) (c : Clause) : Bool :=
  compareOp c.op (c.key x (attrValue c.field attrs)) (c.key x c.a) (c.key x c.b) != c.neg

/-- Whether a predicate passes an attribute record; no predicate passes every item. -/
def predPass (x : Index) (l : List Byte) (attrs : List Byte) : Bool :=
  l.isEmpty || (predTerms l).any fun t => t.all (clausePass x attrs)

/-! ## Estimates (R185, R186) -/

/-- Whether some key from `lo` to `hi` passes a comparison. -/
def rangePass (op a b lo hi : Nat) : Bool :=
  match op with
  | 1 => decide (lo ≤ a) && decide (a ≤ hi)
  | 3 => decide (lo < a)
  | 4 => decide (lo ≤ a)
  | 5 => decide (a < hi)
  | 6 => decide (a ≤ hi)
  | 7 => decide (lo ≤ b) && decide (a ≤ hi)
  | _ => true

/-- The set bits of a tag mask. -/
def maskBits (m : Nat) : List Nat := (List.range 64).filter (bit m)

/-- The estimate of a clause. -/
def clauseEst (x : Index) (sn : Snapshot) (c : Clause) : Nat :=
  let tag := fun b => Tab.get 0 sn.tags b
  let sum := fun (l : List Nat) => l.foldl (· + ·) 0
  if c.neg ∨ c.op = 2 ∨ c.op = 0x12 then sn.live
  else if c.op = 0x10 then
    match (maskBits c.a).map tag with | [] => sn.live | v :: t => t.foldl min v
  else if c.op = 0x11 then min sn.live (sum ((maskBits c.a).map tag))
  else if c.field = 4 then
    let w := 2 ^ x.timeShift
    sum (((List.range 256).filter fun i =>
      rangePass c.op c.a 0 (if i = 0 then 0 else x.timeOrigin + i * w)
        (if i = 255 then 2 ^ 64 - 1 else x.timeOrigin + (i + 1) * w - 1)).map fun i => Tab.get 0 sn.times i)
  else
    sum (((List.range 256).filter fun h =>
      rangePass c.op (c.key x c.a) (c.key x c.b) (h * 2 ^ 24) (h * 2 ^ 24 + 0xFFFFFF)).map fun h =>
        Tab.get 0 sn.hist (c.field * 256 + h))

/-- The selectivity of a predicate: ⌊65,536 × estimate / live⌋, 0 where live is 0. -/
def selectivity (x : Index) (sn : Snapshot) (l : List Byte) : Nat :=
  let est := (predTerms l).map fun t =>
    match t.map (clauseEst x sn) with | [] => sn.live | v :: r => r.foldl min v
  65536 * min sn.live (est.foldl (· + ·) 0) / sn.live

/-- Whether a query runs in pre-filter mode (R186). -/
def prefilterMode (x : Index) (sn : Snapshot) (fmode : Nat) (l : List Byte) : Bool :=
  !l.isEmpty && (fmode == 2 || (fmode == 0 && decide (selectivity x sn l < x.prefilter)))

end Sys2Proof.Machine
end

