-- ==== Sys2Proof/Machine/Scan.lean ====
section
/-!
DEFINITION. Serving sub-requests over an index (06, 07, R352): the scan of the probed lists and its device list, the
threshold pass, refinement, and the hash lookup.
-/

namespace Sys2Proof.Machine

/-! ## Query descriptor (Table: Query descriptor) -/

def qMode (d : List Byte) : Nat := fld d 3 1
def qRefine (d : List Byte) : Bool := bit (qMode d) 3
def qExtended (d : List Byte) : Bool := bit (qMode d) 4
def qFixed (d : List Byte) : Bool := bit (qMode d) 5
def qK (d : List Byte) : Nat := fld d 4 2
def qPredKind (d : List Byte) : Nat := fld d 12 1

/-- r: the entries that the merge of the scan rounds keeps, with REFINE. -/
def qRefineCount (d : List Byte) : Nat := if fld d 10 2 = 0 then min 1024 (4 * qK d) else fld d 10 2

/-- k_dev (R189). -/
def qDev (d : List Byte) : Nat := if qRefine d then qRefineCount d else qK d

/-! ## A SCAN sub-request (Table: Sub-request kinds) -/

/-- What a SCAN sub-request asks. -/
structure ScanReq where
  epoch : Nat
  round : Nat
  pre : Bool
  from_ : Nat
  upto : Nat
  kDev : Nat
  ext : Bool
  pred : List Byte
  vec : List Nat
  carried : List Entry
  deriving DecidableEq, Repr

/-- The body of a SCAN sub-request: descriptor with addresses 0, control, predicate, vector, carried entries. -/
def scanBody (desc : List Byte) (pre : Bool) (from_ upto kDev : Nat) (pred : List Byte) (vec : List Nat)
    (carried : List DLEntry) : List Byte :=
  let d := slice desc 0 16 ++ zeros 16 ++ slice desc 32 24 ++ zeros 8 ++ slice desc 64 64
  d ++ leBytes 1 (b2n pre) ++ zeros 1 ++ leBytes 2 from_ ++ leBytes 2 upto ++ leBytes 2 kDev ++ leBytes 2 carried.length ++
    zeros 6 ++ pred ++ vec.flatMap (leBytes 4) ++ carried.flatMap (dlEntryBytes false)

/-- Read a SCAN sub-request against its index. -/
def readScan (x : Index) (q : SubIn) : ScanReq :=
  let b := q.body
  let d := slice b 0 128
  let pred := if qPredKind d = 0 then [] else slice b 144 (predBytes (slice b 144 16))
  let v0 := 144 + pred.length
  let c0 := v0 + 4 * x.dim
  { epoch := q.bind0, round := q.round, pre := fld b 128 1 == 1, from_ := fld b 130 2, upto := fld b 132 2,
    kDev := fld b 134 2, ext := qExtended d, pred := pred,
    vec := (List.range x.dim).map fun i => fld b (v0 + 4 * i) 4,
    carried := (List.range (fld b 136 2)).map fun i =>
      ⟨fld b (c0 + 32 * i) 4, fld b (c0 + 32 * i + 8) 8, fld b (c0 + 32 * i + 16) 8⟩ }

/-! ## The scan of a copy -/

/-- What a unit finds in a pass (R71, R73): its candidates in list order, items examined, and poisoned granules. -/
structure UnitScan where
  unit : Nat
  cands : List Entry
  examined : Nat
  bad : List Nat
  deriving DecidableEq, Repr

/-- The local best-32 (R71). -/
def UnitScan.best (u : UnitScan) : List Entry := (sortOn entryKey u.cands).take 32

/-- OVERFLOW (R73). -/
def UnitScan.overflow (u : UnitScan) : Bool := decide (32 < u.cands.length)

/-- tie_tail: candidates not retained at the distance of entry 31 (R73). -/
def UnitScan.tieTail (u : UnitScan) : Nat := tiesAfter (·.dist) (sortOn entryKey u.cands) 32

/-- Distance of entry 31. -/
def UnitScan.last (u : UnitScan) : Nat := match u.best[31]? with | some e => e.dist | none => DIST_SENTINEL

/-- One slot of a chunk: a candidate, nothing, or the poisoned granules for which it is skipped (R71, R86)
(DEDUCED, assumption 58). -/
def scanItem (s : State) (x : Index) (r : ScanReq) (lut : List (List Nat)) (ma i : Nat) (vis : Bool) :
    Option Entry × List Nat :=
  let bad := (slotGranules x ma i vis (!r.pred.isEmpty)).filter (granuleBad s)
  if !bad.isEmpty then (none, bad)
  else
    let it := readItem s x ma i
    if (!vis || visibleAt it.ins it.del r.epoch) && predPass x r.pred it.attrs then
      (some ⟨codeDist x lut it.codes, it.ord, it.ident⟩, [])
    else (none, [])

/-- A pass over a chunk (R149): its header first; a poisoned header hides the chunk's items. -/
def scanChunk (s : State) (x : Index) (r : ScanReq) (lut : List (List Nat)) (ma : Nat) : UnitScan :=
  if granuleBad s (ma / 32) then ⟨unitOfMa ma, [], 0, [ma / 32]⟩
  else
    let vis := needsVis s ma r.epoch
    let l := (List.range (chunkFill s ma)).map fun i => scanItem s x r lut ma i vis
    let cands := l.filterMap Prod.fst
    ⟨unitOfMa ma, cands, if r.pre then cands.length else l.length, distinct (l.flatMap Prod.snd)⟩

/-- Join the passes over chunks of one unit. -/
def joinScans (l : List UnitScan) : List UnitScan :=
  l.foldl (fun us c =>
    if us.any (·.unit == c.unit) then us.map fun u =>
      if u.unit = c.unit then { u with cands := u.cands ++ c.cands, examined := u.examined + c.examined,
                                       bad := distinct (u.bad ++ c.bad) } else u
    else us ++ [c]) []

/-- The lists that a sub-request probes, and every list ranked below its p, with the arith_status of the ranking (R183). -/
def probedLists (x : Index) (r : ScanReq) : List Nat × List Nat × Nat :=
  let v := convertVec x.centroidFmt r.vec
  let ranked := rankLists x v.1
  ((ranked.1.take r.upto).drop r.from_, ranked.1.take r.upto, v.2 ||| ranked.2)

/-- The first pass: what each unit finds, and the arith_status of ranking and table (R183, R188). -/
def firstPass (s : State) (x : Index) (c : Copy) (r : ScanReq) : List UnitScan × List Nat × Nat :=
  let p := probedLists x r
  let v := convertVec x.codebookFmt r.vec
  let t := lookupTable x v.1
  (joinScans ((p.1.flatMap (listChunks c)).map (scanChunk s x r t.1)), p.2.1, p.2.2 ||| v.2 ||| t.2)

/-- τ (R74, R214). -/
def tauOf (us : List UnitScan) (kDev : Nat) : Nat :=
  match (keptEntries (us.flatMap UnitScan.best))[kDev - 1]? with
  | some e => e.dist
  | none => 0xFFFFFFFE

/-- Whether the threshold pass runs (R189, R214). -/
def thresholdDue (us : List UnitScan) (kDev : Nat) : Bool :=
  let tau := tauOf us kDev
  decide (33 ≤ kDev) ||
    us.any fun u => u.overflow && (decide (u.last < tau) || (u.last == tau && decide (0 < u.tieTail)))

/-- The records of a unit after the threshold pass: every candidate up to τ where it rescans, else its best-32 (R74). -/
def afterThreshold (us : List UnitScan) (kDev : Nat) : List Entry :=
  let tau := tauOf us kDev
  us.flatMap fun u =>
    if u.overflow && decide (u.last ≤ tau) then u.cands.filter fun e => decide (e.dist ≤ tau) else u.best

/-- The item of an ordinal of a copy, through the ordinal map. -/
def itemOf (s : State) (x : Index) (c : Copy) (seq : Nat) : Option Item :=
  (c.ords.find? (·.1 == seq)).map fun o => readItem s x o.2.ma o.2.slot

/-- dups of an entry (R211): other items of its ID, in lists ranked below p, visible, that pass the predicate. -/
def dupsOf (s : State) (x : Index) (c : Copy) (r : ScanReq) (ranked : List Nat) (e : Entry) : Nat :=
  let others := (c.ids.filter fun p => p.1 == e.ident && p.2 != ordSeq e.ordinal).filterMap fun p => itemOf s x c p.2
  (others.filter fun it => ranked.contains (fld (readMa s it.ma 32) 20 4) && visibleAt it.ins it.del r.epoch &&
    predPass x r.pred it.attrs).length

/-- The device list over records (R189, R215 to R217). -/
def deviceList (s : State) (x : Index) (c : Copy) (r : ScanReq) (us : List UnitScan) (ranked : List Nat) (arith : Nat)
    (records : List Entry) : DeviceList :=
  let kept := keptEntries (r.carried ++ records)
  let sat := fun (w : Nat) (l : List Nat) => satAdd w 0 (l.foldl (· + ·) 0)
  { shard := c.shard, round := r.round, kDev := r.kDev,
    entries := (kept.take r.kDev).map fun e =>
      ⟨e, satAdd 32 0 (dupsOf s x c r ranked e),
        if r.ext then ((itemOf s x c (ordSeq e.ordinal)).map (·.attrs)).getD [] else []⟩,
    poison := us.any fun u => !u.bad.isEmpty, extended := r.ext, passed := sat 64 (us.map (·.cands.length)),
    examined := sat 64 (us.map (·.examined)), tailTies := satAdd 32 0 (tiesAfter (·.dist) kept r.kDev),
    poisonedGranules := sat 16 (us.map (·.bad.length)), fenced := false, epoch := r.epoch, arith := arith }

/-- The copy of a shard that this device holds for a sub-request, and the place it has in the index. -/
def servedCopy (s : State) (q : SubIn) : Option (Nat × Index × Bool × Copy) :=
  (indexByKey s q.ws q.key).bind fun i =>
    match i.2.primary, i.2.mirror with
    | some c, d => if c.shard = q.shard then some (i.1, i.2, false, c)
        else d.bind fun e => if e.shard = q.shard then some (i.1, i.2, true, e) else none
    | none, some e => if e.shard = q.shard then some (i.1, i.2, true, e) else none
    | none, none => none

/-- Whether the copy applies changes as a mirror: the role map in force names another primary holder (R170). -/
def appliesAsMirror (s : State) (x : Index) (c : Copy) : Bool := !holdsRole s x.gid c.shard (·.primary)

/-- Whether a copy's frontier has reached an epoch (R172). -/
def frontierAt (s : State) (x : Index) (c : Copy) (e : Nat) : Bool :=
  decide (e ≤ copyFrontier s c (appliesAsMirror s x c))

/-- Serve a SCAN sub-request whose copy has reached E (R183, R189): the device list goes out unless a threshold pass is
due. -/
def serveScan (s : State) (q : SubIn) : State :=
  match servedCopy s q with
  | none => replySub s q .fenced
  | some (_, x, _, c) =>
    let r := readScan x q
    let f := firstPass s x c r
    if thresholdDue f.1 r.kDev then putSub s { q with threshold := true }
    else replySub s q (.list (deviceList s x c r f.1 f.2.1 f.2.2 (f.1.flatMap UnitScan.best)))

/-- The threshold pass, and the device list after it (R74, R214). -/
def serveThreshold (s : State) (q : SubIn) : State :=
  match servedCopy s q with
  | none => replySub s q .fenced
  | some (_, x, _, c) =>
    let r := readScan x q
    let f := firstPass s x c r
    replySub s q (.list (deviceList s x c r f.1 f.2.1 f.2.2 (afterThreshold f.1 r.kDev)))

/-! ## Refinement (R190) -/

/-- Bytes of a stored vector. -/
def Index.vecBytes (x : Index) : Nat := x.dim * ((x.vectorFmt.map Fmt.width).getD 0 / 8)

/-- DPA of a place of the refine store of a copy (R153). -/
def Index.refineDpa (x : Index) (mirror : Bool) (place : Nat) : Nat :=
  x.refineBase + (if mirror then x.refineBytes else 0) + place * x.vecBytes

/-- The stored vector of an item, unless it is poisoned or unreadable. -/
def storedVector (s : State) (idx : Nat) (x : Index) (mirror : Bool) (c : Copy) (seq : Nat) : Option (List Byte) :=
  match (c.ords.find? (·.1 == seq)).bind (·.2.vec) with
  | none => none
  | some place =>
    if x.refineKind = 1 then
      let a := x.refineDpa mirror place
      if poisonIn s.mem a x.vecBytes then none else some (readBytes s.mem a x.vecBytes)
    else if (findStream s 5 x.ws (copyOwner idx mirror)).isSome then (c.flashVecs.find? (·.1 == seq)).map (·.2)
    else none

/-- The refined distance of a stored vector (R37, R190), with the arith_status of its read-out. -/
def refinedDist (x : Index) (q : List Nat) (v : List Byte) : Coded :=
  let f := x.vectorFmt.getD .fp32
  let item := vals32 (vector32 f x.dim v)
  let r := subDistance x.metric (vals32 q) item
  (distKey r.1, r.2)

/-- The body of a REFINE sub-request; the query vector follows the ordinals (DESIGN CHOICE, assumption 37). -/
def refineBody (ords : List Nat) (vec : List Nat) : List Byte :=
  leBytes 4 ords.length ++ zeros 4 ++ ords.flatMap (leBytes 8) ++ vec.flatMap (leBytes 4)

/-- Serve a REFINE sub-request: the entries that can be read, with refined distances. -/
def serveRefine (s : State) (q : SubIn) : State :=
  match servedCopy s q with
  | none => replySub s q .fenced
  | some (i, x, mirror, c) =>
    let n := fld q.body 0 4
    let vec := (List.range x.dim).map fun j => fld q.body (8 + 8 * n + 4 * j) 4
    let got := (List.range n).filterMap fun j =>
      let o := fld q.body (8 + 8 * j) 8
      match storedVector s i x mirror c (ordSeq o), itemOf s x c (ordSeq o) with
      | some v, some it => some (refinedDist x vec v, o, it)
      | _, _ => none
    let es := sortOn (fun d : DLEntry => entryKey d.e) (got.map fun g => ⟨⟨g.1.1, g.2.1, g.2.2.ident⟩, 0, []⟩)
    replySub s q (.list { shard := c.shard, round := 0, kDev := n, entries := es, poison := false, extended := false,
                          passed := 0, examined := 0, tailTies := 0, poisonedGranules := 0, fenced := false,
                          epoch := q.bind0, arith := got.foldl (fun a g => a ||| g.1.2) 0 })

/-! ## Hash lookups (R161, R352) -/

/-- The lookup of a key at an epoch: the entry, and whether a poisoned granule was met (DEDUCED, assumption 146). -/
def hashLookup (s : State) (x : Index) (c : Copy) (key e : Nat) : Option Item × Bool :=
  let chain := chainOf s c (x.bucketOf key)
  let bad := chain.any fun ma => granuleBad s (ma / 32) ||
    spanBad s (ma + 256) (32 * fld (readMa s ma 32) 24 1)
  ((chainEntries s chain).find? fun it => it.ident == key && visibleAt it.ins it.del e, bad)

/-- Serve a HASH_GET sub-request (R352). -/
def serveHash (s : State) (q : SubIn) : State :=
  match servedCopy s q with
  | none => replySub s q .fenced
  | some (_, x, _, c) =>
    let r := hashLookup s x c (fld q.body 0 8) q.bind0
    match r.1, r.2 with
    | _, true => replySub s q (.hash stOk false true 0 0)
    | some it, false => replySub s q (.hash stOk true false it.ord it.ins)
    | none, false => replySub s q (.hash stOk false false 0 0)

/-! ## Rows -/

/-- Serve a sub-request over an index once its copy's frontier has reached E (R172); until then it waits in its slot. -/
def whenReached (serve : State → SubIn → State) (s : State) (q : SubIn) : State :=
  match servedCopy s q with
  | some (_, x, _, c) => if frontierAt s x c q.bind0 then serve s q else s
  | none => replySub s q .fenced

/-- SCAN_SUBREQUEST (R183, R189). -/
def execScanSubrequest (ident : Nat) (s : State) : Host.Outcome State Fault Refusal :=
  .next (admitSub 1 ident (whenReached serveScan) s)

/-- REFINE_SUBREQUEST (R190). -/
def execRefineSubrequest (ident : Nat) (s : State) : Host.Outcome State Fault Refusal :=
  .next (admitSub 2 ident (whenReached serveRefine) s)

/-- HASH_GET_SUBREQUEST (R352). -/
def execHashGetSubrequest (ident : Nat) (s : State) : Host.Outcome State Fault Refusal :=
  .next (admitSub 7 ident (whenReached serveHash) s)

/-- The way a kind of sub-request over an index is served. -/
def serveIndexSub (s : State) (q : SubIn) : State :=
  match q.kind with
  | 1 => serveScan s q
  | 2 => serveRefine s q
  | _ => serveHash s q

/-- Whether a sub-request over an index waits in its REMOTE slot for the frontier of its copy. -/
def waitsFrontier (q : SubIn) : Bool := q.slot.isSome && !q.threshold && [1, 2, 7].contains q.kind

/-- FRONTIER_REACHED (R172). -/
def execFrontierReached (ident : Nat) (s : State) : Host.Outcome State Fault Refusal :=
  match getSub s ident with
  | some q => .next (when (firmwareRuns s && waitsFrontier q) (fun t => whenReached serveIndexSub t q) s)
  | none => .next s

/-- FRONTIER_WAIT_TIMEOUT: after 10 ms the copy answers ST_FENCED for the sub-request (R191). -/
def execFrontierWaitTimeout (ident : Nat) (s : State) : Host.Outcome State Fault Refusal :=
  match getSub s ident with
  | some q => .next (when (firmwareRuns s && waitsFrontier q && elapsed s q.arrivedAt 10000000) (replySub · q .fenced) s)
  | none => .next s

end Sys2Proof.Machine
end

