-- ==== Sys2Proof/Machine/AttnServe.lean ====
section
/-!
DEFINITION. Attention sub-requests at the devices that hold blocks (08): block scores (R241 to R245), partials and the
canonical tree (R247 to R249), blocks read back from flash (R231), and the threshold pass of both kinds of scan (R74).
-/

namespace Sys2Proof.Machine

/-! ## Attention-step descriptor (Table: Attention-step descriptor) -/

def aSession (d : List Byte) : Nat := fld d 0 4
def aLayer (d : List Byte) : Nat := fld d 4 2
def aNew (d : List Byte) : Nat := fld d 6 1
def aAppend (d : List Byte) : Bool := bit (fld d 7 1) 0
def aWantSel (d : List Byte) : Bool := bit (fld d 7 1) 2
def aProbes (d : List Byte) : Nat := fld d 11 1
def aTop (d : List Byte) : Nat := fld d 12 2
def aSink (d : List Byte) : Nat := fld d 14 1
def aRecent (d : List Byte) : Nat := fld d 15 1
def aScale (d : List Byte) : Nat := fld d 16 4
def aPosition (d : List Byte) : Nat := fld d 24 4

/-- R: query rows of a head (R236). -/
def aRows (g : List Byte) (d : List Byte) : Nat := geoGroup g * aNew d

/-! ## Windows and candidates (R241) -/

/-- B_T. -/
def storedBlocks (T : Nat) : Nat := cdiv T 64

/-- Blocks of the sink and recent windows, ascending. -/
def windowBlocks (d : List Byte) (T : Nat) : List Nat :=
  let B := storedBlocks T
  (List.range B).filter fun b => decide (b < aSink d) || decide (B - aRecent d ≤ b)

/-- Candidate blocks, ascending. -/
def candidateBlocks (d : List Byte) (T : Nat) : List Nat :=
  let w := windowBlocks d T
  (List.range (storedBlocks T)).filter fun b => !w.contains b

/-! ## Score tables (R243, R244) -/

/-- The score table of a head: row m holds entry[p][m][c] at place 256p + c; and the arith_status of forming it. -/
def scoreTable (book : CodebookSet) (layer head : Nat) (probes : List (List Nat)) : List (List Nat) × Nat :=
  let w := book.dim / 16
  let t : List (List Coded) := (List.range 16).map fun m => probes.flatMap fun p =>
    let part := ((p.drop (m * w)).take w).map f32
    (List.range 256).map fun c => subDistance 1 part (book.word layer head m c)
  let r := lutBuild 65535 (t.map fun row => row.map Prod.fst)
  (r.1, t.foldl (fun a row => row.foldl (fun a c => a ||| c.2) a) r.2)

/-- The lookup distance of a token's code under a probe (R244). -/
def tokenScore (table : List (List Nat)) (p : Nat) (code : List Byte) : Nat :=
  lookupDist (table.zipIdx.map fun row => row.1.getD (256 * p + (code.getD row.2 0).toNat) 0)

/-- The score of a block from its 64 token codes (R244). -/
def blockScoreOf (table : List (List Nat)) (probes : Nat) (codes : List Byte) : Nat :=
  let all := (List.range 64).flatMap fun t => (List.range probes).map fun p => tokenScore table p (slice codes (16 * t) 16)
  all.foldl min 0xFFFFFFFE

/-! ## Serving scores (R245) -/

/-- The session of a sub-request on this device. -/
def subSession (s : State) (q : SubIn) : Option Session := (sessionOf s q.key).filter fun x => x.ws == q.ws

/-- Whether a block's code record can be read here (DEDUCED, assumption 106). -/
def codeReadable (s : State) (y : Block) : Bool := y.codeMa != 0 && poisonMa s y.codeMa 1280 == 0

/-- Candidates of a head that lie at a position of a session's device list (R227). -/
def candidatesAt (x : Session) (d : List Byte) (T p : Nat) : List Nat :=
  (candidateBlocks d T).filter fun b => x.posOf b == p

/-- Whether a block must be rebuilt before a scan can go on: it is not lost, and its codes cannot be read (R253, R285). -/
def scoreBlocked (s : State) (x : Session) (layer head b : Nat) : Bool :=
  match x.blockAt layer head b with
  | some y => !y.lost && !codeReadable s y
  | none => true

/-- The probes of a head in the body of an ATTN_SCORE sub-request. -/
def bodyProbes (x : Session) (q : SubIn) (head : Nat) : List (List Nat) :=
  let d := geoDim x.geometry
  let n := aProbes q.body
  (List.range n).map fun p => (List.range d).map fun j => fld q.body (128 + 4 * (((head * n + p) * d) + j)) 4

/-- What each unit of this device finds for a head, and the arith_status of the table. -/
def headScan (s : State) (x : Session) (q : SubIn) (head : Nat) : List UnitScan × Nat :=
  match getBook s (geoBook x.geometry) with
  | none => ([], 0)
  | some book =>
    let layer := q.bind1
    let t := scoreTable book layer head (bodyProbes x q head)
    let units := (candidatesAt x q.body q.bind0 q.shard).filterMap fun b =>
      (x.blockAt layer head b).bind fun y =>
        if codeReadable s y then
          some (⟨unitOfMa y.codeMa, [⟨blockScoreOf t.1 (aProbes q.body) (readMa s (y.codeMa + 256) 1024), b, b⟩], 1, []⟩ : UnitScan)
        else none
    (joinScans units, t.2)

/-- The device list of a head over records (R245). -/
def headList (q : SubIn) (us : List UnitScan) (arith : Nat) (records : List Entry) : DeviceList :=
  let k := aTop q.body
  let kept := keptEntries records
  { shard := q.shard, round := 0, kDev := k, entries := (kept.take k).map fun e => ⟨e, 0, []⟩, poison := false, extended := false,
    passed := satAdd 64 0 ((us.map (·.cands.length)).foldl (· + ·) 0),
    examined := satAdd 64 0 ((us.map (·.examined)).foldl (· + ·) 0), tailTies := satAdd 32 0 (tiesAfter (·.dist) kept k),
    poisonedGranules := 0, fenced := false, epoch := q.bind0, arith := arith }

/-- Whether a score sub-request waits for a block to be rebuilt. -/
def scoreWaits (s : State) (x : Session) (q : SubIn) : Bool :=
  (List.range (geoHeads x.geometry)).any fun h =>
    (candidatesAt x q.body q.bind0 q.shard).any (scoreBlocked s x q.bind1 h)

/-- Serve an ATTN_SCORE sub-request: one device list per head, unless a threshold pass is due or a block must be rebuilt
first (R245, R253) (DEDUCED, assumption 105). -/
def serveScore (s : State) (q : SubIn) : State :=
  match subSession s q with
  | none => replySub s q .fenced
  | some x =>
    if scoreWaits s x q then s
    else
      let fs := (List.range (geoHeads x.geometry)).map (headScan s x q)
      if fs.any fun f => thresholdDue f.1 (aTop q.body) then putSub s { q with threshold := true }
      else replySub s q (.heads (fs.map fun f => headList q f.1 f.2 (f.1.flatMap UnitScan.best)))

/-- The threshold pass of every head, and the lists after it (R74, R214, R245). -/
def scoreThreshold (s : State) (q : SubIn) : State :=
  match subSession s q with
  | none => replySub s q .fenced
  | some x =>
    let fs := (List.range (geoHeads x.geometry)).map (headScan s x q)
    replySub s q (.heads (fs.map fun f => headList q f.1 f.2 (afterThreshold f.1 (aTop q.body))))

/-- ATTN_SCORE_SUBREQUEST (R245). -/
def execAttnScoreSubrequest (ident : Nat) (s : State) : Host.Outcome State Fault Refusal :=
  .next (admitSub 3 ident serveScore s)

/-- THRESHOLD_PASS (R74, R214): of a scan over an index, or of an attention step's scores. -/
def execThresholdPass (ident : Nat) (s : State) : Host.Outcome State Fault Refusal :=
  match getSub s ident with
  | some q => .next (when (firmwareRuns s && q.threshold)
      (fun t => if q.kind = 3 then scoreThreshold t q else serveThreshold t q) s)
  | none => .next s

/-! ## The canonical tree over leaves (R44, R249) -/

/-- A node of the canonical tree: leaves by place. -/
inductive PTree where
  | leaf (i : Nat)
  | node (a b : PTree)
  deriving DecidableEq, Repr

/-- The canonical tree over `n` leaves. -/
def treeOf (n : Nat) : PTree := canonicalTree .node (.leaf 0) ((List.range n).map .leaf)

/-- The place of a node's first leaf. -/
def PTree.first : PTree → Nat
  | .leaf i => i
  | .node a _ => a.first

/-- The device position on which every leaf of a node lies. -/
def PTree.owner (own : Nat → Nat) : PTree → Option Nat
  | .leaf i => some (own i)
  | .node a b =>
    match a.owner own, b.owner own with
    | some p, some q => if p = q then some p else none
    | _, _ => none

/-- The nodes that a position evaluates, in tree order (R249). -/
def PTree.parts (own : Nat → Nat) (p : Nat) : PTree → List PTree
  | .leaf i => if own i = p then [.leaf i] else []
  | .node a b => if (PTree.node a b).owner own = some p then [.node a b] else a.parts own p ++ b.parts own p

/-- The value of a node from its leaves. -/
def PTree.eval (leaf : Nat → FPartial) : PTree → FPartial
  | .leaf i => leaf i
  | .node a b => combine (a.eval leaf) (b.eval leaf)

/-- The value of a node, where a node of one position has its value given by its first leaf. -/
def PTree.join (own : Nat → Nat) (given : Nat → FPartial) : PTree → FPartial
  | .leaf i => given i
  | .node a b =>
    if ((PTree.node a b).owner own).isSome then given a.first else combine (a.join own given) (b.join own given)

/-- Position of the new-token leaf: the home device's own, apart from every device position (R248). -/
def newLeafPos : Nat := 64

/-- Positions of the leaves of a row: its selected blocks, then the new-token leaf (R249). -/
def leafPos (x : Session) (sel : List Nat) (i : Nat) : Nat :=
  match sel[i]? with
  | some b => x.posOf b
  | none => newLeafPos

/-! ## Partials (R247) -/

/-- A query row converted to MXFP8 E4M3, one scale per 32 elements; and the arith_status of it. -/
def mxRow (row : List Nat) : List Val × Nat :=
  let parts := (List.range (cdiv row.length 32)).map fun i => mxBlock .e4m3 (((row.drop (32 * i)).take 32).map f32)
  (parts.flatMap fun b => b.2.1.map (mxValue .e4m3 b.1), parts.foldl (fun a b => a ||| b.2.2) 0)

/-- E4M3 elements of a byte string. -/
def e4m3Vals (l : List Byte) : List Val := l.map fun b => Fmt.e4m3.decode b.toNat

/-- The tokens of a KV record: those below T are seen, with key and value (R239). -/
def recordTokens (dim T block : Nat) (kv : List Byte) : List (Bool × List Val × List Val) :=
  (List.range 64).map fun t =>
    (decide (64 * block + t < T), e4m3Vals (slice kv (t * dim) dim), e4m3Vals (slice kv (64 * dim + t * dim) dim))

/-- Selected blocks per head in the body of an ATTN_PARTIAL sub-request, and the offset behind them. -/
def bodySelected (l : List Byte) : Nat → Nat → List (List Nat) × Nat
  | 0, off => ([], off)
  | h + 1, off =>
    let n := fld l off 4
    let r := bodySelected l h (off + 4 + 4 * n)
    (((List.range n).map fun i => fld l (off + 4 + 4 * i) 4) :: r.1, r.2)

/-- The selected blocks of a head that lie at a position. -/
def selectedAt (x : Session) (sel : List Nat) (p : Nat) : List Nat := sel.filter fun b => x.posOf b == p

/-- The state of a selected block here: 0 readable, 1 to be rebuilt, 2 lost (R253, R285). -/
def blockState (s : State) (x : Session) (layer head b : Nat) : Nat :=
  match x.blockAt layer head b with
  | some y => if y.lost then 2 else if codeReadable s y && blockReadable s x y then 0 else 1
  | none => 1

/-- Read back a spilled record into the staging page of its unit (R231). -/
def stageBlock (s : State) (x : Session) (y : Block) : State :=
  if y.kvMa.isSome then s
  else match x.staging.find? fun p => unitOfMa (maOfPage s p) == unitOfMa y.codeMa with
    | some p => storeMa s (maOfPage s p) y.flash
    | none => s

/-- Whether the KV record of a block lies on flash. -/
def isSpilled (x : Session) (layer head b : Nat) : Bool :=
  match x.blockAt layer head b with | some y => y.kvMa.isNone && !y.lost | none => false

/-- The partials of a row: the nodes of its tree that this device evaluates, in tree order (R247, R249). -/
def rowPartials (s : State) (x : Session) (q : SubIn) (head : Nat) (sel : List Nat) (row : List Val) : List FPartial :=
  let d := geoDim x.geometry
  let own := leafPos x sel
  let leaf := fun i =>
    match x.blockAt q.bind1 head (sel.getD i 0) with
    | some y => blockPartial row (aScale q.body) d (recordTokens d q.bind0 (sel.getD i 0) (readKv s x y))
    | none => (Partial.masked d, 0)
  ((treeOf (sel.length + 1)).parts own q.shard).map (PTree.eval leaf)

/-- Serve an ATTN_PARTIAL sub-request (R249): a lost block ends it with ST_STATE_LOST, the lowest named; a block that must
be rebuilt is waited for (R253). -/
def servePartial (s : State) (q : SubIn) : State :=
  match subSession s q with
  | none => replySub s q .fenced
  | some x =>
    let H := geoHeads x.geometry
    let d := geoDim x.geometry
    let r := bodySelected q.body H 128
    let R := aRows x.geometry q.body
    let mine := r.1.zipIdx.flatMap fun hs => (selectedAt x hs.1 q.shard).map fun b => (hs.2, b)
    let lost := (mine.filter fun p => blockState s x q.bind1 p.1 p.2 == 2).map (·.2)
    if !lost.isEmpty then replySub s q (.update stStateLost [lost.foldl min 0xFFFFFFFF])
    else if mine.any fun p => blockState s x q.bind1 p.1 p.2 == 1 then s
    else
      let ps := r.1.zipIdx.flatMap fun hs => (List.range R).flatMap fun i =>
        let row := (List.range d).map fun j => fld q.body (r.2 + 4 * ((hs.2 * R + i) * d + j)) 4
        (rowPartials s x q hs.2 hs.1 (mxRow row).1).map fun p => (hs.2, i, p)
      let spilled := mine.filter fun p => isSpilled x q.bind1 p.1 p.2
      let t := spilled.foldl (fun u p =>
        match x.blockAt q.bind1 p.1 p.2 with | some y => stageBlock u x y | none => u) s
      replySub t q (.partials ps (satAdd 16 0 spilled.length))

/-- ATTN_PARTIAL_SUBREQUEST (R249). -/
def execAttnPartialSubrequest (ident : Nat) (s : State) : Host.Outcome State Fault Refusal :=
  .next (admitSub 4 ident servePartial s)

/-- Serve again every attention sub-request of a session that waits in its REMOTE slot. -/
def reserveAttn (s : State) (handle : Nat) : State :=
  let waiting := s.hub.subreqs.filter fun q => q.slot.isSome && !q.threshold && (q.kind == 3 || q.kind == 4) && q.key == handle
  waiting.foldl (fun t q => if q.kind = 3 then serveScore t q else servePartial t q) s

end Sys2Proof.Machine
end

