-- ==== Sys2Proof/Machine/Query.lean ====
section
/-!
DEFINITION. QUERY at its home device (R163 to R165, R172, R182 to R198): checks, bindings, rounds of SCAN sub-requests,
refinement, the merge and the completion.
-/

namespace Sys2Proof.Machine

/-! ## Checks (R163, R164) -/

/-- Ranges of a descriptor that need no index. -/
def queryFieldsOk (d : List Byte) : Bool :=
  (vecFmt (fld d 2 1)).isSome && qMode d % 4 != 3 && decide (qMode d < 64) && decide (1 ≤ qK d) && decide (qK d ≤ 1024) &&
    decide (qPredKind d ≤ 2) && zeroAt d 13 3 && fld d 16 8 % 16 == 0 && fld d 24 8 % 16 == 0 && zeroAt d 36 4 &&
    (if qRefine d then fld d 10 2 == 0 || (decide (qK d ≤ fld d 10 2) && decide (fld d 10 2 ≤ 1024)) else fld d 10 2 == 0) &&
    (if qFixed d then fld d 8 2 == 0 else true) && decide (fld d 0 2 < 1024) && (qPredKind d == 2 || zeroAt d 56 8) &&
    (qPredKind d == 1 || zeroAt d 64 64)

/-- nprobe and max_probe in force. -/
def qProbe (x : Index) (d : List Byte) : Nat := if fld d 6 2 = 0 then x.nprobeDefault else fld d 6 2
def qMaxProbe (x : Index) (d : List Byte) : Nat :=
  if fld d 8 2 = 0 then max x.maxProbeDefault (qProbe x d) else fld d 8 2

/-- Ranges of the probe fields against the index. -/
def queryProbesOk (x : Index) (d : List Byte) : Bool :=
  let top := min 4096 x.nlist
  decide (qProbe x d ≤ top) && (fld d 8 2 == 0 || (decide (qProbe x d ≤ fld d 8 2) && decide (fld d 8 2 ≤ top)))

/-- Bytes of a result slot. -/
def slotBytes (d : List Byte) : Nat := if qExtended d then 64 else 16

/-- Bytes of the query vector. -/
def queryBytes (x : Index) (d : List Byte) : Nat := x.dim * (((vecFmt (fld d 2 1)).map Fmt.width).getD 0 / 8)

/-- The predicate of a descriptor: inline, at its address, or none. -/
def queryPred (b : Src) (s : State) (d : List Byte) : List Byte :=
  match qPredKind d with
  | 1 => slice d 64 (min 64 (predBytes (slice d 64 16)))
  | 2 => b.read s (fld d 56 8) (predBytes (b.read s (fld d 56 8) 16))
  | _ => []

/-- An inline block has at most 3 clauses, and zero bytes after it. -/
def inlineOk (d : List Byte) : Bool :=
  let n := predBytes (slice d 64 16)
  qPredKind d != 1 || (decide (n ≤ 64) && zeroAt d (64 + n) (64 - n))

/-- The buffers of a query, each with its bytes: vector, result, predicate. -/
def queryBuffers (b : Src) (s : State) (x : Index) (d : List Byte) : List (Nat × Nat) :=
  [(fld d 16 8, queryBytes x d), (fld d 24 8, fld d 32 4)] ++
    (if qPredKind d = 2 then [(fld d 56 8, 16), (fld d 56 8, predBytes (b.read s (fld d 56 8) 16))] else [])

/-- Buffers that the query reads. -/
def queryReads (b : Src) (s : State) (x : Index) (d : List Byte) : List (Nat × Nat) :=
  [(fld d 16 8, queryBytes x d)] ++
    (if qPredKind d = 2 then [(fld d 56 8, predBytes (b.read s (fld d 56 8) 16))] else [])

/-- The first failure among reads of buffers (DEDUCED, assumption 36). -/
def readsFail (b : Src) (s : State) (l : List (Nat × Nat)) : Option (Nat × Nat) :=
  (l.findSome? fun p => b.fail s p.1 p.2).map fun f => (readStatus f, 5)

/-- Checks before the read epoch is bound, by order of reason. -/
def queryRefusal (b : Src) (s : State) (d : List Byte) : Option (Nat × Nat) :=
  if !queryFieldsOk d then some (stBadParam, 2)
  else match getIndex s (fld d 0 2) with
    | none => some (stBadParam, 1)
    | some x =>
      (firstFail [(x.ws == b.ws, stNoAuth, 0), (x.state == 2 && x.kind != 3, stBadParam, 1), (queryProbesOk x d, stBadParam, 2),
        (!qRefine d || x.refineKind != 0, stBadParam, 7),
        ((queryBuffers b s x d).all (fun p => b.ok s p.1 p.2) && decide (qK d * slotBytes d ≤ fld d 32 4), stBadParam, 5)]).or
        (readsFail b s (queryReads b s x d))

/-! ## Bindings -/

/-- The read epoch: the network time, or an explicit one within its bounds or equal to a pin (R172). -/
def bindEpoch (s : State) (x : Index) (e : Nat) : Option Nat :=
  if e = 0 then some (net s)
  else if (decide (net s ≤ e + 100000000) && decide (e ≤ net s)) || x.pins.contains e then some e
  else none

/-- The number of the snapshot that a query uses (R184). -/
def snapOf (x : Index) (e : Nat) : Nat := e / 2 ^ x.statsLog - 2

/-- The group snapshot of a number, as far as shards have sent theirs (R184). -/
def groupSnap (x : Index) (num : Nat) : Snapshot :=
  match x.groupSnaps.find? (·.1 == num) with
  | some g => g.2.2
  | none => ⟨num, 0, 0, [], [], []⟩

/-- Whether every shard with a live copy has sent its snapshot of a number (R157, R184) (DEDUCED, assumption 53). -/
def snapReady (s : State) (x : Index) (num : Nat) : Bool :=
  let got := match x.groupSnaps.find? (·.1 == num) with | some g => g.2.1 | none => []
  (List.range (shardCount s x.gid)).all fun sh =>
    got.contains sh || match roleOf s x.gid sh with | some r => decide (2 ≤ r.state) | none => true

/-- The query vector as given, in FP32 codes; after the transform program where the index has one (R165), with the
arith_status of the program (DEDUCED, assumption 61). -/
def queryVector (s : State) (x : Index) (f : Fmt) (raw : List Byte) : Option (List Nat × Nat) :=
  let v := vector32 f x.dim raw
  if x.transform = 0xFFFFFFFF then some (v, 0)
  else (getProgram s x.transform).bind fun p =>
    let g := Config.programGraph p.container
    let input := match (g.tensors.getD 0 ⟨.fmt f, [], false⟩).elem with
      | .fmt i => i.pack (v.map fun c => (convert i (f32 c)).1)
      | _ => raw
    (invoke p 1 input).map fun o =>
      match (g.tensors.getD g.inputs ⟨.fmt .fp32, [], false⟩).elem with
      | .fmt k => (vector32 k x.dim o.1, o.2)
      | _ => (vector32 .fp32 x.dim o.1, o.2)

/-- Whether a granule that a copy of the index holds here is poisoned (R87, R182). -/
def indexPoisoned (s : State) (x : Index) : Bool :=
  let regs := ([x.primary, x.mirror].filterMap id).flatMap (·.regions)
  s.mem.poison.any fun g =>
    let p := pageOfDpa s (g * 32)
    regs.any fun r => decide (r.1 ≤ p) && decide (p < r.1 + r.2)

/-! ## Rounds -/

/-- Progress of a query: 0 mode, 1 from, 2 p, 3 rounds, 4 stage (0 scan, 1 refine). -/
def Slot.pg (x : Slot) (i : Nat) : Nat := x.prog.getD i 0

/-- Every device list of a scan round that has come, of shards that are not missing. -/
def scanLists (x : Slot) : List DeviceList :=
  x.replies.filterMap fun r => match r.2 with
    | .list l => if r.1 = 1 ∧ !x.missing.contains l.shard then some l else none
    | _ => none

/-- Refined lists that have come. -/
def refinedLists (x : Slot) : List DeviceList :=
  x.replies.filterMap fun r => match r.2 with
    | .list l => if r.1 = 2 then some l else none
    | _ => none

/-- passed: the sum over the rounds (R187). -/
def passedOf (x : Slot) : Nat := ((scanLists x).map (·.passed)).foldl (· + ·) 0

/-- Mark a shard missing (R191). -/
def missShard (s : State) (n shard : Nat) : State :=
  modSlot s n fun x => { x with missing := if x.missing.contains shard then x.missing else x.missing ++ [shard] }

/-- Send one shard's sub-request to a copy not yet tried; the shard is missing where none is left (R182, R191). -/
def askShard (s : State) (n : Nat) (x : Index) (kind shard round b0 b1 : Nat) (body : List Byte) (tried : List Nat) : State :=
  match chooseCopy s x.gid shard x.mirrored (indexPoisoned s x) tried with
  | some (dev, mirror) =>
    sendSub s n x.key kind shard round b0 b1 x.gid body dev mirror (!tried.isEmpty)
  | none => missShard s n shard

/-- Entries that the shard's list of the round before carries on (R217). -/
def carriedOf (x : Slot) (shard : Nat) : List DLEntry :=
  match (latestLists (scanLists x)).find? (·.shard == shard) with | some l => l.entries | none => []

/-- The body of a query's SCAN sub-request to a shard in its present round. -/
def slotScanBody (x : Slot) (shard : Nat) : List Byte :=
  scanBody x.payload (x.pg 0 == 1) (x.pg 1) (x.pg 2) (qDev x.payload) x.pred x.vec (carriedOf x shard)

/-- Ask one shard for its scan in the present round. -/
def askScan (s : State) (n : Nat) (ix : Index) (shard : Nat) (tried : List Nat) : State :=
  match getSlot s n with
  | some x => askShard s n ix 1 shard (x.pg 3) (x.bind.getD 0 0) (x.bind.getD 1 0) (slotScanBody x shard) tried
  | none => s

/-- The merged lookup list (R189, R218). -/
def lookupList (x : Slot) : List DLEntry := mergedEntries (scanLists x)

/-- Ordinals of a shard among the best r (R190). -/
def refineOrds (x : Slot) (shard : Nat) : List Nat :=
  (((lookupList x).take (qDev x.payload)).filter fun d => ordShard d.e.ordinal == shard).map (·.e.ordinal)

/-- Ask one shard for its refinement. -/
def askRefine (s : State) (n : Nat) (ix : Index) (shard : Nat) (tried : List Nat) : State :=
  match getSlot s n with
  | some x =>
    let ords := refineOrds x shard
    if ords.isEmpty then s else askShard s n ix 2 shard 0 (x.bind.getD 0 0) 0 (refineBody ords x.vec) tried
  | none => s

/-! ## The result -/

/-- The entries of the result with the dups and attributes of the lookup stage, and the tie count (R193, R213, R218). -/
def queryResult (x : Slot) : List DLEntry × Nat :=
  let k := qK x.payload
  let look := lookupList x
  if qRefine x.payload then
    let r := qDev x.payload
    let es := sortOn (fun d : DLEntry => entryKey d.e) ((latestLists (refinedLists x)).flatMap (·.entries))
    let full := es.map fun d =>
      match look.find? fun q => q.e.ordinal == d.e.ordinal with
      | some q => { d with dups := q.dups, attrs := q.attrs }
      | none => d
    (full.take k, satAdd 32 (mergeTies (scanLists x) r) (tiesAfter (fun d : DLEntry => d.e.dist) es k))
  else (look.take k, mergeTies (scanLists x) k)

/-- A result slot (R193). -/
def resultSlot (ext : Bool) (d : DLEntry) : List Byte :=
  if ext then
    leBytes 8 d.e.ident ++ leBytes 8 d.e.ordinal ++ leBytes 4 d.e.dist ++ zeros 12 ++ slice d.attrs 0 32
  else leBytes 8 d.e.ident ++ leBytes 4 d.e.dist ++ zeros 4

/-- The sentinel slot (R193). -/
def sentinelSlot (ext : Bool) : List Byte := resultSlot ext ⟨⟨DIST_SENTINEL, SENTINEL_ORD, SENTINEL_ID⟩, 0, []⟩

/-- The mask of missing shards (R191). -/
def shardMask (l : List Nat) : Nat := l.foldl (fun m sh => m ||| 2 ^ min sh 63) 0

/-- arith_status of a query: that of every list it has taken, and of its transform. -/
def queryArith (x : Slot) : Nat :=
  x.replies.foldl (fun a r => match r.2 with | .list l => a ||| l.arith | _ => a) x.arith

/-- The completion entry of a query that succeeds (R194, R195). -/
def queryEntry (x : Slot) (shards : Nat) (es : List DLEntry) (ties : Nat) : List Byte :=
  let k := qK x.payload
  let n := es.length
  let flags := b2n (decide (n < k)) + 2 * b2n (decide (0 < ties)) +
    4 * b2n (!x.pred.isEmpty && decide (passedOf x < k)) + 8 * b2n (!x.missing.isEmpty) + 16 * x.pg 0
  let sum := fun (l : List Nat) => l.foldl (· + ·) 0
  entryOf (entryHead x.tag stOk 1 ++
    [(12, leBytes 1 flags), (13, leBytes 1 (queryArith x)), (15, leBytes 1 (x.pg 3)), (16, leBytes 2 k), (18, leBytes 2 n),
     (20, leBytes 2 (x.pg 2)), (22, leBytes 2 x.missing.length), (24, leBytes 4 ties),
     (28, leBytes 4 (satAdd 32 0 (sum (es.map (·.dups))))), (32, leBytes 8 (x.bind.getD 0 0)),
     (40, leBytes 8 (satAdd 64 0 (sum ((scanLists x).map (·.examined))))), (48, leBytes 8 (shardMask x.missing)),
     (60, leBytes 2 shards)])

/-- Complete a query: k result slots, then the entry (R193, R194, R198). -/
def finishQuery (s : State) (n : Nat) (ix : Index) : State :=
  match getSlot s n with
  | some x =>
    let r := queryResult x
    let ext := qExtended x.payload
    let out := r.1.flatMap (resultSlot ext) ++
      (List.replicate (qK x.payload - r.1.length) (sentinelSlot ext)).flatten
    completeSlot s n (queryEntry x (shardCount s ix.gid) r.1 r.2) (queryArith x) [(fld x.payload 24 8, out)]
  | none => s

/-- The next p of a query, where another round is due (R187). -/
def nextRound (x : Slot) (ix : Index) : Option Nat :=
  let mp := qMaxProbe ix x.payload
  if x.pg 0 = 1 ∨ qFixed x.payload ∨ qK x.payload ≤ passedOf x ∨ mp ≤ x.pg 2 then none else some (min mp (2 * x.pg 2))

/-- Refine the best r, or finish (R190). -/
def refineOrFinish (s : State) (n : Nat) (ix : Index) : State :=
  match getSlot s n with
  | some x =>
    if qRefine x.payload ∧ x.pg 4 = 0 then
      let t := putSlot s n { x with prog := x.prog.take 4 ++ [1] }
      let t := (List.range (shardCount s ix.gid)).foldl (fun u sh => askRefine u n ix sh []) t
      match getSlot t n with
      | some y => if y.subs.isEmpty then finishQuery t n ix else t
      | none => t
    else finishQuery s n ix
  | none => s

/-- What a query does once no reply is awaited: another round, refinement, or its end; a round that can ask no copy ends at
once. -/
def queryAdvance (ix : Index) (n : Nat) : Nat → State → State
  | 0, s => s
  | fuel + 1, s =>
    match getSlot s n with
    | some x =>
      if !x.subs.isEmpty then s
      else if x.pg 4 = 1 then finishQuery s n ix
      else
        match nextRound x ix with
        | some p =>
          let t := putSlot s n { x with prog := [x.pg 0, x.pg 2, p, x.pg 3 + 1, 0] }
          let live := (List.range (shardCount s ix.gid)).filter fun sh => !x.missing.contains sh
          queryAdvance ix n fuel (live.foldl (fun u sh => askScan u n ix sh []) t)
        | none => refineOrFinish s n ix
    | none => s

/-! ## Admission -/

/-- Bind E and s, choose the mode and send the first round; a lost lease ends the query, and one that needs a snapshot not
yet complete waits for it (R157, R172, R186, R192). -/
def launchQuery (n : Nat) (s : State) : State :=
  match getSlot s n with
  | none => s
  | some x =>
    match getIndex s (x.obj - 1) with
    | none => failSlot s n stBadParam 1
    | some ix =>
      match (if x.bind.isEmpty then bindEpoch s ix (fld x.payload 40 8) else some (x.bind.getD 0 0)) with
      | none => failSlot s n stBadParam 4
      | some e =>
        let y := { x with bind := [e, snapOf ix e] }
        if !leaseHeld s ix.gid then failSlot (putSlot s n y) n stFenced 0
        else if !x.pred.isEmpty && !predOk ix x.pred || !inlineOk x.payload then failSlot (putSlot s n y) n stBadParam 3
        else if notFinite32 (vector32 ((vecFmt (fld x.payload 2 1)).getD .fp32) ix.dim (x.vec.map fun v => BitVec.ofNat 8 v)) then
          failSlot (putSlot s n y) n stBadParam 6
        else if !x.pred.isEmpty && qMode x.payload % 4 == 0 && !snapReady s ix (snapOf ix e) then putSlot s n y
        else if phaseHeld y then holdPhase (putSlot s n y) n
        else
          match queryVector s ix ((vecFmt (fld x.payload 2 1)).getD .fp32) (x.vec.map fun v => BitVec.ofNat 8 v) with
          | none => failSlot (putSlot s n y) n stBadParam 6
          | some (v, ar) =>
            let pre := prefilterMode ix (groupSnap ix (snapOf ix e)) (qMode x.payload % 4) x.pred
            let p := if pre then qMaxProbe ix x.payload else qProbe ix x.payload
            let t := putSlot s n { y with vec := v, arith := ar, prog := [b2n pre, 0, p, 1, 0] }
            queryAdvance ix n 16 ((List.range (shardCount s ix.gid)).foldl (fun u sh => askScan u n ix sh []) t)

/-- Start a query in its slot: its checks, its vector and its predicate; while the device is not within budget it waits
ADMITTED for a read epoch (R556). -/
def startQuery (b : Src) (n : Nat) (s : State) : State :=
  match getSlot s n with
  | none => s
  | some x =>
    match queryRefusal b s x.payload, getIndex s (fld x.payload 0 2) with
    | some (st, r), _ => failSlot s n st r
    | none, some ix =>
      let raw := b.read s (fld x.payload 16 8) (queryBytes ix x.payload)
      let y := { x with obj := fld x.payload 0 2 + 1, vec := raw.map (·.toNat), pred := queryPred b s x.payload }
      let t := refIndex (putSlot s n y) (fld x.payload 0 2) true
      if withinBudget s then launchQuery n t else t
    | none, none => failSlot s n stBadParam 1

/-- QUERY (R163, R164). -/
def execQueryEntry (fn ring : Nat) (h : HostView) (s : State) : Host.Outcome State Fault Refusal :=
  admitRow "QUERY" 1 fn ring h startQuery s

/-! ## Replies -/

/-- A copy is abandoned: the other one is asked, or the shard is missing (R191). -/
def queryAbandon (n : Nat) (o : SubOut) (s : State) : State :=
  let t := closeSub s n o
  match (getSlot t n).bind fun x => getIndex t (x.obj - 1) with
  | none => t
  | some ix =>
    let u := if o.retried then missShard t n o.shard
      else if o.kind = 1 then askScan t n ix o.shard [o.device] else askRefine t n ix o.shard [o.device]
    queryAdvance ix n 16 u

/-- Put a list in a slot: of two refined lists of a shard the longer stands. -/
def keepList (s : State) (n kind : Nat) (l : DeviceList) : State :=
  modSlot s n fun x =>
    let longer := x.replies.any fun r => match r.2 with
      | .list q => kind == 2 && r.1 == 2 && q.shard == l.shard && decide (l.entries.length < q.entries.length)
      | _ => false
    if longer then x else { x with replies := x.replies ++ [(kind, .list l)] }

/-- A device list comes for a query: it is kept, unless it reports poison; a refined list that lost an entry sends the shard
to its other copy (R190, R191). -/
def queryReply (n : Nat) (o : SubOut) (r : Reply) (s : State) : State :=
  match r, getSlot s n with
  | .list l, some x =>
    if l.fenced || l.poison then queryAbandon n o s
    else
      let short := o.kind == 2 && decide (l.entries.length < (refineOrds x o.shard).length)
      let t := keepList s n o.kind l
      if short then queryAbandon n o t
      else
        let u := closeSub t n o
        match getIndex u (x.obj - 1) with
        | some ix => queryAdvance ix n 16 u
        | none => u
  | _, _ => queryAbandon n o s

end Sys2Proof.Machine
end

