-- ==== Sys2Proof/Machine/AttnStep.lean ====
section
/-!
DEFINITION. ATTN_STEP at its home device (08): checks, the bound token count, selection, combination, the append of new
tokens and its commit; the release of steps that wait for a position.
-/

namespace Sys2Proof.Machine

/-! ## Checks (R235 to R237) -/

/-- Format of the queries, of the keys and values, and of the output. -/
def aFmt (d : List Byte) (place : Nat) : Fmt := (vecFmt (fld d (8 + place) 1)).getD .fp32

/-- Ranges that need no session. -/
def stepFieldsOk (d : List Byte) : Bool :=
  decide (1 ≤ aNew d) && decide (aNew d ≤ 64) && decide (fld d 7 1 < 8) && (vecFmt (fld d 8 1)).isSome &&
    (vecFmt (fld d 9 1)).isSome && (vecFmt (fld d 10 1)).isSome && decide (1 ≤ aProbes d) && decide (aProbes d ≤ 4) &&
    decide (aTop d ≤ 1024) && decide (aSink d ≤ 64) && decide (1 ≤ aRecent d) && decide (aRecent d ≤ 64) &&
    !(f32 (aScale d)).notFinite && Val.zero.numLt (f32 (aScale d)) && zeroAt d 20 4 && zeroAt d 28 4 &&
    fld d 32 8 % 16 == 0 && fld d 40 8 % 16 == 0 && fld d 48 8 % 16 == 0 &&
    (aWantSel d || (zeroAt d 56 8 && zeroAt d 68 4)) && zeroAt d 80 48

/-- Ranges against the session's geometry. -/
def stepGeoOk (g : List Byte) (d : List Byte) : Bool :=
  decide (aLayer d < geoLayers g) && decide (aRows g d ≤ 64) && decide (aProbes d ≤ min 4 (aRows g d)) &&
    (aAppend d || decide (aPosition d + aNew d ≤ geoMax g))

/-- Bytes of an element of the queries, of the keys and values, of the output. -/
def aElem (d : List Byte) (place : Nat) : Nat := (aFmt d place).width / 8

/-- Bytes of the query buffer, of the keys and values, of the output, and of the selection. -/
def queryLen (g d : List Byte) : Nat := geoHeads g * aRows g d * geoDim g * aElem d 0
def kvLen (g d : List Byte) : Nat := 2 * geoHeads g * aNew d * geoDim g * aElem d 1
def outLen (g d : List Byte) : Nat := geoHeads g * aRows g d * geoDim g * aElem d 2
def selLen (g d : List Byte) : Nat := geoHeads g * (aSink d + aRecent d + aTop d) * 4

/-- Buffers of a step with their lengths: what it reads, then what it writes. -/
def stepReads (g d : List Byte) : List (Nat × Nat) := [(fld d 32 8, queryLen g d), (fld d 40 8, kvLen g d)]
def stepWrites (d : List Byte) : List (Nat × Nat) :=
  (fld d 48 8, fld d 64 4) :: (if aWantSel d then [(fld d 56 8, fld d 68 4)] else [])

/-- Whether the buffers of a step are valid and large enough. -/
def stepBuffersOk (b : Src) (s : State) (g d : List Byte) : Bool :=
  (stepReads g d ++ stepWrites d).all (fun p => b.ok s p.1 p.2) && decide (outLen g d ≤ fld d 64 4) &&
    (!aWantSel d || decide (selLen g d ≤ fld d 68 4))

/-- The refusal of a step at admission, by status and reason; the position is looked at when it starts. -/
def stepRefusal (b : Src) (s : State) (d : List Byte) : Option (Nat × Nat) :=
  if !stepFieldsOk d then some (stBadParam, 2)
  else match sessionOf s (aSession d) with
    | none => some (stBadParam, 10)
    | some x =>
      (firstFail [(x.ws == b.ws, stNoAuth, 0), (x.state == 1 || x.roll.isSome, stBadParam, 10), (stepGeoOk x.geometry d, stBadParam, 2),
        (!aAppend d || decide (aPosition d + aNew d ≤ geoMax x.geometry), stQuota, 0),
        (stepBuffersOk b s x.geometry d, stBadParam, 5)]).or (readsFail b s (stepReads x.geometry d))

/-! ## The slot of a step

obj: the session handle; vec: query rows, FP32; pred: the new keys, then the values, E4M3; bind: T and layer; prog: stage
(0 not started, 1 scores, 2 partials, 3 append), blocks scored, tie count, whether a roll holds it, whether it commits;
missing: per head a count and its selected blocks; count: the phase of a durable request. -/

/-- T and the layer that a step has bound. -/
def Slot.boundT (x : Slot) : Nat := x.bind.getD 0 0

/-- The selected blocks of every head. -/
def parseSel : Nat → List Nat → List (List Nat)
  | 0, _ => []
  | h + 1, l => match l with
    | n :: t => t.take n :: parseSel h (t.drop n)
    | [] => [] :: parseSel h []

def Slot.selected (x : Slot) (heads : Nat) : List (List Nat) := parseSel heads x.missing

/-- Query row i of a head. -/
def Slot.row (x : Slot) (g : List Byte) (head i : Nat) : List Nat :=
  (x.vec.drop ((head * aRows g x.payload + i) * geoDim g)).take (geoDim g)

/-- The E4M3 key, or value, of a new token of a head (R236). -/
def Slot.newElem (x : Slot) (g : List Byte) (value : Bool) (head i : Nat) : List Byte :=
  let n := aNew x.payload
  slice x.pred (((if value then geoHeads g * n else 0) + head * n + i) * geoDim g) (geoDim g)

/-! ## Selection (R242, R245, R250) -/

/-- Probes of a head: exact sums of consecutive groups of rows, with arith_status (R242). -/
def headProbes (g : List Byte) (x : Slot) (head : Nat) : List Coded × List (List Nat) :=
  let R := aRows g x.payload
  let P := max 1 (aProbes x.payload)
  let size := fun p => if p < R % P then R / P + 1 else R / P
  let start := fun p => ((List.range p).map size).foldl (· + ·) 0
  let ps : List (List Coded) := (List.range P).map fun p =>
    let rows := (List.range (size p)).map fun i => x.row g head (start p + i)
    (List.range (geoDim g)).map fun j => (LAcc.sum (rows.map fun r => f32 (r.getD j 0))).read .fp32
  (ps.flatten, ps.map fun p => p.map Prod.fst)

/-- The body of an ATTN_SCORE sub-request. -/
def scoreBody (g : List Byte) (x : Slot) : List Byte :=
  slice x.payload 0 128 ++ (List.range (geoHeads g)).flatMap fun h =>
    (headProbes g x h).2.flatMap fun p => p.flatMap (leBytes 4)

/-- The body of an ATTN_PARTIAL sub-request. -/
def partialBody (g : List Byte) (x : Slot) : List Byte :=
  slice x.payload 0 128 ++ ((x.selected (geoHeads g)).flatMap fun l => leBytes 4 l.length ++ l.flatMap (leBytes 4)) ++
    x.vec.flatMap (leBytes 4)

/-- Device lists of a head that have come, by position. -/
def headLists (x : Slot) (head : Nat) : List DeviceList :=
  x.replies.filterMap fun r => match r.2 with
    | .heads ls => ls[head]?
    | _ => none

/-- The blocks a head selects: its windows and the best top_blocks candidates, ascending (R241, R245). -/
def headSelected (x : Slot) (head : Nat) : List Nat :=
  let T := x.boundT
  let best := ((mergedEntries (headLists x head)).take (aTop x.payload)).map (·.e.ordinal)
  let w := windowBlocks x.payload T
  (List.range (storedBlocks T)).filter fun b => w.contains b || best.contains b

/-- The tie count of a head (R246). -/
def headTies (x : Slot) (head : Nat) : Nat :=
  let k := aTop x.payload
  if k = 0 ∨ (candidateBlocks x.payload x.boundT).length < k then 0 else mergeTies (headLists x head) k

/-! ## Sub-requests -/

/-- Send a sub-request of a step to the device at a position (R240). -/
def askPosition (s : State) (n kind p : Nat) (retried : Bool) : State :=
  match getSlot s n with
  | none => s
  | some x =>
    match sessionOf s x.obj with
    | none => s
    | some q =>
      let body := if kind = 3 then scoreBody q.geometry x else partialBody q.geometry x
      sendSub s n x.obj kind p 0 x.boundT (aLayer x.payload) q.group body (q.deviceAt p) false retried

/-- Positions that hold a selected block. -/
def selectedPositions (q : Session) (sel : List (List Nat)) : List Nat :=
  (List.range q.devices.length).filter fun p => sel.any fun l => l.any fun b => q.posOf b == p

/-! ## The end of a step (R251, R252) -/

/-- The completion entry of a step. -/
def stepEntry (x : Slot) (after short spills ties scored arith sel : Nat) : List Byte :=
  entryOf (entryHead x.tag stOk 4 ++
    [(12, leBytes 1 (short + 2 * b2n (decide (0 < ties)))), (13, leBytes 1 arith), (16, leBytes 4 x.boundT), (20, leBytes 4 after),
     (24, leBytes 2 sel), (26, leBytes 2 spills), (28, leBytes 4 ties), (32, leBytes 4 0xFFFFFFFF), (40, leBytes 8 scored)])

/-- A step ends because a selected block is lost (R252, R253). -/
def loseStep (s : State) (n block : Nat) : State :=
  match getSlot s n with
  | some x => completeSlot s n (failEntry x stStateLost 0 |> fun e => e.take 32 ++ leBytes 4 block ++ e.drop 36) 0 []
  | none => s

/-- The new-token leaf of a row (R248). -/
def newLeaf (g : List Byte) (x : Slot) (head i : Nat) (row : List Val) : FPartial :=
  let toks := (List.range (aNew x.payload)).map fun t =>
    (decide (t ≤ i / max 1 (geoGroup g)), e4m3Vals (x.newElem g false head t), e4m3Vals (x.newElem g true head t))
  blockPartial row (aScale x.payload) (geoDim g) toks

/-- The partials that positions have sent for a row, by the first leaf of each node: a position's partials come head by
head and row by row. -/
def rowGiven (q : Session) (x : Slot) (sel : List (List Nat)) (head i : Nat) : List (Nat × FPartial) :=
  let R := aRows q.geometry x.payload
  let own := fun (h : Nat) => leafPos q (sel.getD h [])
  let parts := fun (h p : Nat) => (treeOf ((sel.getD h []).length + 1)).parts (own h) p
  x.replies.flatMap fun r => match r.2 with
    | .partials ps _ =>
      let before := ((List.range head).map fun h => R * (parts h r.1).length).foldl (· + ·) 0
      let mine := parts head r.1
      (mine.map PTree.first).zip (((ps.drop (before + i * mine.length)).take mine.length).map fun p => p.2.2)
    | _ => []

/-- The output of a row and its arith_status (R249). -/
def rowOutput (q : Session) (x : Slot) (sel : List (List Nat)) (head i : Nat) : List Nat × Nat :=
  let g := q.geometry
  let l := sel.getD head []
  let row := mxRow (x.row g head i)
  let given := rowGiven q x sel head i
  let leaf := fun k =>
    if k = l.length then newLeaf g x head i row.1
    else ((given.find? (·.1 == k)).map (·.2)).getD (Partial.masked (geoDim g), 0)
  let o := stepOutput (aFmt x.payload 2) ((treeOf (l.length + 1)).join (leafPos q l) leaf)
  (o.1, o.2 ||| row.2)

/-- Every row of the output, and the arith_status of all. -/
def stepOutputs (q : Session) (x : Slot) (sel : List (List Nat)) : List Nat × Nat :=
  (List.range (geoHeads q.geometry)).foldl (fun acc h =>
    (List.range (aRows q.geometry x.payload)).foldl (fun acc i =>
      let o := rowOutput q x sel h i
      (acc.1 ++ o.1, acc.2 ||| o.2)) acc) ([], 0)

/-- The selection list (R250). -/
def selectionBytes (d : List Byte) (sel : List (List Nat)) : List Byte :=
  let n := aSink d + aRecent d + aTop d
  sel.flatMap fun l => (l ++ List.replicate (n - l.length) 0xFFFFFFFF).flatMap (leBytes 4)

/-- A step completes: output and selection, then the entry; its commit follows with the release of its slot. -/
def finishStep (n : Nat) (s : State) : State :=
  match getSlot s n with
  | none => s
  | some x =>
    match sessionOf s x.obj with
    | none => failSlot s n stBadParam 10
    | some q =>
      let d := x.payload
      let sel := x.selected (geoHeads q.geometry)
      let o := stepOutputs q x sel
      let lists := (List.range (geoHeads q.geometry)).flatMap (headLists x)
      let arith := lists.foldl (fun a l => a ||| l.arith) (x.arith ||| o.2)
      let spills := satAdd 16 0 ((x.replies.map fun r => match r.2 with | .partials _ k => k | _ => 0).foldl (· + ·) 0)
      let short := b2n (decide ((candidateBlocks d x.boundT).length < aTop d))
      let after := if x.pg 4 = 1 then x.boundT + aNew d else if aAppend d then q.count (aLayer d) else x.boundT
      let e := stepEntry x after short spills (x.pg 2) (x.pg 1) arith ((sel.getD 0 []).length)
      completeSlot s n e arith
        ((fld d 48 8, (aFmt d 2).pack o.1) :: (if aWantSel d then [(fld d 56 8, selectionBytes d sel)] else []))

/-! ## Appending (R233, R284) -/

/-- Head and block of every part of an append. -/
def appendParts (q : Session) (x : Slot) : List (Nat × Nat) :=
  let lo := x.boundT / 64
  let hi := (x.boundT + aNew x.payload - 1) / 64
  (List.range (geoHeads q.geometry)).flatMap fun h => (List.range (hi + 1 - lo)).map fun i => (h, lo + i)

/-- The new tokens of a head that fall in a block, with the place of the first (R233). -/
def partTokens (s : State) (q : Session) (x : Slot) (head block : Nat) : Nat × List Token :=
  let T := x.boundT
  let g := q.geometry
  let mine := (List.range (aNew x.payload)).filter fun i => (T + i) / 64 == block
  let code := fun key => match getBook s (geoBook g) with
    | some b => b.encode (aLayer x.payload) head (e4m3Vals key)
    | none => []
  (if T / 64 = block then T % 64 else 0,
   mine.map fun i => let k := x.newElem g false head i; ⟨code k, k, x.newElem g true head i⟩)

/-- Bytes of an APPEND message behind its head: the home device, where and what (DESIGN CHOICE, assumption 45). -/
def appendMsg (home layer head block at_ : Nat) (ts : List Token) : List Byte :=
  leBytes 2 home ++ leBytes 2 layer ++ leBytes 1 head ++ leBytes 1 at_ ++ leBytes 1 ts.length ++ zeros 1 ++ leBytes 4 block ++
    zeros 4 ++ ts.flatMap fun t => t.code ++ t.key ++ t.value

/-- Bytes of a JOURNAL message behind its head: the home device that awaits the partner, and the entry (DESIGN CHOICE, assumption 45). -/
def journalMsg (home : Nat) (e : JournalEnt) : List Byte := leBytes 2 home ++ zeros 6 ++ journalEntBytes e

/-- The holder of a block writes appended tokens and its own journal: status, the entry for the partner, state. -/
def holdAppend (s : State) (ws key layer head block at_ : Nat) (ts : List Token) : Nat × JournalEnt × State :=
  let none_ : JournalEnt := ⟨layer, head, block, 0, [], [], false, false⟩
  match sessionByKey s ws key with
  | none => (stFenced, none_, s)
  | some q =>
    let q := q.mapBlock block
    let opened := match q.blockAt layer head block with
      | some y => some (y, q, s)
      | none => openBlock s q layer head block
    match opened with
    | none => (stQuota, none_, s)
    | some (y, q, t) =>
      let t := writeTokens (putSession t q) q y at_ ts
      let e := entOf t q y true
      let r := journalEnt t q e
      (r.1, { e with own := false }, r.2)

/-- Await an acknowledgement of part j of an append; round tells the holder's, 0, from the partner's, 1. -/
def awaitAck (s : State) (n j role dev txn : Nat) : State :=
  modSlot s n fun x =>
    let o : SubOut := { kind := 9, shard := j, round := role, device := dev, mirror := false, retried := false, sentAt := ns s,
                        txn := txn }
    { x with st := .waiting, wait := x.wait + 1, subs := x.subs ++ [o] }

/-- Write part j of an append at its holder: here, or by a message; and journal it at the partner (R284). -/
def appendPart (n j : Nat) (s : State) : Nat × State :=
  match getSlot s n with
  | none => (stOk, s)
  | some x =>
    match sessionOf s x.obj with
    | none => (stBadParam, s)
    | some q0 =>
      match (appendParts q0 x)[j]? with
      | none => (stOk, s)
      | some (h, b) =>
        let q := q0.mapBlock b
        let s := putSession s q
        let ts := partTokens s q x h b
        let p := q.posOf b
        let dev := q.deviceAt p
        let txn := s.fab.nextTxn
        let s := { s with fab := { s.fab with nextTxn := wrapAdd 64 txn 1 } }
        let part := q.partnerOf s p
        let s := match part with | some d => awaitAck s n j 1 d txn | none => s
        if dev = fabricDev s then
          let r := holdAppend s q.ws q.key (aLayer x.payload) h b ts.1 ts.2
          if r.1 ≠ stOk then (r.1, r.2.2)
          else match part with
            | some d => (stOk, sendSess r.2.2 d txn q 18 (journalMsg (fabricDev s) r.2.1))
            | none => (stOk, r.2.2)
        else (stOk, sendSess (awaitAck s n j 0 dev txn) dev txn q 17
          (appendMsg (fabricDev s) (aLayer x.payload) h b ts.1 ts.2))

/-- Every part of an append in turn; the first failure stands. -/
def appendAll (n : Nat) : List Nat → State → Nat × State
  | [], s => (stOk, s)
  | j :: l, s =>
    let r := appendPart n j s
    if r.1 = stOk then appendAll n l r.2 else r

/-- After the partials: append the new tokens, or complete (R233, R234). -/
def appendOrFinish (n : Nat) (s : State) : State :=
  match getSlot s n with
  | none => s
  | some x =>
    if x.pg 4 = 0 then finishStep n s
    else match sessionOf s x.obj with
      | none => failSlot s n stBadParam 10
      | some q =>
        let s := modSlot s n fun y => { y with prog := [3, y.pg 1, y.pg 2, y.pg 3, 1] }
        let r := appendAll n (List.range (appendParts q x).length) s
        if r.1 ≠ stOk then failSlot r.2 n r.1 0
        else match getSlot r.2 n with
          | some y => if y.subs.isEmpty then finishStep n r.2 else r.2
          | none => r.2

/-! ## Stages -/

/-- Selection is done: the selected sets, and the partials of the positions that hold them (R245, R249). -/
def selectStage (n : Nat) (s : State) : State :=
  match getSlot s n with
  | none => s
  | some x =>
    match sessionOf s x.obj with
    | none => failSlot s n stBadParam 10
    | some q =>
      let H := geoHeads q.geometry
      let sel := (List.range H).map (headSelected x)
      let ties := satAdd 32 0 (((List.range H).map (headTies x)).foldl (· + ·) 0)
      let scored := satAdd 64 0 ((((List.range H).flatMap (headLists x)).map (·.examined)).foldl (· + ·) 0)
      let t := putSlot s n { x with prog := [2, scored, ties, 0, x.pg 4], missing := sel.flatMap fun l => l.length :: l }
      let t := (selectedPositions q sel).foldl (fun u p => askPosition u n 4 p false) t
      match getSlot t n with
      | some y => if y.subs.isEmpty then appendOrFinish n t else t
      | none => t

/-- Start a step whose T is bound: its probes go to every position, unless nothing is scored (R240, R245). -/
def beginStep (n T : Nat) (commits : Bool) (s : State) : State :=
  match getSlot s n with
  | none => s
  | some x =>
    match sessionOf s x.obj with
    | none => failSlot s n stBadParam 10
    | some q =>
      let arith := (List.range (geoHeads q.geometry)).foldl (fun a h =>
        (headProbes q.geometry x h).1.foldl (fun a c => a ||| c.2) a) x.arith
      let y := { x with st := .running, bind := [T, aLayer x.payload], prog := [1, 0, 0, 0, b2n commits] }
      if phaseHeld x then holdPhase (putSlot s n { x with bind := [T, aLayer x.payload] }) n
      else if aTop x.payload = 0 ∨ (candidateBlocks x.payload T).isEmpty then selectStage n (putSlot s n y)
      else (List.range q.devices.length).foldl (fun u p => askPosition u n 3 p false) (putSlot s n { y with arith := arith })

/-- Whether an admitted APPEND step of the same layer will raise the count to a position (R238). -/
def raisesTo (s : State) (n : Nat) (x : Slot) : Bool :=
  s.hub.slots.any fun p => p.1 != n && p.2.kind == 4 && p.2.obj == x.obj && aLayer p.2.payload == aLayer x.payload &&
    aAppend p.2.payload && aPosition p.2.payload + aNew p.2.payload == aPosition x.payload &&
    (match p.2.done with | some e => fld e 8 2 == stOk | none => true)

/-- Whether a durable request's append at a position has been made before (R296). -/
def appendedBefore (q : Session) (x : Slot) : Bool :=
  match x.req with
  | some id => aAppend x.payload && q.appends.contains ⟨aLayer x.payload, id, x.count, aPosition x.payload⟩
  | none => false

/-- Start a step, leave it waiting, or reject it, by its position (R238); one whose binding is recorded, or whose append has
been made, runs at its position with nothing to commit (R294, R296). A lost lease ends it, and a roll holds it (R253,
R291). -/
def launchStep (n : Nat) (s : State) : State :=
  match getSlot s n with
  | none => s
  | some x =>
    match sessionOf s x.obj with
    | none => failSlot s n stBadParam 10
    | some q =>
      let T := q.count (aLayer x.payload)
      let pos := aPosition x.payload
      if q.roll.isSome && x.pg 3 == 1 then s
      else if !leaseHeld s q.group then failSlot s n stFenced 0
      else if T = pos then beginStep n pos (aAppend x.payload) s
      else if pos < T ∧ (appendedBefore q x ∨ (!x.bind.isEmpty ∧ !aAppend x.payload)) then beginStep n pos false s
      else if T < pos ∧ raisesTo s n x then s
      else failSlot s n stBadParam 11

/-- Start an ATTN_STEP in its slot: its checks and its operands, then its position (DESIGN CHOICE, assumption 104). -/
def startStep (b : Src) (n : Nat) (s : State) : State :=
  match getSlot s n with
  | none => s
  | some x =>
    match stepRefusal b s x.payload, sessionOf s (aSession x.payload) with
    | some (st, r), _ => failSlot s n st r
    | none, some q =>
      let d := x.payload
      let g := q.geometry
      let qn := geoHeads g * aRows g d * geoDim g
      let vec := vector32 (aFmt d 0) qn (b.read s (fld d 32 8) (queryLen g d))
      let kn := 2 * geoHeads g * aNew d * geoDim g
      let kv := vector32 (aFmt d 1) kn (b.read s (fld d 40 8) (kvLen g d))
      if notFinite32 vec ∨ notFinite32 kv then failSlot s n stBadParam 6
      else
        let cs := kv.map fun c => convert .e4m3 (f32 c)
        let y := { x with obj := aSession d, vec := vec, pred := cs.map fun c => BitVec.ofNat 8 c.1,
                          arith := cs.foldl (fun a c => a ||| c.2) 0, prog := [0, 0, 0, b2n q.roll.isSome, 0] }
        launchStep n (refSession (putSlot s n y) q.ws q.key true)
    | none, none => failSlot s n stBadParam 10

/-- ATTN_STEP (R235). -/
def execAttnStep (fn ring : Nat) (h : HostView) (s : State) : Host.Outcome State Fault Refusal :=
  admitRow "ATTN_STEP" 4 fn ring h startStep s

/-- Whether a slot holds a step that has not started. -/
def stepWaits (s : State) (n : Nat) : Bool :=
  match getSlot s n with
  | some x => x.kind == 4 && x.st == .admitted && x.done.isNone && x.obj != 0 && x.pg 0 == 0
  | none => false

/-- ATTN_POSITION_RELEASE (R238): the step starts or is rejected once the step ahead has committed or failed. -/
def execAttnPositionRelease (slot : Nat) (s : State) : Host.Outcome State Fault Refusal :=
  .next (when (firmwareRuns s && stepWaits s slot) (launchStep slot) s)

/-! ## Commit (R234, R296) -/

/-- Remember an append of a durable request: the last 64 of a layer. -/
def keepAppend (l : List AppendRec) (a : AppendRec) : List AppendRec :=
  let same := l.filter (·.layer == a.layer)
  let l := if 64 ≤ same.length then l.erase (same.headD a) else l
  l ++ [a]

/-- A step that ends with ST_OK commits its tokens: T_ℓ rises, and the other devices are told (R234)
(DEDUCED, assumption 110). -/
def commitStep (s : State) (x : Slot) : State :=
  match sessionOf s x.obj, x.done with
  | some q, some e =>
    if fld e 8 2 = stOk ∧ x.pg 4 = 1 then
      let l := aLayer x.payload
      let T := max (q.count l) (x.boundT + aNew x.payload)
      let q := q.setCount l T
      let q := match x.req with
        | some id => { q with appends := keepAppend q.appends ⟨l, id, x.count, x.boundT⟩ }
        | none => q
      tellSession (putSession s q) q 19 (leBytes 2 l ++ zeros 2 ++ leBytes 4 T)
    else s
  | _, _ => s

/-! ## Replies -/

/-- Every part of an append that still awaits an acknowledgement for index j. -/
def dropAcks (s : State) (n j : Nat) : State :=
  modSlot s n fun x =>
    let gone := x.subs.filter fun o => o.kind == 9 && o.shard == j
    { x with subs := x.subs.filter fun o => !gone.contains o, wait := x.wait - gone.length }

/-- A sub-request of a step is sent again, to the device that holds its position now (R253). -/
def attnAbandon (n : Nat) (o : SubOut) (s : State) : State :=
  if o.kind = 9 then
    let r := appendPart n o.shard (dropAcks s n o.shard)
    if r.1 = stOk then r.2 else failSlot r.2 n r.1 0
  else askPosition (closeSub s n o) n o.kind o.shard true

/-- Keep a reply of a position; with the last one the step goes on. -/
def keepAttn (n : Nat) (o : SubOut) (r : Reply) (next : Nat → State → State) (s : State) : State :=
  let t := modSlot (closeSub s n o) n fun x => { x with replies := x.replies ++ [(o.shard, r)] }
  match getSlot t n with
  | some x => if x.subs.isEmpty then next n t else t
  | none => t

/-- How many partials a position sends for a step. -/
def partialCount (q : Session) (x : Slot) (p : Nat) : Nat :=
  let R := aRows q.geometry x.payload
  ((x.selected (geoHeads q.geometry)).map fun l =>
    R * ((treeOf (l.length + 1)).parts (leafPos q l) p).length).foldl (· + ·) 0

/-- A reply to a sub-request of a step (R245, R249, R253). -/
def attnReply (n : Nat) (o : SubOut) (r : Reply) (s : State) : State :=
  match getSlot s n with
  | none => s
  | some x =>
    match sessionOf s x.obj with
    | none => failSlot s n stBadParam 10
    | some q =>
      match r with
      | .heads ls =>
        if o.kind = 3 ∧ ls.length = geoHeads q.geometry then keepAttn n o r selectStage s else attnAbandon n o s
      | .partials ps _ =>
        if o.kind = 4 ∧ ps.length = partialCount q x o.shard then keepAttn n o r appendOrFinish s else attnAbandon n o s
      | .update st l =>
        if o.kind = 9 then
          if st = stOk then
            let t := closeSub s n o
            match getSlot t n with
            | some y => if y.subs.isEmpty then finishStep n t else t
            | none => t
          else if st = stFenced then attnAbandon n o s else failSlot s n st 0
        else if st = stStateLost then loseStep s n (l.getD 0 0xFFFFFFFF)
        else attnAbandon n o s
      | _ => attnAbandon n o s

end Sys2Proof.Machine
end

