-- ==== Sys2Proof/Machine/TableBase.lean ====
section
/-!
DEFINITION. Embedding tables (09) as shared operations: the parameter block, row records and their placement (R256 to
R260), versions and their regions (R262, R263, R276), references and deferred frees (R265, R266).
-/

namespace Sys2Proof.Machine

/-! ## Parameters (Table: Table parameter block) -/

def Table.key (t : Table) : Nat := fld t.params 0 8
def Table.rows (t : Table) : Nat := fld t.params 8 8
def Table.dim (t : Table) : Nat := fld t.params 16 2
def Table.codeBits (t : Table) : Nat := fld t.params 18 1
def Table.mirrored (t : Table) : Bool := bit (fld t.params 19 1) 0
def Table.isPool (t : Table) : Bool := bit (fld t.params 19 1) 1
def Table.optimiser (t : Table) : Nat := fld t.params 20 1
def Table.shards (t : Table) : Nat := fld t.params 22 2
def Table.gid (t : Table) : Nat := fld t.params 28 4
/-- The occurrences from which a row takes the hot path. -/
def Table.hot (t : Table) : Nat := if fld t.params 32 4 = 0 then 4096 else fld t.params 32 4
def Table.eps (t : Table) : Nat := fld t.params 36 4
def Table.coordinator (t : Table) : Nat := fld t.params 40 2
def Table.poolNode (t : Table) : Nat := fld t.params 48 8

/-- QMAX of R275. -/
def Table.rowMax (t : Table) : Nat := if t.codeBits = 8 then 255 else 15

/-- Bytes of a row's codes (R258). -/
def Table.codeBytes (t : Table) : Nat := if t.codeBits = 8 then t.dim else t.dim / 2

/-- row_len (R258). -/
def Table.rowLen (t : Table) : Nat := 32 + 32 * cdiv t.codeBytes 32

/-- P, the rows of a region (R260). -/
def Table.perRegion (t : Table) : Nat := 4194304 / t.rowLen

/-! ## Tables and versions -/

def getTable (s : State) (h : Nat) : Option Table := (s.tables.find? (·.1 == h)).map (·.2)

def putTable (s : State) (h : Nat) (t : Table) : State := { s with tables := Tab.insert s.tables h t }

/-- The table of a workspace by key. -/
def tableByKey (s : State) (ws key : Nat) : Option (Nat × Table) :=
  s.tables.find? fun p => p.2.ws == ws && p.2.key == key

/-- The live version of a number. -/
def Table.version (t : Table) (v : Nat) : Option Version := (t.slots.filterMap id).find? (·.num == v)

/-- The version that new requests bind. -/
def Table.current (t : Table) : Option Version := (t.slots.filterMap id).find? (·.state == 3)

/-- Change the live version of a number. -/
def Table.modVersion (t : Table) (v : Nat) (f : Version → Version) : Table :=
  { t with slots := t.slots.map fun o => o.map fun x => if x.num = v then f x else x }

/-- Change a version of a table. -/
def modVersion (s : State) (h v : Nat) (f : Version → Version) : State :=
  match getTable s h with
  | some t => putTable s h (t.modVersion v f)
  | none => s

/-- The place of a shard among the copies that this device holds: whether it is the mirror copy. -/
def Table.placeOf (t : Table) (shard : Nat) : Option Bool :=
  if t.shardP = shard then some false else if t.shardM = shard then some true else none

/-- Whether a copy holds its shard's content. -/
def Table.liveAt (t : Table) (mirror : Bool) : Bool := if mirror then t.liveM else t.liveP

/-- The shard of a place, 0xFFFF for none. -/
def Table.shardAt (t : Table) (mirror : Bool) : Nat := if mirror then t.shardM else t.shardP

/-- Update count of a copy of a version. -/
def Version.count (x : Version) (mirror : Bool) : Nat := if mirror then x.uMirror else x.uPrimary

/-- Regions of a copy: unit index, first page, pages. -/
def Version.regionsAt (x : Version) (mirror : Bool) : List (Nat × Nat × Nat) := if mirror then x.regionsM else x.regionsP

/-- The last update that a copy has applied. -/
def Version.mark (x : Version) (mirror : Bool) : Option (Nat × Nat × List Nat) := if mirror then x.markM else x.markP

/-- A copy raises its update count and records the update (R274). -/
def Version.raise (x : Version) (mirror : Bool) (u : Nat) (mark : Nat × Nat × List Nat) : Version :=
  if mirror then { x with uMirror := u, markM := some mark } else { x with uPrimary := u, markP := some mark }

/-- The count that a request binds now: an announced update's, once it is announced (R274). -/
def Version.bindCount (x : Version) : Nat := max x.updates x.announced

/-- Owner number of the shard journal of a table's copy. -/
def tableOwner (h : Nat) (mirror : Bool) : Nat := 2 ^ 40 + 2 * h + b2n mirror

/-! ## Placement (R260, R276) -/

/-- Rows of a shard: L_s. -/
def Table.shardRows (t : Table) (shard : Nat) : Nat := cdiv (t.rows - shard) t.shards

/-- Rows of a shard that a unit holds, of U units. -/
def Table.unitRows (t : Table) (shard nUnits unit : Nat) : Nat := cdiv (t.shardRows shard - unit) (max 1 nUnits)

/-- Pages of each region of a unit. -/
def Table.regionPages (t : Table) (shard nUnits unit : Nat) : List Nat :=
  let n := t.unitRows shard nUnits unit
  let rest := n % t.perRegion
  List.replicate (n / t.perRegion) 64 ++ (if rest = 0 then [] else [cdiv (rest * t.rowLen) 65536])

/-- Every region of a shard copy: unit index and pages. -/
def Table.copyPages (t : Table) (s : State) (shard : Nat) : List (Nat × Nat) :=
  let us := (unitSet s).length
  (List.range us).flatMap fun u => (t.regionPages shard us u).map fun n => (u, n)

/-- Allocate regions on their units. -/
def allocRegions (ws : Nat) (units : List Nat) : List (Nat × Nat) → State → Option (List (Nat × Nat × Nat) × State)
  | [], s => some ([], s)
  | (u, n) :: t, s =>
    (allocMarver s ws (units.getD u 0) n).bind fun a =>
      (allocRegions ws units t a.2).map fun r => ((u, a.1, n) :: r.1, r.2)

/-- The MA of a row in a copy of a version (R260). -/
def rowMa (s : State) (t : Table) (x : Version) (mirror : Bool) (row : Nat) : Nat :=
  let l := row / t.shards
  let us := max 1 (unitSet s).length
  let i := l / us
  match ((x.regionsAt mirror).filter (·.1 == l % us))[i / t.perRegion]? with
  | some r => maOfPage s r.2.1 + (i % t.perRegion) * t.rowLen
  | none => 0

/-! ## Row records (R258) -/

def rowScale (r : List Byte) : Val := Fmt.decode .fp16 (fld r 0 2)
def rowOffset (r : List Byte) : Val := Fmt.decode .fp16 (fld r 2 2)
def rowPresent (r : List Byte) : Bool := bit (fld r 8 1) 0
def rowNumber (r : List Byte) : Nat := fld r 20 8

/-- Code j of a row. -/
def Table.code (t : Table) (r : List Byte) (j : Nat) : Nat :=
  if t.codeBits = 8 then fld r (32 + j) 1
  else let b := fld r (32 + j / 2) 1; if j % 2 = 0 then b % 16 else b / 16

/-- Codes of a row as they are stored. -/
def Table.packCodes (t : Table) : List Nat → List Byte
  | [] => []
  | [a] => leBytes 1 a
  | a :: b :: l => if t.codeBits = 8 then leBytes 1 a ++ t.packCodes (b :: l) else leBytes 1 (a + 16 * b) ++ t.packCodes l

/-- Finite and not negative; −0 is not below 0. -/
def finiteNonNeg : Val → Bool
  | .fin neg n _ => !neg || n == 0
  | _ => false

/-- Whether a header keeps R258 as row `row`. -/
def Table.headerOk (t : Table) (row : Nat) (r : List Byte) : Bool :=
  finiteNonNeg (rowScale r) && !(rowOffset r).notFinite && finiteNonNeg (f32 (fld r 4 4)) &&
    (t.optimiser == 2 || fld r 4 4 == 0) && decide (fld r 8 1 < 2) && zeroAt r 9 7 && rowNumber r == row && zeroAt r 28 4

/-- A record as a load writes it: PRESENT set, the padding behind the codes 0 (R258, R264). -/
def Table.loadedRow (t : Table) (r : List Byte) : List Byte :=
  slice r 0 8 ++ [1] ++ slice r 9 23 ++ slice r 32 t.codeBytes ++ zeros (t.rowLen - 32 - t.codeBytes)

/-- A journal entry: the version, then the record. -/
def journalRow (v : Nat) (r : List Byte) : List Byte := leBytes 4 v ++ r

/-- The last record of a row that this device has journalled. -/
def Table.journalled (t : Table) (v row : Nat) : Option (List Byte) :=
  (t.journal.reverse.find? fun e => fld e 0 4 == v && rowNumber (e.drop 4) == row).map (·.drop 4)

/-- Read a row of a copy: from its region, or, where a granule is poisoned, from the journal that its stripes keep (R270);
none where neither can be read (DEDUCED, assumption 68). -/
def readRow (s : State) (t : Table) (x : Version) (mirror : Bool) (row : Nat) : Option (List Byte) :=
  let ma := rowMa s t x mirror row
  if poisonMa s ma t.rowLen = 0 then some (readMa s ma t.rowLen) else t.journalled x.num row

/-! ## Journals -/

/-- Journal row records of a copy, by table handle (R274): the status, and the state. -/
def journalRows (s : State) (h : Nat) (mirror : Bool) (v u : Nat) (rs : List (List Byte)) : Nat × State :=
  match getTable s h with
  | none => (stOk, s)
  | some t =>
    let r := streamWrite s 3 t.ws (tableOwner h mirror) t.gid (leBytes 4 v ++ leBytes 8 u ++ zeros 4 ++ rs.flatten)
    if r.1 = stOk then (stOk, putTable r.2.2 h { t with journal := t.journal ++ rs.map (journalRow v) }) else (r.1, s)

/-- Write rows of a version to a copy. -/
def writeRows (s : State) (t : Table) (x : Version) (mirror : Bool) (rs : List (List Byte)) : State :=
  rs.foldl (fun u r => storeMa u (rowMa u t x mirror (rowNumber r)) r) s

/-! ## References and deferred frees -/

/-- Free the regions and region lists of a version. -/
def freeVersionPages (s : State) (x : Version) : State :=
  ((x.regionsP ++ x.regionsM).map (·.2.1) ++ x.listPage.toList).foldl freePages s

/-- Remove a version: its slot is FREE, and its DISCARD tickets complete (R265). -/
def freeVersion (s : State) (h v : Nat) : State :=
  match getTable s h with
  | none => s
  | some t =>
    match t.version v with
    | none => s
    | some x =>
      let u := putTable (freeVersionPages s x) h
        { t with slots := t.slots.map fun o => o.bind fun y => if y.num = v then none else some y
                 journal := t.journal.filter fun e => fld e 0 4 != v }
      finishAll u x.discard stOk []

/-- Whether a version is to be freed once nothing refers to it: RETIRING, discarded, or of a DROPPING table (R257, R265,
R266). -/
def Table.leaving (t : Table) (x : Version) : Bool := x.state == 4 || !x.discard.isEmpty || t.state == 2

/-- Remove a table and what it holds (R257). -/
def removeTable (s : State) (h : Nat) : State :=
  match getTable s h with
  | none => s
  | some t =>
    deleteStreams { s with tables := Tab.erase s.tables h } fun st =>
      st.kind == 3 && st.ws == t.ws && (st.owner == tableOwner h false || st.owner == tableOwner h true)

/-- Free what nothing refers to any more: versions that leave, and then a DROPPING table (R257, R265, R266). -/
def settleTable (s : State) (h : Nat) : State :=
  match getTable s h with
  | none => s
  | some t =>
    let gone := (t.slots.filterMap id).filter fun x => t.leaving x && x.refs == 0 && x.loads == 0
    let u := gone.foldl (fun r x => freeVersion r h x.num) s
    match getTable u h with
    | some w => if w.state = 2 ∧ (w.slots.filterMap id).isEmpty then finishAll (removeTable u h) w.drop stOk [] else u
    | none => u

/-- Take, or release, a reference to a version (R266). -/
def refVersion (s : State) (h v : Nat) (up : Bool) : State :=
  settleTable (modVersion s h v fun x => { x with refs := if up then x.refs + 1 else x.refs - 1 }) h

/-! ## Table control messages (R274) -/

/-- A TABLE_CTRL message: 0 ANNOUNCE, 1 DRAINED, 2 COMMITTED, 3 ST_FENCED, 4 a loaded row (DESIGN CHOICE, assumption 41). -/
def ctrlBytes (op key v u : Nat) (rest : List Byte) : List Byte :=
  leBytes 1 op ++ zeros 3 ++ leBytes 4 v ++ leBytes 8 key ++ leBytes 8 u ++ rest

/-- Send a TABLE_CTRL message. -/
def sendCtrl (s : State) (dev : Nat) (t : Table) (op v u : Nat) (rest : List Byte) : State :=
  sendWhole { s with fab := { s.fab with nextTxn := wrapAdd 64 s.fab.nextTxn 1 } } dev 7 t.ws 0x24 s.fab.nextTxn
    (ctrlBytes op t.key v u rest)

/-- Send a TABLE_CTRL message to every device of the table's group, this one among them. -/
def ctrlAll (s : State) (t : Table) (op v u : Nat) : State := (groupDevs s t.gid).foldl (fun r d => sendCtrl r d t op v u []) s

/-- The TABLE_CTRL message that a row names, as it waits. -/
def ctrlPacket (s : State) (src ws op key v u : Nat) : Option Packet :=
  s.fab.inbox.find? fun p => p.msg == 0x24 && p.src == src && p.ws == ws && p.payload.take 24 == ctrlBytes op key v u []

/-- Whether a TABLE_CTRL message has come: this device's own waits in its inbox. -/
def ctrlArrived (s : State) (src ws op key v u : Nat) : Bool := (ctrlPacket s src ws op key v u).isSome || src != fabricDev s

/-- Take it off the inbox. -/
def takeCtrl (s : State) (src ws op key v u : Nat) : State :=
  match ctrlPacket s src ws op key v u with
  | some p => takeMsg s p
  | none => s

/-- Write a record that another device's TABLE_LOAD has sent (R264; DESIGN CHOICE, assumption 41). -/
def loadRemote (s : State) (ws : Nat) (l : List Byte) : State :=
  match tableByKey s ws (fld l 8 8) with
  | none => s
  | some (h, t) =>
    let r := t.loadedRow (slice l 24 t.rowLen)
    match t.version (fld l 4 4), t.placeOf (rowNumber r % max 1 t.shards) with
    | some x, some m =>
      if x.state = 1 ∧ t.headerOk (rowNumber r) r ∧ rowNumber r < t.rows then
        let j := journalRows s h m x.num 0 [r]
        if j.1 = stOk then writeRows j.2 t x m [r] else s
      else s
    | _, _ => s

/-- Take every loaded row off the inbox. -/
def takeLoads (s : State) : State :=
  let mine := fun (p : Packet) => p.msg == 0x24 && fld p.payload 0 1 == 4
  let l := s.fab.inbox.filter mine
  l.foldl (fun t p => loadRemote t p.ws p.payload) { s with fab := { s.fab with inbox := s.fab.inbox.filter fun p => !mine p } }

end Sys2Proof.Machine
end

