-- ==== Sys2Proof/Machine/Gather.lean ====
section
/-!
DEFINITION. GATHER at its home device and at the copies that serve it (R261, R266 to R270), and gathers from a memory pool
(R277, R278).
-/

namespace Sys2Proof.Machine

/-! ## A batch of occurrences -/

/-- Number `i` of the offsets, and of the indices, that a gather or update slot keeps: bags + 1 offsets, then the row
numbers. -/
def batchOffset (x : Slot) (i : Nat) : Nat := x.vec.getD i 0

/-- count_bags and count_idx, which both payloads hold at the same place. -/
def bagCount (p : List Byte) : Nat := fld p 8 4
def idxCount (p : List Byte) : Nat := fld p 12 4

/-- Row numbers of a batch. -/
def batchRows (x : Slot) : List Nat := x.vec.drop (bagCount x.payload + 1)

/-- Rows with the bags that use each and the occurrences in each: rows and bags ascend (R269). -/
abbrev Occs := Tab (Tab Nat)

/-- Add an occurrence of a row in a bag. -/
def addOcc (o : Occs) (row bag : Nat) : Occs :=
  let t := Tab.get [] o row
  Tab.insert o row (Tab.insert t bag (Tab.get 0 t bag + 1))

/-- The valid occurrences of a batch; invalid ones are dropped (R261). -/
def batchOccs (x : Slot) (rows : Nat) : Occs :=
  (List.range (bagCount x.payload)).foldl (fun o b =>
    (((batchRows x).drop (batchOffset x b)).take (batchOffset x (b + 1) - batchOffset x b)).foldl (fun o r =>
      if r < rows then addOcc o r b else o) o) []

/-- Occurrences of rows that are `rows` or more. -/
def invalidCount (x : Slot) (rows : Nat) : Nat := satAdd 32 0 ((batchRows x).filter fun r => decide (rows ≤ r)).length

/-- Occurrences of a shard (DEDUCED, assumption 69). -/
def occsOf (o : Occs) (S shard : Nat) : Occs := o.filter fun p => p.1 % max 1 S == shard

/-- Shards that a batch names, ascending. -/
def occShards (o : Occs) (S : Nat) : List Nat := (List.range (max 1 S)).filter fun k => o.any fun p => p.1 % max 1 S == k

/-- Bags that occurrences name, ascending. -/
def occBags (o : Occs) : List Nat :=
  (o.foldl (fun (t : Tab Nat) p => p.2.foldl (fun t b => Tab.insert t b.1 0) t) []).map (·.1)

/-- The body of a GATHER sub-request (Table: Sub-request kinds). -/
def occBytes (o : Occs) : List Byte :=
  leBytes 4 o.length ++ zeros 4 ++ o.flatMap fun p =>
    leBytes 8 p.1 ++ leBytes 4 p.2.length ++ p.2.flatMap fun b => leBytes 4 b.1 ++ leBytes 4 b.2

/-- Read the bags of a row. -/
def parseBags : Nat → List Byte → Tab Nat
  | 0, _ => []
  | n + 1, l => (fld l 0 4, fld l 4 4) :: parseBags n (l.drop 8)

/-- Read `n` rows of a body, and what follows them. -/
def parseRows : Nat → List Byte → Occs × List Byte
  | 0, l => ([], l)
  | n + 1, l =>
    let k := fld l 8 4
    let r := parseRows n (l.drop (12 + 8 * k))
    ((fld l 0 8, parseBags k (l.drop 12)) :: r.1, r.2)

/-- Read the occurrences of a body. -/
def parseOccs (l : List Byte) : Occs × List Byte := parseRows (fld l 0 4) (l.drop 8)

/-! ## Pooling -/

/-- Add a row to the accumulators of a bag: both addends of every element, for `r` occurrences (R49, R269). -/
def poolInto (t : Table) (rec_ : List Byte) (r : Nat) (accs : List LAcc) : List LAcc :=
  accs.zipIdx.map fun a =>
    (rowAddends (t.code rec_ a.2) r Val.one (rowScale rec_) (rowOffset rec_)).foldl LAcc.push a.1

/-- An empty bag. -/
def emptyBag (t : Table) : Nat × List LAcc := (0, List.replicate t.dim LAcc.zero)

/-- Pool the rows of a sub-request into its bags: present count and accumulators by bag, ascending, and the missing
occurrences; none where a row cannot be read (R261, R269, R270). -/
def poolRows (t : Table) (read : Nat → Option (List Byte)) (o : Occs) : Option (Tab (Nat × List LAcc) × Nat) :=
  o.foldl (fun acc p =>
    match acc, read p.1 with
    | some (bags, missing), some r =>
      if rowPresent r then
        some (p.2.foldl (fun bs b =>
          let x := Tab.get (emptyBag t) bs b.1
          Tab.insert bs b.1 (x.1 + b.2, poolInto t r b.2 x.2)) bags, missing)
      else some (bags, missing + (p.2.map (·.2)).foldl (· + ·) 0)
    | _, _ => none) (some ((occBags o).map fun b => (b, emptyBag t), 0))

/-! ## The serving copy -/

/-- The copy of a table that a sub-request names: handle, table, version and place; or the reply that says why there is
none (R265, R274). -/
def servedTable (s : State) (q : SubIn) : Except Reply (Nat × Table × Version × Bool) :=
  match tableByKey s q.ws q.key with
  | none => .error (.update stBadParam [])
  | some (h, t) =>
    match t.version (q.bind0 % 2 ^ 32), t.placeOf q.shard with
    | some x, some m =>
      if x.state < 2 then .error (.update stBadParam []) else if t.liveAt m then .ok (h, t, x, m) else .error .fenced
    | none, _ => .error (.update stBadParam [])
    | some _, none => .error .fenced

/-- Serve a GATHER sub-request (R266, R269): a row that cannot be read here is answered with ST_STATE_LOST. -/
def serveGather (s : State) (q : SubIn) : State :=
  match servedTable s q with
  | .error r => replySub s q r
  | .ok (_, t, x, m) =>
    if x.count m ≠ q.bind1 then replySub s q .fenced
    else match poolRows t (readRow s t x m) (parseOccs q.body).1 with
      | some (bags, missing) => replySub s q (.gather (bags.map (·.2)) (satAdd 32 0 missing) false 0)
      | none => replySub s q (.update stStateLost [])

/-- GATHER_SUBREQUEST (R269). -/
def execGatherSubrequest (ident : Nat) (s : State) : Host.Outcome State Fault Refusal :=
  .next (admitSub 5 ident serveGather s)

/-! ## Drains (R274) -/

/-- Whether a gather of this device, or a parison's copy, still runs on a version at a count. -/
def runsOn (s : State) (h v u : Nat) : Bool :=
  (s.hub.slots.any fun p => p.2.kind == 5 && p.2.obj == h && p.2.bind == [v, u]) ||
    s.fns.any fun f => f.2.tickets.any fun k =>
      !k.2.done && k.2.work.op == 0x404 && k.2.work.result.isNone && k.2.work.args.drop 2 == [v, u] &&
        k.2.work.args.head? == some h

/-- Answer DRAINED where nothing runs any more at the count before an announced one. -/
def settleDrains (s : State) (h : Nat) : State :=
  match getTable s h with
  | none => s
  | some t =>
    let ready := t.drainsDue.filter fun d => !runsOn s h d.1 (d.2.1 - 1)
    let u := putTable s h { t with drainsDue := t.drainsDue.filter fun d => !ready.contains d }
    ready.foldl (fun r d => sendCtrl r d.2.2 t 1 d.1 d.2.1 []) u

/-! ## Checks (R268) -/

/-- Element bytes of a batch's floating-point format: 2 BF16, 3 FP16, 4 FP32. -/
def batchFmt (n : Nat) : Option Fmt := if n = 1 then none else vecFmt n

/-- Fields of a GATHER payload. -/
def gatherFieldsOk (p : List Byte) : Bool :=
  decide (fld p 4 1 ≤ 1) && (batchFmt (fld p 5 1)).isSome && decide (fld p 6 1 < 2) && zeroAt p 7 1 &&
    decide (1 ≤ bagCount p) && decide (bagCount p ≤ 65536) && decide (idxCount p ≤ 2 ^ 20) && fld p 16 8 % 16 == 0 &&
    fld p 24 8 % 16 == 0 && fld p 32 8 % 16 == 0 && zeroAt p 52 12

/-- The table that a gather or update names, with the refusal of one that it may not use (R257, R268). -/
def batchTable (s : State) (ws h : Nat) : Except (Nat × Nat) Table :=
  match getTable s h with
  | none => .error (stBadParam, 12)
  | some t => if t.ws ≠ ws then .error (stNoAuth, 0) else if t.state ≠ 1 then .error (stBadParam, 12) else .ok t

/-- Addresses of the indices and of the offsets, with their lengths. -/
def batchSpans (p : List Byte) : List (Nat × Nat) :=
  [(fld p 16 8, 8 * idxCount p), (fld p 24 8, 4 * (bagCount p + 1))]

/-- Offsets and indices as they are read. -/
def batchVec (b : Src) (s : State) (p : List Byte) : List Nat :=
  let off := b.read s (fld p 24 8) (4 * (bagCount p + 1))
  let idx := b.read s (fld p 16 8) (8 * idxCount p)
  ((List.range (bagCount p + 1)).map fun i => fld off (4 * i) 4) ++ (List.range (idxCount p)).map fun i => fld idx (8 * i) 8

/-- The rules of R268 on offsets. -/
def offsetsOk (p : List Byte) (v : List Nat) : Bool :=
  let n := bagCount p
  v.getD 0 0 == 0 && v.getD n 0 == idxCount p &&
    (List.range n).all fun i => decide (v.getD i 0 ≤ v.getD (i + 1) 0) && decide (v.getD (i + 1) 0 - v.getD i 0 ≤ 4096)

/-- The refusal of a GATHER, and its table where there is none. -/
def gatherCheck (b : Src) (s : State) (p : List Byte) : Except (Nat × Nat) Table :=
  if !gatherFieldsOk p then .error (stBadParam, 2)
  else match batchTable s b.ws (fld p 0 4) with
    | .error e => .error e
    | .ok t =>
      let out := bagCount p * t.dim * (((batchFmt (fld p 5 1)).map Fmt.width).getD 0 / 8)
      if !((batchSpans p).all (fun q => b.ok s q.1 q.2) && b.ok s (fld p 32 8) (fld p 40 4) && decide (out ≤ fld p 40 4)) then
        .error (stBadParam, 5)
      else match readsFail b s (batchSpans p) with
        | some e => .error e
        | none => if offsetsOk p (batchVec b s p) then .ok t else .error (stBadParam, 14)

/-! ## Completion -/

/-- What the shards have answered for a bag: the sums joined in ascending shard number, and the valid count (R269). -/
def bagSum (t : Table) (x : Slot) (o : Occs) (bag : Nat) : Nat × List LAcc :=
  (occShards o t.shards).foldl (fun acc k =>
    match x.replies.find? (·.1 == k), (occBags (occsOf o t.shards k)).findIdx? (· == bag) with
    | some (_, .gather bags _ _ _), some i =>
      let b := bags.getD i (emptyBag t)
      (acc.1 + b.1, List.zipWith LAcc.join acc.2 b.2)
    | _, _ => acc) (emptyBag t)

/-- Elements of a bag as they are written, with their arith_status: SUM, or the mean over the valid count; a bag with none
gives 0 (R49, R269) (DEDUCED, assumption 70). -/
def bagOut (f : Fmt) (mean : Bool) (b : Nat × List LAcc) : List Coded :=
  if b.1 = 0 then b.2.map fun _ => (0, 0)
  else b.2.map fun a => a.readScaled f (if mean then .fin false 1 b.1 else Val.one)

/-- A gather completes: its output and its entry (Table: Gather completion entry). -/
def finishGather (n : Nat) (s : State) : State :=
  match getSlot s n with
  | none => s
  | some x =>
    match getTable s x.obj with
    | none => failSlot s n stBadParam 12
    | some t =>
      let p := x.payload
      let f := (batchFmt (fld p 5 1)).getD .fp32
      let o := batchOccs x t.rows
      let sums := (List.range (bagCount p)).map (bagSum t x o)
      let outs := sums.map (bagOut f (fld p 4 1 == 1))
      let arith := outs.foldl (fun a l => l.foldl (fun a c => a ||| c.2) a) 0
      let missing := (x.replies.map fun r => match r.2 with | .gather _ m _ _ => m | _ => 0).foldl (satAdd 32) 0
      let e := entryOf (entryHead x.tag stOk 5 ++
        [(13, leBytes 1 arith), (16, leBytes 4 (x.bind.getD 0 0)), (20, leBytes 4 (invalidCount x t.rows)),
         (24, leBytes 8 (x.bind.getD 1 0)), (32, leBytes 4 missing), (36, leBytes 4 (sums.filter (·.1 == 0)).length),
         (40, leBytes 4 o.length)])
      completeSlot s n e arith [(fld p 32 8, f.pack (outs.flatMap fun l => l.map (·.1)))]

/-- Whether a copy of a table on this device holds a poisoned granule (R87). -/
def tablePoisoned (s : State) (t : Table) : Bool :=
  s.mem.poison.any fun g =>
    let p := pageOfDpa s (g * 32)
    (t.slots.filterMap id).any fun x => (x.regionsP ++ x.regionsM).any fun r => decide (r.2.1 ≤ p) && decide (p < r.2.1 + r.2.2)

/-- Ask a copy of a shard (R182, R269): no copy left loses the gather (R270). -/
def askGather (n : Nat) (t : Table) (shard : Nat) (tried : List Nat) (s : State) : State :=
  match getSlot s n with
  | none => s
  | some x =>
    match x.done, chooseCopy s t.gid shard t.mirrored (tablePoisoned s t) tried with
    | none, some (dev, mirror) =>
      sendSub s n t.key 5 shard 0 (x.bind.getD 0 0) (x.bind.getD 1 0) t.gid
        (occBytes (occsOf (batchOccs x t.rows) t.shards shard)) dev mirror (!tried.isEmpty)
    | none, none => failSlot s n stStateLost 0
    | some _, _ => s

/-! ## Pool reads (R278) -/

/-- A packet with its payload under a pool key: the nonce of R321 and the GCM tag over the header it travels with. -/
def sealPacket (s : State) (k : Key) (counter : Nat) (p : Packet) : Packet :=
  let nonce := fabricDev s * 2 ^ 80 + p.ws * 2 ^ 64 + counter
  let body := Config.encrypt k.bytes nonce p.payload
  let q := { p with enc := true, keyGen := k.gen, nonce := nonce, payload := body, flowSeq := (findFlow s p.dst p.vc).seq }
  { q with tag := Config.gcmTag k.bytes nonce (headBytes q false) body }

/-- Send a POOL_READ; none where the workspace has no pool key or its counter is used up (R321). -/
def sendPoolRead (s : State) (ws vc dev addr bytes txn : Nat) : Option State :=
  match ((s.guard.keys.find? (·.1 == ws)).map (·.2)) with
  | none => none
  | some ks =>
    match ks.pool with
    | [] => none
    | k :: _ =>
      if ks.poolCounter = 0xFFFFFFFFFFFFFFFF then none
      else
        let p : Packet := { vc := vc, hop := false, enc := false, last := true, dst := dev, src := fabricDev s, ws := ws, msg := 0x30,
                            flowSeq := 0, txn := txn, keyGen := 0, nonce := 0, payload := pad16 (leBytes 8 addr ++ leBytes 4 bytes),
                            tag := 0, alarm := false }
        let t := { s with guard := { s.guard with keys := Tab.insert s.guard.keys ws { ks with poolCounter := ks.poolCounter + 1 } } }
        some (sendPacket t (sealPacket s k ks.poolCounter p))

/-- End every pool read of a slot. -/
def dropPoolReads (s : State) (n : Nat) : State := { s with poolReads := s.poolReads.filter (·.slot != n) }

/-- A gather from a pool fails. -/
def failPool (s : State) (n st : Nat) : State := failSlot (dropPoolReads s n) n st 0

/-- Read a row of a gather from its pool, under a fresh tag. -/
def readPoolRow (s : State) (n row : Nat) (second : Bool) : State :=
  match getSlot s n with
  | none => s
  | some x =>
    match (getTable s x.obj).bind fun t => (t.version (x.bind.getD 0 0)).map fun v => (t, v) with
    | none => s
    | some (t, v) =>
      let txn := s.fab.nextTxn
      let u := { s with fab := { s.fab with nextTxn := wrapAdd 64 txn 1 },
                        poolReads := s.poolReads ++ [⟨n, row, txn, ns s, second⟩] }
      match sendPoolRead u x.ws (subClass s x) (gatewayDev t.poolNode) (v.poolBase + row * t.rowLen) t.rowLen txn with
      | some r => r
      | none => failPool s n stNoAuth

/-- Issue reads of a gather while the device and its workspace's quota have room: progress 0 counts the rows read so far. -/
def pumpGather (rows : List Nat) (n : Nat) : Nat → State → State
  | 0, s => s
  | k + 1, s =>
    match getSlot s n with
    | none => s
    | some x =>
      match x.done, rows[x.pg 0]? with
      | none, some row =>
        if s.poolReads.length < 4096 ∧ roomFor s x.ws 1 (·.poolReads) then
          pumpGather rows n k (readPoolRow (putSlot s n { x with prog := [x.pg 0 + 1] }) n row false)
        else s
      | _, _ => s

/-- Rows that a pool gather reads, in order. -/
def poolRowsOf (s : State) (x : Slot) : List Nat :=
  match getTable s x.obj with
  | some t => if t.isPool then (batchOccs x t.rows).map (·.1) else []
  | none => []

/-- Issue reads of every pool gather that waits for room. -/
def pumpPools (s : State) : State :=
  s.hub.slots.foldl (fun t p =>
    if p.2.kind = 5 ∧ p.2.st = .waiting then
      let rows := poolRowsOf t p.2
      pumpGather rows p.1 rows.length t
    else t) s

/-- Start a gather's reads once it has bound (v, u) and u is committed (R269, R274). -/
def launchGather (n : Nat) (s : State) : State :=
  match getSlot s n with
  | none => s
  | some x =>
    match getTable s x.obj with
    | none => failSlot s n stBadParam 12
    | some t =>
      let o := batchOccs x t.rows
      if !leaseHeld s t.gid then failSlot s n stFenced 0
      else if phaseHeld x then holdPhase s n
      else if o.isEmpty then finishGather n s
      else if t.isPool then
        pumpGather (o.map (·.1)) n o.length (putSlot s n { x with st := .waiting, wait := 1, prog := [0] })
      else (occShards o t.shards).foldl (fun u k => askGather n t k [] u) s

/-- Whether a gather's bound count is committed here. -/
def gatherReady (s : State) (x : Slot) : Bool :=
  match (getTable s x.obj).bind fun t => t.version (x.bind.getD 0 0) with
  | some v => decide (x.bind.getD 1 0 ≤ v.updates)
  | none => true

/-- Start a GATHER in its slot: its checks, then its binding to the current version and count (R266, R274)
(DEDUCED, assumption 71). -/
def startGather (b : Src) (n : Nat) (s : State) : State :=
  match getSlot s n with
  | none => s
  | some x =>
    match gatherCheck b s x.payload with
    | .error (st, r) => failSlot s n st r
    | .ok t =>
      match (if x.bind.isEmpty then t.current else t.version (x.bind.getD 0 0)) with
      | none => failSlot s n stBadParam 12
      | some v =>
        let b0 := if x.bind.isEmpty then [v.num, v.bindCount] else x.bind
        let y := { x with obj := fld x.payload 0 4, bind := b0, vec := batchVec b s x.payload }
        let u := refVersion (putSlot s n y) (fld x.payload 0 4) v.num true
        if gatherReady u y then launchGather n u else u

/-- GATHER (R267). -/
def execGatherEntry (fn ring : Nat) (h : HostView) (s : State) : Host.Outcome State Fault Refusal :=
  admitRow "GATHER" 5 fn ring h startGather s

/-! ## Replies -/

/-- A copy is abandoned for a shard of a gather (R270). -/
def gatherAbandon (n : Nat) (o : SubOut) (s : State) : State :=
  let t := closeSub s n o
  match (getSlot t n).bind fun x => getTable t x.obj with
  | some tb => if o.retried then failSlot t n stStateLost 0 else askGather n tb o.shard [o.device] t
  | none => t

/-- A shard's reply: the gather completes once every shard has answered (R269). -/
def gatherReply (n : Nat) (o : SubOut) (r : Reply) (s : State) : State :=
  match r with
  | .gather bags m l a =>
    let t := modSlot (closeSub s n o) n fun x => { x with replies := x.replies ++ [(o.shard, .gather bags m l a)] }
    match getSlot t n with
    | some x => if x.subs.isEmpty then finishGather n t else t
    | none => t
  | .update st _ => if st = stBadParam then failSlot s n stBadParam 16 else gatherAbandon n o s
  | _ => gatherAbandon n o s

/-- Add a pool record to what a gather has pooled so far. -/
def addPoolRow (s : State) (n : Nat) (t : Table) (row : Nat) (rec_ : List Byte) : State :=
  modSlot s n fun x =>
    let o := batchOccs x t.rows
    let bags := occBags o
    let old : List (Nat × List LAcc) × Nat := match x.replies with
      | (_, .gather b m _ _) :: _ => (b, m)
      | _ => (bags.map fun _ => emptyBag t, 0)
    match poolRows t (fun _ => some rec_) (o.filter (·.1 == row)) with
    | some (new, missing) =>
      let joined := (bags.zip old.1).map fun p =>
        let b := Tab.get (emptyBag t) new p.1
        (p.2.1 + b.1, List.zipWith LAcc.join p.2.2 b.2)
      { x with replies := [(0, .gather joined (satAdd 32 old.2 missing) false 0)] }
    | none => x

/-- A pool record has come (R278). -/
def poolArrived (r : PoolRead) (tagOk : Bool) (rec_ : List Byte) (s : State) : State :=
  let t := { s with poolReads := s.poolReads.filter (·.txn != r.txn) }
  match getSlot t r.slot with
  | none => t
  | some x =>
    match getTable t x.obj with
    | none => t
    | some tb =>
      if rec_.length < tb.rowLen then failPool t r.slot stStateLost
      else if !tagOk then if r.second then failPool t r.slot stStateLost else readPoolRow t r.slot r.row true
      else if rowNumber rec_ ≠ r.row then failPool t r.slot stStateLost
      else
        let u := addPoolRow t r.slot tb r.row rec_
        match getSlot u r.slot with
        | some y =>
          if y.pg 0 = (poolRowsOf u y).length ∧ !(u.poolReads.any (·.slot == r.slot)) then finishGather r.slot u else u
        | none => u

/-- The POOL_RESP packet of a read, as it waits. -/
def poolPacket (s : State) (txn : Nat) : Option Packet := s.fab.inbox.find? fun p => p.msg == 0x31 && p.txn == txn

/-- Take it off the inbox. -/
def takePool (s : State) (txn : Nat) : State :=
  match poolPacket s txn with
  | some p => takeMsg s p
  | none => s

/-- POOL_RESP (R278): the record, empty where the node refuses, and whether its tag verified (DESIGN CHOICE, assumption 5). -/
def execPoolResp (txn : Nat) (tagOk : Bool) (rec : List Byte) (s : State) : Host.Outcome State Fault Refusal :=
  match s.poolReads.find? (·.txn == txn) with
  | some r => .next (when (firmwareRuns s) (fun t => pumpPools (poolArrived r tagOk rec (takePool t txn))) s)
  | none => .next (takePool s txn)

/-- POOL_READ_TIMEOUT (R191, R278). -/
def execPoolReadTimeout (txn : Nat) (s : State) : Host.Outcome State Fault Refusal :=
  match s.poolReads.find? (·.txn == txn) with
  | some r =>
    .next (when (firmwareRuns s && elapsed s r.sentAt (s.boot.settings.subreqTimeoutUs * 1000))
      (fun t => pumpPools (failPool t r.slot stStateLost)) s)
  | none => .next s

end Sys2Proof.Machine
end

