-- ==== Sys2Proof/Machine/AttnCmd.lean ====
section
/-!
DEFINITION. Codebook sets as commands (R225, R226); what a device does for the sessions of others: appends and journals
(R233, R284), spilling (R230), and the rebuilding of blocks (R285).
-/

namespace Sys2Proof.Machine

/-! ## ATTN_CB_LOAD and ATTN_CB_UNLOAD -/

/-- Whether every BF16 element of a buffer is finite (R226). -/
def bookFinite (l : List Byte) : Bool :=
  (List.range (l.length / 2)).all fun i => !(Fmt.decode .bf16 (fld l (2 * i) 2)).notFinite

/-- A set of the workspace that is the same and not closing (R103, R225). -/
def sameBook (s : State) (ws layers heads dim : Nat) (l : List Byte) : Option (Nat × CodebookSet) :=
  s.cbSets.find? fun p => p.2.ws == ws && !p.2.closing && p.2.layers == layers && p.2.heads == heads && p.2.dim == dim &&
    p.2.bytes == l

/-- Load a set: its status, its handle, and the state. -/
def loadBook (ws layers heads dim : Nat) (l : List Byte) (s : State) : Nat × Nat × State :=
  if !bookFinite l then (stBadParam, 0, s)
  else match sameBook s ws layers heads dim l with
    | some (h, b) => (stOk, h, putBook s h { b with loads := b.loads + 1 })
    | none =>
      let n := cdiv l.length 65536
      match (if roomFor s ws n (·.windowPages) then allocWindow s ws 2 n else none) with
      | none => (stQuota, 0, s)
      | some (p, t) =>
        let h := freshHandle t
        let t := { t with nextHandle := h, mem := store t.mem (p * 65536) l }
        (stOk, h, putBook t h ⟨ws, l, p, layers, heads, dim, 1, false, 0, []⟩)

/-- ATTN_CB_LOAD's answer: it runs when the ticket is issued, and its DONE message carries the outcome (R225)
(DEDUCED, assumption 111). -/
def attnCbLoad (c : Ctx) (s : State) : Answer × State :=
  let d := c.data
  let a := fld d 0 8
  let n := fld d 8 8
  let L := fld d 16 2
  let H := fld d 18 1
  let dim := fld d 20 2
  let r := loadBook c.ws L H dim (readBytes s.mem a n) s
  checked [(zeroAt d 19 1 && zeroAt d 22 10 && a % 256 == 0 && decide (a < 2 ^ 41) && decide (1 ≤ L) && decide (L ≤ 128) &&
      decide (1 ≤ H) && decide (H ≤ 16) && [64, 128, 256].contains dim && n == L * H * 512 * dim && bufferOk s c.ws a n &&
      !poisonIn s.mem a n, stBadParam)]
    (.issue stPending (doneWork c [] r.1 (if r.1 = stOk then leBytes 4 r.2.1 ++ zeros 4 else [])), r.2.2) s

/-- ATTN_CB_LOAD (R225). -/
def execAttnCbLoad (m : MsgSrc) (s : State) : Host.Outcome State Fault Refusal :=
  serve ⟨0x520, .own, false, true, some 32⟩ m attnCbLoad s

/-- ATTN_CB_UNLOAD's answer: the last unload closes the handle (R103, R105, R225). -/
def attnCbUnload (c : Ctx) (s : State) : Answer × State :=
  let h := fld c.data 0 4
  match zeroAt c.data 4 4, getBook s h with
  | true, some b =>
    if b.ws ≠ c.ws then refuse stNoAuth s
    else if b.closing then refuse stBadParam s
    else if 1 < b.loads then (.issue stPending (doneWork c [h] stOk []), putBook s h { b with loads := b.loads - 1 })
    else
      (.issue stPending (work c [h]),
       putBook s h { b with loads := 0, closing := true, unloadTickets := b.unloadTickets ++ [c.ticket] })
  | _, _ => refuse stBadParam s

/-- ATTN_CB_UNLOAD (R225). -/
def execAttnCbUnload (m : MsgSrc) (s : State) : Host.Outcome State Fault Refusal :=
  serve ⟨0x521, .own, false, true, some 8⟩ m attnCbUnload s

/-- The end of ATTN_CB_UNLOAD (R105). -/
def finishCbUnload (s : State) (k : Ticket) : Option (Nat × List Byte × State) :=
  let h := k.work.args.getD 0 0
  match getBook s h with
  | some b => if b.closing ∧ b.refs = 0 then some (stOk, [], settleBook s h) else none
  | none => some (stOk, [], s)

/-! ## Messages between the devices of a session -/

/-- Acknowledge to a home device what a holder, or a journal partner, has made durable. -/
def ackAppend (s : State) (dev ws txn st : Nat) : State := sendWhole s dev 7 ws 0x21 txn (replyBytes (.update st []))

/-- Read the tokens of an APPEND message. -/
def parseTokens (dim : Nat) : Nat → List Byte → List Token
  | 0, _ => []
  | n + 1, l => ⟨slice l 0 16, slice l 16 dim, slice l (16 + dim) dim⟩ :: parseTokens dim n (l.drop (16 + 2 * dim))

/-- An APPEND message from a session's home device (R233, R284): the records and the own journal are written, the partner
is sent the entry, and the home device is answered. -/
def takeAppend (p : Packet) (s : State) : State :=
  let l := p.payload.drop 16
  let ws := fld p.payload 2 2
  let key := fld p.payload 8 8
  match sessionByKey s ws key with
  | none => ackAppend s (fld l 0 2) ws p.txn stFenced
  | some q =>
    let block := fld l 8 4
    let r := holdAppend s ws key (fld l 2 2) (fld l 4 1) block (fld l 5 1) (parseTokens (geoDim q.geometry) (fld l 6 1) (l.drop 16))
    let t := ackAppend r.2.2 (fld l 0 2) ws p.txn r.1
    if r.1 ≠ stOk then t
    else match q.partnerOf s (q.posOf block) with
      | some d => sendSess t d p.txn q 18 (journalMsg (fld l 0 2) r.2.1)
      | none => t

/-- A COUNT message: T_ℓ of a layer, and the blocks below it in the block map (R227, R234). -/
def takeCount (p : Packet) (s : State) : State :=
  let l := p.payload.drop 16
  match sessionByKey s (fld p.payload 2 2) (fld p.payload 8 8) with
  | some q =>
    let T := fld l 4 4
    putSession s ((List.range (cdiv T 64)).foldl Session.mapBlock (q.setCount (fld l 0 2) (max T (q.count (fld l 0 2)))))
  | none => s

/-- A RELEASE message: the session's records on this device are freed (R279, R286). -/
def takeRelease (p : Packet) (s : State) : State :=
  match sessionByKey s (fld p.payload 2 2) (fld p.payload 8 8) with
  | some q => let t := releaseSession s q 3; if q.images.isEmpty then eraseSession t (q.emptied 3) else t
  | none => s

/-- A session part on a device that the session's creation or resume reaches (R280, R289): the geometry block, the group, the handle and the devices; then, for a resume, token counts. -/
def takeCreate (p : Packet) (s : State) : State :=
  let l := p.payload.drop 16
  let ws := fld p.payload 2 2
  let key := fld p.payload 8 8
  let g := slice l 16 64
  let n := fld l 12 1
  if (sessionByKey s ws key).isSome then s
  else match allocWindow s ws 2 (cdiv (cdiv (geoMax g) 64) 65536) with
    | none => s
    | some (pg, t) =>
      let x : Session :=
        { ws := ws, key := key, state := 1, handle := fld l 0 4, geometry := g, group := fld l 4 4,
          devices := (List.range n).map fun i => fld l (80 + 2 * i) 2, partner := fld l 8 2, lost := 0, images := [], annealSeq := 0,
          tokens := (List.range (geoLayers g)).map fun i => fld l (80 + 2 * n + 4 * i) 4, blocks := [], blockMap := [], journal := [],
          appends := [], oldKv := [], regions := [], freePos := [], freeKv := [], staging := [], mapPage := some pg,
          annealPhase := 0, roll := none, ticket := none, destroy := [], refs := 0 }
      refBook (putSession t x) (geoBook g) true

/-- Act on the session messages that this device has received and that no row names. -/
def takeSessions (s : State) : State :=
  let op := fun (p : Packet) => if p.msg = 0x40 then fld p.payload 0 1 else 0
  let mine := fun (p : Packet) => [16, 17, 19, 20].contains (op p)
  let l := s.fab.inbox.filter mine
  l.foldl (fun t p =>
    match op p with
    | 16 => takeCreate p t
    | 17 => takeAppend p t
    | 19 => takeCount p t
    | _ => takeRelease p t) { s with fab := { s.fab with inbox := s.fab.inbox.filter fun p => !mine p } }

/-! ## SESSION_JOURNAL_WRITE (R284) -/

/-- The JOURNAL message of an entry, as it waits. -/
def journalPacket (s : State) (ws key : Nat) (e : JournalEnt) : Option Packet :=
  s.fab.inbox.find? fun p => p.msg == 0x40 && fld p.payload 0 1 == 18 && fld p.payload 2 2 == ws && fld p.payload 8 8 == key &&
    p.payload.drop 24 == journalEntBytes e

/-- The journal partner of a block's holder writes the entry to its own journal, and the home device is answered. -/
def partnerWrite (ws key : Nat) (e : JournalEnt) (s : State) : State :=
  match sessionByKey s ws key with
  | none => s
  | some q =>
    let r := journalEnt s q { e with own := false, striped := false }
    match journalPacket s ws key e with
    | some p => ackAppend (takeMsg r.2 p) (fld p.payload 16 2) ws p.txn r.1
    | none => r.2

/-- SESSION_JOURNAL_WRITE (R284). -/
def execSessionJournalWrite (ws key : Nat) (e : JournalEnt) (s : State) : Host.Outcome State Fault Refusal :=
  .next (when (firmwareRuns s && (sessionByKey s ws key).isSome) (partnerWrite ws key e) s)

/-! ## KV_SPILL (R230) -/

/-- Blocks whose KV record is resident, lowest block first, then layer, then head (DEDUCED, assumption 107). -/
def residentBlocks (x : Session) : List Block :=
  sortOn (fun y : Block => y.block * 2 ^ 16 + y.layer * 2 ^ 8 + y.head) (x.blocks.filter (·.kvMa.isSome))

/-- The record that is spilled next: none in the largest sink window, and none of a layer's last block (R230). -/
def spillVictim (x : Session) : Option Block :=
  (residentBlocks x).find? fun y => decide (64 ≤ y.block) && decide (y.block + 1 < cdiv (x.count y.layer) 64)

/-- Whether resident records exceed the session's budget. -/
def overBudget (x : Session) : Bool :=
  geoBudget x.geometry != 0 && decide (geoBudget x.geometry < (residentBlocks x).length * kvBytes x.geometry)

/-- Places that a spill left, once no step admitted before it runs here; a page with no record left is freed (R230). -/
def settleOldKv (s : State) (ws key : Nat) : State :=
  match sessionByKey s ws key with
  | none => s
  | some x =>
    let busy := fun (at_ : Nat) =>
      (s.hub.slots.any fun p => p.2.kind == 4 && p.2.obj == x.handle && decide (p.2.at_ ≤ at_)) ||
        s.hub.subreqs.any fun q => (q.kind == 3 || q.kind == 4) && q.key == x.handle && decide (q.arrivedAt ≤ at_)
    let done := x.oldKv.filter fun o => !busy o.2
    let free := x.freeKv ++ done.map (·.1)
    let per := 65536 / kvBytes x.geometry
    let empty := x.regions.filter fun r =>
      let lo := maOfPage s r.1
      decide ((free.filter fun ma => decide (lo ≤ ma) && decide (ma < lo + 65536)).length = per)
    let gone := empty.map fun r => maOfPage s r.1
    let x := { x with
      oldKv := x.oldKv.filter fun o => !done.contains o
      freeKv := free.filter fun ma => !(gone.any fun lo => decide (lo ≤ ma) && decide (ma < lo + 65536))
      regions := x.regions.filter fun r => !empty.contains r }
    (empty.map (·.1)).foldl freePages (putSession s x)

/-- Spill one record: written to flash, its locator switched in one step, its space freed later (R230). -/
def spillOne (ws key : Nat) (s : State) : State :=
  match sessionByKey s ws key with
  | none => s
  | some x =>
    match spillVictim x with
    | none => s
    | some y =>
      match y.kvMa with
      | none => s
      | some ma =>
        let kv := readMa s ma (kvBytes x.geometry)
        let r := streamWrite s 6 x.ws (sessionOwner x) x.group kv
        if r.1 ≠ stOk then s
        else
          let z := { y with kvMa := none, flash := kv }
          let x := { x.putBlock z with oldKv := x.oldKv ++ [(ma, ns s)] }
          let t := storeMa (putSession r.2.2 x) y.codeMa (blockHeader x z (blockFill s y) (kvLocator s z r.2.1))
          settleOldKv t ws key

/-- KV_SPILL (R230). -/
def execKvSpill (ws key : Nat) (s : State) : Host.Outcome State Fault Refusal :=
  .next (when (firmwareRuns s && match sessionByKey s ws key with
    | some x => overBudget x
    | none => false) (spillOne ws key) s)

/-! ## BLOCK_REBUILD (R285) -/

/-- Whether a block that lies here must be rebuilt (R253, R285). -/
def rebuildDue (s : State) (x : Session) (layer head block : Nat) : Bool :=
  x.deviceAt (x.posOf block) == fabricDev s && blockState s x layer head block == 1 &&
    decide (block < cdiv (x.count layer) 64) && decide (head < geoHeads x.geometry)

/-- Write a rebuilt block: its code record, and its KV record resident, from the bytes of its durable copy. -/
def writeRebuilt (s : State) (x : Session) (e : JournalEnt) : Option (Session × State) :=
  let x := x.mapBlock e.block
  let opened : Option (Block × Session × State) := match x.blockAt e.layer e.head e.block with
    | some y =>
      if y.codeMa = 0 then openBlock s x e.layer e.head e.block
      else match y.kvMa with
        | some _ => some (y, x, s)
        | none => (takeKv s x (unitOfMa y.codeMa)).map fun k => ({ y with kvMa := some k.1, flash := [] }, k.2)
    | none => openBlock s x e.layer e.head e.block
  opened.map fun o =>
    let y := o.1
    let x := o.2.1.putBlock y
    let t := storeMa o.2.2 (y.kvMa.getD 0) (slice e.kv 0 (kvBytes x.geometry))
    (x, storeMa t y.codeMa (blockHeader x y e.fill (kvLocator t y 0) ++ zeros 224 ++ slice e.code 0 1024))

/-- Rebuild a block from its durable copy, or count it lost; sub-requests that waited for it go on (R253, R285). -/
def rebuildBlock (ws key layer head block : Nat) (src : Option JournalEnt) (s : State) : State :=
  match sessionByKey s ws key with
  | none => s
  | some x =>
    match src with
    | some e =>
      match writeRebuilt s x { e with layer := layer, head := head, block := block } with
      | some (y, t) => reserveAttn (putSession t y) x.handle
      | none => s
    | none =>
      let y := match x.blockAt layer head block with
        | some y => { y with lost := true }
        | none => ⟨layer, head, block, 0, none, [], true⟩
      reserveAttn (putSession s { x.putBlock y with lost := x.lost + 1 }) x.handle

/-- BLOCK_REBUILD (R285): the bytes of the journal partner's entry or of the stripe, or none where neither can be read. -/
def execBlockRebuild (ws key layer head block : Nat) (src : Option JournalEnt) (s : State) : Host.Outcome State Fault Refusal :=
  .next (when (firmwareRuns s && match sessionByKey s ws key with
    | some x => rebuildDue s x layer head block
    | none => false) (rebuildBlock ws key layer head block src) s)

end Sys2Proof.Machine
end

