-- ==== Sys2Proof/Machine/Lookups.lean ====
section
/-!
DEFINITION. TOPK (R219, R220), MODEL_RUN (R105, R106) and HASH_GET (R352) at their home device.
-/

namespace Sys2Proof.Machine

/-! ## TOPK -/

/-- Ranges of a TOPK payload (Table: TOPK payload). -/
def topkFieldsOk (p : List Byte) : Bool :=
  let n := fld p 16 4
  fld p 0 8 % 16 == 0 && fld p 8 8 % 16 == 0 && decide (1 ≤ n) && decide (n ≤ 2 ^ 24) && decide (1 ≤ fld p 20 4) &&
    decide (fld p 20 4 ≤ 65536) && decide (1 ≤ fld p 24 2) && decide (fld p 24 2 ≤ 1024) && topkKnown (fld p 26 1) &&
    decide (fld p 27 1 < 2) && fld p 28 4 % 16 == 0 && decide (n * topkWidth (fld p 26 1) ≤ fld p 28 4) && zeroAt p 44 20

/-- Address and bytes of row `i`. -/
def topkSpan (p : List Byte) (i : Nat) : Nat × Nat := (fld p 0 8 + i * fld p 28 4, fld p 16 4 * topkWidth (fld p 26 1))

/-- The elements of a row. -/
def topkElems (b : Src) (s : State) (p : List Byte) (i : Nat) : List Nat :=
  let w := topkWidth (fld p 26 1)
  let l := b.read s (topkSpan p i).1 (topkSpan p i).2
  (List.range (fld p 16 4)).map fun j => fld l (j * w) w

/-- The slots of a row: index and element, then sentinels (R212, R220). -/
def topkSlots (p : List Byte) (ranked : List (Nat × Nat)) : List Byte :=
  let k := fld p 24 2
  let best := ranked.take k
  (best.flatMap fun e => leBytes 4 e.2 ++ leBytes 4 (elementOut (fld p 26 1) e.1)) ++
    List.replicate (8 * (k - best.length)) 0xFF

/-- The result of a TOPK: output bytes, tie count of each row, NaN elements. -/
def topkResult (b : Src) (s : State) (p : List Byte) : List Byte × List Nat × Nat :=
  let f := fld p 26 1
  let rows := (List.range (fld p 20 4)).map (topkElems b s p)
  let ranked := rows.map (rankRow f (bit (fld p 27 1) 0))
  (ranked.flatMap (topkSlots p), ranked.map fun r => rowTies f (bit (fld p 27 1) 0) r (fld p 24 2),
   (rows.map fun r => (r.filter (elementNaN f)).length).foldl (· + ·) 0)

/-- The completion entry of a TOPK that succeeds (Table: TOPK completion entry). -/
def topkEntry (x : Slot) (ties : List Nat) (nans : Nat) : List Byte :=
  let p := x.payload
  let total := ties.foldl (· + ·) 0
  entryOf (entryHead x.tag stOk 7 ++
    [(12, leBytes 1 (b2n (decide (fld p 16 4 < fld p 24 2)) + 2 * b2n (decide (0 < total)))), (16, leBytes 4 (fld p 20 4)),
     (20, leBytes 4 ((ties.filter (0 < ·)).length)), (24, leBytes 8 (satAdd 64 0 total)), (32, leBytes 8 (satAdd 64 0 nans))])

/-- The status that a failed row read gives (R220). -/
def topkReadStatus : ReadFail → Nat
  | .poison => stStateLost
  | .refused => stBadParam
  | .silent => stFenced

/-- A TOPK runs whole: checks, rows, output, completion (R219, R220). -/
def startTopk (b : Src) (n : Nat) (s : State) : State :=
  match getSlot s n with
  | none => s
  | some x =>
    let p := x.payload
    let rows := (List.range (fld p 20 4)).map (topkSpan p)
    let span := (fld p 20 4 - 1) * fld p 28 4 + (topkSpan p 0).2
    if !topkFieldsOk p then failSlot s n stBadParam 2
    else if !(b.ok s (fld p 0 8) span && b.ok s (fld p 8 8) (fld p 32 4) &&
        decide (fld p 20 4 * fld p 24 2 * 8 ≤ fld p 32 4)) then failSlot s n stBadParam 5
    else match rows.findSome? fun r => b.fail s r.1 r.2 with
      | some f => failSlot s n (topkReadStatus f) 0
      | none =>
        let r := topkResult b s p
        completeSlot s n (topkEntry x r.2.1 r.2.2) 0 [(fld p 8 8, r.1)]

/-- TOPK (R219). -/
def execTopkEntry (fn ring : Nat) (h : HostView) (s : State) : Host.Outcome State Fault Refusal :=
  admitRow "TOPK" 7 fn ring h startTopk s

/-! ## MODEL_RUN -/

/-- The refusal of a MODEL_RUN, and what it reads where there is none. -/
def modelRefusal (b : Src) (s : State) (p : List Byte) : Option (Nat × Nat) :=
  match getProgram s (fld p 0 4) with
  | none => some (stBadParam, 2)
  | some g =>
    let gr := Config.programGraph g.container
    let batch := fld p 4 4
    (firstFail [(g.ws == b.ws, stNoAuth, 0),
      (!g.closing && zeroAt p 40 8 && decide (1 ≤ batch) && decide (batch ≤ pMaxBatch g.header) &&
        fld p 24 4 == gr.inBytes batch, stBadParam, 2),
      (b.ok s (fld p 8 8) (fld p 24 4) && b.ok s (fld p 16 8) (fld p 28 4) && decide (gr.outBytes batch ≤ fld p 28 4),
        stBadParam, 5)]).or (readsFail b s [(fld p 8 8, fld p 24 4)])

/-- A MODEL_RUN binds its handle at admission; it waits ADMITTED for a thread (R105, R106) (DEDUCED, assumption 62). -/
def startModel (b : Src) (n : Nat) (s : State) : State :=
  match getSlot s n with
  | none => s
  | some x =>
    match modelRefusal b s x.payload with
    | some (st, r) => failSlot s n st r
    | none =>
      let input := b.read s (fld x.payload 8 8) (fld x.payload 24 4)
      refProgram (putSlot s n { x with obj := fld x.payload 0 4, vec := input.map (·.toNat) }) (fld x.payload 0 4) true

/-- MODEL_RUN (R106). -/
def execModelRun (fn ring : Nat) (h : HostView) (s : State) : Host.Outcome State Fault Refusal :=
  admitRow "MODEL_RUN" 9 fn ring h startModel s

/-- The engine of a program's residency set that takes its next job (R122). -/
def programEngine (s : State) (p : Program) : Option Nat :=
  (roundRobin p.engines.length p.enginePtr fun i =>
    decide ((getGaffer s (p.engines.getD i 0)).queue.length < 64))

/-- Submit the job of an invocation; where every queue of the set is full the slot waits for an entry to free (R115,
R116). -/
def submitModel (n : Nat) (s : State) : State :=
  match getSlot s n with
  | none => s
  | some x =>
    match getProgram s x.obj with
    | none => s
    | some p =>
      match programEngine s p with
      | some i =>
        let e := p.engines.getD i 0
        let job : GafferJob := { kind := .model, core := n / 128, slot := n, obj := x.obj, jack := 0,
                                 data := x.vec.map fun v => BitVec.ofNat 8 v }
        let g := getGaffer s e
        let t := putProgram s x.obj { p with enginePtr := (i + 1) % p.engines.length }
        putSlot (putGaffer t e { g with queue := g.queue ++ [job] }) n { x with st := .waiting, wait := 1, prog := [1] }
      | none => putSlot s n { x with st := .waiting, wait := 1, prog := [0] }

/-- The completion entry of an invocation that succeeds (Table: MODEL_RUN completion entry). -/
def modelEntry (x : Slot) (written : Nat) : List Byte :=
  entryOf (entryHead x.tag stOk 9 ++
    [(13, leBytes 1 x.arith), (16, leBytes 8 (fld x.payload 0 8)), (24, leBytes 8 written)])

/-- The end of an invocation: its outputs, or its failure (R106, R110). -/
def finishModel (n : Nat) (s : State) : State :=
  match getSlot s n with
  | none => s
  | some x =>
    if x.pg 0 = 3 then failSlot s n stBadParam 2
    else
      let out := x.vec.map fun v => BitVec.ofNat 8 v
      completeSlot s n (modelEntry x out.length) x.arith [(fld x.payload 16 8, out)]

/-! ## HASH_GET -/

/-- The refusal of a HASH_GET before its epoch is bound. -/
def hashRefusal (s : State) (ws : Nat) (p : List Byte) (value epoch : Bool) : Option (Nat × Nat) :=
  if !(zeroAt p 2 6 && zeroAt p 40 8 && (value || zeroAt p 16 8) && (epoch || zeroAt p 24 8) && decide (fld p 0 2 < 1024)) then
    some (stBadParam, 2)
  else match getIndex s (fld p 0 2) with
    | none => some (stBadParam, 1)
    | some x => firstFail [(x.ws == ws, stNoAuth, 0), (x.kind == 3 && x.state == 2, stBadParam, 1)]

/-- The end of a lookup that no copy answers: lost where every copy tried met poison, else fenced (R352). Progress 0 counts
the copies tried and 1 those that met poison. -/
def hashUnanswered (n : Nat) (s : State) : State :=
  match getSlot s n with
  | some x => failSlot s n (if 0 < x.pg 0 ∧ x.pg 0 = x.pg 1 then stStateLost else stFenced) 0
  | none => s

/-- Ask a copy of the key's shard (R182, R352). -/
def askHash (n : Nat) (ix : Index) (tried : List Nat) (s : State) : State :=
  match getSlot s n with
  | none => s
  | some x =>
    let sh := shardOfId (shardCount s ix.gid) (fld x.payload 8 8)
    match chooseCopy s ix.gid sh ix.mirrored (indexPoisoned s ix) tried with
    | some (dev, mirror) =>
      sendSub (putSlot s n { x with prog := [x.pg 0 + 1, x.pg 1] }) n ix.key 7 sh 0 (x.bind.getD 0 0) 0 ix.gid
        (slice x.payload 8 8 ++ zeros 8) dev mirror (!tried.isEmpty)
    | none => hashUnanswered n s

/-- Bind a lookup's epoch and send it (R172, R352). -/
def launchHash (n : Nat) (s : State) : State :=
  match getSlot s n with
  | none => s
  | some x =>
    match getIndex s (x.obj - 1) with
    | none => failSlot s n stBadParam 1
    | some ix =>
      match bindEpoch s ix (fld x.payload 24 8) with
      | none => failSlot s n stBadParam 4
      | some e =>
        let t := putSlot s n { x with bind := [e] }
        if leaseHeld s ix.gid then askHash n ix [] t else failSlot t n stFenced 0

/-- Start a HASH_GET in its slot. -/
def startHashGet (b : Src) (n : Nat) (s : State) : State :=
  match getSlot s n with
  | none => s
  | some x =>
    match hashRefusal s b.ws x.payload false true with
    | some (st, r) => failSlot s n st r
    | none =>
      let t := refIndex (putSlot s n { x with obj := fld x.payload 0 2 + 1 }) (fld x.payload 0 2) true
      if withinBudget s then launchHash n t else t

/-- HASH_GET (R352). -/
def execHashGet (fn ring : Nat) (h : HostView) (s : State) : Host.Outcome State Fault Refusal :=
  admitRow "HASH_GET" 10 fn ring h startHashGet s

/-- A copy is abandoned for a lookup (R191, R352). -/
def hashAbandon (n : Nat) (o : SubOut) (poison : Bool) (s : State) : State :=
  let t := modSlot (closeSub s n o) n fun x => { x with prog := [x.pg 0, x.pg 1 + b2n poison] }
  match (getSlot t n).bind fun x => getIndex t (x.obj - 1) with
  | some ix => if o.retried then hashUnanswered n t else askHash n ix [o.device] t
  | none => t

/-- A lookup's reply (R352). -/
def hashReply (n : Nat) (o : SubOut) (r : Reply) (s : State) : State :=
  match r, getSlot s n with
  | .hash st found poison v _, some x =>
    if st ≠ stOk ∨ poison then hashAbandon n o poison s
    else
      completeSlot (closeSub s n o) n (entryOf (entryHead x.tag stOk 10 ++
        [(12, leBytes 1 (b2n found)), (16, leBytes 8 (x.bind.getD 0 0)), (24, leBytes 8 (if found then v else 0))])) 0 []
  | _, _ => hashAbandon n o false s

end Sys2Proof.Machine
end

