-- ==== Sys2Proof/Machine/Change.lean ====
section
/-!
DEFINITION. Changes to an index (R26, R155, R156, R169 to R171, R174 to R179, R352, R502, R503, R629): admission of INSERT,
DELETE, HASH_PUT and HASH_DELETE, their application to a copy, and their completion.
-/

namespace Sys2Proof.Machine

/-! ## Entry checks -/

/-- Whether an attribute record fits the index (R156, R175). -/
def attrsOk (x : Index) (a : List Byte) : Bool :=
  if x.attributes then
    (List.range 4).all fun f =>
      let v := fld a (8 + 4 * f) 4
      match x.attrType f with
      | 0 => v == 0
      | 3 => !isNaN32 v
      | _ => true
  else zeroAt a 0 32

/-- An attribute record as it is stored: −0 in an F32 field becomes +0 (R156). -/
def storedAttrs (x : Index) (a : List Byte) : List Byte :=
  (List.range 4).foldl (fun l f =>
    if x.attrType f = 3 ∧ fld l (8 + 4 * f) 4 = 0x80000000 then l.take (8 + 4 * f) ++ zeros 4 ++ l.drop (12 + 4 * f) else l)
    (slice a 0 32)

/-- The state checks that a change of an IVF index shares (R137, R196). -/
def ivfState (s : State) (ws idx : Nat) : Option (Nat × Nat) :=
  match getIndex s idx with
  | none => some (stBadParam, 1)
  | some x => firstFail [(x.ws == ws, stNoAuth, 0), (x.kind != 3 && x.state == 2, stBadParam, 1)]

/-- Bytes of an inserted vector. -/
def insertBytes (x : Index) (p : List Byte) : Nat := x.dim * (((vecFmt (fld p 2 1)).map Fmt.width).getD 0 / 8)

/-- The vector of an INSERT, in FP32 codes (R142). -/
def insertVector (b : Src) (s : State) (x : Index) (p : List Byte) : List Nat :=
  vector32 ((vecFmt (fld p 2 1)).getD .fp32) x.dim (b.read s (fld p 16 8) (insertBytes x p))

/-- The refusal of an INSERT. -/
def insertRefusal (b : Src) (s : State) (p : List Byte) : Option (Nat × Nat) :=
  if !((vecFmt (fld p 2 1)).isSome && decide (fld p 3 1 < 2) && zeroAt p 4 4 && decide (fld p 0 2 < 1024)) then
    some (stBadParam, 2)
  else (ivfState s b.ws (fld p 0 2)).or (match getIndex s (fld p 0 2) with
    | none => none
    | some x =>
      ((if b.ok s (fld p 16 8) (insertBytes x p) then none else some (stBadParam, 5)).or
        (readsFail b s [(fld p 16 8, insertBytes x p)])).or
        (firstFail [(!notFinite32 (insertVector b s x p), stBadParam, 6), (fld p 8 8 != SENTINEL_ID, stBadParam, 8),
          (attrsOk x (slice p 32 32), stBadParam, 9)]))

/-- The refusal of a DELETE. -/
def deleteRefusal (b : Src) (s : State) (p : List Byte) : Option (Nat × Nat) :=
  if !(decide (fld p 2 1 ≤ 1) && zeroAt p 3 5 && zeroAt p 24 8 && decide (fld p 0 2 < 1024)) then some (stBadParam, 2)
  else (ivfState s b.ws (fld p 0 2)).or (firstFail [(fld p 2 1 != 0 || fld p 8 8 != SENTINEL_ID, stBadParam, 8)])

/-! ## CHANGE messages -/

/-- The shard of a change: of its ordinal, or of its ID or key (R174). -/
def changeShard (s : State) (x : Index) (kind : Nat) (p : List Byte) : Nat :=
  if kind = 3 ∧ fld p 2 1 = 1 then ordShard (fld p 8 8) else shardOfId (shardCount s x.gid) (fld p 8 8)

/-- A CHANGE message: the ring payload, ordinal and epoch, then what the receiver needs to place it and its vector
(DESIGN CHOICE, assumption 39). -/
def changeBytes (m : ChangeMsg) : List Byte :=
  m.payload ++ leBytes 8 m.ordinal ++ leBytes 8 m.epoch ++ leBytes 8 m.key ++ leBytes 2 m.shard ++ leBytes 2 m.kind ++
    leBytes 2 m.homeSlot ++ zeros 2 ++ m.vec.flatMap (leBytes 4)

/-- Send a CHANGE message under a fresh tag. -/
def sendChange (s : State) (dev : Nat) (m : ChangeMsg) : State :=
  sendWhole { s with fab := { s.fab with nextTxn := wrapAdd 64 s.fab.nextTxn 1 } } dev (getWs s m.ws).wclass m.ws 0x22
    s.fab.nextTxn (changeBytes m)

/-- The completion entry of a change (Tables: Change completion entry and Hash completion entry). -/
def changeEntry (x : Slot) (st epoch ordinal marked : Nat) : List Byte :=
  let m := if st = stOk then marked else 0
  if x.kind ≤ 3 then
    entryOf (entryHead x.tag st x.kind ++ [(16, leBytes 8 epoch), (24, leBytes 8 ordinal), (32, leBytes 4 (satAdd 32 0 m))])
  else entryOf (entryHead x.tag st x.kind ++ [(16, leBytes 8 epoch), (32, leBytes 4 (satAdd 32 0 m))])

/-- A change completes in its home slot. -/
def finishChange (s : State) (n st epoch ordinal marked : Nat) : State :=
  match getSlot s n with
  | some x => completeSlot s n (changeEntry x st epoch ordinal marked) 0 []
  | none => s

/-- The answer of the primary holder goes to the home slot that still awaits it: here, or as a reply of kind 8
(DESIGN CHOICE, assumption 39). -/
def answerChange (s : State) (src ws homeSlot txn st epoch ordinal marked : Nat) : State :=
  if src = fabricDev s then
    match getSlot s homeSlot with
    | some x => if x.subs.any fun o => o.kind == 8 && o.txn == txn then finishChange s homeSlot st epoch ordinal marked else s
    | none => s
  else sendWhole s src (getWs s ws).wclass ws 0x21 txn (replyBytes (.update st [epoch, ordinal, marked]))

/-- Forward a change of a slot to the primary holder of its shard (R174, R502): a LOST shard loses it, and one without a
primary, or a home without the lease, fences it. -/
def forwardChange (n : Nat) (s : State) : State :=
  match getSlot s n with
  | none => s
  | some x =>
    match getIndex s (x.obj - 1) with
    | none => failSlot s n stBadParam 1
    | some ix =>
      let sh := changeShard s ix x.kind x.payload
      let st := match roleOf s ix.gid sh with | some r => r.state | none => 2
      if !leaseHeld s ix.gid then failSlot s n stFenced 0
      else if st = 3 then failSlot s n stStateLost 0
      else match (if st = 2 then none else primaryDev s ix.gid sh) with
        | none => failSlot s n stFenced 0
        | some dev =>
          let o : SubOut := { kind := 8, shard := sh, round := 0, device := dev, mirror := false, retried := false,
                              sentAt := ns s, txn := s.fab.nextTxn }
          let t := putSlot s n { x with st := .waiting, wait := 1, subs := [o] }
          sendChange t dev { ws := x.ws, key := ix.key, shard := sh, kind := x.kind, src := fabricDev s, homeSlot := n,
                             payload := x.payload, vec := x.vec, ordinal := 0, epoch := 0 }

/-- Start a change in its slot, after its own checks: it binds the index and goes out. -/
def startChange (idx : Nat) (vec : List Nat) (n : Nat) (s : State) : State :=
  forwardChange n (refIndex (modSlot s n fun x => { x with obj := idx + 1, vec := vec }) idx true)

/-- Start an INSERT. -/
def startInsert (b : Src) (n : Nat) (s : State) : State :=
  match getSlot s n with
  | none => s
  | some x =>
    let p := x.payload
    match insertRefusal b s p, getIndex s (fld p 0 2) with
    | some (st, r), _ => failSlot s n st r
    | none, some ix => startChange (fld p 0 2) (insertVector b s ix p) n s
    | none, none => failSlot s n stBadParam 1

/-- INSERT (R175). -/
def execInsertEntry (fn ring : Nat) (h : HostView) (s : State) : Host.Outcome State Fault Refusal :=
  admitRow "INSERT" 2 fn ring h startInsert s

/-- Start a DELETE. -/
def startDelete (b : Src) (n : Nat) (s : State) : State :=
  match getSlot s n with
  | none => s
  | some x =>
    match deleteRefusal b s x.payload with
    | some (st, r) => failSlot s n st r
    | none => startChange (fld x.payload 0 2) [] n s

/-- DELETE (R176). -/
def execDeleteEntry (fn ring : Nat) (h : HostView) (s : State) : Host.Outcome State Fault Refusal :=
  admitRow "DELETE" 3 fn ring h startDelete s

/-- Start a HASH_PUT or HASH_DELETE. -/
def startHashChange (put : Bool) (b : Src) (n : Nat) (s : State) : State :=
  match getSlot s n with
  | none => s
  | some x =>
    match hashRefusal s b.ws x.payload put false with
    | some (st, r) => failSlot s n st r
    | none => startChange (fld x.payload 0 2) [] n s

/-- HASH_PUT (R352). -/
def execHashPut (fn ring : Nat) (h : HostView) (s : State) : Host.Outcome State Fault Refusal :=
  admitRow "HASH_PUT" 11 fn ring h (startHashChange true) s

/-- HASH_DELETE (R352). -/
def execHashDelete (fn ring : Nat) (h : HostView) (s : State) : Host.Outcome State Fault Refusal :=
  admitRow "HASH_DELETE" 12 fn ring h (startHashChange false) s

/-! ## Applying a change to a copy -/

/-- What applying a change gives: status, items marked, the copy and the state. -/
abbrev Applied := Nat × Nat × Copy × State

/-- Sequence numbers of a copy's items of an ID that are visible at an epoch. -/
def visibleOf (s : State) (x : Index) (c : Copy) (ident e : Nat) : List Locator :=
  (c.ids.filter (·.1 == ident)).filterMap fun p =>
    (c.ords.find? (·.1 == p.2)).bind fun o =>
      let it := readItem s x o.2.ma o.2.slot
      if visibleAt it.ins it.del e then some o.2 else none

/-- Mark items at an epoch (R148, R177). -/
def markAll (s : State) (x : Index) (e : Nat) (l : List Locator) : State :=
  l.foldl (fun t o => markSlot t x o.ma o.slot e) s

/-- A page of the ordinal map for a sequence number (R153). -/
def ordPageFor (s : State) (x : Index) (c : Copy) (seq : Nat) : Option (Copy × State) :=
  if c.ordPages.any (·.1 == seq / 4096) then some (c, s)
  else if !roomFor s x.ws 1 (·.windowPages) then none
  else (allocWindow s x.ws 2 1).map fun r => ({ c with ordPages := c.ordPages ++ [(seq / 4096, r.1)] }, r.2)

/-- The lowest place of the refine store that no item holds. -/
def freePlace (c : Copy) : Nat :=
  let used := c.ords.filterMap (·.2.vec)
  ((List.range (used.length + 1)).find? fun i => !used.contains i).getD used.length

/-- Store the vector kept for refinement (R142, R153): status, its place, copy and state. -/
def storeVector (s : State) (idx : Nat) (x : Index) (mirror : Bool) (c : Copy) (seq : Nat) (vec : List Nat) :
    Nat × Option Nat × Copy × State :=
  let f := x.vectorFmt.getD .fp32
  let bytes := f.pack (vec.map fun v => (convert f (f32 v)).1)
  match x.refineKind with
  | 0 => (stOk, none, c, s)
  | 1 =>
    let p := freePlace c
    (stOk, some p, c, { s with mem := store s.mem (x.refineDpa mirror p) bytes })
  | _ =>
    let r := streamWrite s 5 x.ws (copyOwner idx mirror) x.gid bytes
    (r.1, some (freePlace c), { c with flashVecs := c.flashVecs ++ [(seq, bytes)] }, r.2.2)

/-- Append an item (R142, R147, R153): status, copy and state. -/
def appendItem (s : State) (idx : Nat) (x : Index) (mirror : Bool) (c : Copy) (e ordinal ident : Nat) (attrs : List Byte)
    (vec : List Nat) : Nat × Copy × State :=
  let v := vals32 vec
  let list := nearestList x v
  let codes := packCodes x (encodeItem x v)
  let seq := ordSeq ordinal
  if decide (x.maxItems ≤ c.ords.length) || decide (2 ^ 33 ≤ deviceItems s) then (stQuota, c, s)
  else match ordPageFor s x c seq with
    | none => (stQuota, c, s)
    | some (c1, s1) =>
      match nextSlot s1 idx x c1 list with
      | none => (stQuota, c, s)
      | some (ma, slot, c2, s2) =>
        let r := storeVector s2 idx x mirror c2 seq vec
        if r.1 ≠ stOk then (r.1, c, s)
        else
          let it : Item := { ma := ma, slot := slot, ins := e, del := NEVER, ord := ordinal, ident := ident,
                             attrs := storedAttrs x attrs, codes := codes }
          let c3 := r.2.2.1
          (stOk, { c3 with ids := c3.ids ++ [(ident, seq)], ords := Tab.insert c3.ords seq ⟨ma, slot, r.2.1⟩,
                           nextSeq := max c3.nextSeq (seq + 1) }, writeSlot r.2.2.2 x ma slot it)

/-- An INSERT, or an upsert (R177): the old items are marked at the epoch at which the new one enters. -/
def applyInsert (s : State) (idx : Nat) (x : Index) (mirror : Bool) (c : Copy) (e ordinal : Nat) (p : List Byte)
    (vec : List Nat) : Applied :=
  let old := if bit (fld p 3 1) 0 then visibleOf s x c (fld p 8 8) e else []
  let r := appendItem s idx x mirror c e ordinal (fld p 8 8) (slice p 32 32) vec
  if r.1 = stOk then (stOk, old.length, r.2.1, markAll r.2.2 x e old) else (r.1, 0, c, s)

/-- A DELETE, by ID or by ordinal (R176, R177). -/
def applyDelete (s : State) (x : Index) (c : Copy) (e : Nat) (p : List Byte) : Applied :=
  let l :=
    if fld p 2 1 = 0 then visibleOf s x c (fld p 8 8) e
    else match c.ords.find? (·.1 == ordSeq (fld p 8 8)) with
      | some o =>
        let it := readItem s x o.2.ma o.2.slot
        if visibleAt it.ins it.del e then [o.2] else []
      | none => []
  (stOk, l.length, c, markAll s x e l)

/-- A put or delete of a key (R160, R161). -/
def applyHash (s : State) (x : Index) (c : Copy) (e : Nat) (put : Bool) (p : List Byte) : Applied :=
  let key := fld p 8 8
  let b := x.bucketOf key
  let old := (chainEntries s (chainOf s c b)).filter fun it => it.ident == key && visibleAt it.ins it.del e
  let mark := fun (t : State) => old.foldl (fun u it => markEntry u it.ma it.slot e) t
  if !put then (stOk, old.length, c, mark s)
  else if decide (2 ^ 33 ≤ deviceItems s) || decide (x.maxItems ≤ (hashItems s c).length) then (stQuota, 0, c, s)
  else match bucketRoom s x c b with
    | none => (stQuota, 0, c, s)
    | some (ma, c', t) => (stOk, old.length, c', appendEntry (mark t) ma key (fld p 16 8) e NEVER)

/-- Apply a change of a kind to a copy (R177, R161). -/
def applyChange (s : State) (idx : Nat) (x : Index) (mirror : Bool) (c : Copy) (kind e ordinal : Nat) (p : List Byte)
    (vec : List Nat) : Applied :=
  match kind with
  | 2 => applyInsert s idx x mirror c e ordinal p vec
  | 3 => applyDelete s x c e p
  | 11 => applyHash s x c e true p
  | _ => applyHash s x c e false p

/-- Journal a change on the shard journal of a copy (R26): its payload with ordinal and epoch, and its vector. -/
def journalChange (s : State) (idx : Nat) (x : Index) (mirror : Bool) (e ordinal : Nat) (p : List Byte) (vec : List Nat) :
    Nat × Nat × State :=
  streamWrite s 3 x.ws (copyOwner idx mirror) x.gid
    (p ++ leBytes 8 ordinal ++ leBytes 8 e ++ vec.flatMap (leBytes 4))

/-- Put a copy back at its place in an index. -/
def putCopy (s : State) (idx : Nat) (mirror : Bool) (c : Copy) : State :=
  match getIndex s idx with
  | some x => putIndex s idx (x.withCopy mirror (some c))
  | none => s

/-- The device that also keeps each change: the mirror holder of a WHOLE shard of a mirrored index, the witness of a DEGRADED
one (R26, R502). -/
def secondDev (s : State) (x : Index) (shard : Nat) : Option Nat :=
  match findGroup s x.gid, roleOf s x.gid shard with
  | some g, some r =>
    if r.state = 1 then memberDev g.mem r.target
    else if r.state = 0 ∧ x.mirrored then memberDev g.mem r.mirror
    else none
  | _, _ => none

/-- The primary holder assigns a change its epoch and ordinal, applies and journals it, and sends it on (R26, R169, R629); a
refusal changes nothing. It holds at most 2^20 changes not completed. -/
def assignChange (s : State) (idx : Nat) (x : Index) (mirror : Bool) (c : Copy) (m : ChangeMsg) (txn : Nat) : State :=
  let e := max (net s) (c.pLast + 1)
  let ordinal := if m.kind = 2 then mkOrdinal c.shard c.nextSeq else SENTINEL_ORD
  let fail := fun (st : Nat) => answerChange s m.src m.ws m.homeSlot txn st 0 SENTINEL_ORD 0
  if 2 ^ 20 ≤ c.changes.length then s
  else if m.kind = 2 ∧ 2 ^ 48 ≤ c.nextSeq then fail stQuota
  else
    let r := applyChange s idx x mirror c m.kind e ordinal m.payload m.vec
    if r.1 ≠ stOk then fail r.1
    else
      let j := journalChange r.2.2.2 idx x mirror e ordinal m.payload m.vec
      if j.1 ≠ stOk then fail j.1
      else
        let second := secondDev s x c.shard
        let ch : Change := { kind := m.kind, epoch := e, ordinal := ordinal, payload := m.payload, vec := m.vec, src := m.src,
                             homeSlot := m.homeSlot, txn := txn, marked := r.2.1, primaryDone := true, mirrorDone := false,
                             journalDone := true, needMirror := second.isSome }
        let t := putCopy j.2.2 idx mirror { r.2.2.1 with pLast := e, changes := r.2.2.1.changes ++ [ch] }
        match second with
        | some d => sendChange t d { m with src := fabricDev s, ordinal := ordinal, epoch := e }
        | none => t

/-- The other copy, or the witness, takes a change with its epoch and ordinal, journals it and acknowledges it (R26, R177,
R502). -/
def takeChange (s : State) (idx : Nat) (x : Index) (mirror : Bool) (c : Copy) (m : ChangeMsg) (txn : Nat) : State :=
  let reply := fun (t : State) (st : Nat) =>
    sendWhole t m.src (getWs s m.ws).wclass m.ws 0x21 txn (replyBytes (.update st [m.epoch, m.ordinal, 0]))
  let r : Applied := if c.live then applyChange s idx x mirror c m.kind m.epoch m.ordinal m.payload m.vec else (stOk, 0, c, s)
  if r.1 ≠ stOk then reply s r.1
  else
    let j := journalChange r.2.2.2 idx x mirror m.epoch m.ordinal m.payload m.vec
    if j.1 ≠ stOk then reply s j.1
    else
      let d := r.2.2.1
      reply (putCopy j.2.2 idx mirror { d with
        pLast := max d.pLast m.epoch
        nextSeq := if m.kind = 2 then max d.nextSeq (ordSeq m.ordinal + 1) else d.nextSeq }) stOk

/-- The CHANGE message of an operand, as it waits. -/
def changePacket (s : State) (m : ChangeMsg) : Option Packet :=
  s.fab.inbox.find? fun p => p.msg == 0x22 && p.src == m.src && p.ws == m.ws && p.payload == changeBytes m

/-- Whether a change may be taken: this device's own is exactly what it has sent. -/
def changeArrived (s : State) (m : ChangeMsg) : Bool := (changePacket s m).isSome || m.src != fabricDev s

/-- A copy and its place, by shard. -/
def Index.placeOf (x : Index) (shard : Nat) : Option (Bool × Copy) :=
  match x.copyOf shard with
  | some c => some ((x.primary.map (·.shard)) != some shard, c)
  | none => none

/-- A copy receives a change (R169, R501): without the lease it answers ST_FENCED; without the time budget the primary holder
leaves it waiting (R556). -/
def receiveChange (m : ChangeMsg) (s : State) : State :=
  let txn := ((changePacket s m).map (·.txn)).getD 0
  let t := match changePacket s m with | some p => takeMsg s p | none => s
  match indexByKey s m.ws m.key with
  | none => answerChange t m.src m.ws m.homeSlot txn stFenced 0 SENTINEL_ORD 0
  | some (idx, x) =>
    match x.placeOf m.shard with
    | none => answerChange t m.src m.ws m.homeSlot txn stFenced 0 SENTINEL_ORD 0
    | some (mirror, c) =>
      if !leaseHeld s x.gid then answerChange t m.src m.ws m.homeSlot txn stFenced 0 SENTINEL_ORD 0
      else if m.epoch ≠ 0 then takeChange t idx x mirror c m txn
      else if primaryDev s x.gid m.shard != some (fabricDev s) then answerChange t m.src m.ws m.homeSlot txn stFenced 0 SENTINEL_ORD 0
      else if !withinBudget s || decide (2 ^ 20 ≤ c.changes.length) then s
      else assignChange t idx x mirror c m txn

/-- CHANGE (R169, R177). -/
def execChangeMsg (c : ChangeMsg) (s : State) : Host.Outcome State Fault Refusal :=
  .next (when (firmwareRuns s && changeArrived s c) (receiveChange c) s)

/-! ## Completion -/

/-- Whether a change has done all that R171 and R26 ask for. -/
def changeDone (s : State) (c : Change) : Bool :=
  c.primaryDone && c.journalDone && (!c.needMirror || c.mirrorDone) && decide (c.epoch + 40 < net s)

/-- A change of a copy: its mirror's acknowledgement is noted, and it completes once it is done (R171, R629). -/
def completeChange (index shard epoch : Nat) (acked : Bool) (s : State) : State :=
  match (getIndex s index).bind fun x => (x.placeOf shard).map fun p => (x, p.1, p.2) with
  | none => s
  | some (x, mirror, c) =>
    match c.changes.find? (·.epoch == epoch) with
    | none => s
    | some ch =>
      let d := { ch with mirrorDone := ch.mirrorDone || (acked && ch.needMirror) }
      if changeDone s d then
        answerChange (putCopy s index mirror { c with changes := c.changes.filter (·.epoch != epoch) }) d.src x.ws d.homeSlot
          d.txn stOk d.epoch d.ordinal d.marked
      else putCopy s index mirror { c with changes := c.changes.map fun y => if y.epoch = epoch then d else y }

/-- CHANGE_COMPLETE (R171): the operand says whether the other holder has acknowledged the change. -/
def execChangeComplete (index shard epoch : Nat) (acked : Bool) (s : State) : Host.Outcome State Fault Refusal :=
  guarded "CHANGE_COMPLETE" (decide (index < 1024))
    (when (firmwareRuns s) (completeChange index shard epoch acked) s)

/-- The primary holder's answer to a forwarded change comes to its home slot. One of ST_FENCED, before an epoch was assigned,
leaves the change to the next membership or to the timeout (R507). -/
def changeReply (n : Nat) (o : SubOut) (r : Reply) (s : State) : State :=
  match r with
  | .update st cs =>
    if st = stFenced ∧ cs.getD 0 0 = 0 then s
    else finishChange (closeSub s n o) n st (cs.getD 0 0) (cs.getD 1 SENTINEL_ORD) (cs.getD 2 0)
  | _ => s

/-- A forwarded change that no primary has completed within the sub-request timeout (R507); one whose primary is this device
waits on (R629). -/
def changeAbandon (n : Nat) (o : SubOut) (s : State) : State :=
  if o.device = fabricDev s then s else finishChange (closeSub s n o) n stFenced 0 SENTINEL_ORD 0

end Sys2Proof.Machine
end

