-- ==== Sys2Proof/Machine/Gaffers.lean ====
section
/-!
DEFINITION. Gaffer job queues (R97, R122 to R128), one row per kind of job, SRAM errors (R96), and the passes of jack contexts
(R202, R203).
-/

namespace Sys2Proof.Machine

/-! ## Submission -/

/-- Entries of an engine's queue in use: jobs queued, and those of open batches, which stand in the queue (R97, R128). -/
def queueUse (g : Gaffer) : Nat := g.queue.length + (g.batches.map (·.jobs.length)).foldl (· + ·) 0

/-- The queue's submit pointer passes a core; the bench core is the last requester (R122). -/
def passSubmit (g : Gaffer) (core : Nat) : Gaffer := { g with ptr := (core + 1) % 513 }

/-- Submit a job to the end of an engine's queue where there is room (R97). -/
def submitJob (e : Nat) (j : GafferJob) (s : State) : State :=
  let g := getGaffer s e
  if queueUse g < 64 then putGaffer s e (passSubmit { g with queue := g.queue ++ [j] } j.core) else s

/-- Close a batch: its jobs join the queue. -/
def closeBatch (g : Gaffer) (b : CoarseBatch) : Gaffer :=
  { g with queue := g.queue ++ b.jobs, batches := g.batches.filter (·.index != b.index) }

/-- Submit a coarse job: it joins its index's open batch, or opens one; a batch of 32, or any with a window of 0, closes (R127,
R128). -/
def submitCoarse (e : Nat) (j : GafferJob) (s : State) : State :=
  let g := getGaffer s e
  if queueUse g < 64 then
    let b := (g.batches.find? (·.index == j.obj)).getD ⟨j.obj, [], ns s⟩
    let b := { b with jobs := b.jobs ++ [j] }
    let h := passSubmit { g with batches := g.batches.filter (·.index != j.obj) ++ [b] } j.core
    putGaffer s e (if 32 ≤ b.jobs.length ∨ s.boot.settings.coarseWindowNs = 0 then closeBatch h b else h)
  else s

/-- COARSE_BATCH_CLOSE (R127): the window has passed since the batch's first query. -/
def execCoarseBatchClose (engine index : Nat) (s : State) : Host.Outcome State Fault Refusal :=
  guarded "COARSE_BATCH_CLOSE" (decide (engine < 128)) (
    let g := getGaffer s engine
    match g.batches.find? (·.index == index) with
    | some b => when (elapsed s b.openedAt s.boot.settings.coarseWindowNs) (fun t => putGaffer t engine (closeBatch g b)) s
    | none => s)

/-! ## Execution -/

/-- What an execution meets in the engine's SRAM (R96): a corrected word, or an uncorrectable one, whose page is RETIRED; the
job runs again with the same bits (DEDUCED, assumption 145). -/
def sramError (e : Nat) (err : Option (Nat × Bool)) (s : State) : State :=
  match err with
  | none => s
  | some (_, false) => score (emit s 0x0301 4 e 0 0 0) 3 e 1 0x0301
  | some (p, true) =>
    let g := getGaffer s e
    score (emit (putGaffer s e { g with pages := setAt g.pages p 5 }) 0x0302 4 e 0 0 0) 3 e 64 0x0302

/-- An output stands until the next of its submitter's slot and kind. -/
def keepOutput (g : Gaffer) (j : GafferJob) (out : List Nat) (arith : Nat) : Gaffer :=
  { g with outputs := g.outputs.filter (fun o => !(o.1.kind == j.kind && o.1.core == j.core && o.1.slot == j.slot)) ++
      [(j, out, arith)] }

/-- The slots of a program whose invocation waits for a queue entry, the lowest first, get one (R115). -/
def wakeModel (e : Nat) (s : State) : State :=
  let waits := s.hub.slots.find? fun p =>
    p.2.kind == 9 && p.2.st == .waiting && p.2.prog.getD 0 1 == 0 && ((getProgram s p.2.obj).any fun q => q.engines.contains e)
  match waits with
  | some (n, x) => putSlot s n { x with st := .ready, wait := 0 }
  | none => s

/-- Run the job at the head of an engine's queue where it is of a kind (R97). -/
def runHead (kind : JobKind) (e : Nat) (err : Option (Nat × Bool)) (run : State → GafferJob → List Nat × Nat) (s : State) :
    State :=
  let g := getGaffer s e
  match g.queue with
  | [] => s
  | j :: t =>
    if j.kind = kind then
      let r := run s j
      wakeModel e (sramError e err (putGaffer s e (keepOutput { g with queue := t } j r.1 r.2)))
    else s

/-- The row of a kind of job: a submission of a core, or the execution of the job at the head. -/
def gafferRow (kind : JobKind) (e : Nat) (j : Option GafferJob) (err : Option (Nat × Bool)) (ok : State → GafferJob → Bool)
    (put : Nat → GafferJob → State → State) (run : State → GafferJob → List Nat × Nat) (s : State) : State :=
  match j with
  | some j => if j.kind = kind ∧ j.core ≤ 512 ∧ ok s j ∧ !scoreRetired s 3 e ∧ firmwareRuns s then put e j s else s
  | none => if firmwareRuns s then runHead kind e err run s else s

/-- FP32 codes carried by a job. -/
def jobCodes (l : List Byte) : List Nat := (List.range (l.length / 4)).map fun i => fld l (4 * i) 4

/-- Codes of coded results, with their arith_status. -/
def codedOut (l : List Coded) : List Nat × Nat := (l.map Prod.fst, l.foldl (fun a c => a ||| c.2) 0)

/-- Whether a job's object is an index that is READY and its vector the index's. -/
def vectorJob (s : State) (j : GafferJob) : Bool :=
  match getIndex s j.obj with
  | some x => x.state == 2 && decide (j.data.length = 4 * x.dim)
  | none => false

/-- A job over an index, with its vector. -/
def overIndex (f : Index → List Val → List Nat × Nat) (s : State) (j : GafferJob) : List Nat × Nat :=
  match getIndex s j.obj with
  | some x => f x (vals32 (jobCodes j.data))
  | none => ([], 0)

/-- COARSE_SCORING (R124): FP32 scores of a query against every centroid. -/
def execCoarseScoring (engine : Nat) (j : Option GafferJob) (err : Option (Nat × Bool)) (s : State) :
    Host.Outcome State Fault Refusal :=
  guarded "COARSE_SCORING" (decide (engine < 128)) (
    gafferRow .coarse engine j err vectorJob submitCoarse (overIndex fun x v => codedOut (coarseScores x v)) s)

/-- SUB_DISTANCE_TABLE (R125): the sub-distances of R36, and the table that the punty core quantises from them. -/
def execSubDistanceTable (engine : Nat) (j : Option GafferJob) (err : Option (Nat × Bool)) (s : State) :
    Host.Outcome State Fault Refusal :=
  guarded "SUB_DISTANCE_TABLE" (decide (engine < 128)) (
    gafferRow .subDistance engine j err vectorJob submitJob
      (overIndex fun x v => let t := lookupTable x v; (t.1.flatMap fun r => r, t.2)) s)

/-- INSERT_ENCODING (R142): the nearest centroid, and the product code. -/
def execInsertEncoding (engine : Nat) (j : Option GafferJob) (err : Option (Nat × Bool)) (s : State) :
    Host.Outcome State Fault Refusal :=
  guarded "INSERT_ENCODING" (decide (engine < 128)) (
    gafferRow .insertEncode engine j err vectorJob submitJob
      (overIndex fun x v => (nearestList x v :: encodeItem x v, (codedOut (coarseScores x v)).2)) s)

/-- Vectors streamed into a refinement job behind the query vector, in the index's vector format. -/
def streamed (x : Index) (l : List Byte) : List (List Byte) :=
  (List.range ((l.length - 4 * x.dim) / max 1 x.vecBytes)).map fun i => slice l (4 * x.dim + i * x.vecBytes) x.vecBytes

/-- REFINEMENT (R190): refined distances of streamed vectors, on an engine with free WORK pages. -/
def execRefinement (engine : Nat) (j : Option GafferJob) (err : Option (Nat × Bool)) (s : State) :
    Host.Outcome State Fault Refusal :=
  guarded "REFINEMENT" (decide (engine < 128)) (
    gafferRow .refine engine j err (fun t k => (getGaffer t engine).pages.contains 0 && (getIndex t k.obj).any fun x =>
        decide (4 * x.dim ≤ k.data.length)) submitJob
      (fun t k => match getIndex t k.obj with
        | some x => codedOut ((streamed x k.data).map (refinedDist x (jobCodes (slice k.data 0 (4 * x.dim)))))
        | none => ([], 0)) s)

/-- The outcome of an invocation: output bytes and arith_status; arith_status 256 stands for its failure. -/
def modelOut (s : State) (j : GafferJob) : List Nat × Nat :=
  match getProgram s j.obj, getSlot s j.slot with
  | some p, some x =>
    match invoke p (fld x.payload 4 4) j.data with
    | some (l, a) => (l.map (·.toNat), a)
    | none => ([], 256)
  | _, _ => ([], 256)

/-- MODEL_PROGRAM_JOB (R106): one invocation, on the program's residency set. -/
def execModelProgramJob (engine : Nat) (j : Option GafferJob) (err : Option (Nat × Bool)) (s : State) :
    Host.Outcome State Fault Refusal :=
  guarded "MODEL_PROGRAM_JOB" (decide (engine < 128)) (
    gafferRow .model engine j err (fun t k => (getProgram t k.obj).any fun p => p.engines.contains engine) submitJob modelOut s)

/-- Column sums of a chunk of occurrences of width `d`, in transport form, one long accumulator each (R48). -/
def chunkSums (d : Nat) (v : List Nat) : List Byte :=
  (List.range d).flatMap fun c =>
    (LAcc.sum ((List.range (v.length / max 1 d)).map fun i => f32 (v.getD (i * d + c) 0))).toBytes

/-- HOT_ROW_CHUNK (R48): the exact sum of a chunk of at most 1,024 occurrences; `obj` is the row's dimension. -/
def execHotRowChunk (engine : Nat) (j : Option GafferJob) (err : Option (Nat × Bool)) (s : State) :
    Host.Outcome State Fault Refusal :=
  guarded "HOT_ROW_CHUNK" (decide (engine < 128)) (
    gafferRow .hotRow engine j err (fun _ k => decide (k.data.length ≤ 1024 * 4 * k.obj)) submitJob
      (fun _ k => ((chunkSums k.obj (jobCodes k.data)).map (·.toNat), 0)) s)

/-- Cut codes into vectors of a width. -/
def vectorsOf (w : Nat) (v : List Nat) : List (List Nat) :=
  (List.range (v.length / max 1 w)).map fun i => (v.drop (i * w)).take w

/-- One iteration over part of a training set: the codewords that the samples leave (R138). The job's data holds the set, all
ones for the centroids and else a subquantiser, then the codewords, then the samples. -/
def trainingOut (s : State) (j : GafferJob) : List Nat × Nat :=
  match getIndex s j.obj with
  | none => ([], 0)
  | some x =>
    let coarse := fld j.data 0 4 == 0xFFFFFFFF
    let w := if coarse then x.dim else x.dim / max 1 x.m
    let vs := vectorsOf w (jobCodes (j.data.drop 4))
    let k := if coarse then x.nlist else x.k
    let cs := vs.take k
    let samples := (vs.drop k).map vals32
    let score := fun v c =>
      if coarse then f32 (coarseScore x.metric v c (LAcc.sum (c.map fun y => y.mul y))).1 else f32 (subDistance 0 v c).1
    ((refit samples (assignAll score samples cs) cs).flatMap fun c => c, 0)

/-- TRAINING_PASS (R139): submitted by the bench core. -/
def execTrainingPass (engine : Nat) (j : Option GafferJob) (err : Option (Nat × Bool)) (s : State) :
    Host.Outcome State Fault Refusal :=
  guarded "TRAINING_PASS" (decide (engine < 128)) (
    gafferRow .training engine j err (fun t k => k.core == 512 && (getIndex t k.obj).any fun x => x.state == 1) submitJob
      trainingOut s)

/-! ## Jack contexts (R202, R203) -/

def getJack (s : State) (n : Nat) : Option JackCtx := (s.hub.jacks.find? (·.1 == n)).map (·.2)

/-- Bind a context to a selection of a slot (R203): it starts with no record kept (DESIGN CHOICE, assumption 149). -/
def bindJack (n : Nat) (b : JackCtx) (s : State) : State :=
  if (getJack s n).isSome ∨ scoreRetired s 5 (n / 8) then s
  else { s with hub := { s.hub with
    jacks := Tab.insert s.hub.jacks n { b with keep := [], kept := [], out := [], floor := none }
    jackAlloc := Tab.set 0 s.hub.jackAlloc (n / 8) ((b.core + 1) % 512) } }

/-- One pass over the input: its keep is read out, joins the kept-ID set, and its last key is the next floor (R202, R206). -/
def passJack (n : Nat) (s : State) : State :=
  match getJack s n with
  | none => s
  | some c =>
    let w := jackPass c.dedup c.kept c.floor (min 64 (c.depth - c.out.length)) c.input
    let d := { c with keep := w, out := c.out ++ w, kept := if c.dedup then c.kept ++ w.map (·.ident) else c.kept,
                      floor := match w.getLast? with | some r => some r.key | none => c.floor }
    { s with hub := { s.hub with
      jacks := Tab.insert s.hub.jacks n d
      jackRead := Tab.set 0 s.hub.jackRead (n / 8) ((n + 1) % 8) } }

/-- JACK_PASS (R202): a context is bound with its input, or streams it through one pass. -/
def execJackPass (unit ctx : Nat) (bind : Option JackCtx) (s : State) : Host.Outcome State Fault Refusal :=
  guarded "JACK_PASS" (decide (unit < 64) && decide (ctx < 8)) (when (firmwareRuns s) (fun t =>
    match bind with
    | some b => bindJack (8 * unit + ctx) b t
    | none => passJack (8 * unit + ctx) t) s)

/-- Contexts bound for a slot are released with it, and what marver units sent for it is dropped (R203). -/
def freeJacks (s : State) (slot : Nat) : State :=
  { s with
    hub := { s.hub with jacks := s.hub.jacks.filter fun p => p.2.slot != slot }
    marver := { s.marver with
      records := s.marver.records.filter fun r => fld r.2 16 2 != slot
      results := s.marver.results.filter (·.slot != slot) } }

end Sys2Proof.Machine
end

