-- ==== Sys2Proof/Machine/Update.lean ====
section
/-!
DEFINITION. UPDATE at its coordinator and at the copies that apply it (R271 to R275, R296), and the table control messages
(R274).
-/

namespace Sys2Proof.Machine

/-! ## The row update (R275) -/

/-- Codes with their arith_status, joined. -/
def codedStatus (l : List Coded) : Nat := l.foldl (fun a c => a ||| c.2) 0

/-- One element of the requantised row: a code from 0 to QMAX. -/
def requantise (qmax sc off w : Nat) : Coded :=
  if (Fmt.decode .fp16 sc).isZero then (0, 0)
  else
    let a := sub32 w (convert .fp32 (Fmt.decode .fp16 off)).1
    let b := round32 ((f32 a.1).div (Fmt.decode .fp16 sc))
    let n : Nat := match f32 b.1 with
      | .fin neg num den => if neg then 0 else min qmax (rneDiv num den)
      | .inf neg => if neg then 0 else qmax
      | .nan => 0
    (n, a.2 ||| b.2)

/-- ADAGRAD_ROW's new accumulator and divisor. -/
def adagrad (t : Table) (acc : Nat) (g : List Nat) : Coded × Coded :=
  let sum := LAcc.sum (g.map fun c => (f32 c).mul (f32 c))
  let s := round32 (sum.value.div (.ofInt (t.dim : Nat)))
  let a := add32 acc s.1
  let r := sqrt32 a.1
  let d := add32 r.1 t.eps
  ((a.1, s.2 ||| a.2 ||| sum.status), (d.1, r.2 ||| d.2))

/-- The new value of an element: SGD, or ADAGRAD_ROW with its divisor. -/
def stepValue (den : Option Nat) (lr w g : Nat) : Coded :=
  let m := mul32 lr g
  let q := match den with | some d => div32 m.1 d | none => (m.1, 0)
  let r := sub32 w q.1
  (r.1, m.2 ||| q.2 ||| r.2)

/-- One optimiser update of a row: the new record, none where the row keeps its old one, and arith_status. -/
def updateRow (t : Table) (r : List Byte) (lr : Nat) (g : List Nat) : Option (List Byte) × Nat :=
  let js := List.range t.dim
  let ws := js.map fun j => round32 (((Val.ofInt (t.code r j : Nat)).mul (rowScale r)).add (rowOffset r))
  let ad := if t.optimiser = 2 then some (adagrad t (fld r 4 4) g) else none
  let new := (ws.zip g).map fun p => stepValue (ad.map (·.2.1)) lr p.1.1 p.2
  let vs := new.map fun c => f32 c.1
  let lo := vs.foldl Val.min (vs.headD Val.zero)
  let hi := vs.foldl Val.max (vs.headD Val.zero)
  let off := convert .fp16 lo
  let span := round32 (hi.sub (Fmt.decode .fp16 off.1))
  let q := round32 ((f32 span.1).div (.ofInt (t.rowMax : Nat)))
  let sc : Coded := if Val.zero.numLt (f32 span.1) then convert .fp16 (f32 q.1) else (0, 0)
  let st := codedStatus ws ||| codedStatus new ||| (match ad with | some a => a.1.2 ||| a.2.2 | none => 0)
  if vs.any Val.notFinite || (Fmt.decode .fp16 off.1).notFinite || (Fmt.decode .fp16 sc.1).notFinite then
    (none, st ||| ARITH_RANGE)
  else
    let cs := new.map fun c => requantise t.rowMax sc.1 off.1 c.1
    let acc := match ad with | some a => a.1.1 | none => fld r 4 4
    let rec_ := leBytes 2 sc.1 ++ leBytes 2 off.1 ++ leBytes 4 acc ++ [1] ++ zeros 7 ++ leBytes 4 (satAdd 32 (fld r 16 4) 1) ++
      slice r 20 8 ++ zeros 4 ++ t.packCodes (cs.map (·.1))
    (some (rec_ ++ zeros (t.rowLen - rec_.length)), st ||| off.2 ||| span.2 ||| sc.2 ||| codedStatus cs)

/-! ## The serving copy -/

/-- Gradient rows and valid counts of a body's bags: the bags ascend, a count per bag follows the rows for MEAN (assumption
43). -/
structure BagGrads where
  fmt : Fmt
  dim : Nat
  bags : List Nat
  mean : Bool
  data : List Byte
  deriving DecidableEq, Repr

/-- The value that an occurrence in a bag adds to element `j`: q_b[j] (R272). -/
def BagGrads.addend (b : BagGrads) (bag j : Nat) : Val :=
  let w := b.fmt.width / 8
  match b.bags.findIdx? (· == bag) with
  | some i =>
    let g := b.fmt.decode (fld b.data ((i * b.dim + j) * w) w)
    if b.mean then g.div (.ofInt (fld b.data (b.bags.length * b.dim * w + 4 * i) 4 : Nat)) else g
  | none => Val.zero

/-- The gradient of a row, element by element: every occurrence enters alone (R272). -/
def BagGrads.gradient (b : BagGrads) (bags : Tab Nat) : List Coded :=
  (List.range b.dim).map fun j =>
    (LAcc.sum (bags.flatMap fun p => List.replicate p.2 (b.addend p.1 j))).read .fp32

/-- What applying a batch to a shard gives: the new records, and missing occurrences, rows updated, hot rows, rows
rejected, arith_status. -/
abbrev ShardUpdate := List (List Byte) × List Nat

/-- Update the rows of a shard from what they hold; none where a row cannot be read. -/
def updateRows (t : Table) (lr : Nat) (b : BagGrads) (read : Nat → Option (List Byte)) (o : Occs) : Option ShardUpdate :=
  o.foldl (fun acc p =>
    match acc, read p.1 with
    | some (rs, cs), some r =>
      let c := fun i => cs.getD i 0
      let n := (p.2.map (·.2)).foldl (· + ·) 0
      if rowPresent r then
        let g := b.gradient p.2
        let u := updateRow t r lr (g.map (·.1))
        some (match u.1 with | some x => rs ++ [x] | none => rs,
          [c 0, c 1 + b2n u.1.isSome, c 2 + b2n (decide (t.hot ≤ n)), c 3 + b2n u.1.isNone, c 4 ||| u.2 ||| codedStatus g])
      else some (rs, [c 0 + n, c 1, c 2, c 3, c 4])
    | _, _ => none) (some ([], [0, 0, 0, 0, 0]))

/-- The gradients of an UPDATE sub-request's body. -/
def bodyGrads (t : Table) (p : List Byte) (o : Occs) (rest : List Byte) : BagGrads :=
  { fmt := (batchFmt (fld p 5 1)).getD .fp32, dim := t.dim, bags := occBags o, mean := fld p 4 1 == 1, data := rest }

/-- Serve an UPDATE sub-request: a copy that has applied it answers as applied; journal, rows and count go together (R274). -/
def serveUpdate (s : State) (q : SubIn) : State :=
  match servedTable s q with
  | .error r => replySub s q r
  | .ok (h, t, x, m) =>
    let p := q.body.take 80
    let b := parseOccs (q.body.drop 80)
    match x.mark m with
    | some (seq, tag, cs) =>
      if x.count m = q.bind1 ∧ seq + 1 = q.bind1 ∧ tag = fld p 56 8 then replySub s q (.update stOk cs) else go h t x m p b
    | none => go h t x m p b
where
  /-- Apply it to a copy that holds the count before. -/
  go (h : Nat) (t : Table) (x : Version) (m : Bool) (p : List Byte) (b : Occs × List Byte) : State :=
    if x.count m + 1 ≠ q.bind1 then replySub s q .fenced
    else match updateRows t (fld p 40 4) (bodyGrads t p b.1 b.2) (readRow s t x m) b.1 with
      | none => replySub s q (.update stStateLost [])
      | some (rs, cs) =>
        let j := journalRows s h m x.num q.bind1 rs
        if j.1 ≠ stOk then replySub s q (.update j.1 [])
        else
          let u := modVersion (writeRows j.2 t x m rs) h x.num fun y => y.raise m q.bind1 (q.bind1 - 1, fld p 56 8, cs)
          replySub u q (.update stOk cs)

/-- UPDATE_SUBREQUEST (R274). -/
def execUpdateSubrequest (ident : Nat) (s : State) : Host.Outcome State Fault Refusal :=
  .next (admitSub 6 ident serveUpdate s)

/-! ## Checks (R268, R271, R273) -/

/-- Fields of an UPDATE payload. -/
def updateFieldsOk (p : List Byte) : Bool :=
  decide (fld p 4 1 ≤ 1) && (batchFmt (fld p 5 1)).isSome && zeroAt p 6 2 && decide (1 ≤ bagCount p) &&
    decide (bagCount p ≤ 65536) && decide (idxCount p ≤ 2 ^ 20) && fld p 16 8 % 16 == 0 && fld p 24 8 % 16 == 0 &&
    fld p 32 8 % 16 == 0 && Val.zero.numLt (f32 (fld p 40 4)) && !(f32 (fld p 40 4)).notFinite && zeroAt p 44 4 && zeroAt p 64 16

/-- Bytes of the gradient buffer. -/
def gradBytes (t : Table) (p : List Byte) : Nat := bagCount p * t.dim * (((batchFmt (fld p 5 1)).map Fmt.width).getD 0 / 8)

/-- Whether every gradient element is finite. -/
def gradsFinite (t : Table) (p l : List Byte) : Bool :=
  let f := (batchFmt (fld p 5 1)).getD .fp32
  (List.range (bagCount p * t.dim)).all fun i => !(f.decode (fld l (i * (f.width / 8)) (f.width / 8))).notFinite

/-- The refusal of an UPDATE but for its sequence number, and its table where there is none. -/
def updateCheck (b : Src) (s : State) (p : List Byte) : Except (Nat × Nat) Table :=
  if !updateFieldsOk p then .error (stBadParam, 2)
  else match batchTable s b.ws (fld p 0 4) with
    | .error e => .error e
    | .ok t =>
      let spans := batchSpans p ++ [(fld p 32 8, gradBytes t p)]
      if t.isPool || t.optimiser == 0 then .error (stBadParam, 12)
      else if ownMember s t.gid ≠ some t.coordinator then .error (stBadParam, 15)
      else if !(spans.all fun q => b.ok s q.1 q.2) then .error (stBadParam, 5)
      else match readsFail b s spans with
        | some e => .error e
        | none =>
          if !offsetsOk p (batchVec b s p) then .error (stBadParam, 14)
          else if !gradsFinite t p (b.read s (fld p 32 8) (gradBytes t p)) then .error (stBadParam, 6)
          else .ok t

/-! ## The run of an update (R274) -/

/-- The update of a version that runs. -/
def Table.runOf (t : Table) (v : Nat) : Option UpdateRun := t.running.find? (·.version == v)

/-- The end of an update's run: every device hears the count in force, which releases the gathers that wait (R274;
DEDUCED, assumption 44). -/
def endRun (s : State) (n h v u : Nat) : State :=
  match getTable s h with
  | some t => ctrlAll (putTable s h { t with running := t.running.filter (·.slot != n) }) t 2 v u
  | none => s

/-- An update that has begun fails: the count in force stays (R274). -/
def failUpdate (s : State) (n st r : Nat) : State :=
  match getSlot s n with
  | some x =>
    let u := match (getTable s x.obj).bind fun t => t.version (x.bind.getD 0 0) with | some v => v.updates | none => x.bind.getD 1 0
    endRun (failSlot s n st r) n x.obj (x.bind.getD 0 0) u
  | none => s

/-- The completion entry of an update that succeeds: counters are invalid, missing, updated, hot, rejected, arith_status
(Table: Update completion entry). -/
def updateEntry (x : Slot) (u : Nat) (cs : List Nat) : List Byte :=
  let c := fun i => cs.getD i 0
  entryOf (entryHead x.tag stOk 6 ++
    [(13, leBytes 1 (c 5)), (16, leBytes 4 (x.bind.getD 0 0)), (20, leBytes 4 (c 0)), (24, leBytes 8 u),
     (32, leBytes 4 (c 1)), (36, leBytes 4 (c 2)), (40, leBytes 4 (c 3)), (44, leBytes 4 (c 4))])

/-- Counters of the whole batch from those of its shards. -/
def totalCounters (x : Slot) (rows : Nat) : List Nat :=
  let sum := fun i => (x.replies.map fun r => match r.2 with | .update _ cs => cs.getD i 0 | _ => 0).foldl (satAdd 32) 0
  let arith := (x.replies.map fun r => match r.2 with | .update _ cs => cs.getD 4 0 | _ => 0).foldl (· ||| ·) 0
  [invalidCount x rows, sum 0, sum 1, sum 2, sum 3, arith]

/-- Keep the seq, user_tag and counters of the last 64 updates of a version (R296). -/
def Version.remember (v : Version) (seq tag : Nat) (cs : List Nat) : Version :=
  { v with history := (v.history ++ [(seq, tag, cs)]).drop (v.history.length - 63) }

/-- Every shard copy has reported, or is abandoned: the update completes, or fails. Progress 1 to 3 note a read-only
journal, a version that a copy cannot serve, and an abandoned copy. -/
def concludeUpdate (n : Nat) (s : State) : State :=
  match getSlot s n with
  | none => s
  | some x =>
    match getTable s x.obj with
    | none => s
    | some t =>
      let whole := (List.range t.shards).all fun k => x.replies.any (·.1 == k)
      if x.pg 1 ≠ 0 then failUpdate s n (x.pg 1) 0
      else if x.pg 2 ≠ 0 then failUpdate s n stBadParam 16
      else if !whole then failUpdate s n stStateLost 0
      else
        let cs := totalCounters x t.rows
        let v := x.bind.getD 0 0
        let u := x.bind.getD 1 0 + 1
        let r := modVersion s x.obj v fun y => y.remember (u - 1) x.tag cs
        endRun (completeSlot r n (updateEntry x u cs) (cs.getD 5 0) []) n x.obj v u

/-- The body of an UPDATE sub-request for a shard (Table: Sub-request kinds; DESIGN CHOICE, assumption 43). Valid counts of the bags stand
in the slot's `missing` list. -/
def updateBody (x : Slot) (t : Table) (shard : Nat) : List Byte :=
  let o := occsOf (batchOccs x t.rows) t.shards shard
  let row := t.dim * (((batchFmt (fld x.payload 5 1)).map Fmt.width).getD 0 / 8)
  slice x.payload 0 80 ++ occBytes o ++ ((occBags o).flatMap fun b => slice x.pred (b * row) row) ++
    (if fld x.payload 4 1 = 1 then (occBags o).flatMap fun b => leBytes 4 (x.missing.getD b 0) else [])

/-- Send a shard's part to each of its copies (R274 step 3). -/
def sendShard (n : Nat) (t : Table) (s : State) (shard : Nat) : State :=
  (servers s t.gid shard t.mirrored).foldl (fun u c =>
    match getSlot u n with
    | some x => sendSub u n t.key 6 shard 0 (x.bind.getD 0 0) (x.bind.getD 1 0 + 1) t.gid (updateBody x t shard) c.1 c.2 false
    | none => u) s

/-- Step 3 begins; a shard with no copy loses the update before any row changes (R275). -/
def sendShards (n : Nat) (s : State) : State :=
  match getSlot s n with
  | none => s
  | some x =>
    match getTable s x.obj with
    | none => s
    | some t =>
      if (List.range t.shards).any fun k => (servers s t.gid k t.mirrored).isEmpty then failUpdate s n stStateLost 0
      else
        (List.range t.shards).foldl (sendShard n t) (putSlot s n { x with replies := [], prog := [3, 0, 0, 0] })

/-- Ask a copy of a shard for its bags' present counts, which MEAN divides by (DESIGN CHOICE, assumption 43). -/
def askCounts (n : Nat) (t : Table) (shard : Nat) (tried : List Nat) (s : State) : State :=
  match getSlot s n with
  | none => s
  | some x =>
    match x.done, chooseCopy s t.gid shard t.mirrored (tablePoisoned s t) tried with
    | none, some (dev, mirror) =>
      sendSub s n t.key 5 shard 0 (x.bind.getD 0 0) (x.bind.getD 1 0) t.gid
        (occBytes (occsOf (batchOccs x t.rows) t.shards shard)) dev mirror (!tried.isEmpty)
    | none, none => failUpdate s n stStateLost 0
    | some _, _ => s

/-- Every device has drained: the shards get their parts, for MEAN once the valid counts are known. -/
def drainedAll (n : Nat) (s : State) : State :=
  match getSlot s n with
  | none => s
  | some x =>
    match getTable s x.obj with
    | none => s
    | some t =>
      let o := batchOccs x t.rows
      if fld x.payload 4 1 = 0 ∨ o = [] then sendShards n s
      else (occShards o t.shards).foldl (fun u k => askCounts n t k [] u) (putSlot s n { x with prog := [2] })

/-- The valid counts are in. -/
def countsDone (n : Nat) (s : State) : State :=
  match getSlot s n with
  | none => s
  | some x =>
    match getTable s x.obj with
    | none => s
    | some t =>
      let o := batchOccs x t.rows
      sendShards n (putSlot s n { x with missing := (List.range (bagCount x.payload)).map fun b => (bagSum t x o b).1 })

/-- Step 1: the update's run begins, and every device of the group hears ANNOUNCE (R274). -/
def beginUpdate (n : Nat) (s : State) : State :=
  match getSlot s n with
  | none => s
  | some x =>
    match getTable s x.obj with
    | none => s
    | some t =>
      let v := x.bind.getD 0 0
      let u := putTable s x.obj { t with running := t.running ++ [⟨n, v, [], false⟩] }
      ctrlAll (putSlot u n { x with st := .waiting, prog := [1] }) t 0 v (x.bind.getD 1 0 + 1)

/-- What the sequence number of an update says now (R273): start, wait, or rejected. -/
inductive SeqVerdict where
  | start | wait | reject
  deriving DecidableEq, Repr

/-- R273 for a version with count u and its run. -/
def seqVerdict (t : Table) (v : Version) (seq : Nat) : SeqVerdict :=
  let runs := (t.runOf v.num).isSome
  if seq = v.updates then if runs then .reject else .start
  else if seq = v.updates + 1 ∧ runs then .wait
  else .reject

/-- The update that a re-executed phase repeats (R296). -/
def repeated (x : Slot) (v : Version) : Option (Nat × Nat × List Nat) :=
  if x.req.isSome ∧ fld x.payload 48 8 < v.updates then
    v.history.find? fun k => k.1 == fld x.payload 48 8 && k.2.1 == x.tag
  else none

/-- Start an UPDATE in its slot (R273). -/
def startUpdate (b : Src) (n : Nat) (s : State) : State :=
  match getSlot s n with
  | none => s
  | some x =>
    match updateCheck b s x.payload with
    | .error (st, r) => failSlot s n st r
    | .ok t =>
      match (if x.bind.isEmpty then t.current else t.version (x.bind.getD 0 0)) with
      | none => failSlot s n stBadParam 12
      | some v =>
        let h := fld x.payload 0 4
        let y := { x with obj := h, bind := [v.num, v.updates], vec := batchVec b s x.payload,
                          pred := b.read s (fld x.payload 32 8) (gradBytes t x.payload) }
        let u := refVersion (putSlot s n y) h v.num true
        match repeated y v with
        | some k => completeSlot u n (updateEntry y (k.1 + 1) k.2.2) (k.2.2.getD 5 0) []
        | none =>
          if !leaseHeld s t.gid then failSlot u n stFenced 0
          else match seqVerdict t v (fld x.payload 48 8) with
            | .start => if phaseHeld y then holdPhase u n else beginUpdate n u
            | .wait => u
            | .reject => failSlot u n stBadParam 13

/-- UPDATE (R271). -/
def execUpdateEntry (fn ring : Nat) (h : HostView) (s : State) : Host.Outcome State Fault Refusal :=
  admitRow "UPDATE" 6 fn ring h startUpdate s

/-- A waiting update starts once the one ahead of it has raised the count, or is rejected (R273). -/
def releaseUpdate (n : Nat) (s : State) : State :=
  match getSlot s n with
  | none => s
  | some x =>
    match (getTable s x.obj).bind fun t => (t.version (x.bind.getD 0 0)).map fun v => (t, v) with
    | none => s
    | some (t, v) =>
      if x.kind = 6 ∧ x.st = .admitted then
        let u := putSlot s n { x with bind := [v.num, v.updates] }
        if !leaseHeld s t.gid then failSlot u n stFenced 0
        else match seqVerdict t v (fld x.payload 48 8) with
          | .start => if phaseHeld x then holdPhase u n else beginUpdate n u
          | .wait => s
          | .reject => failSlot u n stBadParam 13
      else s

/-- UPDATE_SEQ_RELEASE (R273). -/
def execUpdateSeqRelease (slot : Nat) (s : State) : Host.Outcome State Fault Refusal :=
  .next (when (firmwareRuns s) (releaseUpdate slot) s)

/-! ## Table control rows (R274) -/

/-- A device receives ANNOUNCE: gathers of v that it admits from now bind u, and it answers DRAINED once none runs at the
count before. Without the lease it answers ST_FENCED (R274, R501). -/
def takeAnnounce (ws key v u coord : Nat) (s : State) : State :=
  let r := takeCtrl s coord ws 0 key v u
  match tableByKey r ws key with
  | none => r
  | some (h, t) =>
    if !leaseHeld r t.gid then sendCtrl r coord t 3 v u []
    else
      let w := putTable r h { t.modVersion v (fun x => { x with announced := u }) with drainsDue := t.drainsDue ++ [(v, u, coord)] }
      settleDrains w h

/-- ANNOUNCE (R274). -/
def execAnnounce (ws key v u coord : Nat) (s : State) : Host.Outcome State Fault Refusal :=
  .next (when (firmwareRuns s && ctrlArrived s coord ws 0 key v u) (takeAnnounce ws key v u coord) s)

/-- Whether every device of the group has drained. -/
def allDrained (s : State) (t : Table) (r : UpdateRun) : Bool := (groupDevs s t.gid).all r.drained.contains

/-- The coordinator hears DRAINED, or that a device holds no lease and is not waited for (R274) (DEDUCED, assumption 74). -/
def takeDrained (ws key v u src : Nat) (s : State) : State :=
  let r := takeCtrl (takeCtrl s src ws 1 key v u) src ws 3 key v u
  match tableByKey r ws key with
  | none => r
  | some (h, t) =>
    match t.runOf v with
    | none => r
    | some run =>
      if ((getSlot r run.slot).map fun x => x.bind.getD 1 0 + 1) = some u then
        let run' := { run with drained := run.drained ++ (if run.drained.contains src then [] else [src]) }
        let go := allDrained r t run' && !run.sent
        let w := putTable r h { t with running := t.running.map fun y =>
          if y.version = v then { run' with sent := run.sent || go } else y }
        if go then drainedAll run.slot w else w
      else r

/-- DRAINED (R274). -/
def execDrained (ws key v u src : Nat) (s : State) : Host.Outcome State Fault Refusal :=
  .next (when (firmwareRuns s && (ctrlArrived s src ws 1 key v u || ctrlArrived s src ws 3 key v u))
    (takeDrained ws key v u src) s)

/-- Gathers of a version that wait for a count. -/
def waitingGathers (s : State) (h v : Nat) : List Nat :=
  (s.hub.slots.filter fun p => p.2.kind == 5 && p.2.obj == h && p.2.st == .admitted && p.2.bind.getD 0 0 == v &&
    (p.2.req.isNone || p.2.eflags == 0)).map (·.1)

/-- A device receives COMMITTED: the count is in force, and the gathers that wait run at it (R274; DEDUCED, assumption 44). -/
def takeCommitted (ws key v u : Nat) (s : State) : State :=
  match tableByKey s ws key with
  | none => s
  | some (h, t) =>
    let src := ((groupDevs s t.gid)[t.coordinator]?).getD (fabricDev s)
    let r := takeCtrl s src ws 2 key v u
    let r := modVersion r h v fun x => { x with updates := u, announced := u }
    (waitingGathers r h v).foldl (fun w n => launchGather n (modSlot w n fun x => { x with bind := [v, u] })) r

/-- The coordinator of a table, as its messages name it. -/
def coordDev (s : State) (ws key : Nat) : Nat :=
  match tableByKey s ws key with
  | some (_, t) => ((groupDevs s t.gid)[t.coordinator]?).getD (fabricDev s)
  | none => fabricDev s

/-- COMMITTED (R274). -/
def execCommitted (ws key v u : Nat) (s : State) : Host.Outcome State Fault Refusal :=
  .next (when (firmwareRuns s && ctrlArrived s (coordDev s ws key) ws 2 key v u) (takeCommitted ws key v u) s)

/-! ## Replies -/

/-- Note the outcome of a copy in progress 1 to 3, and conclude once none is awaited. -/
def noteCopy (n : Nat) (o : SubOut) (st : Nat) (s : State) : State :=
  let t := modSlot (closeSub s n o) n fun x =>
    let media := if st = stMediaExhausted ∨ (st = stQuota ∧ x.pg 1 = 0) then st else x.pg 1
    { x with prog := [3, media, x.pg 2 + b2n (st == stBadParam), x.pg 3 + 1] }
  match getSlot t n with
  | some x => if x.subs.isEmpty then concludeUpdate n t else t
  | none => t

/-- A copy is abandoned for an update: the count is asked of the other copy; the update goes on with the copies that
answer (R191, R274). -/
def updateAbandon (n : Nat) (o : SubOut) (s : State) : State :=
  if o.kind = 5 then
    let t := closeSub s n o
    match (getSlot t n).bind fun x => getTable t x.obj with
    | some tb => if o.retried then failUpdate t n stStateLost 0 else askCounts n tb o.shard [o.device] t
    | none => t
  else noteCopy n o stFenced s

/-- A reply to an update's sub-request. -/
def updateReply (n : Nat) (o : SubOut) (r : Reply) (s : State) : State :=
  match o.kind, r with
  | 5, .gather bags m l a =>
    let t := modSlot (closeSub s n o) n fun x => { x with replies := x.replies ++ [(o.shard, .gather bags m l a)] }
    match getSlot t n with
    | some x => if x.subs.isEmpty then countsDone n t else t
    | none => t
  | 5, .update st _ => if st = stBadParam then failUpdate (closeSub s n o) n stBadParam 16 else updateAbandon n o s
  | 6, .update st cs =>
    if st = stOk then
      let t := modSlot (closeSub s n o) n fun x =>
        { x with replies := if x.replies.any (·.1 == o.shard) then x.replies else x.replies ++ [(o.shard, .update st cs)] }
      match getSlot t n with
      | some x => if x.subs.isEmpty then concludeUpdate n t else t
      | none => t
    else noteCopy n o st s
  | _, _ => updateAbandon n o s

end Sys2Proof.Machine
end

