-- ==== Sys2Proof/Machine/MarverScan.lean ====
section
/-!
DEFINITION. Marver units (03): the errors that a reader meets (R84, R85), contexts and their choice (R66), and the scan
operations with their step budget (R67 to R74, R188, R244).
-/

namespace Sys2Proof.Machine

/-! ## Errors met by a reader -/

/-- A reader corrects a granule and counts it, or writes it back poisoned; a poisoned one it only recognises (R84, R85). -/
def meetError (s : State) (e : MemErr) : State :=
  let ma := dpaToMa s.mem.layout.stackMap (e.granule * 32)
  let b := bankIndex ma
  let src := maStack ma * 16 + maDie ma
  if s.mem.poison.contains e.granule then s
  else if e.uncorrectable then
    score (score (emit { s with mem := setPoison s.mem e.granule } 0x0202 6 src ma 0 0) 1 b 64 0x0202) 2 (maStack ma) 8 0x0202
  else
    let n := satAdd 32 (Tab.get 0 s.mem.ceCount b) 1
    score (emit { s with mem := { s.mem with ceCount := Tab.insert s.mem.ceCount b n } } 0x0201 6 src ma n 0) 1 b 1 0x0201

/-- The errors that a step of a unit meets lie in its own four banks (R18) (DESIGN CHOICE, assumption 137). -/
def meetErrs (s : State) (u : Nat) (errs : List MemErr) : State :=
  (errs.filter fun e => dpaValid s (e.granule * 32) &&
    unitOfMa (dpaToMa s.mem.layout.stackMap (e.granule * 32)) == u).foldl meetError s

/-! ## Commands and contexts (R66) -/

/-- Whether a unit is there: its stack is in the interleave. Before the RUN stage no unit acts. -/
def unitThere (s : State) (u : Nat) : Bool := s.mem.layout.stackMap.contains (u / 1024) || !inRun s

/-- Table pages that a command needs at least: 16 for the part in SRAM of an 8-bit table, its bytes otherwise (R69, R243). -/
def tableNeed (c : MarverCmd) : Nat := max c.tablePages (min 16 (cdiv c.data.length 2048))

/-- Pages of table SRAM: only scans and block scoring hold a table. -/
def MarverCmd.tables (c : MarverCmd) : Nat :=
  match c.op with
  | .scan8 => tableNeed c
  | .scan4 => tableNeed c
  | .blockScore => tableNeed c
  | _ => c.tablePages

/-- Pages of scratch: at least one (R66). -/
def MarverCmd.scratch (c : MarverCmd) : Nat := max 1 c.scratchPages

/-- Whether a command is one that the unit can run: it names structures in the unit's banks, or a unit of the same die for the
die bus, and pages that the unit has (R18, R66, R89). -/
def commandOk (u : Nat) (c : MarverCmd) : Bool :=
  (c.places.all fun ma => unitOfMa ma == u) && decide (c.tables ≤ 16) && decide (c.scratch ≤ 8) &&
    (match c.op with
     | .copy => unitOfMa c.dst == u
     | .diebusXfer => unitOfMa c.dst / 64 == u / 64
     | .lutLoad => false
     | .filter => false
     | .attnValue => false
     | .drain => false
     | _ => true)

/-- A context as a command starts. -/
def startCtx (c : MarverCmd) : MarverCtx :=
  { cmd := c, loaded := 0, part := 0, reload := 0, second := false, place := 0, opened := false, fill := 0, vis := false, pos := 0,
    filterDone := false, bitmap := [], best := [], passed := 0, examined := 0, tieTail := 0, bad := [], records := 0, scores := [],
    accs := [], row := 0, values := false, out := [], buf := [], counts := [0, 0, 0], arith := 0, failed := false, finished := false }

/-- Pages in use. -/
def pagesHeld (x : MarverUnit) (f : MarverCmd → Nat) : Nat := ((x.ctxs.filterMap id).map fun c => f c.cmd).foldl (· + ·) 0

/-- Start the command at the head of a unit's queue, when a context and its pages are free; it blocks those behind it (R66). A unit
at its microcode switch starts none (R536). -/
def startHead (u : Nat) (s : State) : State :=
  let x := getUnit s u
  match x.queue, x.ctxs.findIdx? (·.isNone) with
  | c :: rest, some i =>
    if decide (pagesHeld x MarverCmd.tables + c.tables ≤ 16) && decide (pagesHeld x MarverCmd.scratch + c.scratch ≤ 8) &&
        !atSwitch s u then
      putUnit s u { x with queue := rest, ctxs := setAt x.ctxs i (some (startCtx c)) }
    else s
  | _, _ => s

/-- A command arrives; a full queue does not take it, and its thread retries (R66). -/
def queueCommand (u : Nat) (c : MarverCmd) (s : State) : State :=
  let x := getUnit s u
  if commandOk u c ∧ x.queue.length < 16 then putUnit s u { x with queue := x.queue ++ [c] } else s

/-- MARVER_COMMAND_START (R66): a command may arrive, and the head of the queue starts. -/
def execMarverCommandStart (unit : Nat) (c : Option MarverCmd) (s : State) : Host.Outcome State Fault Refusal :=
  guarded "MARVER_COMMAND_START" (unitThere s unit) (when (inRun s) (fun t =>
    startHead unit (match c with
      | some x => if firmwareRuns t then queueCommand unit x t else t
      | none => t)) s)

/-- KiB of lookup table that a command loads from the stack interface. -/
def tableKiB (c : MarverCtx) : Nat := cdiv c.cmd.data.length 1024

/-- Whether a partial list record is due: the pass is over, or a threshold pass has 32 entries to send (R73, R74). -/
def drainDue (c : MarverCtx) : Bool :=
  decide (c.cmd.places.length ≤ c.place) || (c.cmd.pass == 1 && c.best.length == 32)

/-- The operation of a scan's next step. -/
def scanOp (c : MarverCtx) : MarverOp :=
  if c.loaded < tableKiB c ∨ 0 < c.reload then .lutLoad
  else if c.cmd.filtered && !c.filterDone then .filter
  else if drainDue c then .drain
  else c.cmd.op

/-- The operation of a context's next step. -/
def nextOp (c : MarverCtx) : MarverOp :=
  match c.cmd.op with
  | .scan8 => scanOp c
  | .scan4 => scanOp c
  | .blockScore => scanOp c
  | .attnKey => if c.values then .attnValue else .attnKey
  | o => o

/-- The context whose step comes next: round-robin over those with a step ready; one for the die bus waits for its grant (R66,
R89). -/
def stepCtx (x : MarverUnit) : Option (Nat × MarverCtx) :=
  (roundRobin 4 x.ptr fun i => match x.ctxs.getD i none with
    | some c => decide (nextOp c ≠ .diebusXfer)
    | none => false).bind fun i => (x.ctxs.getD i none).map fun c => (i, c)

/-- What a finished command gives its core; the bench core's commands leave nothing (DESIGN CHOICE, assumption 138). -/
def keepResult (c : MarverCtx) (s : State) : State :=
  if c.cmd.slot < 65536 then
    { s with marver := { s.marver with results := s.marver.results ++ [⟨c.cmd.slot, c.cmd.op, !c.failed, c.out⟩] } }
  else s

/-- A step ends: its context is kept or, with its command complete, freed; the pointers move past the winner (R66, R77). -/
def endStep (u i : Nat) (c : MarverCtx) (s : State) : State :=
  let x := getUnit s u
  let y := { x with ctxs := setAt x.ctxs i (if c.finished then none else some c), ptr := (i + 1) % 4, portPtr := 0, portLast := true }
  let t := putUnit s u y
  if c.finished then keepResult c t else t

/-- One step of an operation on a unit: the context that the unit chooses takes it, where that is its next operation. -/
def unitStep (op : MarverOp) (step : Nat → MarverCtx → State → MarverCtx × State) (u : Nat) (errs : List MemErr) (s : State) :
    State :=
  match stepCtx (getUnit s u) with
  | some (i, c) =>
    if nextOp c = op then
      let r := step u c (meetErrs s u errs)
      endStep u i r.1 r.2
    else s
  | none => s

/-- The row of a marver operation. -/
def marverRow (name : String) (op : MarverOp) (step : Nat → MarverCtx → State → MarverCtx × State) (u : Nat) (errs : List MemErr)
    (s : State) : Host.Outcome State Fault Refusal :=
  guarded name (unitThere s u) (when (inRun s) (unitStep op step u errs) s)

/-! ## LUT_LOAD (R68 to R70) -/

/-- One KiB enters: of the table from the stack interface, or of the other part from its spill page (R69). -/
def loadKiB (c : MarverCtx) : MarverCtx :=
  if c.loaded < tableKiB c then { c with loaded := c.loaded + 1 }
  else if c.reload = 1 then { c with reload := 0, part := 1 - c.part }
  else { c with reload := c.reload - 1 }

/-- The bytes that a context's next load writes; none where they come from its own bank. -/
def nextBytes (c : MarverCtx) : Option (List Byte) :=
  if c.loaded < tableKiB c then some (slice c.cmd.data (1024 * c.loaded) (min 1024 (c.cmd.data.length - 1024 * c.loaded))) else none

/-- The bytes that a unit's next step loads, where that is a LUT_LOAD. -/
def unitBytes (s : State) (u : Nat) : Option (Option (List Byte)) :=
  match stepCtx (getUnit s u) with
  | some (_, c) => if nextOp c = .lutLoad then some (nextBytes c) else none
  | none => none

/-- Whether a set of units can take one transfer: units of one pseudo-channel, one per die, that wait for the same bytes; a load from
a unit's own bank is alone (R69, R70). -/
def oneTransfer (s : State) (us : List Nat) : Bool :=
  match us with
  | [] => false
  | u :: t =>
    (t.all fun v => v / 1024 == u / 1024 && v % 64 == u % 64) && distinct us == us &&
      (match unitBytes s u with
       | some (some b) => t.all fun v => unitBytes s v == some (some b)
       | some none => t.isEmpty
       | none => false)

/-- LUT_LOAD (R68, R70): one transfer to the units named (DESIGN CHOICE, assumption 134). -/
def execLutLoad (units : List Nat) (s : State) : Host.Outcome State Fault Refusal :=
  guarded "LUT_LOAD" (units.all (unitThere s)) (when (inRun s && oneTransfer s units) (fun t =>
    units.foldl (fun v u => unitStep .lutLoad (fun _ c w => (loadKiB c, w)) u [] v) t) s)

/-! ## Scans (R68, R71 to R74) -/

/-- A step in progress: its context, lookups made, read cycles, and the pair of slots whose visibility granule it has read. -/
structure StepRun where
  ctx : MarverCtx
  look : Nat
  reads : Nat
  pair : Option Nat
  deriving DecidableEq, Repr

/-- Whether an item of so many lookups and reads still fits the 32 cycles (R67, R68). -/
def StepRun.fits (r : StepRun) (look reads : Nat) : Bool := decide (cdiv (r.look + look) 32 + r.reads + reads ≤ 32)

/-- Retain a candidate: local best-32 with its tie_tail, or, in a threshold pass, every one up to τ (R71, R73, R74). -/
def retain (c : MarverCtx) (e : Entry) : MarverCtx :=
  let c := { c with passed := satAdd 32 c.passed 1 }
  if c.cmd.pass = 1 then (if e.dist ≤ c.cmd.tau then { c with best := c.best ++ [e] } else c)
  else
    let all := sortOn entryKey (c.best ++ [e])
    match all[32]? with
    | none => { c with best := all }
    | some out =>
      let last := ((all[31]?).map (·.dist)).getD 0
      if out = e then { c with best := all.take 32, tieTail := if e.dist = last then satAdd 32 c.tieTail 1 else c.tieTail }
      else { c with best := all.take 32, tieTail := if out.dist = last then satAdd 32 c.tieTail 1 else 0 }

/-- Whether the unit reads a candidate's ordinal (R72). -/
def readsOrdinal (c : MarverCtx) (dist : Nat) : Bool :=
  if c.cmd.pass = 1 then decide (dist ≤ c.cmd.tau)
  else match c.best[31]? with
    | some e => decide (dist ≤ e.dist)
    | none => true

/-- Granules skipped as poisoned, each counted once in a pass. -/
def skipBad (c : MarverCtx) (l : List Nat) : MarverCtx := { c with bad := distinct (c.bad ++ l) }

/-- Subquantisers that the part in table SRAM covers: the first and how many (R69). -/
def partSpan (x : Index) (part : Nat) : Nat × Nat :=
  if x.partB = 0 then (0, x.m) else if part = 0 then (0, 64) else (64, x.m - 64)

/-- The lookup sum of an item's codes over some subquantisers, from the table's bytes: 16-bit entries for 8-bit codes, 8-bit ones
for 4-bit codes (R36, R69). -/
def codeSum (x : Index) (table : List Byte) (codes : List Byte) (span : Nat × Nat) : Nat :=
  let ws := codewords x codes
  ((List.range span.2).map fun j =>
    let c := ws.getD (span.1 + j) 0
    if x.kind = 1 then fld table (512 * (span.1 + j) + 2 * c) 2 else fld table (16 * (span.1 + j) + c) 1).foldl (· + ·) 0

/-- Read the header of the next chunk: a poisoned one hides the chunk's items (R149). -/
def openChunk (s : State) (ma : Nat) (r : StepRun) : StepRun :=
  let c := r.ctx
  if granuleBad s (ma / 32) then
    let d := skipBad { c with place := c.place + 1, bitmap := if c.cmd.filtered && !c.filterDone then c.bitmap ++ [[]] else c.bitmap }
      [ma / 32]
    { r with ctx := d, reads := r.reads + 1, pair := none }
  else
    let n := if c.cmd.filtered && c.filterDone then (c.bitmap.getD c.place []).length else chunkFill s ma
    let d := { c with opened := true, fill := n, vis := needsVis s ma c.cmd.epoch, pos := 0, scores := [], second := false,
                      bitmap := if c.cmd.filtered && !c.filterDone then c.bitmap ++ [[]] else c.bitmap }
    { r with ctx := d, reads := r.reads + 1, pair := none }

/-- One slot of a scan: none where it does not fit the step. -/
def scanSlot (s : State) (x : Index) (ma : Nat) (r : StepRun) : Option StepRun :=
  let c := r.ctx
  let i := c.pos
  let span := partSpan x c.part
  if c.cmd.filtered && !((c.bitmap.getD c.place []).getD i false) then
    some { r with ctx := { c with pos := i + 1, scores := if c.second then c.scores else c.scores ++ [0] } }
  else if x.partB ≠ 0 ∧ c.second = false then
    if r.fits span.2 0 then
      some { r with look := r.look + span.2,
                    ctx := { c with pos := i + 1, scores := c.scores ++ [codeSum x c.cmd.data (slotCodes s x ma i) span] } }
    else none
  else
    let attr := !c.cmd.pred.isEmpty && !c.cmd.filtered
    let vis := c.vis && !c.cmd.filtered
    let bad := (slotGranules x ma i vis attr).filter (granuleBad s)
    let it := readItem s x ma i
    let dist := min 0xFFFFFFFE (c.scores.getD i 0 + codeSum x c.cmd.data it.codes span)
    let cand := bad.isEmpty && (!vis || visibleAt it.ins it.del c.cmd.epoch) && (!attr || predPass x c.cmd.pred it.attrs)
    let reads := b2n attr + b2n (vis && r.pair != some (i / 2)) + b2n (cand && readsOrdinal c dist)
    if r.fits span.2 reads then
      let d := skipBad { c with pos := i + 1, examined := satAdd 32 c.examined (if c.cmd.filtered then b2n cand else 1) } bad
      some { ctx := if cand then retain d ⟨dist, it.ord, it.ident⟩ else d, look := r.look + span.2, reads := r.reads + reads,
             pair := if vis then some (i / 2) else r.pair }
    else none

/-- The next chunk, once every slot of one has been read. -/
def closeChunk (r : StepRun) : StepRun :=
  { r with ctx := { r.ctx with place := r.ctx.place + 1, opened := false, second := false, scores := [] }, pair := none }

/-- Whole items until the step is full, the table's other part is needed, or the pass is over; `fuel` bounds the slots. -/
def scanGo (s : State) (x : Index) : Nat → StepRun → StepRun
  | 0, r => r
  | n + 1, r =>
    let c := r.ctx
    match c.cmd.places[c.place]? with
    | none => r
    | some ma =>
      if c.opened = false then (if r.fits 0 1 then scanGo s x n (openChunk s ma r) else r)
      else if c.fill ≤ c.pos then
        if x.partB ≠ 0 ∧ c.second = false ∧ 0 < c.fill then
          { r with ctx := { c with second := true, pos := 0, reload := cdiv (512 * (partSpan x (1 - c.part)).2) 1024 } }
        else scanGo s x n (closeChunk r)
      else if c.cmd.pass = 1 ∧ c.best.length = 32 then r
      else match scanSlot s x ma r with
        | some t => scanGo s x n t
        | none => r

/-- A threshold pass that ends with nothing left to send has sent its records (R74). -/
def passOver (c : MarverCtx) : MarverCtx :=
  if c.cmd.places.length ≤ c.place ∧ c.cmd.pass = 1 ∧ c.best.isEmpty ∧ 0 < c.records then { c with finished := true } else c

/-- One scan step; a scan whose index has gone ends (DEDUCED, assumption 133). -/
def scanStep (_ : Nat) (c : MarverCtx) (s : State) : MarverCtx × State :=
  match getIndex s c.cmd.obj with
  | some x => (passOver (scanGo s x 64 ⟨c, 0, 0, none⟩).ctx, s)
  | none => ({ c with failed := true, finished := true }, s)

/-- SCAN8 (R68). -/
def execScan8 (unit : Nat) (errs : List MemErr) (s : State) : Host.Outcome State Fault Refusal :=
  marverRow "SCAN8" .scan8 scanStep unit errs s

/-- SCAN4 (R68). -/
def execScan4 (unit : Nat) (errs : List MemErr) (s : State) : Host.Outcome State Fault Refusal :=
  marverRow "SCAN4" .scan4 scanStep unit errs s

/-! ## FILTER (R188) -/

/-- One slot of a FILTER step: its bit; none where it does not fit. -/
def filterSlot (s : State) (x : Index) (ma : Nat) (r : StepRun) : Option StepRun :=
  let c := r.ctx
  let i := c.pos
  let attr := !c.cmd.pred.isEmpty
  let bad := ((if c.vis then granulesOf (ma + x.visOff + 16 * i) 16 else []) ++
    (if attr then granulesOf (ma + x.attrOff + 32 * i) 32 else [])).filter (granuleBad s)
  let it := readItem s x ma i
  let pass := bad.isEmpty && (!c.vis || visibleAt it.ins it.del c.cmd.epoch) && predPass x c.cmd.pred it.attrs
  let reads := b2n attr + b2n (c.vis && r.pair != some (i / 2))
  if r.fits 0 reads then
    let d := skipBad { c with pos := i + 1, bitmap := modAt c.bitmap c.place fun l => l ++ [pass] } bad
    some { r with ctx := d, reads := r.reads + reads, pair := if c.vis then some (i / 2) else r.pair }
  else none

/-- Records until the step is full: at most 32. -/
def filterGo (s : State) (x : Index) : Nat → StepRun → StepRun
  | 0, r => r
  | n + 1, r =>
    let c := r.ctx
    match c.cmd.places[c.place]? with
    | none => r
    | some ma =>
      if c.opened = false then (if r.fits 0 1 then filterGo s x n (openChunk s ma r) else r)
      else if c.fill ≤ c.pos then filterGo s x n (closeChunk r)
      else match filterSlot s x ma r with
        | some t => filterGo s x n t
        | none => r

/-- One FILTER step; when the chunks are through, scoring begins at the first again (R188). -/
def filterStep (_ : Nat) (c : MarverCtx) (s : State) : MarverCtx × State :=
  match getIndex s c.cmd.obj with
  | some x =>
    let d := (filterGo s x 32 ⟨c, 0, 0, none⟩).ctx
    (if d.cmd.places.length ≤ d.place then { d with filterDone := true, place := 0, opened := false } else d, s)
  | none => ({ c with failed := true, finished := true }, s)

/-- FILTER (R68, R188). -/
def execMarverFilter (unit : Nat) (errs : List MemErr) (s : State) : Host.Outcome State Fault Refusal :=
  marverRow "FILTER" .filter filterStep unit errs s

/-! ## BLOCK_SCORE (R244) -/

/-- Tokens of a full step (R244). -/
def tokensPerStep (probes : Nat) : Nat := if probes < 2 then 60 else 64 / probes

/-- The least lookup distance of a token over the probes, from the table's bytes: row m holds entry[p][m][c] at place 256p + c. -/
def tokenLeast (probes : Nat) (table code : List Byte) : Nat :=
  ((List.range probes).map fun p =>
    lookupDist ((List.range 16).map fun m => fld table (512 * probes * m + 2 * (256 * p + fld code m 1)) 2)).foldl min 0xFFFFFFFE

/-- Tokens of the blocks in order; the running minimum of a block is carried in scratch. A block with a poisoned granule is
skipped (R253). -/
def blockGo (s : State) : Nat → MarverCtx → MarverCtx
  | 0, c => c
  | n + 1, c =>
    let probes := c.cmd.nums.getD 0 1
    match c.cmd.places[c.place]? with
    | none => c
    | some ma =>
      if c.opened = false ∧ spanBad s ma 1280 then
        blockGo s n (skipBad { c with place := c.place + 1 } ((granulesOf ma 1280).filter (granuleBad s)))
      else
        let least := min (if c.opened then c.scores.getD 0 0 else 0xFFFFFFFE)
          (tokenLeast probes c.cmd.data (readMa s (ma + 256 + 16 * c.pos) 16))
        if c.pos = 63 then
          let b := leNat (readMa s ma 4)
          blockGo s n { retain c ⟨least, b, b⟩ with
            examined := satAdd 32 c.examined 1, place := c.place + 1, pos := 0, opened := false, scores := [] }
        else blockGo s n { c with opened := true, pos := c.pos + 1, scores := [least] }

/-- One BLOCK_SCORE step. -/
def blockStep (_ : Nat) (c : MarverCtx) (s : State) : MarverCtx × State :=
  (passOver (blockGo s (tokensPerStep (c.cmd.nums.getD 0 1)) c), s)

/-- BLOCK_SCORE (R244). -/
def execBlockScore (unit : Nat) (errs : List MemErr) (s : State) : Host.Outcome State Fault Refusal :=
  marverRow "BLOCK_SCORE" .blockScore blockStep unit errs s

/-! ## DRAIN (R73) -/

/-- Table: Partial list record. -/
def partialRecord (c : MarverCtx) : List Byte :=
  leBytes 1 c.best.length ++ leBytes 1 (b2n (decide (32 < c.passed)) + 2 * b2n (!c.bad.isEmpty)) ++
    leBytes 2 (satAdd 16 0 c.bad.length) ++ leBytes 4 c.examined ++ leBytes 4 c.passed ++ leBytes 4 c.tieTail ++
    leBytes 2 c.cmd.slot ++ leBytes 1 c.cmd.pass ++ leBytes 1 c.records ++ zeros 12 ++
    (List.range 32).flatMap fun i =>
      let e := c.best.getD i ⟨DIST_SENTINEL, SENTINEL_ORD, SENTINEL_ID⟩
      leBytes 4 e.dist ++ zeros 4 ++ leBytes 8 e.ordinal ++ leBytes 8 e.ident

/-- A record goes to the command's jack unit, whose intake moves past the stack's memory controller (R204); the pass ends
with its last one. -/
def drainStep (unit : Nat) (c : MarverCtx) (s : State) : MarverCtx × State :=
  ({ c with best := [], records := c.records + 1, finished := decide (c.cmd.places.length ≤ c.place) },
   { s with
     marver := { s.marver with records := s.marver.records ++ [(c.cmd.jack, partialRecord c)] }
     hub := { s.hub with jackIntake := Tab.set 0 s.hub.jackIntake c.cmd.jack (unit / 1024 + 1) } })

/-- DRAIN (R73). -/
def execMarverDrain (unit : Nat) (errs : List MemErr) (s : State) : Host.Outcome State Fault Refusal :=
  marverRow "DRAIN" .drain drainStep unit errs s

end Sys2Proof.Machine
end

