-- ==== Sys2Proof/Machine/Requests.lean ====
section
/-!
DEFINITION. Durable requests (R292 to R303): admission, phases and their bindings, checkpoints, ownership, and the end of a
request; and the commands REQ_STATUS, REQ_CANCEL and REQ_HANDOFF.
-/

namespace Sys2Proof.Machine

/-! ## Plans (R293) -/

/-- Entry `i` of a plan. -/
def phaseEntry (plan : List Byte) (i : Nat) : List Byte := slice plan (288 * i) 288

/-- Phases of a plan. -/
def phaseCount (plan : List Byte) : Nat := plan.length / 288

/-- The kinds that a phase may have. -/
def phaseKinds : List Nat := [1, 4, 5, 6, 7, 9]

/-- The fields of a phase entry (Table: Phase entry). -/
def phaseOk (area : Nat) (e : List Byte) : Bool :=
  let used := (kindBytes (fld e 0 1)).getD 0
  phaseKinds.contains (fld e 0 1) && decide (fld e 1 1 < 2) && zeroAt e 2 6 && fld e 24 4 % 64 == 0 &&
    decide (fld e 24 4 + 64 ≤ area) && zeroAt e 28 4 && zeroAt e (32 + used) (128 - used) &&
    zeroAt e (160 + used) (128 - used) && (fld e 16 8 != 0 || zeroAt e 160 128)

/-- The fields of a REQUEST payload (Table: REQUEST payload). -/
def requestFieldsOk (p : List Byte) : Bool :=
  fld p 0 8 != 2 ^ 64 - 1 && decide (1 ≤ fld p 8 1) && decide (fld p 8 1 ≤ 16) && decide (fld p 9 1 < 2) && zeroAt p 10 2 &&
    fld p 12 4 % 4096 == 0 && decide (4096 ≤ fld p 12 4) && decide (fld p 12 4 ≤ 2 ^ 24) && decide (fld p 32 4 ≤ fld p 12 4) &&
    (fld p 24 8 != 0 || fld p 32 4 == 0) && zeroAt p 36 4 && zeroAt p 48 16

/-- Whether a request is in flight as far as this device knows (R292). -/
def requestInFlight (s : State) (ws ident : Nat) : Bool :=
  (stubOf s ws ident).isSome || ((reqCopyOf s ws ident).any fun c => c.doneEntry.isNone)

/-- The two pools of a new request (R297) (DEDUCED, assumption 124). -/
def requestPools (s : State) (ident : Nat) : Option (Nat × Nat) :=
  (livePool s (homePool s.requests.pools.length ident) fun _ => true).bind fun o =>
    (livePool s (o + 1) (· != o)).map fun p => (o, p)

/-- The first check of a REQUEST that fails, as its status. -/
def requestRefusal (b : Src) (s : State) (p : List Byte) : Option Nat :=
  let n := 288 * fld p 8 1
  if !requestFieldsOk p || requestInFlight s b.ws (fld p 0 8) then some stBadParam
  else if !(b.ok s (fld p 16 8) n && (fld p 24 8 == 0 || b.ok s (fld p 24 8) (fld p 32 4))) then some stBadParam
  else match (b.fail s (fld p 16 8) n).orElse fun _ => if fld p 24 8 = 0 then none else b.fail s (fld p 24 8) (fld p 32 4) with
    | some f => some (readStatus f)
    | none =>
      let plan := b.read s (fld p 16 8) n
      if !((List.range (fld p 8 1)).all fun i => phaseOk (fld p 12 4) (phaseEntry plan i)) then some stBadParam
      else if (requestPools s (fld p 0 8)).isNone then some stStateLost
      else none

/-- Checkpoint 0 of a request. -/
def firstCopy (b : Src) (s : State) (p : List Byte) (owner partner : Nat) : ReqCopy :=
  let init := if fld p 24 8 = 0 then [] else b.read s (fld p 24 8) (fld p 32 4)
  { ident := fld p 0 8, ws := b.ws, state := 0, epoch := 1, pool := owner, partner := partner,
    plan := b.read s (fld p 16 8) (288 * fld p 8 1), rflags := fld p 9 1,
    checkpoint := ⟨0, [], init ++ zeros (fld p 12 4 - init.length)⟩, phases := [], binding := none, running := false,
    cancel := none, cancelled := false, reexec := 0, beatAt := 0, sentAt := 0, resends := 0, handTo := 0xFFFF, handTickets := [],
    doneEntry := none, entryDevice := fabricDev s, userTag := fld p 40 8, alt := false, held := true }

/-- Start a REQUEST in its slot: its checks, then checkpoint 0 goes to both keepers, and the slot waits (R292, R293). -/
def startRequest (b : Src) (n : Nat) (s : State) : State :=
  match getSlot s n with
  | none => s
  | some x =>
    match requestRefusal b s x.payload, requestPools s (fld x.payload 0 8) with
    | some st, _ => failSlot s n st 0
    | none, some (o, p) =>
      let c := firstCopy b s x.payload o p
      let stub : ReqStub :=
        { ident := c.ident, ws := c.ws, fn := x.fn, ring := x.ring, eflags := x.eflags, userTag := x.tag, slot := n,
          at_ := ns s, lastCheckpoint := ns s, probed := false, acks := [], phase := 0, epoch := 1, pool := o, cancelled := false }
      let t := putSlot { s with requests := { s.requests with stubs := stub :: s.requests.stubs } } n
        { x with st := .waiting, wait := 1 }
      writeTo (writeTo t o c) p c
    | none, none => failSlot s n stStateLost 0

/-- REQUEST (R292). -/
def execRequestEntry (fn ring : Nat) (h : HostView) (s : State) : Host.Outcome State Fault Refusal :=
  admitRow "REQUEST" 8 fn ring h startRequest s

/-! ## Copies receive writes (R298) -/

/-- A copy as this device stores it: it OWNS under its own pool's token, and HOLDS otherwise. -/
def storedCopy (s : State) (c : ReqCopy) : ReqCopy :=
  let mine := ownPool s == some c.pool
  { c with state := if mine then 0 else 2, running := false, cancel := none, beatAt := ns s, sentAt := 0, resends := 0,
           handTo := 0xFFFF, handTickets := [], alt := false, held := mine && c.checkpoint.phase == 0 }

/-- Whether a copy accepts a write: no copy of a request in flight stands here with a higher token, and checkpoint 0 of
another submission is no write to it (DEDUCED, assumption 120). -/
def acceptsWrite (s : State) (c : ReqCopy) : Bool :=
  match reqCopyOf s c.ws c.ident with
  | some d => d.doneEntry.isSome || (tokenGe c.token d.token && (c.entryDevice == d.entryDevice || c.checkpoint.phase != 0))
  | none => true

/-- A keeper receives a WRITE: it accepts it, or refuses it with its own token. -/
def takeWrite (c : ReqCopy) (p : Packet) (s : State) : State :=
  let t := takeMsg s p
  if acceptsWrite t c then sendReq (putReqCopy t (storedCopy t c)) p.src 13 c.ws c.ident c.epoch c.pool []
  else
    let k := ((reqCopyOf t c.ws c.ident).map ReqCopy.token).getD (0, 0)
    sendReq t p.src 12 c.ws c.ident k.1 k.2 []

/-- A keeper loses a request to a higher token: it abandons the running phase and HOLDS (R300). -/
def yieldCopy (s : State) (c : ReqCopy) (epoch pool : Nat) : State :=
  finishAll (putReqCopy s { c with state := 2, epoch := epoch, pool := pool, running := false, handTo := 0xFFFF, handTickets := [],
                                   cancel := none, beatAt := ns s })
    (c.handTickets ++ c.cancel.getD []) stFenced []

/-! ## Messages without a row of their own -/

/-- Both keepers hold checkpoint 0: the runner may start (R293) (DESIGN CHOICE, assumption 119). -/
def noteAccepted (p : Packet) (s : State) : State :=
  let ws := fld p.payload 2 2
  let id := fld p.payload 8 8
  match stubOf s ws id with
  | some b =>
    let acks := if b.acks.contains p.src then b.acks else b.acks ++ [p.src]
    let t := modStub s ws id fun x => { x with acks := acks }
    if b.acks.length < 2 ∧ acks.length = 2 then
      match keeperOf t b.pool id with
      | some d => sendReq t d 14 ws id b.epoch b.pool (leBytes 1 0xFF)
      | none => t
    else t
  | none => s

/-- A phase whose binding is recorded goes on (R294). -/
def goPhase (n : Nat) (s : State) : State :=
  match getSlot s n with
  | some x =>
    let t := putSlot s n { x with eflags := 1 }
    match x.kind with
    | 1 => launchQuery n t
    | 4 => launchStep n t
    | 5 => if gatherReady t x then launchGather n t else t
    | 6 => releaseUpdate n t
    | _ => t
  | none => s

/-- The slot of a phase on this device (DESIGN CHOICE, assumption 118). -/
def phaseSlot (s : State) (ws ident phase : Nat) : Option Nat :=
  (s.hub.slots.find? fun p => p.2.req == some ident && p.2.ws == ws && p.2.count == phase && p.2.st == .admitted).map (·.1)

/-- GO: 0xFF starts a request whose checkpoint 0 stands; otherwise the phase whose binding is recorded goes on. -/
def takeGo (p : Packet) (s : State) : State :=
  let ws := fld p.payload 2 2
  let id := fld p.payload 8 8
  let ph := fld p.payload 32 1
  if ph = 0xFF then
    match reqCopyOf s ws id with
    | some c => putReqCopy s { c with held := false }
    | none => s
  else match phaseSlot s ws id ph with
    | some n => goPhase n s
    | none => s

/-- REFUSED: a copy with a lower token yields; an entry device whose checkpoint 0 is refused answers ST_BAD_PARAM. -/
def takeRefused (p : Packet) (s : State) : State :=
  let ws := fld p.payload 2 2
  let id := fld p.payload 8 8
  let k := (fld p.payload 16 8, fld p.payload 24 2)
  let t := match reqCopyOf s ws id with
    | some c => if tokenGe c.token k then s else yieldCopy s c k.1 k.2
    | none => s
  match stubOf t ws id with
  | some b => if b.phase = 0 ∧ b.acks.length < 2 then failSlot t b.slot stBadParam 0 else t
  | none => t

/-- BEAT: a copy hears its owner (R299). -/
def takeBeat (p : Packet) (s : State) : State :=
  match reqCopyOf s (fld p.payload 2 2) (fld p.payload 8 8) with
  | some c =>
    if c.state = 2 ∧ tokenGe (fld p.payload 16 8, fld p.payload 24 2) c.token then putReqCopy s { c with beatAt := ns s } else s
  | none => s

/-- REPORT: the entry device hears of a checkpoint (R302). -/
def takeReport (p : Packet) (s : State) : State :=
  modStub s (fld p.payload 2 2) (fld p.payload 8 8) fun b =>
    { b with lastCheckpoint := ns s, probed := false, phase := fld p.payload 32 1, epoch := fld p.payload 16 8,
             pool := fld p.payload 24 2, cancelled := bit (fld p.payload 33 1) 0 }

/-- PROBE: the home pool's keeper is to claim the request for its entry device (R302). -/
def addClaim (s : State) (ws ident entry : Nat) : State :=
  let l := s.requests.claims.filter fun c => !(c.1 == ws && c.2.1 == ident)
  { s with requests := { s.requests with claims := l ++ [(ws, ident, entry)] } }

/-- Record a cancel in both copies (R295). -/
def recordCancel (s : State) (c : ReqCopy) : State :=
  let c := { c with cancelled := true }
  writeTo (putReqCopy s c) c.partner c

/-- Send HANDOFF with the latest checkpoint: the owner is HANDING (R300). -/
def sendHandoff (s : State) (c : ReqCopy) : State :=
  let t := putReqCopy s { c with state := 1, sentAt := ns s, resends := 1 }
  match keeperOf t c.handTo c.ident with
  | some d => sendReq t d 2 c.ws c.ident c.epoch c.pool (copyBytes c)
  | none => t

/-- Begin to move a request to a pool: at once where no phase runs (R300). -/
def beginHandoff (s : State) (c : ReqCopy) (pool : Nat) (tickets : List TicketRef) : State :=
  let c := { c with handTo := pool, handTickets := c.handTickets ++ tickets }
  if c.running then putReqCopy s c else sendHandoff s c

/-- Act on the durable-request messages that this device has received and that no row names. -/
def takeReqMsg (p : Packet) (s : State) : State :=
  let ws := fld p.payload 2 2
  let id := fld p.payload 8 8
  match fld p.payload 0 1 with
  | 1 => takeBeat p s
  | 6 => addClaim s ws id p.src
  | 12 => takeRefused p s
  | 13 => noteAccepted p s
  | 14 => takeGo p s
  | 15 => takeReport p s
  | 21 => match reqCopyOf s ws id with
    | some c => if c.state = 0 ∧ c.doneEntry = none then recordCancel s c else s
    | none => s
  | _ => match reqCopyOf s ws id with
    | some c => if c.state = 0 ∧ c.doneEntry = none ∧ c.handTo = 0xFFFF then beginHandoff s c (fld p.payload 32 2) [] else s
    | none => s

/-- Ops that PACKET_RECEIVE acts on. -/
def reqOps : List Nat := [1, 6, 12, 13, 14, 15, 21, 22]

/-- The durable-request messages that wait without a row. -/
def takeRequests (s : State) : State :=
  let mine := fun (p : Packet) => p.msg == 0x40 && reqOps.contains (fld p.payload 0 1)
  let l := s.fab.inbox.filter mine
  let rest := s.fab.inbox.filter fun p => !mine p
  l.foldl (fun t p => takeReqMsg p t) { s with fab := { s.fab with inbox := rest } }

/-- PACKET_RECEIVE (R417): a packet is received; and what other devices' messages ask without a row of their own is done:
rows of a TABLE_LOAD (R264), sessions (R280, R233), durable requests (R294 to R302). -/
def execPacketReceive (s : State) : Host.Outcome State Fault Refusal :=
  .next (when (linksLive s) (fun t => takeRequests (takeSessions (takeLoads (receive t)))) s)

/-! ## PHASE_DISPATCH (R294) -/

/-- The message of a phase: its number, kind, bindings, payload and the state area. -/
def phaseMsg (c : ReqCopy) (e : List Byte) : List Byte :=
  let b := (c.binding.getD (0, [])).2
  leBytes 1 (c.checkpoint.phase + 1) ++ leBytes 1 (fld e 0 1) ++ leBytes 2 b.length ++ leBytes 4 c.rflags ++
    slice e (if c.alt then 160 else 32) 128 ++ b.flatMap (leBytes 8) ++ c.checkpoint.area

/-- The runner sends the next phase. -/
def sendPhase (s : State) (c : ReqCopy) : State :=
  let e := phaseEntry c.plan c.checkpoint.phase
  sendReq (putReqCopy s { c with running := true, sentAt := ns s, reexec := min 0xFFFF (c.reexec + b2n c.binding.isSome) })
    (gatewayDev (fld e (if c.alt then 16 else 8) 8)) 8 c.ws c.ident c.epoch c.pool (phaseMsg c e)

/-- Whether a runner may start the next phase of a copy. -/
def mayDispatch (c : ReqCopy) : Bool :=
  c.state == 0 && !c.held && !c.running && c.doneEntry.isNone && c.handTo == 0xFFFF &&
    decide (c.checkpoint.phase < phaseCount c.plan)

/-- The home device of a phase gives it a slot and runs it as it would run the ring entry (R293). -/
def startPhase (p : Packet) (h : HostView) (s : State) : State :=
  let l := p.payload
  let ws := fld l 2 2
  let kind := fld l 33 1
  let nb := fld l 34 2
  let payload := slice l 40 ((kindBytes kind).getD 0)
  let fn := ((wsFns s ws).map (·.1)).headD 0
  let b : Src := ⟨fn, ws, h, some (l.drop (168 + 8 * nb))⟩
  match slotFor s ws (wantsLatency kind payload) with
  | none => s
  | some (pool, n) =>
    let bind := (List.range nb).map fun i => fld l (168 + 8 * i) 8
    let x := claimedSlot pool ws fn p.src kind (b2n (nb != 0)) (fld l 32 1) payload (ns s) (some (fld l 8 8))
    let t := putSlot (passCore (takeMsg s p) pool n) n { x with bind := bind }
    match kind with
    | 1 => startQuery b n t
    | 4 => startStep b n t
    | 5 => startGather b n t
    | 6 => startUpdate b n t
    | 7 => startTopk b n t
    | _ => startModel b n t

/-- A runner's phase has had no binding record within the sub-request timeout: the phase is sent to alt_home, or, where that
was tried or there is none, nothing answers (R294) (DEDUCED, assumption 126). -/
def phaseSilent (s : State) (c : ReqCopy) : Bool :=
  c.state == 0 && c.running && c.binding.isNone && elapsed s c.sentAt (s.boot.settings.subreqTimeoutUs * 1000)

/-- A completion entry of ST_FENCED for a phase that no device can run. -/
def fencedPhase (c : ReqCopy) : List Byte :=
  let e := phaseEntry c.plan c.checkpoint.phase
  let x := claimedSlot .localPool c.ws 0 0 (fld e 0 1) 0 0 (slice e (if c.alt then 160 else 32) 128) 0 none
  failEntry x stFenced 0

/-! ## CHECKPOINT (R295) -/

/-- Write at an offset of an area. -/
def patchArea (area : List Byte) (off : Nat) (d : List Byte) : List Byte :=
  area.take off ++ d ++ area.drop (off + d.length)

/-- The area writes of a PHASE DONE message. -/
def areaWrites : Nat → List Byte → List (Nat × List Byte)
  | 0, _ => []
  | k + 1, l => (fld l 0 4, slice l 8 (fld l 4 4)) :: areaWrites k (l.drop (8 + fld l 4 4))

/-- The completion entry of a request (Table: Request completion entry). -/
def requestEntry (c : ReqCopy) (tag status : Nat) : List Byte :=
  let any := fun (off : Nat) => c.phases.foldl (fun a e => a ||| fld e off 1) 0
  entryOf (entryHead tag status 8 ++
    [(12, leBytes 1 (any 12)), (13, leBytes 1 (any 13 % 16)), (14, leBytes 1 c.phases.length), (15, leBytes 1 c.phases.length),
     (16, leBytes 8 c.ident), (24, leBytes 8 c.epoch), (32, leBytes 2 c.pool), (34, leBytes 2 c.reexec)])

/-- The status with which a request ends at its newest completion, or none where it goes on (R295). -/
def requestEnd (c : ReqCopy) : Option Nat :=
  let e := phaseEntry c.plan (c.checkpoint.phase - 1)
  if c.cancelled then some stCancelled
  else if fld c.checkpoint.completion 8 2 ≠ stOk then some (fld c.checkpoint.completion 8 2)
  else if c.checkpoint.phase = phaseCount c.plan ∨ (bit (fld e 1 1) 0 ∧ fld c.checkpoint.completion 12 1 ≠ 0) then some stOk
  else none

/-- A copy after a phase completed with its entry and area writes. -/
def afterPhase (c : ReqCopy) (done : List Byte) (ws : List (Nat × List Byte)) : ReqCopy :=
  let off := fld (phaseEntry c.plan c.checkpoint.phase) 24 4
  let area := (ws ++ [(off, done)]).foldl (fun a w => patchArea a w.1 w.2) c.checkpoint.area
  let c := { c with checkpoint := ⟨c.checkpoint.phase + 1, done, area⟩, phases := c.phases ++ [done], binding := none,
                    running := false, alt := false }
  match requestEnd c with
  | some st => { c with doneEntry := some (requestEntry c c.userTag st) }
  | none => c

/-- The checkpoint is on both copies: the entry device is told, a done request is reported to it, and a waiting handoff goes
out (R295, R300, R303). -/
def checkpointed (s : State) (c : ReqCopy) : State :=
  let t := writeTo (putReqCopy s c) c.partner c
  let t := sendReq t c.entryDevice 15 c.ws c.ident c.epoch c.pool
    (leBytes 1 c.checkpoint.phase ++ leBytes 1 (b2n c.cancelled) ++ zeros 6)
  match c.doneEntry with
  | some e =>
    finishAll (putReqCopy (sendReq t c.entryDevice 11 c.ws c.ident c.epoch c.pool e) { c with handTo := 0xFFFF, handTickets := [] })
      c.handTickets stBadParam []
  | none => if c.handTo ≠ 0xFFFF then sendHandoff t c else t

/-- The runner takes a phase's completion. One of ST_FENCED from home sends the phase to alt_home where there is one. -/
def phaseDone (done : List Byte) (ws : List (Nat × List Byte)) (accepted : Bool) (c : ReqCopy) (s : State) : State :=
  let e := phaseEntry c.plan c.checkpoint.phase
  if fld done 8 2 = stFenced ∧ !c.alt ∧ fld e 16 8 ≠ 0 then putReqCopy s { c with running := false, alt := true }
  else if accepted then checkpointed s (afterPhase c done ws)
  else yieldCopy s c c.epoch c.pool

/-- A phase's completion arrives at its runner; one for a phase that does not run there, or after its lease, is discarded. -/
def takePhaseDone (p : Packet) (accepted : Bool) (s : State) : State :=
  let l := p.payload
  let t := takeMsg s p
  match reqCopyOf t (fld l 2 2) (fld l 8 8) with
  | some c =>
    if poolLease t ∧ c.state = 0 ∧ c.running ∧ fld l 32 1 = c.checkpoint.phase + 1 then
      phaseDone (slice l 40 64) (areaWrites (fld l 34 2) (l.drop 104)) accepted c t
    else t
  | none => t

/-- PHASE_DISPATCH (R294): a device starts the phase that a runner sent it; a runner sends the next phase; or a phase that
nothing answers is sent to its second device, or ends with ST_FENCED. -/
def dispatchPhase (ws ident : Nat) (h : HostView) (s : State) : State :=
  match reqPacket s 8 ws ident, reqCopyOf s ws ident with
  | some p, _ => startPhase p h s
  | none, some c =>
    if !poolLease s then s
    else if mayDispatch c then sendPhase s c
    else if phaseSilent s c then
      if !c.alt && fld (phaseEntry c.plan c.checkpoint.phase) 16 8 != 0 then sendPhase s { c with alt := true }
      else phaseDone (fencedPhase c) [] true { c with alt := true } s
    else s
  | none, none => s

/-- PHASE_DISPATCH (R294). -/
def execPhaseDispatch (ws ident : Nat) (h : HostView) (s : State) : Host.Outcome State Fault Refusal :=
  .next (when (firmwareRuns s) (dispatchPhase ws ident h) s)

/-- The runner receives a binding record: on both copies, it lets the phase proceed (R294). -/
def takeBinding (p : Packet) (accepted : Bool) (s : State) : State :=
  let l := p.payload
  let t := takeMsg s p
  match reqCopyOf t (fld l 2 2) (fld l 8 8) with
  | some c =>
    if poolLease t ∧ c.state = 0 ∧ c.running ∧ fld l 32 1 = c.checkpoint.phase + 1 then
      if accepted then
        let b := (List.range (fld l 34 2)).map fun i => fld l (40 + 8 * i) 8
        let c := { c with binding := some (fld l 33 1, b) }
        sendReq (writeTo (putReqCopy t c) c.partner c) p.src 14 c.ws c.ident c.epoch c.pool (leBytes 1 (c.checkpoint.phase + 1))
      else yieldCopy t c c.epoch c.pool
    else t
  | none => t

/-- BINDING_RECORD (R294). -/
def execBindingRecord (ws ident : Nat) (accepted : Bool) (s : State) : Host.Outcome State Fault Refusal :=
  .next (when (firmwareRuns s && (reqPacket s 9 ws ident).isSome) (fun t =>
    match reqPacket t 9 ws ident with
    | some p => takeBinding p accepted t
    | none => t) s)

/-- CHECKPOINT (R295): the runner takes a phase's completion, or a keeper a write of its copy. -/
def execCheckpoint (ws ident : Nat) (accepted : Bool) (c : Option ReqCopy) (s : State) :
    Host.Outcome State Fault Refusal :=
  .next (when (firmwareRuns s) (fun t =>
    match c with
    | some c =>
      match copyPacket t 0 c with
      | some p => if c.ws = ws ∧ c.ident = ident then takeWrite c p t else t
      | none => t
    | none =>
      match reqPacket t 10 ws ident with
      | some p => takePhaseDone p accepted t
      | none => t) s)

/-! ## Ownership (R299 to R301) -/

/-- The owner sends its token to the partner copy (R299). -/
def sendBeat (ws ident : Nat) (s : State) : State :=
  match reqCopyOf s ws ident with
  | some c =>
    if poolLease s ∧ c.state ≠ 2 ∧ c.doneEntry = none then
      let t := putReqCopy s { c with beatAt := ns s }
      match keeperOf s c.partner ident with
      | some d => sendReq t d 1 ws ident c.epoch c.pool []
      | none => t
    else s
  | none => s

/-- OWNER_BEAT (R299): at most 5 ms after the one before. -/
def execOwnerBeat (ws ident : Nat) (s : State) : Host.Outcome State Fault Refusal :=
  .next (when (firmwareRuns s) (sendBeat ws ident) s)

/-- Whether a copy is an orphan (R299). -/
def isOrphan (s : State) (c : ReqCopy) : Bool := c.state == 2 && c.doneEntry.isNone && decide (c.beatAt + 20000000 < ns s)

/-- The sweep of a keeper's copies (R299). -/
def sweepCopies (s : State) : State :=
  (s.requests.copies.filter (isOrphan s)).foldl (fun t c =>
    match homeKeeper t c.ident with
    | some d => sendReq t d 5 c.ws c.ident c.epoch c.pool []
    | none => t) { s with requests := { s.requests with sweepAt := ns s } }

/-- ORPHAN_SWEEP (R299). -/
def execOrphanSweep (s : State) : Host.Outcome State Fault Refusal :=
  .next (when (firmwareRuns s && elapsed s s.requests.sweepAt 5000000) sweepCopies s)

/-- ORPHAN (R300): the home pool's keeper is to claim the request. -/
def execOrphanMsg (ws ident epoch pool : Nat) (s : State) : Host.Outcome State Fault Refusal :=
  .next (when (firmwareRuns s) (fun t =>
    match reqPacket t 5 ws ident with
    | some p =>
      if fld p.payload 16 8 = epoch ∧ fld p.payload 24 2 = pool then addClaim (takeMsg t p) ws ident 0xFFFF else t
    | none => t) s)

/-- Whether a copy is the better one to claim from: the higher checkpoint, then the higher token (R301). -/
def claimBetter (a b : ReqCopy) : Bool :=
  decide (b.checkpoint.phase < a.checkpoint.phase) ||
    (a.checkpoint.phase == b.checkpoint.phase && tokenGe a.token b.token && a.token != b.token)

/-- The claim itself: the highest checkpoint under (e' + 1, claimer), on the claimer's keeper and the surviving copy, or on a
replacement partner (R301). -/
def makeClaim (ws ident entry self : Nat) (copies : List (Nat × ReqCopy)) (s : State) : State :=
  let own := (reqCopyOf s ws ident).map fun c => (self, c)
  let all := own.toList ++ copies
  let t := { s with requests := { s.requests with claims := s.requests.claims.erase (ws, ident, entry) } }
  match all with
  | [] => if entry = 0xFFFF then t else sendReq t entry 7 ws ident 0 0 []
  | c :: l =>
    let best := (l.foldl (fun b x => if claimBetter x.2 b.2 then x else b) c).2
    let e := (all.map (·.2.epoch)).foldl max 0 + 1
    let others := (copies.map (·.1)).filter (· != self)
    let second := match others with
      | p :: _ => some p
      | [] => livePool s (self + 1) (· != self)
    match second with
    | none => s
    | some p =>
      if best.doneEntry.isSome then
        let b := { best with epoch := e, pool := self, partner := p }
        sendReq (writeTo (putReqCopy t { storedCopy t b with held := false }) p b) best.entryDevice 11 ws ident e self
          (best.doneEntry.getD [])
      else
        let b := { best with epoch := e, pool := self, partner := p, held := false }
        writeTo (putReqCopy t { storedCopy t b with held := false }) p b

/-- CLAIM (R301): with the copies that other pools' keepers let it read, each with its pool. -/
def execClaimMsg (ws ident : Nat) (copies : List (Nat × ReqCopy)) (s : State) : Host.Outcome State Fault Refusal :=
  .next (when (poolLease s) (fun t =>
    match t.requests.claims.find? fun c => c.1 == ws && c.2.1 == ident, ownPool t with
    | some (_, _, entry), some self => makeClaim ws ident entry self copies t
    | _, _ => t) s)

/-- A pool accepts a handoff: it owns the request at the next epoch, and answers (R300). -/
def takeHandoff (c : ReqCopy) (p : Packet) (s : State) : State :=
  let t := takeMsg s p
  match ownPool t with
  | none => t
  | some self =>
    let token := (c.epoch + 1, self)
    let old := reqCopyOf t c.ws c.ident
    if old.any fun d => !tokenGe token d.token then t
    else
      let partner := if old.isSome then c.pool else c.partner
      let d := { storedCopy t { c with epoch := c.epoch + 1, pool := self, partner := partner } with held := false }
      sendReq (putReqCopy t d) p.src 3 c.ws c.ident d.epoch self (leBytes 1 (b2n old.isNone))

/-- HANDOFF (R300). -/
def execHandoff (c : ReqCopy) (s : State) : Host.Outcome State Fault Refusal :=
  .next (when (poolLease s) (fun t =>
    match copyPacket t 2 c with
    | some p => takeHandoff c p t
    | none => t) s)

/-- The sender of a handoff hears ACK: it HOLDS, or its copy is freed where the target held none (R300). -/
def takeHandoffAck (c : ReqCopy) (epoch : Nat) (heldNone : Bool) (s : State) : State :=
  let t := if heldNone then dropReqCopy s c.ws c.ident
    else putReqCopy s { c with state := 2, epoch := epoch, pool := c.handTo, handTo := 0xFFFF, handTickets := [], beatAt := ns s }
  finishAll t c.handTickets stOk []

/-- HANDOFF_ACK (R300). -/
def execHandoffAck (ws ident epoch : Nat) (heldNone : Bool) (s : State) : Host.Outcome State Fault Refusal :=
  .next (when (firmwareRuns s) (fun t =>
    match reqPacket t 3 ws ident, reqCopyOf t ws ident with
    | some p, some c =>
      if fld p.payload 16 8 = epoch ∧ fld p.payload 32 1 = b2n heldNone then
        let u := takeMsg t p
        if c.state = 1 ∧ epoch = c.epoch + 1 then takeHandoffAck c epoch heldNone u else u
      else t
    | some p, none => if fld p.payload 16 8 = epoch ∧ fld p.payload 32 1 = b2n heldNone then takeMsg t p else t
    | none, _ => t) s)

/-- No ACK within 2 ms: HANDOFF again, five times in all; then the sender owns the request still (R300)
(DEDUCED, assumption 122). -/
def resendHandoff (c : ReqCopy) (s : State) : State :=
  if c.resends < 5 then
    let n := c.resends
    match reqCopyOf (sendHandoff s c) c.ws c.ident with
    | some d => putReqCopy (sendHandoff s c) { d with resends := n + 1 }
    | none => s
  else finishAll (putReqCopy s { c with state := 0, handTo := 0xFFFF, handTickets := [] }) c.handTickets stFenced []

/-- HANDOFF_RESEND (R300). -/
def execHandoffResend (ws ident : Nat) (s : State) : Host.Outcome State Fault Refusal :=
  .next (when (poolLease s) (fun t =>
    match reqCopyOf t ws ident with
    | some c => if c.state = 1 ∧ elapsed t c.sentAt 2000000 then resendHandoff c t else t
    | none => t) s)

/-! ## The entry device (R302, R303) -/

/-- PROBE (R302) (DEDUCED, assumption 125). -/
def sendProbe (ws ident : Nat) (s : State) : State :=
  match stubOf s ws ident, homeKeeper s ident with
  | some b, some d =>
    if elapsed s b.lastCheckpoint 100000000 ∧ !b.probed then
      sendReq (modStub s ws ident fun x => { x with probed := true }) d 6 ws ident b.epoch b.pool []
    else s
  | _, _ => s

/-- PROBE (R302). -/
def execProbeMsg (ws ident : Nat) (s : State) : Host.Outcome State Fault Refusal :=
  .next (when (firmwareRuns s) (sendProbe ws ident) s)

/-- A request ends at its entry device with an entry, under its own tag (R303). -/
def endRequest (ws ident : Nat) (e : List Byte) (s : State) : State :=
  match stubOf s ws ident with
  | some b => completeSlot s b.slot (leBytes 8 b.userTag ++ e.drop 8) (fld e 13 1) []
  | none => s

/-- The entry of a request whose state is lost (R302). -/
def lostEntry (ident : Nat) : List Byte := entryOf (entryHead 0 stStateLost 8 ++ [(16, leBytes 8 ident)])

/-- STATE_LOST (R302). -/
def execStateLost (ws ident : Nat) (s : State) : Host.Outcome State Fault Refusal :=
  .next (when (firmwareRuns s) (fun t =>
    match reqPacket t 7 ws ident with
    | some p => endRequest ws ident (lostEntry ident) (takeMsg t p)
    | none => t) s)

/-- REQUEST_COMPLETION (R303): both copies record the request as done. -/
def execRequestCompletion (ws ident : Nat) (s : State) : Host.Outcome State Fault Refusal :=
  .next (when (firmwareRuns s) (fun t =>
    match reqPacket t 11 ws ident with
    | some p => endRequest ws ident (slice p.payload 32 64) (takeMsg t p)
    | none => t) s)

/-! ## REQ_STATUS, REQ_CANCEL, REQ_HANDOFF -/

/-- The 96 bytes of REQ_STATUS (R303) (DEDUCED, assumption 123). -/
def statusRecord (s : State) (ws ident : Nat) : Option (List Byte) :=
  match reqCopyOf s ws ident, stubOf s ws ident with
  | some c, _ =>
    let done := c.doneEntry.getD (zeros 64)
    let ph := if c.doneEntry.isSome then c.phases.length else c.checkpoint.phase + 1
    some (leBytes 1 (b2n c.doneEntry.isSome) ++ leBytes 1 ph ++ zeros 6 ++ leBytes 8 c.epoch ++ leBytes 2 c.pool ++ zeros 14 ++ done)
  | none, some b => some (leBytes 1 0 ++ leBytes 1 (b.phase + 1) ++ zeros 6 ++ leBytes 8 b.epoch ++ leBytes 2 b.pool ++ zeros 78)
  | none, none => none

/-- REQ_STATUS (R303). -/
def execReqStatus (m : MsgSrc) (s : State) : Host.Outcome State Fault Refusal :=
  serve ⟨0x510, .own, false, false, some 8⟩ m (fun c t =>
    match statusRecord t c.ws (fld c.data 0 8) with
    | some r => (.reply stOk r, t)
    | none => refuse stBadParam t) s

/-- The runner of a request as this device knows it, where the request is not done. -/
def knownRunner (s : State) (ws ident : Nat) : Option Nat :=
  match reqCopyOf s ws ident, stubOf s ws ident with
  | some c, _ => if c.doneEntry.isSome then none else keeperOf s c.pool ident
  | none, some b => keeperOf s b.pool ident
  | none, none => none

/-- REQ_CANCEL's answer: the owner records it in both copies; any other device passes it to the owner (R295)
(DEDUCED, assumption 121). -/
def reqCancel (c : Ctx) (s : State) : Answer × State :=
  let id := fld c.data 0 8
  match knownRunner s c.ws id with
  | none => refuse stBadParam s
  | some d =>
    match reqCopyOf s c.ws id with
    | some k =>
      if k.state = 2 then (.issue stPending (doneWork c [id] stOk []), sendReq s d 21 c.ws id k.epoch k.pool [])
      else (.issue stPending (doneWork c [id] stOk []), recordCancel s k)
    | none => (.issue stPending (doneWork c [id] stOk []), sendReq s d 21 c.ws id 0 0 [])

/-- REQ_CANCEL (R295). -/
def execReqCancel (m : MsgSrc) (s : State) : Host.Outcome State Fault Refusal :=
  serve ⟨0x511, .own, false, true, some 8⟩ m reqCancel s

/-- REQ_HANDOFF's answer (R300). -/
def reqHandoff (c : Ctx) (s : State) : Answer × State :=
  let id := fld c.data 0 8
  let t := fld c.data 8 2
  let live := s.requests.poolLive.getD t false
  if !zeroAt c.data 10 6 || !decide (t < s.requests.pools.length) || !live then refuse stBadParam s
  else match knownRunner s c.ws id with
    | none => refuse stBadParam s
    | some d =>
      match reqCopyOf s c.ws id with
      | some k =>
        if k.state = 2 then (.issue stPending (doneWork c [id, t] stOk []), sendReq s d 22 c.ws id k.epoch k.pool (leBytes 2 t))
        else if k.pool = t ∨ k.handTo ≠ 0xFFFF then refuse stBadParam s
        else (.issue stPending (work c [id, t]), beginHandoff s k t [c.ticket])
      | none => (.issue stPending (doneWork c [id, t] stOk []), sendReq s d 22 c.ws id 0 0 (leBytes 2 t))

/-- REQ_HANDOFF (R300). -/
def execReqHandoff (m : MsgSrc) (s : State) : Host.Outcome State Fault Refusal :=
  serve ⟨0x512, .own, false, true, some 16⟩ m reqHandoff s

end Sys2Proof.Machine
end

