-- ==== Sys2Proof/Machine/Replies.lean ====
section
/-!
DEFINITION. What a home slot does with replies to its sub-requests, and with sub-requests that get none (R191, R253, R270,
R274).
-/

namespace Sys2Proof.Machine

/-- The sub-request of a slot that a reply answers: of its kind and shard, the one whose message waits, else the first. -/
def awaited (s : State) (x : Slot) (kind shard : Nat) (r : Reply) : Option SubOut :=
  let l := x.subs.filter fun o => o.kind == kind && o.shard == shard
  l.find? fun o => replyMatches s o r

/-- Give a reply to the request in a slot. -/
def giveReply (n : Nat) (x : Slot) (o : SubOut) (r : Reply) (s : State) : State :=
  match o.kind with
  | 1 => queryReply n o r s
  | 2 => queryReply n o r s
  | 7 => hashReply n o r s
  | 8 => changeReply n o r s
  | 3 => attnReply n o r s
  | 4 => attnReply n o r s
  | 9 => attnReply n o r s
  | 5 => if x.kind = 6 then updateReply n o r s else gatherReply n o r s
  | 6 => updateReply n o r s
  | _ => s

/-- A late reply: one that no sub-request awaits is dropped (R191). -/
def dropLate (s : State) : State :=
  let live := s.hub.slots.flatMap fun p => p.2.subs.map (·.txn)
  let late := s.fab.inbox.find? fun p => p.msg == 0x21 && !live.contains p.txn
  match late with
  | some p => takeMsg s p
  | none => s

/-- A reply arrives for a slot. -/
def takeSlotReply (n kind shard : Nat) (r : Reply) (s : State) : State :=
  match getSlot s n with
  | none => dropLate s
  | some x =>
    match awaited s x kind shard r with
    | some o => giveReply n x o r (takeReply s o)
    | none => dropLate s

/-- SUBREQ_REPLY (R191). -/
def execSubreqReply (slot kind shard : Nat) (r : Reply) (s : State) : Host.Outcome State Fault Refusal :=
  .next (when (firmwareRuns s) (takeSlotReply slot kind shard r) s)

/-- Whether a sub-request has had no reply within the timeout (R191). -/
def subTimedOut (s : State) (o : SubOut) : Bool := elapsed s o.sentAt (s.boot.settings.subreqTimeoutUs * 1000)

/-- A copy is abandoned after the timeout; a change ends (R191, R507). -/
def abandonSub (n : Nat) (x : Slot) (o : SubOut) (s : State) : State :=
  match o.kind with
  | 1 => queryAbandon n o s
  | 2 => queryAbandon n o s
  | 7 => hashAbandon n o false s
  | 3 => attnAbandon n o s
  | 4 => attnAbandon n o s
  | 9 => attnAbandon n o s
  | 5 => if x.kind = 6 then updateAbandon n o s else gatherAbandon n o s
  | 6 => updateAbandon n o s
  | 8 => changeAbandon n o s
  | _ => s

/-- The oldest sub-request of a slot's kind and shard runs into the timeout. -/
def timeoutSub (n kind shard : Nat) (s : State) : State :=
  match getSlot s n with
  | none => s
  | some x =>
    match x.subs.find? fun o => o.kind == kind && o.shard == shard && subTimedOut s o with
    | some o => abandonSub n x o s
    | none => s

/-- SUBREQ_TIMEOUT (R191). -/
def execSubreqTimeout (slot kind shard : Nat) (s : State) : Host.Outcome State Fault Refusal :=
  .next (when (firmwareRuns s) (timeoutSub slot kind shard) s)

end Sys2Proof.Machine
end

