-- ==== Sys2Proof/Machine/Upkeep.lean ====
section
/-!
DEFINITION. The upkeep of indexes: frontiers (R170), low epochs (R180), snapshots (R157, R184) and compaction (R181).
-/

namespace Sys2Proof.Machine

/-! ## Frontiers (R170) -/

/-- A message of the FRONTIER type about an index: shard, a number, and the index's key (DESIGN CHOICE, assumption 40). -/
def frontierBytes (shard value key : Nat) (rest : List Byte) : List Byte :=
  leBytes 2 shard ++ zeros 6 ++ leBytes 8 value ++ leBytes 8 key ++ rest

/-- Copies of an index whose changes this device assigns. -/
def primaryCopies (s : State) (x : Index) : List (Bool × Copy) :=
  ((x.primary.toList.map fun c => (false, c)) ++ (x.mirror.toList.map fun c => (true, c))).filter fun p =>
    holdsRole s x.gid p.2.shard (·.primary)

/-- Send the mirror holder the primary copy's frontier, where the device holds the lease. -/
def noticeCopy (idx : Nat) (s : State) (p : Bool × Copy) : State :=
  match getIndex s idx with
  | none => s
  | some x =>
    match secondDev s x p.2.shard with
    | some d =>
      sendMsg (putCopy s idx p.1 { p.2 with noticeAt := ns s }) d 7 x.ws 0x23
        (frontierBytes p.2.shard (copyFrontier s p.2 false) x.key [])
    | none => s

/-- FRONTIER_NOTICE (R170). -/
def execFrontierNotice (index : Nat) (s : State) : Host.Outcome State Fault Refusal :=
  match getIndex s index with
  | some x => .next (when (firmwareRuns s && leaseHeld s x.gid) (fun t => (primaryCopies s x).foldl (noticeCopy index) t) s)
  | none => .next s

/-- A notice at the mirror copy, or a low epoch of another device under shard 0xFFFF (R170, R180; DESIGN CHOICE, assumption 40). -/
def takeFrontier (ws key shard value src : Nat) (s : State) : State :=
  let t := takeInbox s 0x23 src
  match indexByKey s ws key with
  | none => t
  | some (idx, x) =>
    if shard = 0xFFFF then putIndex t idx { x with lowEpochs := Tab.insert x.lowEpochs src value }
    else match x.placeOf shard with
      | some (mirror, c) =>
        if appliesAsMirror s x c && primaryDev s x.gid shard == some src then
          putIndex t idx (x.withCopy mirror (some { c with frontier := value }))
        else t
      | none => t

/-- FRONTIER (R170). -/
def execFrontierMsg (ws key shard frontier src : Nat) (s : State) : Host.Outcome State Fault Refusal :=
  .next (when (firmwareRuns s && src != fabricDev s) (takeFrontier ws key shard frontier src) s)

/-! ## Low epochs (R180) -/

/-- Read epochs of admitted requests over an index. -/
def readEpochs (s : State) (idx : Nat) : List Nat :=
  (s.hub.slots.filter fun p => p.2.obj == idx + 1 && (p.2.kind == 1 || p.2.kind == 10) && !p.2.bind.isEmpty).map
    fun p => p.2.bind.getD 0 0

/-- Epochs that surviving checkpoints of query phases of the index's workspace record (R295). -/
def checkpointEpochs (s : State) (x : Index) : List Nat :=
  (s.requests.copies.filter (·.ws == x.ws)).filterMap fun c => c.binding.bind fun b => if b.1 = 1 then b.2.head? else none

/-- This device's low epoch for an index; its network time where nothing holds one. -/
def lowEpoch (s : State) (idx : Nat) (x : Index) : Nat :=
  (readEpochs s idx ++ checkpointEpochs s x ++ x.pins).foldl min (net s)

/-- Publish the low epoch to the group. -/
def publishLow (idx : Nat) (x : Index) (s : State) : State :=
  let e := lowEpoch s idx x
  let t := putIndex s idx { x with lowEpochs := Tab.insert x.lowEpochs (fabricDev s) e, lowSentAt := ns s }
  tellGroup t x.gid 7 x.ws 0x23 (frontierBytes 0xFFFF e x.key [])

/-- LOW_EPOCH_PUBLISH (R180). -/
def execLowEpochPublish (index : Nat) (s : State) : Host.Outcome State Fault Refusal :=
  match getIndex s index with
  | some x => .next (when (firmwareRuns s && leaseHeld s x.gid) (publishLow index x) s)
  | none => .next s

/-- The horizon of a copy: T − 200 ms and the low epoch of each device of the group in force (R180, R501). -/
def horizonOf (s : State) (x : Index) : Nat :=
  ((groupDevs s x.gid).map fun d => Tab.get 0 x.lowEpochs d).foldl min (net s - 200000000)

/-! ## Snapshots (R157, R184) -/

/-- Snapshot numbers that must be kept besides those of the last 100 ms: of pins and of admitted requests. -/
def heldSnaps (s : State) (idx : Nat) (x : Index) : List Nat := (x.pins ++ readEpochs s idx).map (snapOf x)

/-- Whether a snapshot number is young enough to be assigned still. -/
def snapYoung (s : State) (x : Index) (num : Nat) : Bool :=
  decide (net s ≤ num * 2 ^ x.statsLog + 100000000 + 3 * 2 ^ x.statsLog)

/-- The snapshots that a copy keeps. -/
def keepSnaps (s : State) (idx : Nat) (x : Index) (l : List Snapshot) : List Snapshot :=
  let held := heldSnaps s idx x
  l.zipIdx.filterMap fun p =>
    if (snapYoung s x p.1.num || held.contains p.1.num || decide (l.length ≤ p.2 + 3)) = true then some p.1 else none

/-- A shard's snapshot enters the group snapshot of its number, once (R184). -/
def joinSnap (s : State) (idx : Nat) (shard : Nat) (sn : Snapshot) : State :=
  match getIndex s idx with
  | none => s
  | some x =>
    let l : List (Nat × List Nat × Snapshot) := match x.groupSnaps.find? (·.1 == sn.num) with
      | some g =>
        if g.2.1.contains shard then x.groupSnaps
        else x.groupSnaps.map fun q => if q.1 = sn.num then (q.1, q.2.1 ++ [shard], addSnapshot q.2.2 sn) else q
      | none => x.groupSnaps ++ [(sn.num, [shard], sn)]
    let held := heldSnaps s idx x
    let kept := l.zipIdx.filterMap fun p =>
      if (snapYoung s x p.1.1 || held.contains p.1.1 || decide (l.length ≤ p.2 + 3)) = true then some p.1 else none
    putIndex s idx { x with groupSnaps := kept }

/-- The next snapshot that a copy can complete at its frontier. -/
def nextSnap (x : Index) (c : Copy) (a : Nat) : Option Nat :=
  match c.snapshots.getLast? with
  | some l => if (l.num + 1) * 2 ^ x.statsLog ≤ a then some (l.num + 1) else none
  | none => some (a / 2 ^ x.statsLog - 2)

/-- Whether the holder sends the snapshots of a copy: the primary holder, or the other one while the shard is not WHOLE. -/
def sendsSnaps (s : State) (x : Index) (c : Copy) : Bool :=
  holdsRole s x.gid c.shard (·.primary) || (match roleOf s x.gid c.shard with | some r => r.state != 0 | none => false)

/-- A copy completes its next snapshot and sends it to the group. -/
def takeSnap (idx : Nat) (mirror : Bool) (s : State) : State :=
  match (getIndex s idx).bind fun x => (x.role mirror).map fun c => (x, c) with
  | none => s
  | some (x, c) =>
    match (if c.live && x.state == 2 then nextSnap x c (copyFrontier s c (appliesAsMirror s x c)) else none) with
    | none => s
    | some num =>
      let sn := takeSnapshot s x c num
      let t := putCopy s idx mirror { c with snapshots := keepSnaps s idx x (c.snapshots ++ [sn]) }
      if sendsSnaps s x c then
        tellGroup (joinSnap t idx c.shard sn) x.gid 7 x.ws 0x23
          (frontierBytes c.shard sn.num x.key (snapshotBytes x sn))
      else t

/-- STATS_SNAPSHOT (R157, R184). -/
def execStatsSnapshot (index : Nat) (mirror : Bool) (s : State) : Host.Outcome State Fault Refusal :=
  guarded "STATS_SNAPSHOT" (decide (index < 1024)) (when (firmwareRuns s) (takeSnap index mirror) s)

/-- GROUP_SNAPSHOT (R184). -/
def execGroupSnapshot (ws key shard : Nat) (sn : Snapshot) (s : State) : Host.Outcome State Fault Refusal :=
  match indexByKey s ws key with
  | some (idx, x) => .next (when (firmwareRuns s && leaseHeld s x.gid) (fun t => joinSnap t idx shard sn) s)
  | none => .next s

/-! ## Compaction (R181) -/

/-- Whether the lehr scheduler lets a copy be compacted now (R181, R510): its COMPACT runs, or would be admitted at once. -/
def compactAdmits (s : State) (x : Index) (shard : Nat) : Bool :=
  let a := newActivity s 3 false 4 1 shard x.key none
  s.rack.running.any (fun b => b.code == 3 && sameScope a b) || !mustWait s a s.rack.queued

/-- Whether tombstones make a chunk or bucket due. -/
def isDue (x : Index) (fill tombs : Nat) : Bool := decide (0 < tombs) && decide (x.compactPercent * fill ≤ 100 * tombs)

/-- Ordinal-map pages that no ordinal needs any more are freed (R153). -/
def trimOrdPages (s : State) (c : Copy) : Copy × State :=
  let gone := c.ordPages.filter fun p => p.1 != c.nextSeq / 4096 && !c.ords.any fun o => o.1 / 4096 == p.1
  let left := c.ordPages.filter fun p => !gone.contains p
  ({ c with ordPages := left }, (gone.map Prod.snd).foldl freePages s)

/-- Free old chunks that no request admitted before their replacement can read (R181). -/
def freeOldChunks (s : State) (idx : Nat) : State :=
  match getIndex s idx with
  | none => s
  | some x =>
    let first := (s.hub.slots.filter fun p => p.2.obj == idx + 1 && [1, 2, 3, 10, 11, 12].contains p.2.kind).map fun p => p.2.at_
    let free := x.oldChunks.filter fun o => first.all fun a => decide (o.2 < a)
    let inside := fun (c : Copy) (ma : Nat) =>
      c.regions.any fun r => decide (maOfPage s r.1 ≤ ma) && decide (ma < maOfPage s r.1 + r.2 * 65536)
    let back := fun (c : Copy) => { c with freePos := c.freePos ++ (free.map Prod.fst).filter (inside c) }
    let left := x.oldChunks.filter fun o => !free.contains o
    putIndex s idx { x with oldChunks := left, primary := x.primary.map back, mirror := x.mirror.map back }

/-- Compact a chunk: its kept slots move in slot order, then its locators switch (R181). -/
def compactChunk (idx : Nat) (mirror : Bool) (x : Index) (c : Copy) (list seq : Nat) (s : State) : State :=
  let chunks := listChunks c list
  match chunks[seq]? with
  | none => s
  | some ma =>
    let h := readMa s ma 32
    let items := chunkItems s x ma
    let hor := horizonOf s x
    let kept := items.filter fun it => decide (hor < it.del)
    let goneSeqs := (items.filter fun it => decide (it.del ≤ hor)).map fun it => ordSeq it.ord
    if seq + 1 = chunks.length ∨ !isDue x (fld h 16 2) (fld h 18 2) ∨ goneSeqs.isEmpty then s
    else
      let live := fun (q : Nat) => !goneSeqs.contains q
      let drop := fun (d : Copy) => { d with ids := d.ids.filter (live ·.2), ords := d.ords.filter (live ·.1),
                                             flashVecs := d.flashVecs.filter (live ·.1) }
      let place : Option (Option Nat × Copy × State) :=
        if kept.isEmpty then some (none, c, s) else (placeChunk s x c chunks).map fun r => (some r.1, r.2.1, r.2.2)
      match place with
      | none => s
      | some (dst, d, t) =>
        let t := match dst with
          | some a => kept.zipIdx.foldl (fun u p => writeSlot u x a p.2 p.1)
              (storeMa t a (chunkHeader idx x 0 NEVER 0 0 list (fld h 24 4)))
          | none => t
        let d := drop d
        let d := match dst with
          | some a =>
            let moved := d.ords.map fun o =>
              match kept.zipIdx.find? fun p => ordSeq p.1.ord == o.1 with
              | some p => (o.1, { o.2 with ma := a, slot := p.2 })
              | none => o
            { putList d list (setAt chunks seq a) with ords := moved }
          | none => putList d list (chunks.eraseIdx seq)
        let r := trimOrdPages t d
        let u := putCopy r.2 idx mirror r.1
        match getIndex u idx with
        | some y => freeOldChunks (putIndex u idx { y with oldChunks := y.oldChunks ++ [(ma, ns s)] }) idx
        | none => u

/-- Compact a bucket of a chain in its place, under the rule of lists (R161, R181) (DESIGN CHOICE, assumption 54). -/
def compactBucket (x : Index) (c : Copy) (bucket pos : Nat) (s : State) : State :=
  match (chainOf s c bucket)[pos]? with
  | none => s
  | some ma =>
    let h := readMa s ma 32
    let items := (List.range (fld h 24 1)).map (readEntry s ma)
    let kept := items.filter fun it => decide (horizonOf s x < it.del)
    if kept.length = items.length ∨ !isDue x (fld h 24 1) (fld h 25 1) then s
    else
      kept.foldl (fun t it => appendEntry t ma it.ident it.ord it.ins it.del)
        (storeMa s ma (bucketHeader 0 NEVER (fld h 16 8) 0 0 (fld h 26 1) (fld h 28 4)))

/-- A due chunk, or bucket, of a copy is compacted (R181). -/
def compactRow (idx : Nat) (mirror : Bool) (list seq : Nat) (s : State) : State :=
  match (getIndex s idx).bind fun x => (x.role mirror).map fun c => (x, c) with
  | some (x, c) =>
    if !compactAdmits s x c.shard then s
    else if x.kind = 3 then compactBucket x c list seq s else compactChunk idx mirror x c list seq s
  | none => s

/-- COMPACT (R181). -/
def execCompact (index : Nat) (mirror : Bool) (list seq : Nat) (s : State) : Host.Outcome State Fault Refusal :=
  guarded "COMPACT" (decide (index < 1024)) (when (firmwareRuns s) (compactRow index mirror list seq) s)

end Sys2Proof.Machine
end

