-- ==== Sys2Proof/Machine/Slots.lean ====
section
/-!
DEFINITION. The slot scheduler (R114, R122), replies of this device's own engines (R115), and the release of a slot that has
completed (R120).
-/

namespace Sys2Proof.Machine

/-- Whether the slot scheduler has something to grant a slot: it is ADMITTED, and what its kind binds when it first runs can be
bound; or it is READY. -/
def grantable (s : State) (n : Nat) (x : Slot) : Bool :=
  match x.st with
  | .ready => x.kind == 9
  | .admitted =>
    x.done.isNone && (x.req.isNone || x.eflags != 2) &&
      match x.kind with
      | 1 => x.obj != 0 && withinBudget s
      | 10 => x.obj != 0 && withinBudget s
      | 4 => stepWaits s n
      | 5 => x.obj != 0 && gatherReady s x
      | 9 => true
      | _ => false
  | _ => false

/-- The slot that the scheduler of a core grants, by local index (R122). -/
def schedGrant (s : State) (core : Nat) : Option Nat :=
  roundRobin 128 (Tab.get 0 s.hub.schedPtr core) fun i =>
    match getSlot s (128 * core + i) with
    | some x => grantable s (128 * core + i) x
    | none => false

/-- Run a granted slot until it yields. -/
def runSlot (n : Nat) (x : Slot) (s : State) : State :=
  match x.st, x.kind with
  | .ready, _ => if x.pg 0 = 0 then submitModel n s else finishModel n s
  | _, 1 => launchQuery n s
  | _, 4 => launchStep n s
  | _, 5 => launchGather n s
  | _, 9 => submitModel n s
  | _, 10 => launchHash n s
  | _, _ => s

/-- Grant a hardware thread of a core (DESIGN CHOICE, assumption 148). -/
def schedule (core : Nat) (s : State) : State :=
  match schedGrant s core with
  | none => s
  | some i =>
    let n := 128 * core + i
    match getSlot s n with
    | some x => runSlot n x { s with hub := { s.hub with schedPtr := Tab.insert s.hub.schedPtr core ((i + 1) % 128) } }
    | none => s

/-- SLOT_SCHEDULE (R114). -/
def execSlotSchedule (core : Nat) (s : State) : Host.Outcome State Fault Refusal :=
  guarded "SLOT_SCHEDULE" (decide (core < 512)) (when (firmwareRuns s) (schedule core) s)

/-- The engine that holds the output of a slot's invocation, and the output. -/
def modelOutput (s : State) (n : Nat) : Option (Nat × GafferJob × List Nat × Nat) :=
  s.hub.gaffers.findSome? fun g =>
    (g.2.outputs.find? fun o => o.1.kind == .model && o.1.slot == n).map fun o => (g.1, o)

/-- The output of an invocation is written into its slot, and the wait count falls (R115). -/
def takeOutput (n : Nat) (s : State) : State :=
  match getSlot s n, modelOutput s n with
  | some x, some (e, o) =>
    if x.kind = 9 ∧ x.st = .waiting ∧ x.pg 0 = 1 then
      let g := getGaffer s e
      let t := putGaffer s e { g with outputs := g.outputs.erase o }
      let w := x.wait - 1
      let ok := o.2.2 != 256
      putSlot t n { x with wait := w, st := if w = 0 then .ready else .waiting, vec := o.2.1,
                           arith := if ok then o.2.2 else 0, prog := [if ok then 2 else 3] }
    else s
  | _, _ => s

/-- SLOT_REPLY (R115). -/
def execSlotReply (slot : Nat) (s : State) : Host.Outcome State Fault Refusal :=
  .next (when (firmwareRuns s) (takeOutput slot) s)

/-! ## Release (R120) -/

/-- Whether every result byte of a slot is visible: none waits for the move bus, and no MEM_WRITE awaits its
acknowledgement (R198). -/
def resultsVisible (s : State) (n : Nat) : Bool :=
  (s.move.results.all (·.slot != n)) &&
    s.fab.held.all fun h => !(decide (2 ^ 63 + n * 2 ^ 32 ≤ h.pkt.txn) && decide (h.pkt.txn < 2 ^ 63 + (n + 1) * 2 ^ 32))

/-- The completion entry with its service_time, in ns since admission. -/
def timedEntry (s : State) (x : Slot) (e : List Byte) : List Byte :=
  match serviceField x.kind with
  | some (off, n) => e.take off ++ leBytes n (min (2 ^ (8 * n) - 1) (ns s - x.at_)) ++ e.drop (off + n)
  | none => e

/-- Post the completion: on the slot's ring, or, for a phase, to its runner with what it writes to the state area (R293). -/
def postSlot (s : State) (x : Slot) (e : List Byte) : State :=
  match x.req with
  | none => postEntry s x.fn x.ring e (bit x.eflags 0)
  | some id =>
    let ws := x.writes.flatMap fun w => leBytes 4 (bits w.1 31 0) ++ leBytes 4 w.2.length ++ w.2
    sendReq s x.ring 10 x.ws id 0 0 (leBytes 1 x.count ++ zeros 1 ++ leBytes 2 x.writes.length ++ zeros 4 ++ e ++ ws)

/-- Release what a request held, by its kind; frees that waited for it follow (R105, R137, R181, R266, R279). -/
def releaseRefs (s : State) (x : Slot) : State :=
  if x.obj = 0 then s
  else match x.kind with
    | 4 =>
      let t := commitStep s x
      match sessionOf t x.obj with
      | some q => settleOldKv (refSession t q.ws q.key false) q.ws q.key
      | none => t
    | 5 => settleDrains (refVersion s x.obj (x.bind.getD 0 0) false) x.obj
    | 6 => settleDrains (refVersion s x.obj (x.bind.getD 0 0) false) x.obj
    | 7 => s
    | 8 => s
    | 9 => refProgram s x.obj false
    | _ => freeOldChunks (refIndex s (x.obj - 1) false) (x.obj - 1)

/-- The entry device forgets the stub of a request whose completion is posted (R292). -/
def dropStub (s : State) (n : Nat) : State :=
  { s with requests := { s.requests with stubs := s.requests.stubs.filter (·.slot != n) } }

/-- A COMPLETING slot posts its completion, releases its references and becomes FREE. -/
def releaseSlot (n : Nat) (s : State) : State :=
  match getSlot s n with
  | some x =>
    match x.st, x.done with
    | .completing, some e =>
      if resultsVisible s n then
        let t := dropSlot s n
        let t := if x.kind = 8 then dropStub t n else t
        releaseRefs (postSlot (freeJacks t n) x (timedEntry s x e)) x
      else s
    | _, _ => s
  | none => s

/-- SLOT_RELEASE (R120). -/
def execSlotRelease (slot : Nat) (s : State) : Host.Outcome State Fault Refusal :=
  .next (when (firmwareRuns s) (releaseSlot slot) s)

end Sys2Proof.Machine
end

