-- ==== Sys2Proof/Machine/Members.lean ====
section
/-!
DEFINITION. Membership (R396, R497, R498, R507), leases (R499 to R501), planned swaps (R508), and the rebuilding of shard copies
(R502 to R506).
-/

namespace Sys2Proof.Machine

/-! ## Messages -/

/-- Table: Membership header. -/
def memHeader (m : Membership) (op flags : Nat) : List Byte :=
  leBytes 4 m.group ++ leBytes 1 op ++ leBytes 1 flags ++ leBytes 2 m.members.length ++ leBytes 8 m.epoch ++
    leBytes 8 m.effective ++ leBytes 2 m.spares.length ++ leBytes 2 m.domain.length ++ leBytes 4 m.roles.length ++
    leBytes 2 m.gateway ++ leBytes 2 m.suspect ++ zeros 28

/-- Whether a membership message takes effect against the one held (R396). -/
def memWins (old : Option Group) (m : Membership) : Bool :=
  match old with
  | none => true
  | some g =>
    decide (g.mem.epoch < m.epoch) || (g.mem.epoch == m.epoch && (g.mem == m || decide (m.gateway < g.mem.gateway)))

/-- A group as a membership message makes it. -/
def joinGroup (old : Option Group) (m : Membership) : Group :=
  match old with
  | some g =>
    let prev := if m.effective = 0 then [] else g.mem.roles.map fun r => (memberDev g.mem r.primary).getD 0xFFFF
    { g with mem := m, prev := prev, releaseSent := false }
  | none =>
    { mem := m, lease := 0, expiry := 0, expiryLocal := 0, seq := 0, renews := [], lastRenew := 0, peerLost := [],
      lapsedEpoch := 0, releaseSent := false, leaseEpoch := 0, prev := [] }

/-- Put a group in place of that of its identity. -/
def installGroup (s : State) (g : Group) : State :=
  let others := s.rack.groups.filter (·.mem.group != g.mem.group)
  { s with rack := { s.rack with groups := others ++ [g] } }

/-! ## Roles taken and given up -/

/-- Shards of which this device is newly named target. -/
def newTargets (s : State) (old : Option Group) (m : Membership) : List Nat :=
  let mine := fun (x : Membership) (k : Nat) => match x.roles[k]? with
    | some r => memberDev x r.target == some (fabricDev s)
    | none => false
  (List.range m.roles.length).filter fun k => mine m k && !(old.any fun g => mine g.mem k)

/-- The place where a target copy of an index goes: that of a copy of the shard, or one that is empty. -/
def targetPlace (x : Index) (shard : Nat) : Option Bool :=
  if (x.primary.map (·.shard)) = some shard then some false
  else if (x.mirror.map (·.shard)) = some shard then some true
  else if x.primary.isNone then some false
  else if x.mirror.isNone then some true
  else none

/-- Allocate a target copy of an index, empty and not live (R502, R504): whether it could be, and the state. -/
def targetIndex (idx shard : Nat) (s : State) : Bool × State :=
  match getIndex s idx with
  | none => (true, s)
  | some x =>
    match targetPlace x shard with
    | none => (false, s)
    | some mirror =>
      let t := match x.role mirror with
        | some c => freeCopy s c
        | none => s
      match startCopy t x shard with
      | some (c, u) => (true, copyStreams (putIndex u idx (x.withCopy mirror (some { c with live := false }))) x idx mirror)
      | none => (false, s)

/-- The place of a target copy of a table. -/
def targetTablePlace (t : Table) (shard : Nat) : Option Bool :=
  (t.placeOf shard).or (if t.shardP = 0xFFFF then some false else if t.shardM = 0xFFFF then some true else none)

/-- A table with a copy that is not live in a place. -/
def Table.withTarget (t : Table) (mirror : Bool) (shard : Nat) : Table :=
  if mirror then { t with shardM := shard, liveM := false } else { t with shardP := shard, liveP := false }

/-- Give every version of a table regions for a target copy; none where they do not fit. -/
def targetRegions (h shard : Nat) (mirror : Bool) : List Nat → State → Option State
  | [], s => some s
  | v :: vs, s =>
    match getTable s h with
    | none => some s
    | some t =>
      match t.version v with
      | none => targetRegions h shard mirror vs s
      | some x =>
        let freed := ((x.regionsAt mirror).map (·.2.1)).foldl freePages s
        (allocRegions t.ws (unitSet s) (t.copyPages s shard) freed).bind fun a =>
          targetRegions h shard mirror vs (modVersion a.2 h v fun y =>
            if mirror then { y with regionsM := a.1, uMirror := 0, markM := none }
            else { y with regionsP := a.1, uPrimary := 0, markP := none })

/-- Allocate a target copy of a table. -/
def targetTable (h shard : Nat) (s : State) : Bool × State :=
  match getTable s h with
  | none => (true, s)
  | some t =>
    match targetTablePlace t shard with
    | none => (false, s)
    | some mirror =>
      match targetRegions h shard mirror ((t.slots.filterMap id).map (·.num)) s with
      | some u => match getTable u h with
        | some w => (true, putTable u h (w.withTarget mirror shard))
        | none => (true, u)
      | none => (false, s)

/-- Allocate every target copy that a membership names this device for (DESIGN CHOICE, assumption 128). -/
def takeTargets (gid : Nat) (shards : List Nat) (s : State) : Bool × State :=
  let ix := (s.indexes.filter (·.2.gid == gid)).map (·.1)
  let tb := (s.tables.filter fun p => p.2.gid == gid && !p.2.isPool).map (·.1)
  shards.foldl (fun r k =>
    let a := ix.foldl (fun (q : Bool × State) i => let b := targetIndex i k q.2; (q.1 && b.1, b.2)) r
    tb.foldl (fun (q : Bool × State) h => let b := targetTable h k q.2; (q.1 && b.1, b.2)) a) (true, s)

/-- A promoted copy goes on 2^20 sequence numbers above those it holds (R506). -/
def promote (s : State) (old : Option Group) (m : Membership) : State :=
  let was := fun (k : Nat) => match old with
    | some g => ((g.mem.roles[k]?).bind fun r => memberDev g.mem r.primary) == some (fabricDev s)
    | none => true
  let now := fun (k : Nat) => ((m.roles[k]?).bind fun r => memberDev m r.primary) == some (fabricDev s)
  let up := fun (c : Copy) => if now c.shard && !was c.shard then { c with nextSeq := c.nextSeq + 2 ^ 20 } else c
  { s with indexes := s.indexes.map fun p =>
      if p.2.gid = m.group then (p.1, { p.2 with primary := p.2.primary.map up, mirror := p.2.mirror.map up }) else p }

/-- Send again the changes of a copy that await a second device, where that device has changed (R502, R503, R629). -/
def resendChanges (before : State) (idx : Nat) (mirror : Bool) (s : State) : State :=
  match (getIndex s idx).bind fun x => (x.role mirror).map fun c => (x, c) with
  | none => s
  | some (x, c) =>
    match secondDev s x c.shard with
    | none => s
    | some d =>
      if secondDev before x c.shard = some d ∨ c.changes.isEmpty then s
      else
        let t := putCopy s idx mirror { c with changes := c.changes.map fun y => { y with mirrorDone := false, needMirror := true } }
        c.changes.foldl (fun u y => sendChange u d
          { ws := x.ws, key := x.key, shard := c.shard, kind := y.kind, src := fabricDev u, homeSlot := y.homeSlot,
            payload := y.payload, vec := y.vec, ordinal := y.ordinal, epoch := y.epoch }) t

/-- Changes that this device forwarded to a holder that is no longer primary go to the new one (R507)
(DEDUCED, assumption 129). -/
def reforward (gid : Nat) (s : State) : State :=
  let stale := s.hub.slots.filter fun p =>
    match getIndex s (p.2.obj - 1) with
    | some x => [2, 3, 11, 12].contains p.2.kind && x.gid == gid && p.2.done.isNone &&
        p.2.subs.any fun o => o.kind == 8 && o.device != fabricDev s && primaryDev s gid o.shard != some o.device
    | none => false
  stale.foldl (fun t p => forwardChange p.1 t) s

/-- Positions of sessions follow the member list: a member's place in it may pass to another device (R507). -/
def moveSessions (old : Option Group) (m : Membership) (s : State) : State :=
  match old with
  | none => s
  | some g =>
    let dev := fun (d : Nat) => match g.mem.members.findIdx? (· == d) with
      | some i => m.members.getD i d
      | none => d
    { s with sessions := s.sessions.map fun x => if x.group = m.group then { x with devices := x.devices.map dev } else x }

/-- Updates that wait for a device that has left the group (R274). -/
def recheckRuns (gid : Nat) (s : State) : State :=
  (s.tables.filter (·.2.gid == gid)).foldl (fun t p =>
    p.2.running.foldl (fun u r =>
      if !r.sent && allDrained u p.2 r then
        match getTable u p.1 with
        | some w => drainedAll r.slot (putTable u p.1 { w with running := w.running.map fun y =>
            if y.version = r.version then { y with sent := true } else y })
        | none => u
      else u) t) s

/-- The member marked suspect adds to its DEVICE score (R497). -/
def markSuspect (m : Membership) (s : State) : State :=
  if m.members[m.suspect]? = some (fabricDev s) then score (emitDev s 0x0804 0 0 0) 11 0 32 0x0804 else s

/-- Apply an ANNOUNCE in one step, and send its ACK (R498). -/
def announceGroup (m : Membership) (s : State) : State :=
  let old := findGroup s m.group
  let t := installGroup s (joinGroup old m)
  let t := moveSessions old m (promote t old m)
  let r := takeTargets m.group (newTargets s old m) t
  let t := (r.2.indexes.filter (·.2.gid == m.group)).foldl (fun u p =>
    resendChanges s p.1 true (resendChanges s p.1 false u)) r.2
  let t := recheckRuns m.group (reforward m.group t)
  sendMsg (markSuspect m t) m.gateway 7 0 0x50 (memHeader m 1 (b2n !r.1))

/-- The pool list that the gateway gives (R297). -/
def takePools (pools : Option (List (List Nat × Bool))) (s : State) : State :=
  match pools with
  | some l => { s with requests := { s.requests with pools := l.map Prod.fst, poolLive := l.map Prod.snd } }
  | none => s

/-- A membership message arrives: before RUN it is answered not-ready (R396). -/
def takeMembership (m : Membership) (pools : Option (List (List Nat × Bool))) (s : State) : State :=
  let t := takeInbox s 0x50 m.gateway
  if firmwareRuns t then
    let u := takePools pools t
    if memWins (findGroup u m.group) m then announceGroup m u else u
  else if t.boot.stage = .discover then sendMsg t m.gateway 7 0 0x50 (memHeader m 2 0)
  else s

/-- MEMBERSHIP (R396, R498), with the pool list where the gateway gives one (R297). -/
def execMembership (m : Membership) (pools : Option (List (List Nat × Bool))) (s : State) : Host.Outcome State Fault Refusal :=
  .next (takeMembership m pools s)

/-! ## Leases (R499 to R501) -/

/-- RENEW (R499): for a group that the device belongs to, within the time budget (R396), and not in a halt (R328)
(DESIGN CHOICE, assumption 127). -/
def execRenewSend (group : Nat) (s : State) : Host.Outcome State Fault Refusal :=
  match findGroup s group with
  | some g => .next (when (firmwareRuns s && withinBudget s && belongs s g.mem) (fun t => sendRenew t g) s)
  | none => .next s

/-- Copies of the group that the role map does not give this device (R501). -/
def dropUngiven (m : Membership) (s : State) : State :=
  let given := fun (k : Nat) => match m.roles[k]? with
    | some r => [r.primary, r.mirror, r.target].any fun n => memberDev m n == some (fabricDev s)
    | none => false
  (s.indexes.filter (·.2.gid == m.group)).foldl (fun t p =>
    [false, true].foldl (fun u mirror =>
      match (getIndex u p.1).bind fun x => (x.role mirror).map fun c => (x, c) with
      | some (x, c) => if given c.shard then u else putIndex (freeCopy u c) p.1 (x.withCopy mirror none)
      | none => u) t) s

/-- A GRANT arrives (R499): one below the epoch held, or that answers no RENEW, is ignored; a fenced device needs one above the
epoch that lapsed (R501). -/
def takeGrant (g : Group) (epoch expiry seq : Nat) (s : State) : State :=
  match g.renews.find? (·.1 == seq) with
  | none => s
  | some (_, sent) =>
    if epoch < g.mem.epoch ∨ (g.lease = 2 ∧ epoch ≤ g.lapsedEpoch) then s
    else
      let t := putLease s { g with lease := 1, expiry := expiry, expiryLocal := sent + 200000000, leaseEpoch := epoch,
                                   renews := g.renews.filter (·.1 != seq) }
      let t := if g.lease = 2 then dropUngiven g.mem t else t
      if g.leaseEpoch ≠ 0 ∧ g.leaseEpoch < epoch then emitDev t 0x0806 0 0 0 else t

/-- GRANT (R499). -/
def execGrantMsg (group epoch expiry seq : Nat) (s : State) : Host.Outcome State Fault Refusal :=
  match findGroup s group with
  | some g => .next (when (firmwareRuns s) (fun t => takeGrant g epoch expiry seq (takeInbox t 0x51 g.mem.gateway)) s)
  | none => .next s

/-- The group of the object that a request is over. -/
def slotGroup (s : State) (x : Slot) : Option Nat :=
  if x.obj = 0 then none
  else match x.kind with
    | 4 => (sessionOf s x.obj).map (·.group)
    | 5 => (getTable s x.obj).map (·.gid)
    | 6 => (getTable s x.obj).map (·.gid)
    | 7 => none
    | 8 => none
    | 9 => none
    | _ => (getIndex s (x.obj - 1)).map (·.gid)

/-- A home request of a group whose lease is lost (R192, R253, R270). -/
def fenceRequest (s : State) (n : Nat) (x : Slot) : State :=
  if x.done.isSome then s
  else match x.kind with
    | 2 => finishChange s n stFenced 0 SENTINEL_ORD 0
    | 3 => finishChange s n stFenced 0 SENTINEL_ORD 0
    | 6 => failUpdate s n stFenced 0
    | 11 => finishChange s n stFenced 0 SENTINEL_ORD 0
    | 12 => finishChange s n stFenced 0 SENTINEL_ORD 0
    | _ => failSlot s n stFenced 0

/-- Changes that this device has assigned and not completed end with ST_FENCED under their epochs (R501, R629). -/
def fenceChanges (idx : Nat) (mirror : Bool) (s : State) : State :=
  match (getIndex s idx).bind fun x => (x.role mirror).map fun c => (x, c) with
  | some (x, c) =>
    c.changes.foldl (fun t y => answerChange t y.src x.ws y.homeSlot y.txn stFenced y.epoch y.ordinal 0)
      (putCopy s idx mirror { c with changes := [] })
  | none => s

/-- Whether a lease has run out: by network time, or by the device's own count (R499). -/
def leaseOver (s : State) (g : Group) : Bool := g.lease == 1 && (decide (g.expiry ≤ net s) || decide (g.expiryLocal ≤ ns s))

/-- The device fences itself for a group (R501). -/
def fenceGroup (g : Group) (s : State) : State :=
  let gid := g.mem.group
  let t := emitDev (putLease s { g with lease := 2, lapsedEpoch := g.leaseEpoch }) 0x0805 gid g.leaseEpoch 0
  let t := sendLease t g 3
  let t := (t.indexes.filter (·.2.gid == gid)).foldl (fun u p => fenceChanges p.1 true (fenceChanges p.1 false u)) t
  let t := (t.hub.slots.filter fun p => slotGroup t p.2 == some gid).foldl (fun u p => match getSlot u p.1 with
    | some x => fenceRequest u p.1 x
    | none => u) t
  (t.hub.subreqs.filter fun q => q.group == gid && q.slot.isSome).foldl (fun u q => replySub u q .fenced) t

/-- LEASE_LAPSE (R501). -/
def execLeaseLapse (group : Nat) (s : State) : Host.Outcome State Fault Refusal :=
  match findGroup s group with
  | some g => .next (when (inRun s && leaseOver s g) (fenceGroup g) s)
  | none => .next s

/-- Whether a straggler's last change below P_switch is applied everywhere (R508). -/
def swapDone (s : State) (g : Group) : Bool :=
  let left := fun (k : Nat) => g.prev[k]? == some (fabricDev s) &&
    ((g.mem.roles[k]?).bind fun r => memberDev g.mem r.primary) != some (fabricDev s)
  let mine := (List.range g.prev.length).filter left
  g.mem.effective != 0 && decide (g.mem.effective ≤ net s) && !g.releaseSent && !mine.isEmpty &&
    (s.indexes.filter (·.2.gid == g.mem.group)).all fun p =>
      ([p.2.primary, p.2.mirror].filterMap id).all fun c => !mine.contains c.shard || c.changes.isEmpty

/-- RELEASE (R508). -/
def execReleaseSend (group : Nat) (s : State) : Host.Outcome State Fault Refusal :=
  match findGroup s group with
  | some g => .next (when (firmwareRuns s && g.lease == 1 && swapDone s g)
      (fun t => sendLease (putLease t { g with releaseSent := true }) g 2) s)
  | none => .next s

/-! ## REBUILD (R504) -/

/-- Store a vector that a rebuild reads. -/
def keepVector (s : State) (idx : Nat) (x : Index) (mirror : Bool) (c : Copy) (seq : Nat) (v : List Byte) :
    Option (Option Nat × Copy × State) :=
  match x.refineKind with
  | 0 => some (none, c, s)
  | 1 => some (some (freePlace c), c, { s with mem := store s.mem (x.refineDpa mirror (freePlace c)) v })
  | _ =>
    let r := streamWrite s 5 x.ws (copyOwner idx mirror) x.gid v
    if r.1 = stOk then some (some (freePlace c), { c with flashVecs := c.flashVecs ++ [(seq, v)] }, r.2.2) else none

/-- Place an item that a rebuild reads. -/
def placeItem (idx : Nat) (x : Index) (mirror : Bool) (it : RebuildItem) (c : Copy) (s : State) : Option (Copy × State) :=
  if x.kind = 3 then
    (bucketRoom s x c (x.bucketOf it.ident)).map fun r => (r.2.1, appendEntry r.2.2 r.1 it.ident it.ord it.ins it.del)
  else
    let seq := ordSeq it.ord
    (ordPageFor s x c seq).bind fun a => (nextSlot a.2 idx x a.1 it.list).bind fun b =>
      (keepVector b.2.2.2 idx x mirror b.2.2.1 seq it.vec).map fun v =>
        let item : Item := { ma := b.1, slot := b.2.1, ins := it.ins, del := it.del, ord := it.ord, ident := it.ident,
                             attrs := it.attrs, codes := it.codes }
        let d := v.2.1
        ({ d with ids := d.ids ++ [(it.ident, seq)], ords := Tab.insert d.ords seq ⟨b.1, b.2.1, v.1⟩ },
         writeSlot v.2.2 x b.1 b.2.1 item)

/-- Place items one by one. -/
def placeItems (idx : Nat) (x : Index) (mirror : Bool) : List RebuildItem → Copy → State → Option (Copy × State)
  | [], c, s => some (c, s)
  | it :: t, c, s => (placeItem idx x mirror it c s).bind fun r => placeItems idx x mirror t r.1 r.2

/-- The target copy of an index takes its source's content and is live. -/
def fillIndex (idx : Nat) (mirror : Bool) (src : RebuildSource) (x : Index) (c : Copy) (s : State) : Option State :=
  (placeItems idx x mirror src.items c s).map fun r =>
    putCopy r.2 idx mirror { r.1 with
      pLast := max r.1.pLast src.pLast, nextSeq := max r.1.nextSeq src.nextSeq, snapshots := src.snaps, live := true }

/-- The target copy of a table takes its source's rows and is live. -/
def fillTable (h : Nat) (mirror : Bool) (src : RebuildSource) (t : Table) (s : State) : State :=
  let written := src.rows.foldl (fun u p => match t.version p.1 with
    | some x => storeMa u (rowMa u t x mirror (rowNumber p.2)) p.2
    | none => u) s
  let counted := src.counts.foldl (fun u p => modVersion u h p.1 fun x =>
    if mirror then { x with uMirror := p.2 } else { x with uPrimary := p.2 }) written
  match getTable counted h with
  | some w => putTable counted h (if mirror then { w with liveM := true } else { w with liveP := true })
  | none => counted

/-- A target copy that no source can serve: the shard is LOST (R504). -/
def shardLost (s : State) (gid shard : Nat) : State :=
  match findGroup s gid with
  | some g => emitDev s 0x0807 gid shard g.mem.epoch
  | none => s

/-- What a rebuild works on: group, shard, its REBUILD activity's scope; none where there is no copy to rebuild. -/
def rebuildScope (s : State) (obj : Nat) (table mirror : Bool) : Option (Nat × Nat × Activity) :=
  if table then
    (getTable s obj).bind fun t => if t.liveAt mirror ∨ t.shardAt mirror = 0xFFFF then none
      else some (t.gid, t.shardAt mirror, newActivity s 4 false 4 2 (t.shardAt mirror) t.key none)
  else
    (getIndex s obj).bind fun x => (x.role mirror).bind fun c => if c.live then none
      else some (x.gid, c.shard, newActivity s 4 false 4 1 c.shard x.key none)

/-- Take what a source gives; a copy that does not fit stays as it is. -/
def takeSource (obj : Nat) (table mirror : Bool) (src : RebuildSource) (gid shard : Nat) (s : State) : State :=
  if src.kind = 0 then shardLost s gid shard
  else if table then
    match getTable s obj with
    | some t => fillTable obj mirror src t s
    | none => s
  else
    match (getIndex s obj).bind fun x => (x.role mirror).map fun c => (x, c) with
    | some (x, c) => (fillIndex obj mirror src x c s).getD s
    | none => s

/-- A rebuild runs as a REBUILD activity: it is requested of the lehr scheduler where none runs (R504, R509)
(DESIGN CHOICE, assumption 131). -/
def rebuildCopy (obj : Nat) (table mirror : Bool) (src : RebuildSource) (s : State) : State :=
  match rebuildScope s obj table mirror with
  | none => s
  | some (gid, shard, a) =>
    match s.rack.running.find? fun b => b.code == 4 && sameScope a b with
    | some b =>
      let t := takeSource obj table mirror src gid shard s
      if b.command then t else dropActivity t b.ident
    | none => if s.rack.queued.any fun b => b.code == 4 && sameScope a b then s else submit s a

/-- REBUILD (R504). -/
def execRebuild (obj : Nat) (table mirror : Bool) (source : RebuildSource) (s : State) : Host.Outcome State Fault Refusal :=
  .next (when (firmwareRuns s) (rebuildCopy obj table mirror source) s)

end Sys2Proof.Machine
end

