-- ==== Sys2Proof/Machine/Marver.lean ====
section
/-!
DEFINITION. Marver units, second part (03): attention partials, pooling, row updates, appends, marks and copies, the patrol scrub,
the die bus, host slots, refresh, and the rewrite of poisoned granules.
-/

namespace Sys2Proof.Machine

/-! ## Attention partials (R45, R247) -/

/-- Head dimension, tokens bound, block index and softmax scale of an attention command. -/
def attnDim (c : MarverCtx) : Nat := c.cmd.nums.getD 0 64
def attnBound (c : MarverCtx) : Nat := c.cmd.nums.getD 1 0
def attnBlock (c : MarverCtx) : Nat := c.cmd.nums.getD 2 0
def attnScale (c : MarverCtx) : Nat := c.cmd.nums.getD 3 0

/-- Tokens of a step: d/16 cycles each (R68). -/
def attnTokens (c : MarverCtx) : Nat := max 1 (32 / max 1 (attnDim c / 16))

/-- Address of the KV record. -/
def attnMa (c : MarverCtx) : Nat := c.cmd.places.headD 0

/-- The command fails: what it read is lost (R86). -/
def failCtx (c : MarverCtx) : MarverCtx := { c with failed := true, finished := true, out := [] }

/-- One ATTN_KEY step: the scores of the next tokens of the row, masked ones minus infinity (R45, R239). -/
def keyStep (_ : Nat) (c : MarverCtx) (s : State) : MarverCtx × State :=
  let d := attnDim c
  let n := min (attnTokens c) (64 - c.pos)
  if spanBad s (attnMa c + c.pos * d) (n * d) then (failCtx c, s)
  else
    let q := mxRow (c.cmd.rows.getD c.row [])
    let new : List Coded := (List.range n).map fun i =>
      let t := c.pos + i
      if 64 * attnBlock c + t < attnBound c then
        (blockDot q.1 (e4m3Vals (readMa s (attnMa c + t * d) d))).readScaled .fp32 (f32 (attnScale c))
      else (NEG_INF32, 0)
    let e := { c with pos := c.pos + n, scores := c.scores ++ new.map Prod.fst,
                      arith := (if c.pos = 0 then c.arith ||| q.2 else c.arith) ||| codedStatus new }
    (if e.pos = 64 then { e with pos := 0, values := true, accs := List.replicate (d + 1) LAcc.zero } else e, s)

/-- The partial of a row, read out: m, l, o and their arith_status (R45). -/
def rowPartial (c : MarverCtx) : List Byte × Nat :=
  let m := max32 c.scores
  let cs := c.accs.map (LAcc.read .fp32)
  let masked := c.scores.all (· == NEG_INF32)
  if masked then (leBytes 4 NEG_INF32 ++ zeros (4 * (attnDim c + 1)), 0)
  else (leBytes 4 m ++ cs.flatMap (fun x => leBytes 4 x.1), codedStatus cs ||| if isNaN32 m then ARITH_NAN else 0)

/-- One ATTN_VALUE step: the weights of the next tokens enter l, their products with the values the d accumulators; the row's
partial is read out after the last (R45). -/
def valueStep (_ : Nat) (c : MarverCtx) (s : State) : MarverCtx × State :=
  let d := attnDim c
  let n := min (attnTokens c) (64 - c.pos)
  let base := attnMa c + 64 * d
  if spanBad s (base + c.pos * d) (n * d) then (failCtx c, s)
  else
    let m := max32 c.scores
    let ps : List (Nat × Nat) := (List.range n).map fun i =>
      let x := round32 ((f32 (c.scores.getD (c.pos + i) NEG_INF32)).sub (f32 m))
      let p := exp32 x.1
      (p.1, x.2 ||| p.2)
    let rows := (List.range n).map fun i => e4m3Vals (readMa s (base + (c.pos + i) * d) d)
    let accs := c.accs.zipIdx.map fun a =>
      (List.range n).foldl (fun (x : LAcc) i =>
        let p := f32 (ps.getD i (0, 0)).1
        x.push (if a.2 = 0 then p else p.mul ((rows.getD i []).getD (a.2 - 1) Val.zero))) a.1
    let all := c.scores.all (· == NEG_INF32)
    let e : MarverCtx := { c with pos := c.pos + n, accs := accs, arith := if all then c.arith else c.arith ||| codedStatus ps }
    if e.pos < 64 then (e, s)
    else
      let r := rowPartial e
      let f : MarverCtx :=
        { e with pos := 0, values := false, scores := [], accs := [], row := e.row + 1, out := e.out ++ r.1, arith := e.arith ||| r.2 }
      (if f.cmd.rows.length ≤ f.row then { f with out := f.out ++ leBytes 4 f.arith, finished := true } else f, s)

/-- ATTN_KEY (R68, R247). -/
def execAttnKey (unit : Nat) (errs : List MemErr) (s : State) : Host.Outcome State Fault Refusal :=
  marverRow "ATTN_KEY" .attnKey keyStep unit errs s

/-- ATTN_VALUE (R68, R247). -/
def execAttnValue (unit : Nat) (errs : List MemErr) (s : State) : Host.Outcome State Fault Refusal :=
  marverRow "ATTN_VALUE" .attnValue valueStep unit errs s

/-! ## Pooling (R49, R269) -/

/-- Count `n` more in a counter of a context. -/
def countCtx (c : MarverCtx) (i n : Nat) : MarverCtx := { c with counts := modAt c.counts i fun x => satAdd 32 x n }

/-- Add a slice of a row, for `r` occurrences, into the accumulators of its elements (R49). -/
def poolSlice (t : Table) (rec_ : List Byte) (r lo n : Nat) (accs : List LAcc) : List LAcc :=
  accs.zipIdx.map fun a =>
    if lo ≤ a.2 ∧ a.2 < lo + n then
      (rowAddends (t.code rec_ a.2) r Val.one (rowScale rec_) (rowOffset rec_)).foldl LAcc.push a.1
    else a.1

/-- Slices of up to 256 elements until the step is full, header reads counted; a poisoned row fails the command. -/
def poolGo (s : State) (t : Table) : Nat → Nat → MarverCtx → MarverCtx
  | 0, _, c => c
  | n + 1, used, c =>
    match c.cmd.places[c.place]? with
    | none => { c with finished := true, out := c.accs.flatMap LAcc.toBytes ++ leBytes 4 (c.counts.getD 0 0) }
    | some ma =>
      let r := c.cmd.nums.getD c.place 1
      let next := fun (d : MarverCtx) => { d with place := d.place + 1, pos := 0, opened := false }
      if c.opened = false then
        if 32 < used + 1 then c
        else if spanBad s ma t.rowLen then failCtx c
        else if rowPresent (readMa s ma 32) then poolGo s t n (used + 1) { c with opened := true, pos := 0 }
        else poolGo s t n (used + 1) (next (countCtx c 0 r))
      else
        let len := min 256 (t.dim - c.pos)
        if 32 < used + cdiv len 32 then c
        else
          let d := { c with pos := c.pos + len, accs := poolSlice t (readMa s ma t.rowLen) r c.pos len c.accs }
          poolGo s t n (used + cdiv len 32) (if t.dim ≤ d.pos then next d else d)

/-- One POOL step. -/
def poolStep (_ : Nat) (c : MarverCtx) (s : State) : MarverCtx × State :=
  match getTable s c.cmd.obj with
  | some t => (poolGo s t 64 0 (if c.accs.isEmpty then { c with accs := List.replicate t.dim LAcc.zero } else c), s)
  | none => (failCtx c, s)

/-- POOL (R68). -/
def execMarverPool (unit : Nat) (errs : List MemErr) (s : State) : Host.Outcome State Fault Refusal :=
  marverRow "POOL" .pool poolStep unit errs s

/-! ## Row updates (R275) -/

/-- The end of a row update: rows missing, updated and rejected, and arith_status. -/
def endUpdate (c : MarverCtx) : MarverCtx :=
  { c with finished := true, out := c.counts.flatMap (leBytes 4) ++ leBytes 4 c.arith }

/-- Write back up to 16 granules of the new record. -/
def writeBack (ma : Nat) (c : MarverCtx) (s : State) : MarverCtx × State :=
  let n := min 512 (c.buf.length - 32 * c.pos)
  let d := { c with pos := c.pos + 16 }
  (if c.buf.length ≤ 32 * d.pos then endUpdate d else d, storeMa s (ma + 32 * c.pos) (slice c.buf (32 * c.pos) n))

/-- One GRAD_RMW step: the row is read and updated with the first, and up to 16 granules are written back in each
(DEDUCED, assumption 135). -/
def gradStep (_ : Nat) (c : MarverCtx) (s : State) : MarverCtx × State :=
  match getTable s c.cmd.obj, c.cmd.places.head? with
  | some t, some ma =>
    if !c.buf.isEmpty then writeBack ma c s
    else if spanBad s ma t.rowLen then (failCtx c, s)
    else
      let r := readMa s ma t.rowLen
      if !rowPresent r then (endUpdate (countCtx c 0 1), s)
      else
        let u := updateRow t r (c.cmd.nums.getD 0 0) (c.cmd.rows.headD [])
        match u.1 with
        | some new => writeBack ma (countCtx { c with buf := new, arith := u.2 } 1 1) s
        | none => (endUpdate (countCtx { c with arith := u.2 } 2 1), s)
  | _, _ => (failCtx c, s)

/-- GRAD_RMW (R68, R275). -/
def execGradRmw (unit : Nat) (errs : List MemErr) (s : State) : Host.Outcome State Fault Refusal :=
  marverRow "GRAD_RMW" .gradRmw gradStep unit errs s

/-! ## APPEND, MARK, COPY (R81, R82, R147, R148, R181) -/

/-- Whether a write of `n` bytes would meet a poisoned granule that it covers only in part (R86). -/
def partPoisoned (s : State) (ma n : Nat) : Bool :=
  (granulesOf ma n).any fun g => granuleBad s g && !(decide (ma ≤ 32 * g) && decide (32 * g + 32 ≤ ma + n))

/-- The spans that an append of an item writes. -/
def itemSpans (x : Index) (ma i : Nat) : List (Nat × Nat) :=
  [(ma + 256 + i * x.partA, x.partA), (ma + 256 + x.chunkSlots * 64 + i * x.partB, x.partB), (ma + x.ordOff + 8 * i, 8),
   (ma + x.idOff + 8 * i, 8), (ma + x.visOff + 16 * i, 16), (ma, 20)]

/-- Append the item of the buffer to a chunk or bucket: ordinal (or value), ID (or key), insert and delete epochs, attribute record,
codes. A poisoned granule beside it, or no room, fails it with nothing written. -/
def appendEntryStep (ma : Nat) (x : Index) (c : MarverCtx) (s : State) : MarverCtx × State :=
  let b := c.cmd.data
  if x.kind = 3 then
    if granuleBad s (ma / 32) || decide (64 ≤ fld (readMa s ma 32) 24 1) then (failCtx c, s)
    else ({ c with finished := true }, appendEntry s ma (fld b 8 8) (fld b 0 8) (fld b 16 8) (fld b 24 8))
  else
    let i := chunkFill s ma
    if granuleBad s (ma / 32) || decide (x.chunkSlots ≤ i) || (itemSpans x ma i).any (fun p => partPoisoned s p.1 p.2) then
      (failCtx c, s)
    else
      let it : Item := { ma := ma, slot := i, ins := fld b 16 8, del := fld b 24 8, ord := fld b 0 8, ident := fld b 8 8,
                         attrs := slice b 32 32, codes := b.drop 64 }
      ({ c with finished := true }, writeSlot s x ma i it)

/-- One APPEND step: an item into its chunk, or up to 32 granules of the append buffer in order, the last of them last (R82). -/
def appendStep (_ : Nat) (c : MarverCtx) (s : State) : MarverCtx × State :=
  match c.cmd.places.head? with
  | none => (failCtx c, s)
  | some ma =>
    if c.cmd.nums.headD 0 = 1 then
      match getIndex s c.cmd.obj with
      | some x => appendEntryStep ma x c s
      | none => (failCtx c, s)
    else
      let n := min 1024 (c.cmd.data.length - 32 * c.pos)
      let d := { c with pos := c.pos + 32 }
      let whole := decide (ma % 32 = 0) && decide (c.cmd.data.length % 32 = 0)
      if whole then
        ({ d with finished := decide (c.cmd.data.length ≤ 32 * d.pos) }, storeMa s (ma + 32 * c.pos) (slice c.cmd.data (32 * c.pos) n))
      else (failCtx c, s)

/-- APPEND (R68, R147). -/
def execMarverAppend (unit : Nat) (errs : List MemErr) (s : State) : Host.Outcome State Fault Refusal :=
  marverRow "APPEND" .append appendStep unit errs s

/-- MARK of one slot, or one entry of a bucket; a poisoned granule keeps it from being made (R81, R86, R148). -/
def markOne (x : Index) (epoch ma i : Nat) (c : MarverCtx) (s : State) : MarverCtx × State :=
  let at_ := if x.kind = 3 then ma + 256 + 32 * i else ma + x.visOff + 16 * i
  if granuleBad s (at_ / 32) || granuleBad s (ma / 32) then ({ c with failed := true }, s)
  else (c, if x.kind = 3 then markEntry s ma i epoch else markSlot s x ma i epoch)

/-- Marks until 16 granules have been read and written: two for each. -/
def markGo (x : Index) : Nat → MarverCtx → State → MarverCtx × State
  | 0, c, s => (c, s)
  | n + 1, c, s =>
    match c.cmd.places[c.place]? with
    | none => (c, s)
    | some ma =>
      let r := markOne x c.cmd.epoch ma (c.cmd.nums.getD c.place 0) c s
      markGo x n { r.1 with place := c.place + 1 } r.2

/-- One MARK step. -/
def markStep (_ : Nat) (c : MarverCtx) (s : State) : MarverCtx × State :=
  match getIndex s c.cmd.obj with
  | some x =>
    let r := markGo x 8 c s
    ({ r.1 with finished := decide (c.cmd.places.length ≤ r.1.place) }, r.2)
  | none => (failCtx c, s)

/-- MARK (R68, R148). -/
def execMarverMark (unit : Nat) (errs : List MemErr) (s : State) : Host.Outcome State Fault Refusal :=
  marverRow "MARK" .mark markStep unit errs s

/-- Copy `n` granules; a poisoned one stays poisoned at its destination, so that its bits never pass for data (R86, R90)
(DEDUCED, assumption 136). -/
def copyGranules (src dst n : Nat) (s : State) : State :=
  let t := storeMa s dst (readMa s src (32 * n))
  let bad := ((List.range n).filter fun i => granuleBad s ((src + 32 * i) / 32)).map fun i => dpaOf s (dst + 32 * i) / 32
  { t with mem := bad.foldl setPoison t.mem }

/-- The next burst of a copy of at most `k` granules. -/
def copyBurst (k : Nat) (c : MarverCtx) (s : State) : MarverCtx × State :=
  let n := min k (c.cmd.nums.headD 0 - c.pos)
  let d := { c with pos := c.pos + n }
  ({ d with finished := decide (c.cmd.nums.headD 0 ≤ d.pos) },
   copyGranules (c.cmd.places.headD 0 + 32 * c.pos) (c.cmd.dst + 32 * c.pos) n s)

/-- COPY (R68). -/
def execMarverCopy (unit : Nat) (errs : List MemErr) (s : State) : Host.Outcome State Fault Refusal :=
  marverRow "COPY" .copy (fun _ => copyBurst 16) unit errs s

/-! ## The die bus (R89, R90, R493) -/

/-- Regions on a bank. -/
def runsOnBank (s : State) (idx : Nat) : List OwnRun :=
  s.guard.owners.filter fun r => decide (windowPages s ≤ r.base) && bankIndex (maOfPage s r.base) == idx

/-- The REBUILD activity that empties a bank (R493). -/
def bankRebuild (s : State) (idx : Nat) : Option Activity :=
  s.rack.running.find? fun a => a.code == 4 && a.scopeKind == 1 && a.object == idx + 1

/-- A region of a retired bank whose bytes have crossed the bus moves: its locators switch, and the activity ends with the bank's
last region (R493, R539) (DEDUCED, assumption 140). -/
def bankMove (page unit : Nat) (s : State) : State :=
  let idx := bankIndex (maOfPage s page)
  match bankRebuild s idx with
  | none => s
  | some a =>
    let t := moveRegion page (fun u => u / 64 == unit / 64 && u != unit) s
    if (runsOnBank t idx).isEmpty then dropActivity t a.ident else t

/-- One granted burst of a context: 8 granules. The region of a retired bank (second number 1) is in its new place with the last. -/
def busStep (u : Nat) (c : MarverCtx) (s : State) : MarverCtx × State :=
  if c.cmd.nums.getD 1 0 = 1 then
    let d := { c with pos := c.pos + 8, finished := decide (c.cmd.nums.headD 0 ≤ c.pos + 8) }
    (d, if d.finished then bankMove c.cmd.obj u s else s)
  else copyBurst 8 c s

/-- The context of a unit that waits for the die bus. -/
def busCtx (x : MarverUnit) : Option (Nat × MarverCtx) :=
  (roundRobin 4 x.ptr fun i => match x.ctxs.getD i none with
    | some c => decide (nextOp c = .diebusXfer)
    | none => false).bind fun i => (x.ctxs.getD i none).map fun c => (i, c)

/-- Grant the die bus of a die, by stack × 16 + die: round-robin over the base die and groups 0 to 63; a group's grant is one step of
its unit, the base die's carries microcode, calibration or status (R89, R90). -/
def grantDieBus (die : Nat) (base : Bool) (errs : List MemErr) (s : State) : State :=
  let unit := fun (g : Nat) => die * 64 + g
  let want := fun (i : Nat) => if i = 0 then base else (busCtx (getUnit s (unit (i - 1)))).isSome
  match roundRobin 65 (Tab.get 0 s.marver.dieBus die) want with
  | none => s
  | some i =>
    let t := { s with marver := { s.marver with dieBus := Tab.insert s.marver.dieBus die ((i + 1) % 65) } }
    if i = 0 then t
    else match busCtx (getUnit t (unit (i - 1))) with
      | some (k, c) =>
        let r := busStep (unit (i - 1)) c (meetErrs t (unit (i - 1)) errs)
        endStep (unit (i - 1)) k r.1 r.2
      | none => t

/-- DIEBUS_XFER (R89). -/
def execDiebusXfer (die : Nat) (base : Bool) (errs : List MemErr) (s : State) : Host.Outcome State Fault Refusal :=
  guarded "DIEBUS_XFER" (unitThere s (die * 64)) (when (inRun s) (grantDieBus die base errs) s)

/-! ## Patrol scrub (R88) -/

/-- Granules of a unit's four banks: 4 × 18 MiB (R55). -/
def unitGranules : Nat := 4 * 589824

/-- MA of a granule of a unit by its place in bank-offset order. -/
def patrolMa (u n : Nat) : Nat := mkMa (u / 1024) (u / 64 % 16) (4 * (u % 64) + n / 589824) (32 * (n % 589824))

/-- The SCRUB activity of a stack. -/
def stackScrub (stk : Nat) (a : Activity) : Bool := a.code == 1 && a.scopeKind == 1 && a.unit == stk

/-- Where a unit's patrol stands: a new pass begins with a new period (R88) (DEDUCED, assumption 139). -/
def patrolAt (s : State) (u : Nat) : MarverUnit :=
  let x := getUnit s u
  if unitGranules ≤ x.patrol ∧ elapsed s x.patrolAt (s.boot.settings.scrubPeriodH * 3600000000000) then
    { x with patrol := 0, patrolAt := ns s }
  else x

/-- A SCRUB step reads the next 32 granules; the errors it meets among them are corrected or poisoned (R84, R85, R88). As the
stack's last unit ends its pass, an activity of the device's own ends. -/
def scrubStep (u : Nat) (errs : List MemErr) (a : Activity) (s : State) : State :=
  let x := patrolAt s u
  if unitGranules ≤ x.patrol then s
  else
    let lo := patrolMa u x.patrol
    let mine := errs.filter fun e => decide (lo ≤ dpaToMa s.mem.layout.stackMap (e.granule * 32)) &&
      decide (dpaToMa s.mem.layout.stackMap (e.granule * 32) < lo + 1024)
    let t := meetErrs (putUnit s u { x with patrol := x.patrol + 32, portPtr := 0, portLast := true }) u mine
    if !a.command && (List.range 1024).all fun i => decide (unitGranules ≤ (getUnit t (u / 1024 * 1024 + i)).patrol) then
      dropActivity t a.ident
    else t

/-- SCRUB (R88): requested of the lehr scheduler for the stack; while it runs, one step. -/
def execMarverScrub (unit : Nat) (errs : List MemErr) (s : State) : Host.Outcome State Fault Refusal :=
  guarded "SCRUB" (unitThere s unit) (when (inRun s) (fun t =>
    match t.rack.running.find? (stackScrub (unit / 1024)) with
    | some a => scrubStep unit errs a t
    | none =>
      if (t.rack.running ++ t.rack.queued).any (stackScrub (unit / 1024)) || decide (unitGranules ≤ (patrolAt t unit).patrol) then t
      else submit t (newActivity t 1 false 1 0 (unit / 1024) 0 none)) s)

/-! ## Host slots and refresh (R77 to R81, R606) -/

/-- Whether the accesses of a slot are at most 8 granules of one line of one bank of the group (R78). -/
def slotOk (s : State) (u : Nat) (a : HostAccess) : Bool :=
  let gs := distinct (a.reads ++ a.writes.flatMap fun w => granulesOf w.1 w.2.length)
  decide (gs.length ≤ 8) && (a.writes.all fun w => decide (0 < w.2.length)) &&
    (match gs with
     | [] => false
     | g :: t => (t.all fun h => h / 8 == g / 8) && dpaValid s (g * 32) && unitOfMa (dpaToMa s.mem.layout.stackMap (g * 32)) == u) &&
    a.errs.all fun e => gs.contains e.granule

/-- Whether a write covers a poisoned granule only in part: then none of its granules is written (R81, R86). -/
def writeBlocked (m : Mem) (w : Nat × List Byte) : Bool :=
  (granulesOf w.1 w.2.length).any fun g =>
    m.poison.contains g && !(decide (w.1 ≤ 32 * g) && decide (32 * g + 32 ≤ w.1 + w.2.length))

/-- A host slot: the errors its reads meet, then its writes, each a read-modify-write of whole granules (R80, R81, R84 to R86)
(DEDUCED, assumption 132). -/
def hostSlot (u : Nat) (a : HostAccess) (s : State) : State :=
  let t := a.errs.foldl meetError s
  let t := { t with mem := a.writes.foldl (fun m w => if writeBlocked m w then m else store m w.1 w.2) t.mem }
  putUnit t u { getUnit t u with portPtr := 1, portLast := false }

/-- HOST_SLOT (R78). -/
def execHostSlot (unit : Nat) (a : HostAccess) (s : State) : Host.Outcome State Fault Refusal :=
  guarded "HOST_SLOT" (unitThere s unit) (when (inRun s && slotOk s unit a) (hostSlot unit a) s)

/-- Interval between refreshes of a bank: 3.9 µs, or 1.95 µs while its stack's hottest die is above 85 °C (R79, R606). -/
def refreshInterval (s : State) (bank : Nat) : Nat := if 85 < s.therm.stackTemps.getD (bank / 4096) 0 then 1950 else 3900

/-- Whether a bank's next refresh is due: the first at once (DESIGN CHOICE, assumption 87). -/
def refreshDue (s : State) (bank : Nat) : Bool :=
  !(s.marver.refreshed.any (·.1 == bank)) || elapsed s (Tab.get 0 s.marver.refreshed bank) (refreshInterval s bank)

/-- BANK_REFRESH (R79, R606): the bank, by stack × 4,096 + die × 256 + bank, is refreshed; its data stay. -/
def execBankRefresh (bank : Nat) (s : State) : Host.Outcome State Fault Refusal :=
  guarded "BANK_REFRESH" (unitThere s (bank / 4096 * 1024)) (when (inRun s && refreshDue s bank) (fun t =>
    { t with marver := { t.marver with refreshed := Tab.insert t.marver.refreshed bank (ns t) } }) s)

/-! ## Rewriting a poisoned granule (R87) -/

/-- The rewrite's REBUILD activity: the scope is the granule. -/
def granuleRebuild (s : State) (g : Nat) : Activity := newActivity s 4 false 4 0 0 g none

/-- The rewrite is requested of the lehr scheduler; while it runs, the granule takes the bytes of the mirror copy or the stripes, and
the activity ends (DESIGN CHOICE, assumption 141). -/
def poisonRewrite (g : Nat) (data : List Byte) (s : State) : State :=
  let a := granuleRebuild s g
  match s.rack.running.find? fun b => b.code == 4 && sameScope a b with
  | some b => dropActivity { s with mem := store s.mem (32 * g) data } b.ident
  | none => if s.rack.queued.any fun b => b.code == 4 && sameScope a b then s else submit s a

/-- Whether a page holds an index, a session or a table: a marver region of a workspace or an object structure. -/
def objectPage (s : State) (dpa : Nat) : Bool :=
  match ownerOf s (pageOfDpa s dpa) with
  | some r => r.kind == 1 || r.kind == 2
  | none => false

/-- POISON_REWRITE (R87): a whole-granule write of 32 bytes to a poisoned granule of an object. -/
def execPoisonRewrite (dpa : Nat) (data : List Byte) (s : State) : Host.Outcome State Fault Refusal :=
  .next (when (firmwareRuns s && decide (dpa % 32 = 0) && decide (data.length = 32) && s.mem.poison.contains (dpa / 32) &&
    objectPage s dpa) (poisonRewrite (dpa / 32) data) s)

end Sys2Proof.Machine
end

