-- ==== Sys2Proof/Machine/Recorder.lean ====
section
/-!
DEFINITION. The event recorder's rows (20): intake, latches, summaries, the archive, and the EVR commands.
-/

namespace Sys2Proof.Machine

/-! ## Intake -/

/-- The source kinds other than PONTIL in value order: the requesters of the intake arbiter (R519). -/
def intakeKinds : List Nat := [0, 1, 3, 4, 5, 6, 7, 8, 9, 10, 11, 12, 13, 14]

/-- Among events of one kind, the first raised, and at one time the lowest instance (R519). -/
def firstOfKind (l : List Event) (kind : Nat) : Option Event :=
  match l.filter (·.srcKind == kind) with
  | [] => none
  | e :: t => some (t.foldl (fun b x => if x.time = e.time ∧ x.inst < b.inst then x else b) e)

/-- Which kind the intake takes: PONTIL first, else the first waiting at or after the pointer (R519). -/
def intakeChoice (r : Recorder) : Option (Event × Nat) :=
  match firstOfKind r.intake 2 with
  | some e => some (e, r.ptr)
  | none =>
    match roundRobin 14 r.ptr fun i => (firstOfKind r.intake (intakeKinds.getD i 0)).isSome with
    | some i => (firstOfKind r.intake (intakeKinds.getD i 0)).map fun e => (e, (i + 1) % 14)
    | none => none

/-- The recorder takes one event. -/
def intakeOne (s : State) : State :=
  match intakeChoice s.evr with
  | some (e, ptr) =>
    recordEvent { s with evr := { s.evr with intake := s.evr.intake.erase e, ptr := ptr } } e
  | none => s

/-- EVENT_INTAKE (R519). -/
def execEventIntake (s : State) : Host.Outcome State Fault Refusal :=
  .next (when (!s.evr.intake.isEmpty) intakeOne s)

/-- A freed slot takes the oldest latched event with its repeats (R522). -/
def writeLatch (s : State) : State :=
  match s.evr.latches with
  | l :: t => writeRecord { s with evr := { s.evr with latches := t } } l.ev l.rep
  | [] => s

/-- ALARM_LATCH_WRITE (R522). -/
def execAlarmLatchWrite (s : State) : Host.Outcome State Fault Refusal :=
  .next (when (!s.evr.latches.isEmpty && decide (unarchived s.evr < 65536)) writeLatch s)

/-! ## Summaries -/

/-- A recorder event of its own. -/
def ownEvent (s : State) (code p0 p1 p2 p3 p4 : Nat) : Event :=
  ⟨code, 13, 0, net s, decide (s.clk.state = 0), p0, p1, p2, p3, p4⟩

/-- A code's summary instant (R524): its counts are written where the record fits; a code with no fold since the
last instant and no count leaves the table. -/
def summarise (s : State) (f : Fold) : State :=
  let others := fun g => { s with evr := { s.evr with folds := (s.evr.folds.filter (·.code != f.code)) ++ g } }
  if 0 < f.count then
    let next := { f with nextAt := f.nextAt + 1000000000, fresh := false }
    if unarchived s.evr < 64512 then
      writeRecord (others [{ next with count := 0 }])
        (ownEvent s 0x0A01 f.code (min f.count 0xFFFFFFFF) f.first f.last f.source) 0
    else others [next]
  else if f.fresh then others [{ f with nextAt := f.nextAt + 1000000000, fresh := false }]
  else others []

/-- The fold entry whose summary instant has come. -/
def dueFold (s : State) (code : Nat) : Option Fold :=
  s.evr.folds.find? fun f => f.code == code && decide (f.nextAt ≤ ns s)

def summariseCode (code : Nat) (s : State) : State :=
  match dueFold s code with
  | some f => summarise s f
  | none => s

/-- LOG_SUMMARY (R524). -/
def execLogSummary (code : Nat) (s : State) : Host.Outcome State Fault Refusal :=
  .next (when (dueFold s code).isSome (summariseCode code) s)

/-- A drop-summary second ends (R525): with drops in it, EV_DROP_SUMMARY and another second; without, none. -/
def dropSummary (s : State) : State :=
  let e := s.evr
  if e.dTrace + e.dFold + e.dExcl = 0 then
    { s with evr := { e with dropAt := none, dAlarm := 0 } }
  else
    recordEvent { s with evr := { e with dTrace := 0, dFold := 0, dExcl := 0, dAlarm := 0, dropAt := some (ns s) } }
      (ownEvent s 0x0A02 e.dTrace e.dFold e.dExcl e.dAlarm 0)

def dropDue (s : State) : Bool :=
  match s.evr.dropAt with | some t => elapsed s t 1000000000 | none => false

/-- DROP_SUMMARY (R525). -/
def execDropSummary (s : State) : Host.Outcome State Fault Refusal := .next (when (dropDue s) dropSummary s)

/-! ## The archive -/

/-- Exclude LOG and TRACE records that wait while only ALARM records are archived (R527). -/
def excludeWaiting (s : State) : State :=
  let out := fun r : Rec => r.archived.isNone && !r.excluded && r.cls != 2
  let n := (s.evr.recs.filter out).length
  { s with evr := { s.evr with
      recs := s.evr.recs.map fun r => if out r then { r with excluded := true } else r
      excludedCount := satAdd 32 s.evr.excludedCount n
      dExcl := s.evr.dExcl + n
      dropAt := if 0 < n && s.evr.dropAt.isNone then some (ns s) else s.evr.dropAt } }

/-- Archive up to `n` records in record-number order (R526). -/
def archiveRecs (e : Recorder) : Nat → List Rec → Recorder
  | 0, _ => e
  | _, [] => e
  | n + 1, r :: t =>
    if r.archived.isNone && !r.excluded then
      archiveRecs { e with
        recs := e.recs.map fun q => if q.number = r.number then { q with archived := some e.archNext } else q
        archive := e.archive ++ [(e.archNext, recordBytes r)]
        archNext := e.archNext + 1
        archOldest := max e.archOldest (e.archNext + 1 - 2 ^ 24) } n t
    else archiveRecs e (n + 1) t

/-- The archiver writes one map unit, whole or partial, and drops what the circle overwrites (R526). -/
def archiveUnit (s : State) : State :=
  let t := if archiveState s = 2 then excludeWaiting s else s
  let e := archiveRecs { t.evr with lastArchive := ns s } 1024 t.evr.recs
  { t with evr := { e with archive := e.archive.filter fun p => decide (e.archOldest ≤ p.1) } }

/-- ARCHIVE_WRITE (R526): there are records to archive and a group that takes them. -/
def execArchiveWrite (s : State) : Host.Outcome State Fault Refusal :=
  .next (when (decide (0 < unarchived s.evr) && (archiveState s == 1 || archiveState s == 2)) archiveUnit s)

/-! ## Commands -/

/-- Table: EVR_INFO result (R529). -/
def evrInfo (s : State) : List Byte :=
  let e := s.evr
  leBytes 8 (evwNewest e) ++ leBytes 8 (evwOldest e) ++ leBytes 8 e.archNext ++ leBytes 8 e.archOldest ++
  leBytes 8 e.clearNonce ++ leBytes 4 (unarchived e) ++ leBytes 4 e.traceDropped ++ leBytes 4 e.logFolded ++
  leBytes 4 e.excludedCount ++ leBytes 4 e.alarmRepeats ++ leBytes 1 (archiveState s) ++ leBytes 1 e.fwdClasses ++
  leBytes 2 e.traceMask ++ leBytes 4 e.logRate ++ leBytes 2 e.logBurst ++ zeros 2 ++ leBytes 8 e.fwdCount ++ zeros 16

/-- EVR_INFO (R529). -/
def execEvrInfo (m : MsgSrc) (s : State) : Host.Outcome State Fault Refusal :=
  serve ⟨0xA01, .any, true, false, some 0⟩ m (fun _ t => (.reply stOk (evrInfo t), t)) s

/-- The position up to which a clear in progress has begun to clear (R530). -/
def pendingClear (s : State) : Option Nat :=
  (s.fns.flatMap fun p => p.2.tickets.filterMap fun t =>
    if t.2.opcode = 0xA03 ∧ !t.2.done then t.2.work.args.head? else none).head?

/-- The archived record at a position, where it is readable. -/
def archivedAt (s : State) (p : Nat) : Option (List Byte) :=
  let cleared := match pendingClear s with | some u => decide (p ≤ u) | none => false
  if s.evr.archOldest ≤ p ∧ !cleared then
    (s.evr.archive.find? (·.1 == p)).bind fun r => if (r.2.getD 63 0) = 0xA5 then some r.2 else none
  else none

/-- EVR_ARCHIVE_READ: `count` records from a position, 64 zero bytes for one that is not readable (R529). -/
def archiveRead (c : Ctx) (s : State) : Answer × State :=
  let pos := fld c.data 0 8
  let count := fld c.data 8 4
  let dst := fld c.data 16 8
  let recs := (List.range count).map fun i => archivedAt s (pos + i)
  let t := writeBuf s c.owner c.ws dst (recs.flatMap (·.getD (zeros 64))) s.fab.nextTxn
  checked [(zeroAt c.data 12 4 && zeroAt c.data 24 8, stBadParam),
      (decide (1 ≤ count) && decide (count ≤ 65536), stBadParam),
      (bufOk s c.ws dst (64 * count) && (c.owner != 256 || addrSpace dst == 0), stBadParam)]
    (.issue stPending (doneWork c [] stOk (leBytes 4 (recs.filter Option.isSome).length ++ zeros 4)), t) s

/-- EVR_ARCHIVE_READ (R529). -/
def execEvrArchiveRead (m : MsgSrc) (s : State) : Host.Outcome State Fault Refusal :=
  serve ⟨0xA02, .ws0, true, true, some 32⟩ m archiveRead s

/-- The number of the first check of R530 that a clear token fails, 0 for none (DEDUCED, assumption 86). -/
def tokenCheck (s : State) (d : List Byte) : Nat :=
  let key := slice d 32 97
  let slots := s.fuse.ownerDigests.zip s.fuse.ownerRevoked
  if fld d 0 8 ≠ s.fuse.serial then 1
  else if fld d 8 8 ≠ s.evr.clearNonce then 2
  else if ¬ fld d 16 8 < s.evr.archNext then 3
  else if !(slots.any fun p => !p.2 && p.1 == Config.sha384 key) then 4
  else if !Config.ecdsaVerify key (Config.sha384 (slice d 0 160)) (slice d 160 96) then 5
  else 0

/-- EVR_CLEAR (R530): a token that fails is refused and recorded; a verified one writes EV_CLEAR and goes on once
that record is archived. -/
def evrClear (c : Ctx) (s : State) : Answer × State :=
  let n := tokenCheck s c.data
  let upto := fld c.data 16 8
  let count := ((s.evr.archive.filter fun p => decide (p.1 ≤ upto) && p.2.getD 63 0 == 0xA5)).length
  let digest8 := leNat (keyIdent (slice c.data 32 97))
  if !(zeroAt c.data 24 8 && zeroAt c.data 129 31) then refuse stBadParam s
  else if n ≠ 0 then (.reply stNoAuth [], emit s 0x0A04 2 0 n 0 0)
  else (.issue stPending (work c [upto, count, fld c.data 8 8]),
    emitFull s 0x0A03 2 0 upto digest8 (fld c.data 8 8) count 0)

/-- EVR_CLEAR (R530). -/
def execEvrClear (m : MsgSrc) (s : State) : Host.Outcome State Fault Refusal :=
  serve ⟨0xA03, .ws0, true, true, some 256⟩ m evrClear s

/-- Steps 2 to 4 of a clear, once EV_CLEAR is archived: records at or below the position become unreadable, and a
new nonce is drawn (R530; DESIGN CHOICE, assumption 3). -/
def finishClear (s : State) (w : Work) : Option (Nat × List Byte × State) :=
  let upto := w.args.getD 0 0
  let nonce := w.args.getD 2 0
  let archived := s.evr.recs.any fun r => r.ev.code == 0x0A03 && r.ev.p2 == nonce && r.archived.isSome
  if archived then
    let t := (drawFree s 64).2
    some (stOk, leBytes 8 (w.args.getD 1 0), { t with evr := { t.evr with
      clearNonce := (drawFree s 64).1
      archive := t.evr.archive.map fun p => if p.1 ≤ upto then (p.1, zeros 64) else p
      recs := t.evr.recs.map fun r =>
        match r.archived with
        | some p => if p ≤ upto then { r with cleared := true } else r
        | none => r } })
  else none

/-- EVR_CLASS_SET (R529): only the fields that apply selects are checked and set. -/
def classSet (c : Ctx) (s : State) : Answer × State :=
  let d := c.data
  let apply := fld d 0 1
  let rate := fld d 4 4
  let burst := fld d 8 2
  let entries := fld d 12 4
  let addr := fld d 16 8
  let e := s.evr
  let e1 := if bit apply 0 then { e with logRate := rate, logBurst := burst, filledAt := ns s,
                                          tokens := min (burst * 10 ^ 9) (logTokens s) } else e
  let e2 := if bit apply 1 then { e1 with traceMask := fld d 2 2 } else e1
  let e3 := if bit apply 2 then { e2 with fwdClasses := fld d 1 1, fwdEntries := entries, fwdAddr := addr } else e2
  let t := { s with evr := e3 }
  checked [(apply / 8 == 0 && zeroAt d 10 2 && zeroAt d 24 8, stBadParam),
      (!bit apply 0 || (decide (100 ≤ rate) && decide (rate ≤ 100000) && decide (64 ≤ burst) && decide (burst ≤ 4096)),
        stBadParam),
      (!bit apply 2 || (fld d 1 1 / 8 == 0 && [64, 128, 256, 512, 1024, 2048, 4096, 8192, 16384, 32768, 65536].contains entries &&
        addr % 4096 == 0 && (addr == 0 || bufOk s 0 addr (64 * entries))), stBadParam)]
    (.reply stOk (evrInfo t), t) s

/-- EVR_CLASS_SET (R529). -/
def execEvrClassSet (m : MsgSrc) (s : State) : Host.Outcome State Fault Refusal :=
  serve ⟨0xA04, .ws0, false, false, some 32⟩ m classSet s

end Sys2Proof.Machine
end

