-- ==== Sys2Proof/Machine/Power.lean ====
section
/-!
DEFINITION. Power entry and the flush (23), the reset request and the alarm output (24), and thermal response (25).
-/

namespace Sys2Proof.Machine

/-! ## Status frames -/

/-- Input voltage and current of a frame: 10 mV and 10 mA (DESIGN CHOICE, assumption 151). -/
def frameMv (f : StatusFrame) : Nat := f.vin * 10

/-- Sum of VIN × IIN over the frames held, in units of 0.1 mW. -/
def powerSum (s : State) : Nat := (s.power.frames.map fun f => f.vin * f.iin).foldl (· + ·) 0

/-- The input events are armed again once the input has stayed from 40.0 V to 59.5 V for 1 s (R563). -/
def rearmInput (s : State) (mv : Nat) : State :=
  if mv < 40000 ∨ 59500 < mv then { s with power := { s.power with outAt := ns s } }
  else if elapsed s s.power.outAt 1000000000 then { s with power := { s.power with lowSent := false, highSent := false } }
  else s

/-- The frame's figures: the last eight frames, and during a flush its energy (0.1 nJ) and lowest VIN. -/
def takeFrame (f : StatusFrame) (s : State) : State :=
  let p := s.power
  let l := p.frames ++ [f]
  { s with power := { p with
    vin := frameMv f
    frames := l.drop (l.length - 8)
    lastFrame := ns s
    firstFrame := true
    entryOn := f.entryOn
    flushMinVin := if p.flushing then min p.flushMinVin (frameMv f) else p.flushMinVin
    flushEnergy := if p.flushing then p.flushEnergy + f.vin * f.iin else p.flushEnergy } }

/-- A valid frame (R569). The first of a life reports a trip of the former life (R576). With the rails off after a lost
link, frames that come for 1 ms start the device again (R570). -/
def statusFrame (f : StatusFrame) (s : State) : State :=
  if s.boot.stage = .off then
    if s.power.after = 2 then
      let fresh := elapsed s s.power.lastFrame 10000
      let t := { s with power := { s.power with
        vin := frameMv f, lastFrame := ns s, outAt := if fresh then ns s else s.power.outAt } }
      if !fresh && elapsed s s.power.outAt 1000000 then
        enterPower { t with power := { t.power with after := 0 } } else t
    else s
  else
    let t := if !s.power.firstFrame && f.lastTrip != 0 then emit s 0x0907 10 0 f.lastTrip 0 0 else s
    rearmInput (takeFrame f t) (frameMv f)

/-- STATUS_FRAME (R569): a frame whose CRC fails is discarded. -/
def execStatusFrame (f : StatusFrame) (s : State) : Host.Outcome State Fault Refusal :=
  .next (when f.crcOk (statusFrame f) s)

/-! ## The flush -/

/-- A flush begins (R573): cores held, cane engines dark; FLUSH_N goes low and RUN_OK falls (R593). -/
def startFlush (s : State) (after : Nat) : State :=
  { s with
    power := { s.power with
      flushing := true, flushAt := ns s, flushMinVin := s.power.vin, flushEnergy := 0, after := after }
    svc := { s.svc with flushN := false, runOk := false }
    fab := { s.fab with ports := s.fab.ports.map fun p => { p with state := if p.state = 0 then 0 else 1, emission := 0 } } }

/-- EV_POWER_LOSS, and the flush. -/
def lossFlush (s : State) (after : Nat) : State := startFlush (emit s 0x0901 10 0 s.power.vin 0 0) after

/-- STATUS_LINK_LOST (R570): 10 µs without a valid frame in RUN is treated as a power loss. -/
def execStatusLinkLost (s : State) : Host.Outcome State Fault Refusal :=
  .next (when (inRun s && elapsed s s.power.lastFrame 10000) (fun t => lossFlush (emit t 0x0908 10 0 0 0 0) 2) s)

/-- Whether the newest frame carries LOSS. -/
def lossShown (s : State) : Bool := match s.power.frames.getLast? with | some f => f.loss | none => false

/-- POWER_LOSS (R572). -/
def execPowerLoss (s : State) : Host.Outcome State Fault Refusal :=
  .next (when (inRun s && lossShown s) (lossFlush · 0) s)

/-- Take every event that waits into the recorder. -/
def takeAllEvents : Nat → State → State
  | 0, s => s
  | n + 1, s => if s.evr.intake.isEmpty then s else takeAllEvents n (intakeOne s)

/-- Every unarchived ALARM and LOG record passes to the archive (R528). -/
def archiveForFlush (s : State) : State :=
  if archiveState s = 1 ∨ archiveState s = 2 then
    let l := s.evr.recs.filter fun r => r.cls != 0
    let e := archiveRecs s.evr l.length l
    { s with evr := { e with archive := e.archive.filter fun p => decide (e.archOldest ≤ p.1) } }
  else s

/-- The write buffers are programmed, and each ONLINE group's map journal takes a FLUSH_DONE record: duration, energy
drawn in mJ and lowest VIN in mV (R573). -/
def programBuffers (s : State) : State :=
  { s with flash := { s.flash with
    buffered := []
    queue := []
    groups := s.flash.groups.map fun g => if g.state = 3 then
      { g with flushDone := some (ns s - s.power.flushAt, s.power.flushEnergy / 10000000, s.power.flushMinVin) } else g } }

/-- The end of a flush: the rails go off, and the device starts again as the cause of the flush says (R573, R574,
R607). -/
def flushDone (s : State) : State :=
  let t := programBuffers (archiveForFlush (takeAllEvents s.evr.intake.length s))
  if s.power.after = 0 then restart t else railsOff t s.power.after

/-- FLUSH_DONE (R573). -/
def execFlushDone (s : State) : Host.Outcome State Fault Refusal := .next (when s.power.flushing flushDone s)

/-- RAIL_COLLAPSE (R575): below 24.0 V during the flush the rails stop in that cycle. -/
def execRailCollapse (vin : Nat) (s : State) : Host.Outcome State Fault Refusal :=
  .next (when (s.power.flushing && decide (vin < 24000)) (fun t =>
    railsOff (loseBuffers { t with power := { t.power with vin := vin } }) t.power.after) s)

/-- ENTRY_TRIP (R566): power goes without a flush. -/
def execEntryTrip (cause : Nat) (s : State) : Host.Outcome State Fault Refusal :=
  guarded "ENTRY_TRIP" (decide (1 ≤ cause) && decide (cause ≤ 4)) (when (decide (s.boot.stage ≠ .off)) (fun t =>
    railsOff (loseBuffers { t with power := { t.power with trip := cause, lastTrip := cause } }) 1) s)

/-- TRIP_RESTART (R566): the input has been below 10 V for 1 s; the device starts when it next rises. -/
def execTripRestart (s : State) : Host.Outcome State Fault Refusal :=
  .next (when (decide (s.boot.stage = .off) && s.power.after == 1) (fun t =>
    { t with power := { t.power with after := 0, trip := 0, vin := 0 } }) s)

/-! ## Input range and the power cap -/

/-- INPUT_LOW (R563). -/
def execInputLow (s : State) : Host.Outcome State Fault Refusal :=
  .next (when (inRun s && decide (38000 ≤ s.power.vin) && decide (s.power.vin < 40000) && !s.power.lowSent)
    (fun t => emit { t with power := { t.power with lowSent := true } } 0x0904 10 0 t.power.vin 0 0) s)

/-- INPUT_HIGH (R563). -/
def execInputHigh (s : State) : Host.Outcome State Fault Refusal :=
  .next (when (inRun s && decide (59500 < s.power.vin) && !s.power.highSent)
    (fun t => emit { t with power := { t.power with highSent := true } } 0x0905 10 0 t.power.vin 0 0) s)

/-- The cap in force (R324, R571). -/
def capNow (s : State) : Nat := min s.guard.powerCapActive s.guard.powerCap

/-- The duty falls while the mean of eight frames exceeds the cap; at the floor for 1 ms, EV_POWER_CAP_FLOOR once
(R571). -/
def overCap (s : State) : State :=
  let p := s.power
  if 4 < p.duty then
    { s with power := { p with duty := p.duty - 1, dutyAt := ns s, underSince := none, floorSince := none } }
  else
    let t0 := p.floorSince.getD (ns s)
    let t := { s with power := { p with underSince := none, floorSince := some t0 } }
    if elapsed s t0 1000000 && !p.floorSent then
      emit { t with power := { t.power with floorSent := true } } 0x0906 10 0 (powerSum s / 80000) (capNow s) 0
    else t

/-- The mean does not exceed the cap; below 95 % of it starts or continues the span that lets the duty rise. -/
def underCap (s : State) : State :=
  let p := s.power
  { s with power := { p with
    floorSince := none
    floorSent := false
    underSince := if powerSum s * 100 < capNow s * 80000 * 95 then p.underSince.or (some (ns s)) else none } }

/-- One comparison (DEDUCED, assumption 101). -/
def powerCapCompare (s : State) : State :=
  let t := { s with power := { s.power with capAt := ns s } }
  if capNow s * 80000 < powerSum s then overCap t else underCap t

/-- Whether the guard enforces the cap: its image is applied and eight frames have come. -/
def capEnforced (s : State) : Bool :=
  (decide (s.boot.stage = .discover) || inRun s) && s.power.frames.length == 8

/-- POWER_CAP_COMPARE (R571): every 8 µs. -/
def execPowerCapCompare (s : State) : Host.Outcome State Fault Refusal :=
  .next (when (capEnforced s && elapsed s s.power.capAt 8000) powerCapCompare s)

/-- Whether the duty may rise: below 95 % of the cap for 1 ms, and 100 µs since it last changed. -/
def dutyMayRise (s : State) : Bool :=
  decide (s.power.duty < 16) && elapsed s s.power.dutyAt 100000 &&
    match s.power.underSince with | some t => elapsed s t 1000000 | none => false

/-- POWER_DUTY_RISE (R571). -/
def execPowerDutyRise (s : State) : Host.Outcome State Fault Refusal :=
  .next (when (dutyMayRise s) (fun t =>
    { t with power := { t.power with duty := t.power.duty + 1, dutyAt := ns t } }) s)

/-! ## Service port -/

/-- A reset request: in RUN it is recorded and runs the flush; before RUN power goes at once (R592). It is then ignored
until it has been sensed high in a later BOOT phase (DEDUCED, assumption 95). -/
def resetRequest (s : State) : State :=
  let t := { s with svc := { s.svc with rstIgnored := true } }
  if s.boot.stage = .run then startFlush (emitDev t 0x0941 0 0 0) 0 else restart t

/-- RESET_REQUEST (R592): RST_N is sensed in the BOOT and RUN phases of the port, and not during a flush
(DEDUCED, assumption 150). -/
def execResetRequest (s : State) : Host.Outcome State Fault Refusal :=
  .next (when (!s.svc.rstIgnored && !s.power.flushing && (s.svc.phase == 2 || s.svc.phase == 3) &&
    (decide (s.boot.stage ≠ .stopped) || s.boot.stopCode == 7)) resetRequest s)

/-- ALARM_N_RELEASE (R593): 1 ms after the last ALARM record. -/
def execAlarmNRelease (s : State) : Host.Outcome State Fault Refusal :=
  .next (when (s.svc.alarm && elapsed s s.svc.alarmAt 1000000)
    (fun t => { t with svc := { t.svc with alarm := false } }) s)

/-! ## Thermal response -/

/-- The dies with their kind, instance and temperature (R604). -/
def dies (t : Thermal) : List (Nat × Nat × Int) :=
  (0, 0, t.hubTemp) :: (t.stackTemps.zipIdx.map fun p => (1, p.2, p.1)) ++
    (t.caneTemps.zipIdx.map fun p => (2, p.2, p.1)) ++ t.fhTemps.zipIdx.map fun p => (3, p.2, p.1)

/-- Throttle, release and trip thresholds of a die kind (Table: Thermal thresholds). -/
def throttleAbove (kind : Nat) : Int := if kind = 0 ∨ kind = 3 then 100 else 95
def releaseBelow (kind : Nat) : Int := if kind = 0 ∨ kind = 3 then 95 else 90
def tripAbove (kind : Nat) : Int := if kind = 0 ∨ kind = 3 then 115 else 105

/-- The first die kind with a die above its throttle threshold. -/
def hotKind (t : Thermal) : Option Nat := ((dies t).find? fun d => decide (throttleAbove d.1 < d.2.2)).map (·.1)

/-- Every die is below its release threshold. -/
def allCool (t : Thermal) : Bool := (dies t).all fun d => decide (d.2.2 < releaseBelow d.1)

/-- EV_STACK_HOT for a stack that first passes 85 °C, armed again after 1 s below 80 °C (R606). -/
def stackHot (s : State) (i : Nat) (temp : Int) : State :=
  let h := s.therm
  let cool := h.hotCool.getD i none
  let sent := h.hotSent.getD i false && !(match cool with | some t => elapsed s t 1000000000 | none => false)
  let cool' := if temp < 80 then cool.or (some (ns s)) else none
  let fire := decide (85 < temp) && !sent
  let t := { s with therm := { h with
    hotSent := setAt (if h.hotSent.length = 16 then h.hotSent else List.replicate 16 false) i (sent || fire)
    hotCool := setAt (if h.hotCool.length = 16 then h.hotCool else List.replicate 16 none) i cool' } }
  if fire then emit t 0x0963 6 (i * 16) i 0 0 else t

/-- The guard reads the sensors (R604): since when each die has been above its trip threshold, and all below release. -/
def thermalSample (hub : Int) (stk cane fh : List Int) (s : State) : State :=
  let h := { s.therm with hubTemp := hub, stackTemps := stk, caneTemps := cane, fhTemps := fh }
  let trips := ((dies h).filter fun d => decide (tripAbove d.1 < d.2.2)).map fun d =>
    match s.therm.tripSince.find? fun q => q.1 == d.1 && q.2.1 == d.2.1 with
    | some q => q
    | none => (d.1, d.2.1, ns s)
  let t := { s with therm := { h with
    tripSince := trips
    coolSince := if allCool h then s.therm.coolSince.or (some (ns s)) else none } }
  stk.zipIdx.foldl (fun u p => stackHot u p.2 p.1) t

/-- THERMAL_SAMPLE (R604). -/
def execThermalSample (hub : Int) (stk cane fh : List Int) (s : State) : Host.Outcome State Fault Refusal :=
  guarded "THERMAL_SAMPLE" (stk.length == 16 && cane.length == 4 && fh.length == 2)
    (when (decide (s.boot.stage ≠ .off)) (thermalSample hub stk cane fh) s)

/-- The thermal duty falls while a die is above its throttle threshold, and rises once all have been below release for
10 ms; EV_THERMAL_THROTTLE when it leaves 16/16 and when it returns (R604, R605). -/
def thermalDutyStep (s : State) : State :=
  let h := s.therm
  let released := match h.coolSince with | some t => elapsed s t 10000000 | none => false
  match hotKind h with
  | some k =>
    if 4 < h.duty then
      let t := { s with therm := { h with
        duty := h.duty - 1, dutyAt := ns s, throttleKind := if h.duty = 16 then k else h.throttleKind } }
      if h.duty = 16 then emitDev t 0x0961 15 k 0 else t
    else s
  | none =>
    if released && decide (h.duty < 16) then
      let t := { s with therm := { h with duty := h.duty + 1, dutyAt := ns s } }
      if h.duty = 15 then emitDev t 0x0961 16 h.throttleKind 0 else t
    else s

/-- THERMAL_DUTY_STEP (R605): every 100 µs. -/
def execThermalDutyStep (s : State) : Host.Outcome State Fault Refusal :=
  .next (when (decide (s.boot.stage ≠ .off) && elapsed s s.therm.dutyAt 100000) thermalDutyStep s)

/-- Whether a die has been above its trip threshold for 1 ms. -/
def tripDue (s : State) (kind inst : Nat) : Bool :=
  s.therm.tripSince.any fun q => q.1 == kind && q.2.1 == inst && elapsed s q.2.2 1000000

/-- A thermal trip: recorded, then the flush in RUN; before RUN start-up ends (R607). -/
def thermalTrip (kind inst : Nat) (s : State) : State :=
  let temp := ((dies s.therm).find? fun d => d.1 == kind && d.2.1 == inst).map (·.2.2) |>.getD 0
  let t := emitDev s 0x0962 kind inst (ofSigned 64 temp)
  if s.boot.stage = .run then startFlush t 1 else railsOff t 1

/-- THERMAL_TRIP (R607). -/
def execThermalTrip (kind inst : Nat) (s : State) : Host.Outcome State Fault Refusal :=
  .next (when (decide (s.boot.stage ≠ .off) && !s.power.flushing && tripDue s kind inst) (thermalTrip kind inst) s)

/-- The greatest of a list of temperatures. -/
def hottest : List Int → Int
  | [] => 0
  | a :: t => t.foldl max a

/-- The figures of EV_THERMAL_REPORT (R608). -/
def thermalReport (s : State) : State :=
  let h := s.therm
  emitFull { s with therm := { h with reportAt := ns s } } 0x0964 0 0 (ofSigned 64 h.hubTemp)
    (ofSigned 64 (hottest h.stackTemps)) (ofSigned 64 (hottest h.caneTemps)) (ofSigned 64 (hottest h.fhTemps)) h.duty

/-- THERMAL_REPORT (R608): once a minute in RUN. -/
def execThermalReport (s : State) : Host.Outcome State Fault Refusal :=
  .next (when (inRun s && elapsed s s.therm.reportAt 60000000000) thermalReport s)

end Sys2Proof.Machine
end

