-- ==== Sys2Proof/Machine/Sessions.lean ====
section
/-!
DEFINITION. Session commands (10): create, destroy and inform (R279 to R283, R623), anneal and roll (R286 to R291), resume
(R289, R290) and images.
-/

namespace Sys2Proof.Machine

/-! ## Codebooks and groups -/

/-- Whether a codebook set of the workspace may be bound, and fits a geometry (R224, R225) (DESIGN CHOICE, assumption 109). -/
def bookFits (s : State) (ws h : Nat) (g : List Byte) : Bool :=
  match getBook s h with
  | some b => b.ws == ws && !b.closing && b.layers == geoLayers g && b.heads == geoHeads g && b.dim == geoDim g
  | none => false

/-- Whether a codebook set is another workspace's. -/
def bookForeign (s : State) (ws h : Nat) : Bool := match getBook s h with | some b => b.ws != ws | none => false

/-- Whether this device is a member of a group with a number of members. -/
def groupFits (s : State) (gid n : Nat) : Bool := (groupDevs s gid).length == n && (groupDevs s gid).contains (fabricDev s)

/-- journal_partner is given for a group of one device, and for no other (R280). -/
def partnerOk (g : List Byte) (partner : Nat) : Bool := if geoDevices g = 1 then partner != 0xFFFF else partner == 0xFFFF

/-- Sessions of the device that count under R283. -/
def deviceSessions (s : State) : Nat := (s.sessions.filter fun x => sessionCounts x.state || x.state == 0).length

/-- Room for one more session (R283). -/
def sessionRoom (s : State) (ws : Nat) : Bool := decide (deviceSessions s < 16384) && roomFor s ws 1 (·.sessions)

/-- Window pages of a block map (R227). -/
def mapPages (g : List Byte) : Nat := cdiv (cdiv (geoMax g) 64) 65536

/-- The CREATE message of a session: handle, group, partner, devices and token counts (DESIGN CHOICE, assumption 45). -/
def createMsg (x : Session) : List Byte :=
  leBytes 4 x.handle ++ leBytes 4 x.group ++ leBytes 2 x.partner ++ zeros 2 ++ leBytes 1 x.devices.length ++ zeros 3 ++ x.geometry ++
    x.devices.flatMap (leBytes 2) ++ x.tokens.flatMap (leBytes 4)

/-- Begin a session part on this device: a handle, the block map and a journal stream, in a state; none for want of
space. -/
def beginSession (s : State) (ws key state gid partner : Nat) (g : List Byte) (tokens : List Nat) (t : TicketRef) :
    Except Nat (Session × State) :=
  if !roomFor s ws (mapPages g) (·.windowPages) then .error stQuota
  else match allocWindow s ws 2 (mapPages g) with
    | none => .error stQuota
    | some (pg, u) =>
      let h := freshHandle u
      let old := sessionByKey u ws key
      let x : Session :=
        { ws := ws, key := key, state := state, handle := h, geometry := g, group := gid, devices := groupDevs u gid,
          partner := partner, lost := 0, images := (old.map (·.images)).getD [], annealSeq := (old.map (·.annealSeq)).getD 0,
          tokens := tokens, blocks := [], blockMap := [], journal := [], appends := [], oldKv := [], regions := [], freePos := [],
          freeKv := [], staging := [], mapPage := some pg, annealPhase := 0, roll := none, ticket := some t, destroy := [],
          refs := 0 }
      match createStream { u with nextHandle := h } 4 ws (sessionOwner x) gid with
      | none => .error (if u.flash.groups.any (·.state == 4) then stMediaExhausted else stQuota)
      | some (_, _, v) => .ok (x, refBook (putSession v x) (geoBook g) true)

/-! ## SESSION_CREATE -/

/-- SESSION_CREATE's answer (R280, R283) (DEDUCED, assumption 112). -/
def sessionCreate (c : Ctx) (s : State) : Answer × State :=
  let d := c.data
  let g := slice d 0 64
  let key := fld d 64 8
  let gid := fld d 72 4
  let old := match sessionByKey s c.ws key with | some x => x.state == 3 | none => true
  let run : Answer × State :=
    match beginSession s c.ws key 0 gid (fld d 76 2) g (List.replicate (geoLayers g) 0) c.ticket with
    | .error st => refuse st s
    | .ok (x, t) => (.issue stPending (work c [key]), tellSession t x 16 (createMsg x))
  checked [(geoOk g && zeroAt d 78 50 && partnerOk g (fld d 76 2) && groupFits s gid (geoDevices g), stBadParam),
    (!bookForeign s c.ws (geoBook g), stNoAuth), (bookFits s c.ws (geoBook g) g && old, stBadParam),
    (leaseHeld s gid, stFenced), (sessionRoom s c.ws, stQuota)] run s

/-- SESSION_CREATE (R280). -/
def execSessionCreate (m : MsgSrc) (s : State) : Host.Outcome State Fault Refusal :=
  serve ⟨0x501, .own, false, true, some 128⟩ m sessionCreate s

/-- A session that is being created, or resumed, becomes ACTIVE (R280, R289). -/
def activateSession (s : State) (k : Ticket) (from_ : Nat) : Option (Nat × List Byte × State) :=
  (sessionByKey s k.work.ws (k.work.args.getD 0 0)).bind fun x =>
    if x.state = from_ then
      some (stOk, leBytes 4 x.handle ++ zeros 4, putSession s { x with state := 1, ticket := none })
    else none

/-! ## SESSION_DESTROY, SESSION_INFO, IMAGE_DELETE -/

/-- SESSION_DESTROY's answer (R279, R281): DESTROYING from acceptance. -/
def sessionDestroy (c : Ctx) (s : State) : Answer × State :=
  match zeroAt c.data 4 4, sessionOf s (fld c.data 0 4) with
  | true, some x =>
    checked [(x.ws == c.ws, stNoAuth), (x.state == 1, stBadParam), (leaseHeld s x.group, stFenced)]
      (.issue stPending (work c [x.key]),
       tellSession (putSession s { x with state := 5, destroy := x.destroy ++ [c.ticket] }) x 20 []) s
  | _, _ => refuse stBadParam s

/-- SESSION_DESTROY (R279). -/
def execSessionDestroy (m : MsgSrc) (s : State) : Host.Outcome State Fault Refusal :=
  serve ⟨0x502, .own, false, true, some 8⟩ m sessionDestroy s

/-- Token counts that SESSION_INFO shows (R623). -/
def shownTokens (x : Session) : List Nat :=
  match x.state with
  | 1 => x.tokens
  | 2 => x.tokens
  | 3 => ((x.images.getLast?).map (·.tokens)).getD []
  | _ => []

/-- An image as SESSION_INFO lists it. -/
def imageEntry (i : Image) : List Byte := leBytes 8 i.seq ++ slice i.locator 0 32

/-- Table: SESSION_INFO result (R623). -/
def sessionRecord (x : Session) (first : Nat) : List Byte :=
  let l := (x.images.filter fun i => decide (first ≤ i.seq)).take 5
  let dev := fun (i : Nat) => if i < geoDevices x.geometry then x.devices.getD i 0xFFFF else 0xFFFF
  let t := shownTokens x
  leBytes 8 x.key ++ leBytes 1 x.state ++ leBytes 1 l.length ++ leBytes 2 (geoDevices x.geometry) ++
    leBytes 4 (if x.handle = 0 ∨ x.state = 0 ∨ x.state = 4 then 0xFFFFFFFF else x.handle) ++ leBytes 2 x.partner ++ zeros 2 ++
    leBytes 4 x.lost ++ leBytes 4 x.images.length ++ zeros 4 ++ slice x.geometry 0 64 ++
    ((List.range 64).flatMap fun i => leBytes 2 (dev i)) ++ ((List.range 128).flatMap fun i => leBytes 4 (t.getD i 0)) ++
    slice (l.flatMap imageEntry) 0 200

/-- SESSION_INFO's answer (R623). -/
def sessionInfo (c : Ctx) (s : State) : Answer × State :=
  match sessionByKey s c.ws (fld c.data 0 8) with
  | some x => (.reply stOk (sessionRecord x (fld c.data 8 8)), s)
  | none => refuse stBadParam s

/-- SESSION_INFO (R623). -/
def execSessionInfo (m : MsgSrc) (s : State) : Host.Outcome State Fault Refusal :=
  serve ⟨0x503, .own, false, false, some 16⟩ m sessionInfo s

/-- IMAGE_DELETE's answer (R279): a key that is held by nothing else has no record any more. -/
def imageDelete (c : Ctx) (s : State) : Answer × State :=
  let seq := fld c.data 8 8
  match sessionByKey s c.ws (fld c.data 0 8) with
  | none => refuse stBadParam s
  | some x =>
    let y := { x with images := x.images.filter (·.seq != seq) }
    checked [(x.images.any (·.seq == seq), stBadParam), (x.state != 4, stBadParam)]
      (.issue stPending (doneWork c [] stOk []),
       if y.state = 3 ∧ y.images.isEmpty then eraseSession s x else putSession s y) s

/-- IMAGE_DELETE (R279). -/
def execImageDelete (m : MsgSrc) (s : State) : Host.Outcome State Fault Refusal :=
  serve ⟨0x506, .own, false, true, some 16⟩ m imageDelete s

/-! ## SESSION_ANNEAL -/

/-- The device that a roll brings in: member numbers go on into the spare list (DESIGN CHOICE, assumption 113). -/
def rollDevice (s : State) (gid n : Nat) : Option Nat :=
  (findGroup s gid).bind fun g => (g.mem.members ++ g.mem.spares)[n]?

/-- SESSION_ANNEAL's answer: QUIESCE begins (R286, R291); a session with a lost block is left ACTIVE (R285). -/
def sessionAnneal (c : Ctx) (s : State) : Answer × State :=
  let d := c.data
  let roll := bit (fld d 4 1) 0
  match sessionOf s (fld d 0 4) with
  | none => refuse stBadParam s
  | some x =>
    let run : Answer × State :=
      if 0 < x.lost then (.issue stPending (doneWork c [] stStateLost []), s)
      else (.issue stPending (work c [x.key]), putSession s { x with
        state := 2, annealPhase := 1, ticket := some c.ticket,
        roll := if roll then some (fld d 6 2, (rollDevice s x.group (fld d 8 2)).getD 0xFFFF) else none })
    checked [(decide (fld d 4 1 < 2) && zeroAt d 5 1 && zeroAt d 10 6 && (roll || zeroAt d 6 4), stBadParam),
      (x.ws == c.ws, stNoAuth), (x.state == 1, stBadParam),
      (!roll || (decide (fld d 6 2 < x.devices.length) && match rollDevice s x.group (fld d 8 2) with
        | some n => !x.devices.contains n
        | none => false), stBadParam), (leaseHeld s x.group, stFenced)] run s

/-- SESSION_ANNEAL (R286). -/
def execSessionAnneal (m : MsgSrc) (s : State) : Host.Outcome State Fault Refusal :=
  serve ⟨0x504, .own, false, true, some 16⟩ m sessionAnneal s

/-- Whether a step that was admitted before an anneal still runs (R286). -/
def stepsLeft (s : State) (x : Session) : Bool :=
  (s.hub.slots.any fun p => p.2.kind == 4 && p.2.obj == x.handle && p.2.pg 3 == 0) ||
    s.fab.inbox.any fun p => p.msg == 0x40 && fld p.payload 0 1 == 18 && fld p.payload 2 2 == x.ws && fld p.payload 8 8 == x.key

/-- The session in a phase of its anneal. -/
def annealing (s : State) (ws key phase : Nat) : Option Session :=
  (sessionByKey s ws key).filter fun x => x.state == 2 && x.annealPhase == phase

/-- The group of a session's journal here. -/
def journalGroup (s : State) (x : Session) : Nat := ((findStream s 4 x.ws (sessionOwner x)).map (·.1)).getD 0xFF

/-- The STRIPE phase as a lehr activity (R509). -/
def annealActivity (s : State) (x : Session) : Activity := newActivity s 8 true 4 3 (journalGroup s x) x.key x.ticket

/-- QUIESCE and FLUSH are over: STRIPE starts as an ANNEAL_BULK activity (R286, R287). -/
def annealFlush (ws key : Nat) (s : State) : State :=
  match annealing s ws key 1 with
  | some x => submit (putSession s { x with annealPhase := 3 }) (annealActivity s x)
  | none => s

/-- ANNEAL_FLUSH (R286). -/
def execAnnealFlush (ws key : Nat) (s : State) : Host.Outcome State Fault Refusal :=
  .next (when (firmwareRuns s && match annealing s ws key 1 with
    | some x => !stepsLeft s x && (!deferred s (annealActivity s x) || queueRoom s true)
    | none => false) (annealFlush ws key) s)

/-- The activity of a session's STRIPE phase, while it runs. -/
def annealRuns (s : State) (x : Session) : Option Activity :=
  s.rack.running.find? fun a => a.code == 8 && a.object == x.key && a.ticket == x.ticket

/-- Fold the journal: its next stripe is formed, or, once every stripe is complete, the phase ends (R286, R483)
(DESIGN CHOICE, assumption 114). -/
def annealStripe (ws key : Nat) (s : State) : State :=
  match annealing s ws key 3 with
  | none => s
  | some x =>
    match annealRuns s x with
    | none => s
    | some a =>
      let finish := fun (t : State) => dropActivity (putSession t { x with
        annealPhase := 4, journal := x.journal.map fun e => { e with striped := true } }) a.ident
      match findStream s 4 x.ws (sessionOwner x) with
      | none => finish s
      | some (g, st) =>
        if st.units.isEmpty then finish s
        else match nextUnits (getGroup s g) st true with
          | some d => formStripe g st d s
          | none => s

/-- ANNEAL_STRIPE (R286, R287). -/
def execAnnealStripe (ws key : Nat) (s : State) : Host.Outcome State Fault Refusal :=
  .next (when (firmwareRuns s) (annealStripe ws key) s)

/-- Blocks of a session, over all its devices. -/
def sessionBlocks (g : List Byte) (tokens : List Nat) : Nat :=
  geoHeads g * (tokens.map fun T => cdiv T 64).foldl (· + ·) 0

/-- The blocks of an image that this device holds, by layer, head and block; positions beyond T_ℓ are no part of it
(R286, R288) (DEDUCED, assumption 116). -/
def imageBlocks (s : State) (x : Session) : List JournalEnt :=
  let l := x.blocks.filter fun y => decide (y.block < cdiv (x.count y.layer) 64)
  (sortOn (fun y : Block => (y.layer * 2 ^ 8 + y.head) * 2 ^ 32 + y.block) l).map fun y =>
    let e := entOf s x y true
    { e with fill := min e.fill (x.count y.layer - 64 * y.block), striped := true }

/-- The image that a session leaves (R286, R288). -/
def newImage (s : State) (x : Session) (locator : List Byte) : Image :=
  { seq := x.annealSeq + 1, locator := slice locator 0 32, tokens := x.tokens, geometry := geoWithBook x.geometry 0,
    digest := match getBook s (geoBook x.geometry) with | some b => Config.sha384 b.bytes | none => 0
    arithRev := 1, blocks := imageBlocks s x, bodyOk := true,
    bytes := sessionBlocks x.geometry x.tokens * (1280 + kvBytes x.geometry) }

/-- The manifest is written, and its locator recorded; a roll goes on as a REBUILD activity (R288, R291). -/
def annealManifest (ws key : Nat) (locator : List Byte) (s : State) : State :=
  match annealing s ws key 4 with
  | none => s
  | some x =>
    let y := { x with annealPhase := 5, annealSeq := x.annealSeq + 1, images := x.images ++ [newImage s x locator] }
    let t := putSession s y
    match x.roll with
    | some (n, _) => submit t (newActivity t 4 false 4 3 n x.key none)
    | none => t

/-- ANNEAL_MANIFEST (R288). -/
def execAnnealManifest (ws key : Nat) (locator : List Byte) (s : State) : Host.Outcome State Fault Refusal :=
  .next (when (firmwareRuns s && (annealing s ws key 4).isSome) (annealManifest ws key locator) s)

/-- The result of an anneal: anneal_seq and the image's data bytes (R286). -/
def annealResult (x : Session) : List Byte := leBytes 8 x.annealSeq ++ leBytes 8 (((x.images.getLast?).map (·.bytes)).getD 0)

/-- Complete a session's ticket (DEDUCED, assumption 99) (DEDUCED, assumption 115). -/
def endAnneal (s : State) (x : Session) (st : Nat) (r : List Byte) : State :=
  match x.ticket with | some t => finishTicket s t st r | none => s

/-- RELEASE: everything but the images is freed, and the session is ANNEALED (R286). -/
def annealRelease (ws key : Nat) (s : State) : State :=
  match annealing s ws key 5 with
  | some x => endAnneal (releaseSession (tellSession s x 20 []) x 3) x stOk (annealResult x)
  | none => s

/-- ANNEAL_RELEASE (R286). -/
def execAnnealRelease (ws key : Nat) (s : State) : Host.Outcome State Fault Refusal :=
  .next (when (firmwareRuns s && match annealing s ws key 5 with
    | some x => x.roll.isNone
    | none => false) (annealRelease ws key) s)

/-- Reject every step that waits for a roll (R291). -/
def rejectHeld (s : State) (h : Nat) : State :=
  (s.hub.slots.filter fun p => p.2.kind == 4 && p.2.obj == h && p.2.pg 3 == 1 && p.2.done.isNone).foldl
    (fun t p => failSlot t p.1 stBadParam 10) s

/-- The rebuild of a roll, while it runs. -/
def rollRuns (s : State) (x : Session) : Option Activity :=
  s.rack.running.find? fun a => a.code == 4 && a.objType == 3 && a.object == x.key

/-- The roll ends: the spare has the member's position and its blocks, and the session is ACTIVE with its handle; where it
fails the session stays ANNEALED (R291). -/
def sessionRoll (ws key : Nat) (ok : Bool) (s : State) : State :=
  match annealing s ws key 5 with
  | none => s
  | some x =>
    match x.roll with
    | none => s
    | some (n, dev) =>
      let s := match rollRuns s x with | some a => dropActivity s a.ident | none => s
      if ok then
        let gone := x.deviceAt n
        let y := { x with state := 1, annealPhase := 0, roll := none, ticket := none, devices := setAt x.devices n dev }
        let t := sendSess (putSession s y) dev s.fab.nextTxn y 16 (createMsg y)
        let t := if gone = fabricDev s then
            { freeSessionPages t y with sessions := t.sessions.map fun z =>
              if z.ws = ws ∧ z.key = key then { z with blocks := [], regions := [], freePos := [], freeKv := [], staging := [],
                                                       mapPage := none } else z }
          else sendSess t gone t.fab.nextTxn y 20 []
        endAnneal t x stOk (annealResult x)
      else endAnneal (releaseSession (tellSession (rejectHeld s x.handle) x 20 []) x 3) x stStateLost []

/-- SESSION_ROLL (R291). -/
def execSessionRoll (ws key : Nat) (ok : Bool) (s : State) : Host.Outcome State Fault Refusal :=
  .next (when (firmwareRuns s && match annealing s ws key 5 with
    | some x => x.roll.isSome && (rollRuns s x).isSome
    | none => false) (sessionRoll ws key ok) s)

/-! ## SESSION_RESUME -/

/-- Whether this device is the journal partner of a position. -/
def partnersPos (s : State) (x : Session) (p : Nat) : Bool := x.partnerOf s p == some (fabricDev s)

/-- Place one block of an image: its records where the position is this device's, and its journal entry where this device
is the position's partner (R289). -/
def placeImageBlock (s : State) (ws key : Nat) (e : JournalEnt) : Except Nat State :=
  match sessionByKey s ws key with
  | none => .ok s
  | some x =>
    let x := x.mapBlock e.block
    let p := x.posOf e.block
    let placed : Option State :=
      if x.deviceAt p = fabricDev s then (writeRebuilt (putSession s x) x e).map fun r => putSession r.2 r.1
      else some (putSession s x)
    match placed with
    | none => .error stQuota
    | some t =>
      if partnersPos s x p then
        match sessionByKey t ws key with
        | some y => let r := journalEnt t y { e with own := false, striped := false }; if r.1 = stOk then .ok r.2 else .error stQuota
        | none => .ok t
      else .ok t

/-- Place every block of an image in order. -/
def placeImage (ws key : Nat) : List JournalEnt → State → Except Nat State
  | [], s => .ok s
  | e :: l, s => match placeImageBlock s ws key e with
    | .error st => .error st
    | .ok t => placeImage ws key l t

/-- The image that a resume names: 0 selects the latest (R289). -/
def imageOf (x : Session) (seq : Nat) : Option Image := if seq = 0 then x.images.getLast? else x.images.find? (·.seq == seq)

/-- SESSION_RESUME's answer: the checks of R289 in order, then the placement (DEDUCED, assumption 117). -/
def sessionResume (c : Ctx) (s : State) : Answer × State :=
  let d := c.data
  let key := fld d 0 8
  let gid := fld d 16 4
  let book := fld d 22 4
  match zeroAt d 26 6, sessionByKey s c.ws key with
  | true, some x =>
    if x.state ≠ 3 then refuse stBadParam s
    else match imageOf x (fld d 8 8) with
      | none => refuse stBadParam s
      | some i =>
        let g := geoWithBook i.geometry book
        let digestOk := match getBook s book with | some b => Config.sha384 b.bytes == i.digest | none => false
        let run : Answer × State :=
          match beginSession s c.ws key 4 gid (fld d 20 2) g i.tokens c.ticket with
          | .error _ => refuse stQuota s
          | .ok (_, t) =>
            match placeImage c.ws key i.blocks t with
            | .error _ => refuse stQuota s
            | .ok u =>
              if i.bodyOk then
                (.issue stPending (work c [key]), match sessionByKey u c.ws key with
                  | some z => tellSession u z 16 (createMsg z)
                  | none => u)
              else refuse stStateLost s
        checked [(groupFits s gid (geoDevices g) && i.arithRev == 1 && partnerOk g (fld d 20 2), stBadParam),
          (bookFits s c.ws book g && digestOk, stBadParam), (leaseHeld s gid, stFenced), (sessionRoom s c.ws, stQuota)] run s
  | _, _ => refuse stBadParam s

/-- SESSION_RESUME (R289). -/
def execSessionResume (m : MsgSrc) (s : State) : Host.Outcome State Fault Refusal :=
  serve ⟨0x505, .own, false, true, some 32⟩ m sessionResume s

/-- A resume ends: ACTIVE, or ANNEALED again where a stripe set could not be read (R289). -/
def finishResume (s : State) (k : Ticket) (ok : Bool) : Option (Nat × List Byte × State) :=
  if ok then activateSession s k 4
  else (sessionByKey s k.work.ws (k.work.args.getD 0 0)).bind fun x =>
    if x.state = 4 then some (stStateLost, [], releaseSession (tellSession s x 20 []) x 3) else none

end Sys2Proof.Machine
end

