-- ==== Sys2Proof/Machine/TableCmd.lean ====
section
/-!
DEFINITION. The table commands (R255, R256, R263 to R265, R277, R622).
-/

namespace Sys2Proof.Machine

/-! ## Creation -/

/-- A table as TABLE_CREATE makes it (R256). -/
def newTable (ws : Nat) (p : List Byte) : Table :=
  { ws := ws, params := p, state := 0, slots := [none, none, none, none], nextVersion := 1, drop := [],
    shardP := fld p 24 2, shardM := if bit (fld p 19 1) 0 then fld p 26 2 else 0xFFFF, liveP := true, liveM := true,
    running := [], drainsDue := [], journal := [] }

/-- Ranges of the fields of the block (Table: Table parameter block). -/
def tableFieldsOk (t : Table) : Bool :=
  let p := t.params
  decide (1 ≤ t.rows) && decide (t.rows ≤ 2 ^ 34) && decide (8 ≤ t.dim) && decide (t.dim ≤ 1024) && t.dim % 8 == 0 &&
    (t.codeBits == 8 || t.codeBits == 4) && decide (fld p 19 1 < 4) && decide (t.optimiser ≤ 2) && zeroAt p 21 1 &&
    decide (1 ≤ t.shards) && decide (t.shards ≤ 4096) &&
    (fld p 32 4 == 0 || (decide (256 ≤ fld p 32 4) && decide (fld p 32 4 ≤ 65536))) &&
    (if t.optimiser = 2 then finiteNonNeg (f32 t.eps) && !(f32 t.eps).isZero else t.eps == 0) && zeroAt p 42 6 && zeroAt p 56 8

/-- What POOL, or its absence, fixes; a POOL table has no mirror (R256, R277). -/
def tableShardsOk (s : State) (t : Table) : Bool :=
  let p := t.params
  if t.isPool then t.optimiser == 0 && t.shards == 1 && fld p 24 2 == 0xFFFF && fld p 26 2 == 0xFFFF && !t.mirrored
  else t.poolNode == 0 && t.shards == shardCount s t.gid && (t.mirrored || fld p 26 2 == 0xFFFF) &&
    rolesAgree s t.gid (fld p 24 2) (fld p 26 2) t.mirrored

/-- Every check of the block (R256) (DEDUCED, assumption 67). -/
def tableBlockOk (s : State) (t : Table) : Bool :=
  tableFieldsOk t && (ownMember s t.gid).isSome && decide (t.coordinator < (groupDevs s t.gid).length) && tableShardsOk s t &&
    (tableByKey s t.ws t.key).isNone

/-- Create the shard journals of a table's copies (R465). -/
def tableStreams (s : State) (h : Nat) (t : Table) : State :=
  let mk := fun (u : State) (m : Bool) => match createStream u 3 t.ws (tableOwner h m) t.gid with
    | some r => r.2.2
    | none => u
  if t.isPool then s else if t.mirrored then mk (mk s false) true else mk s false

/-- TABLE_CREATE's answer. -/
def tableCreate (c : Ctx) (s : State) : Answer × State :=
  let t := newTable c.ws c.data
  let h := freshHandle s
  checked [(tableBlockOk s t, stBadParam), (decide (s.tables.length < 256) && roomFor s c.ws 1 (·.tables), stQuota)]
    (.issue stPending (doneWork c [h] stOk (leBytes 4 h ++ zeros 4)),
     tableStreams (putTable { s with nextHandle := h } h t) h t) s

/-- TABLE_CREATE (R256). -/
def execTableCreate (m : MsgSrc) (s : State) : Host.Outcome State Fault Refusal :=
  serve ⟨0x401, .own, false, true, some 64⟩ m tableCreate s

/-! ## Drop and information -/

/-- The table that a command names: one of the issuer's workspace (R255) (DEDUCED, assumption 66). -/
def withTable (c : Ctx) (s : State) (h : Nat) (f : Table → Answer × State) : Answer × State :=
  match getTable s h with
  | some t => if t.ws ≠ c.ws then refuse stNoAuth s else f t
  | none => refuse stBadParam s

/-- TABLE_DROP's answer: the table is DROPPING, and the ticket completes when every version is freed (R255, R257). -/
def tableDrop (c : Ctx) (s : State) : Answer × State :=
  let h := fld c.data 0 4
  if !zeroAt c.data 4 4 then refuse stBadParam s
  else withTable c s h fun t =>
    (.issue stPending (work c [h]), putTable s h { t with state := 2, drop := t.drop ++ [c.ticket] })

/-- TABLE_DROP (R257). -/
def execTableDrop (m : MsgSrc) (s : State) : Host.Outcome State Fault Refusal :=
  serve ⟨0x402, .own, false, true, some 8⟩ m tableDrop s

/-- The end of TABLE_DROP: nothing refers to a version any more (R255). -/
def finishTableDrop (s : State) (k : Ticket) : Option (Nat × List Byte × State) :=
  let h := k.work.args.getD 0 0
  let t := settleTable s h
  if (getTable t h).isNone then some (stOk, [], t) else none

/-- A version slot of TABLE_INFO (R622). -/
def versionBytes : Option Version → List Byte
  | some x => leBytes 4 x.num ++ leBytes 1 x.state ++ zeros 3 ++ leBytes 8 x.updates ++ leBytes 4 x.refs ++ zeros 4
  | none => zeros 24

/-- Table: TABLE_INFO result (R622). -/
def tableRecord (s : State) (t : Table) : List Byte :=
  let cur := t.slots.findIdx? fun o => (o.map (·.state)) == some 3
  t.params.take 24 ++ leBytes 2 (if t.isPool then 0xFFFF else roleShard s t.gid false t.shardP) ++
    leBytes 2 (if t.mirrored then roleShard s t.gid true t.shardM else 0xFFFF) ++ slice t.params 28 36 ++
    leBytes 1 t.state ++ leBytes 1 (cur.getD 0xFF) ++ zeros 6 ++ t.slots.flatMap versionBytes

/-- TABLE_INFO's answer. -/
def tableInfo (c : Ctx) (s : State) : Answer × State :=
  if !zeroAt c.data 4 4 then refuse stBadParam s else withTable c s (fld c.data 0 4) fun t => (.reply stOk (tableRecord s t), s)

/-- TABLE_INFO (R622). -/
def execTableInfo (m : MsgSrc) (s : State) : Host.Outcome State Fault Refusal :=
  serve ⟨0x403, .own, false, false, some 8⟩ m tableInfo s

/-! ## Staging (R262, R263, R277) -/

/-- A version just opened. -/
def newVersion (num state base : Nat) (p m : List (Nat × Nat × Nat)) (listPage : Option Nat) : Version :=
  { num := num, state := state, updates := 0, refs := 0, loads := 0, regionsP := p, regionsM := m, poolBase := base,
    uPrimary := 0, uMirror := 0, announced := 0, history := [], markP := none, markM := none, listPage := listPage,
    discard := [] }

/-- Put a version in the lowest FREE slot; the table's next version number goes up. -/
def Table.addVersion (t : Table) (x : Version) : Table :=
  match t.slots.findIdx? Option.isNone with
  | some i => { t with slots := setAt t.slots i (some x), nextVersion := t.nextVersion + 1 }
  | none => t

/-- Allocate the regions of a version's copies and its region lists (R263, R276); none where they do not fit. -/
def allocVersion (s : State) (t : Table) : Option (Version × State) :=
  let p := t.copyPages s t.shardP
  let m := if t.mirrored then t.copyPages s t.shardM else []
  let marver := ((p ++ m).map (·.2)).foldl (· + ·) 0
  let lists := max 1 (cdiv (8 * (p ++ m).length) 65536)
  if !(roomFor s t.ws marver (·.marverPages) && roomFor s t.ws lists (·.windowPages)) then none
  else
    (allocWindow s t.ws 2 lists).bind fun w =>
      (allocRegions t.ws (unitSet s) p w.2).bind fun a =>
        (allocRegions t.ws (unitSet s) m a.2).map fun b => (newVersion t.nextVersion 1 0 a.1 b.1 (some w.1), b.2)

/-- TABLE_STAGE of a POOL table: the version is SEALED at once (R277). -/
def stagePool (c : Ctx) (s : State) (h : Nat) (t : Table) : Answer × State :=
  checked [(fld c.data 4 1 == 0 && zeroAt c.data 5 3, stBadParam), (t.state != 2, stBadParam),
    ((t.slots.filterMap id).length != 4, stVersionLimit)]
    (.issue stPending (doneWork c [h, t.nextVersion] stOk (leBytes 4 t.nextVersion ++ zeros 4)),
     putTable s h (t.addVersion (newVersion t.nextVersion 2 (fld c.data 8 8) [] [] none))) s

/-- TABLE_STAGE of a table in marver regions. A copy binds the current version as a gather does, and the ticket's end makes
it (R263, R266). Work numbers: handle, version, then the version and count bound. -/
def stageRegions (c : Ctx) (s : State) (h : Nat) (t : Table) : Answer × State :=
  let copy := bit (fld c.data 4 1) 0
  checked [(decide (fld c.data 4 1 < 2) && zeroAt c.data 5 11, stBadParam),
    (t.state != 2 && (!copy || t.current.isSome), stBadParam), ((t.slots.filterMap id).length != 4, stVersionLimit)]
    (match allocVersion s t with
      | none => refuse stQuota s
      | some (x, u) =>
        let put := putTable u h (t.addVersion x)
        match copy, t.current with
        | true, some cur =>
          (.issue stPending (work c [h, x.num, cur.num, cur.bindCount]), refVersion put h cur.num true)
        | _, _ => (.issue stPending (doneWork c [h, x.num] stOk (leBytes 4 x.num ++ zeros 4)), put)) s

/-- TABLE_STAGE's answer. -/
def tableStage (c : Ctx) (s : State) : Answer × State :=
  let h := fld c.data 0 4
  withTable c s h fun t => if t.isPool then stagePool c s h t else stageRegions c s h t

/-- TABLE_STAGE (R263). -/
def execTableStage (m : MsgSrc) (s : State) : Host.Outcome State Fault Refusal :=
  serve ⟨0x404, .own, false, true, some 16⟩ m tableStage s

/-- Copy a region: bytes, and the poison of its granules. -/
def copyRegion (s : State) (src dst pages : Nat) : State :=
  let n := pages * 65536
  let a := maOfPage s src
  let b := maOfPage s dst
  let bad := (List.range (n / 32)).filter fun i => s.mem.poison.contains (dpaOf s (a + 32 * i) / 32)
  let t := storeMa s b (readMa s a n)
  { t with mem := bad.foldl (fun m i => setPoison m (dpaOf s (b + 32 * i) / 32)) t.mem }

/-- Copy every region of a copy of a version to another version: both have the same list of pages. -/
def copyRegions (s : State) (src dst : List (Nat × Nat × Nat)) : State :=
  (src.zip dst).foldl (fun t p => copyRegion t p.1.2.1 p.2.2.1 p.1.2.2) s

/-- The end of TABLE_STAGE with COPY: once the count bound is committed, the parison takes the bound version's rows
(R263). -/
def finishTableStage (s : State) (k : Ticket) : Option (Nat × List Byte × State) :=
  let a := fun i => k.work.args.getD i 0
  match getTable s (a 0) with
  | none => some (stBadParam, [], s)
  | some t =>
    match t.version (a 1), t.version (a 2) with
    | some x, some cur =>
      if cur.updates < a 3 then none
      else
        let u := copyRegions (copyRegions s cur.regionsP x.regionsP) cur.regionsM x.regionsM
        let old := t.journal.filter fun e => fld e 0 4 == cur.num
        let u := putTable u (a 0) { t with journal := t.journal ++ old.map fun e => journalRow x.num (e.drop 4) }
        some (stOk, leBytes 4 x.num ++ zeros 4, refVersion u (a 0) cur.num false)
    | _, _ => some (stBadParam, [], s)

/-! ## Loads and exports (R264) -/

/-- Fields of a TABLE_LOAD or TABLE_EXPORT payload, and its buffer. -/
def tableRangeOk (s : State) (c : Ctx) (t : Table) : Bool :=
  let d := c.data
  let n := fld d 16 4
  zeroAt d 20 4 && decide (1 ≤ n) && decide (n ≤ 65536) && decide (fld d 8 8 + n ≤ t.rows) && fld d 24 8 % 256 == 0 &&
    decide (fld d 24 8 < 2 ^ 41) && bufferOk s c.ws (fld d 24 8) (n * t.rowLen)

/-- Send a loaded record to the other devices that hold copies of its shard. -/
def sendRow (s : State) (t : Table) (v : Nat) (r : List Byte) : State :=
  let shard := rowNumber r % max 1 t.shards
  let devs := (primaryDev s t.gid shard).toList ++ (if t.mirrored then (mirrorDev s t.gid shard).toList else [])
  (devs.filter (· != fabricDev s)).foldl (fun u d => sendCtrl u d t 4 v 0 r) s

/-- Write one record on every copy: the copies of this device, and the devices of the others. -/
def loadRow (s : State) (t : Table) (x : Version) (r : List Byte) : State :=
  let u := match t.placeOf (rowNumber r % max 1 t.shards) with
    | some m => writeRows s t x m [r]
    | none => s
  sendRow u t x.num r

/-- The records of a load that come before the first that breaks R258, or lies in a poisoned granule, and whether there is
none such. -/
def goodRows (s : State) (t : Table) (dpa first : Nat) : Nat → List (List Byte) × Bool
  | 0 => ([], true)
  | n + 1 =>
    let r := readBytes s.mem dpa t.rowLen
    if t.headerOk first r && !poisonIn s.mem dpa t.rowLen then
      let q := goodRows s t (dpa + t.rowLen) (first + 1) n
      (t.loadedRow r :: q.1, q.2)
    else ([], false)

/-- Journal the loaded records of this device's copies before any is written (R264, R366): status and state. -/
def journalLoad (s : State) (h : Nat) (t : Table) (v : Nat) (rs : List (List Byte)) : Nat × State :=
  let of := fun (m : Bool) => rs.filter fun r => t.placeOf (rowNumber r % max 1 t.shards) == some m
  let a := if (of false).isEmpty then (stOk, s) else journalRows s h false v 0 (of false)
  if a.1 ≠ stOk ∨ (of true).isEmpty then a else journalRows a.2 h true v 0 (of true)

/-- Run a load whole: status and state (R264; DESIGN CHOICE, assumption 42). -/
def runLoad (s : State) (h : Nat) (t : Table) (x : Version) (dpa first n : Nat) : Nat × State :=
  let g := goodRows s t dpa first n
  let j := journalLoad s h t x.num g.1
  if j.1 ≠ stOk then (j.1, s)
  else (if g.2 then stOk else stBadParam, g.1.foldl (fun u r => loadRow u t x r) j.2)

/-- TABLE_LOAD's answer. -/
def tableLoad (c : Ctx) (s : State) : Answer × State :=
  let d := c.data
  let h := fld d 0 4
  withTable c s h fun t =>
    match t.version (fld d 4 4) with
    | none => refuse stBadParam s
    | some x =>
      checked [(!t.isPool && tableRangeOk s c t, stBadParam), (t.state != 2 && x.state == 1 && x.discard.isEmpty, stBadParam)]
        (let r := runLoad s h t x (fld d 24 8) (fld d 8 8) (fld d 16 4)
         (.issue stPending (doneWork c [h, x.num] r.1 []),
          modVersion r.2 h x.num fun y => { y with loads := y.loads + 1 })) s

/-- TABLE_LOAD (R264). -/
def execTableLoad (m : MsgSrc) (s : State) : Host.Outcome State Fault Refusal :=
  serve ⟨0x405, .own, false, true, some 32⟩ m tableLoad s

/-- The end of TABLE_LOAD: the load is no longer outstanding (R265). -/
def finishTableLoad (s : State) (k : Ticket) : State :=
  let a := fun i => k.work.args.getD i 0
  settleTable (modVersion s (a 0) (a 1) fun y => { y with loads := y.loads - 1 }) (a 0)

/-- TABLE_EXPORT's answer: the version is held until the ticket's end. -/
def tableExport (c : Ctx) (s : State) : Answer × State :=
  let d := c.data
  let h := fld d 0 4
  withTable c s h fun t =>
    match t.version (fld d 4 4) with
    | none => refuse stBadParam s
    | some x =>
      checked [(tableRangeOk s c t, stBadParam)] (.issue stPending (work c [h, x.num]), refVersion s h x.num true) s

/-- TABLE_EXPORT (R264). -/
def execTableExport (m : MsgSrc) (s : State) : Host.Outcome State Fault Refusal :=
  serve ⟨0x409, .own, false, true, some 32⟩ m tableExport s

/-- The records of a range: those of this device's copies, and, in row order, those that the other holders send (operand
`remote`); none where a row of this device cannot be read (DEDUCED, assumption 73). -/
def exportRows (s : State) (t : Table) (x : Version) : Nat → Nat → List Byte → Option (List Byte)
  | _, 0, _ => some []
  | row, n + 1, remote =>
    match (if t.isPool then none else t.placeOf (row % max 1 t.shards)) with
    | some m => (readRow s t x m row).bind fun r => (exportRows s t x (row + 1) n remote).map (r ++ ·)
    | none => (exportRows s t x (row + 1) n (remote.drop t.rowLen)).map (slice remote 0 t.rowLen ++ ·)

/-- The end of TABLE_EXPORT: the records are written; a row that no holder can read fails it (R264). -/
def finishTableExport (s : State) (k : Ticket) (o : DoneInput) : Option (Nat × List Byte × State) :=
  let d := k.work.payload
  let h := k.work.args.getD 0 0
  match getTable s h with
  | none => some (stBadParam, [], s)
  | some t =>
    match t.version (fld d 4 4) with
    | none => some (stBadParam, [], s)
    | some x =>
      let u := fun (r : State) => refVersion r h x.num false
      match exportRows s t x (fld d 8 8) (fld d 16 4) (o.nums.map fun v => BitVec.ofNat 8 v), o.ok with
      | some l, true => some (stOk, [], u { s with mem := store s.mem (fld d 24 8) l })
      | _, _ => some (stBadParam, [], u s)

/-! ## Sealing, switching, discarding (R265) -/

/-- The version that a short command names. -/
def withVersion (c : Ctx) (s : State) (f : Nat → Table → Version → Answer × State) : Answer × State :=
  let h := fld c.data 0 4
  withTable c s h fun t =>
    match t.version (fld c.data 4 4) with
    | some x => if t.state = 2 then refuse stBadParam s else f h t x
    | none => refuse stBadParam s

/-- TABLE_SEAL's answer. -/
def tableSeal (c : Ctx) (s : State) : Answer × State :=
  withVersion c s fun h _ x =>
    if x.state = 1 ∧ x.loads = 0 ∧ x.discard = [] then
      (.reply stOk [], modVersion s h x.num fun y => { y with state := 2 })
    else refuse stBadParam s

/-- TABLE_SEAL (R265). -/
def execTableSeal (m : MsgSrc) (s : State) : Host.Outcome State Fault Refusal :=
  serve ⟨0x406, .own, false, false, some 8⟩ m tableSeal s

/-- Make a version CURRENT and the former one RETIRING; the table is READY (R257, R265). -/
def Table.switchTo (t : Table) (v : Nat) : Table :=
  { t with
    state := 1
    slots := t.slots.map fun o => o.map fun x =>
      if x.num = v then { x with state := 3 } else if x.state = 3 then { x with state := 4 } else x }

/-- TABLE_SWITCH's answer. -/
def tableSwitch (c : Ctx) (s : State) : Answer × State :=
  withVersion c s fun h t x =>
    if x.state = 2 ∧ x.discard = [] then (.reply stOk [], settleTable (putTable s h (t.switchTo x.num)) h)
    else refuse stBadParam s

/-- TABLE_SWITCH (R265). -/
def execTableSwitch (m : MsgSrc) (s : State) : Host.Outcome State Fault Refusal :=
  serve ⟨0x407, .own, false, false, some 8⟩ m tableSwitch s

/-- TABLE_DISCARD's answer: the ticket completes once the parison's references reach 0 (R265). -/
def tableDiscard (c : Ctx) (s : State) : Answer × State :=
  withVersion c s fun h _ x =>
    if x.state = 1 ∨ x.state = 2 then
      (.issue stPending (work c [h, x.num]), modVersion s h x.num fun y => { y with discard := y.discard ++ [c.ticket] })
    else refuse stBadParam s

/-- TABLE_DISCARD (R265). -/
def execTableDiscard (m : MsgSrc) (s : State) : Host.Outcome State Fault Refusal :=
  serve ⟨0x408, .own, false, true, some 8⟩ m tableDiscard s

/-- The end of TABLE_DISCARD (R265). -/
def finishDiscard (s : State) (k : Ticket) : Option (Nat × List Byte × State) :=
  let a := fun i => k.work.args.getD i 0
  let t := settleTable s (a 0)
  match (getTable t (a 0)).bind (·.version (a 1)) with
  | none => some (stOk, [], t)
  | some _ => none

end Sys2Proof.Machine
end

