-- ==== Sys2Proof/Machine/Tickets.lean ====
section
/-!
DEFINITION. The completion of asynchronous commands (R342), and the end of a workspace (R310).
-/

namespace Sys2Proof.Machine

/-- What the work of an ISSUED ticket comes to now: status, result and state, or none while it goes on. Work that the
command's own events complete is none here. -/
def ticketOutcome (s : State) (t : TicketRef) (k : Ticket) (o : DoneInput) : Option (Nat × List Byte × State) :=
  match k.work.result with
  | some (st, r) => some (st, r, if k.work.op = 0x405 then finishTableLoad s k else s)
  | none =>
    let a := k.work.args.getD 0 0
    match k.work.op with
    | 0x207 => finishKeyRetire s k
    | 0x302 => finishDrop s k
    | 0x304 => finishTrain s k
    | 0x305 => finishImport s k
    | 0x306 => finishExport s k
    | 0x341 => finishUnload s k
    | 0x402 => finishTableDrop s k
    | 0x404 => (finishTableStage s k).map fun r => (r.1, r.2.1, settleDrains r.2.2 a)
    | 0x408 => finishDiscard s k
    | 0x409 => finishTableExport s k o
    | 0x501 => activateSession s k 0
    | 0x505 => finishResume s k o.ok
    | 0x521 => finishCbUnload s k
    | 0x703 => finishRetrain s k t
    | 0x910 => finishStage s t o.ok
    | 0xA03 => finishClear s k.work
    | _ => none

/-- Work whose end its own operation finds and reports. -/
def settleWork (s : State) (t : TicketRef) (k : Ticket) : State :=
  let a := k.work.args.getD 0 0
  match k.work.op with
  | 0x502 => settleSession s k.work.ws a
  | 0x602 => settleRing s t.owner a
  | 0x611 => settleChannel s a
  | 0x612 => settleChannel s a
  | 0x804 => settleOffline s a
  | _ => s

/-- An asynchronous command finishes and its single DONE message is posted (R342). -/
def ticketDone (t : TicketRef) (o : DoneInput) (s : State) : State :=
  match findTicket s t with
  | none => s
  | some k =>
    if k.done || doneQueued s t then s
    else match ticketOutcome s t k o with
      | some (st, r, u) => finishTicket u t st r
      | none => settleWork s t k

/-- TICKET_DONE (R342). -/
def execTicketDone (t : TicketRef) (o : DoneInput) (s : State) : Host.Outcome State Fault Refusal :=
  .next (when (firmwareRuns s) (ticketDone t o) s)

/-! ## The end of a workspace (R310) -/

/-- Whether requests that the workspace had admitted have finished (DEDUCED, assumption 130). -/
def wsQuiet (s : State) (ws : Nat) : Bool :=
  (s.hub.slots.all (·.2.ws != ws)) && (s.hub.subreqs.all (·.ws != ws)) &&
    s.move.chans.all fun c => c.2.ws != ws || c.2.job.isNone || c.2.state == 2 || c.2.state == 3

/-- Drop the workspace's indexes and tables as their drop commands would. -/
def dropIndexes (s : State) (ws : Nat) : State :=
  let ix := (s.indexes.filter (·.2.ws == ws)).foldl (fun t p => settleIndex (dropIndex t p.1 []) p.1) s
  (ix.tables.filter (·.2.ws == ws)).foldl (fun t p => settleTable (putTable t p.1 { p.2 with state := 2 }) p.1) ix

/-- Drop its sessions with their images, and its durable requests' copies. -/
def dropSessions (s : State) (ws : Nat) : State :=
  let t := (s.sessions.filter (·.ws == ws)).foldl (fun t x =>
    let u := if x.handle = 0 then t else releaseSession (tellSession t x 20 []) x 3
    finishAll (eraseSession u x) (x.ticket.toList ++ x.destroy) stCancelled []) s
  let copies := t.requests.copies.filter (·.ws != ws)
  { t with requests := { t.requests with copies := copies } }

/-- Drop its programs and codebook sets. -/
def dropPrograms (s : State) (ws : Nat) : State :=
  let t := (s.hub.programs.filter (·.2.ws == ws)).foldl (fun t p =>
    settleProgram (putProgram t p.1 { p.2 with loads := 0, closing := true }) p.1) s
  (t.cbSets.filter (·.2.ws == ws)).foldl (fun t p => settleBook (putBook t p.1 { p.2 with loads := 0, closing := true }) p.1) t

/-- Whether anything of a workspace is left to drop. -/
def wsEmpty (s : State) (ws : Nat) : Bool :=
  (s.indexes.all (·.2.ws != ws)) && (s.tables.all (·.2.ws != ws)) && (s.sessions.all (·.ws != ws)) &&
    (s.hub.programs.all (·.2.ws != ws)) && s.cbSets.all (·.2.ws != ws)

/-- Clear and free every page of a workspace; the tickets of buffers that were being freed complete. -/
def freeWsPages (s : State) (ws : Nat) : State :=
  let t := (s.guard.owners.filter (·.ws == ws)).foldl (fun t r => freePages (clearPages t r.base r.pages) r.base) s
  finishAll t ((getWs s ws).regions.filterMap (·.closing)) stOk []

/-- Disable each function still bound to a workspace, without a disable ticket (R377). -/
def disableBound (s : State) (ws : Nat) : State :=
  ((wsFns s ws).filter (·.2.state == 1)).foldl (fun t p => disableFn t p.1 []) s

/-- Steps 3 to 6 of the end of a workspace (R310): its functions are disabled and its objects dropped, its pages are
freed and cleared, its keys erased, and it becomes FREE once each of its functions is DISABLED (R377). -/
def endWorkspace (ws : Nat) (s : State) : State :=
  let t := dropPrograms (dropSessions (dropIndexes (disableBound s ws) ws) ws) ws
  if wsEmpty t ws then
    let u := deleteStreams (freeWsPages t ws) fun x => x.ws == ws && decide (3 ≤ x.kind)
    let sets := u.flash.sets.filter (·.ws != ws)
    let u := { u with flash := { u.flash with sets := sets } }
    let keys := u.guard.keys.filter (·.1 != ws)
    let u := { u with guard := { u.guard with keys := keys } }
    if (wsFns u ws).isEmpty then finishAll { u with wss := Tab.erase u.wss ws } (getWs s ws).destroy.toList stOk []
    else u
  else t

/-- WS_DESTROY_PROCEED (R310). -/
def execWsDestroyProceed (ws : Nat) (s : State) : Host.Outcome State Fault Refusal :=
  .next (when (firmwareRuns s && (getWs s ws).state == 2 && wsQuiet s ws) (endWorkspace ws) s)

end Sys2Proof.Machine
end

