-- ==== Sys2Proof/Machine/Dispatch.lean ====
section
/-!
DEFINITION. The meaning of each command: one arm per constructor of Instr.
-/

namespace Sys2Proof.Machine

def exec (i : Instr) (s : State) : Host.Outcome State Fault Refusal :=
  match i with
  | .devInfo m => Sys2Proof.Machine.execDevInfo m s
  | .devLayout m => Sys2Proof.Machine.execDevLayout m s
  | .devIdentity m => Sys2Proof.Machine.execDevIdentity m s
  | .devEcho m => Sys2Proof.Machine.execDevEcho m s
  | .ticketInfo m => Sys2Proof.Machine.execTicketInfo m s
  | .guardInfo m => Sys2Proof.Machine.execGuardInfo m s
  | .guardSet m => Sys2Proof.Machine.execGuardSet m s
  | .funcEnable m => Sys2Proof.Machine.execFuncEnable m s
  | .funcDisable m => Sys2Proof.Machine.execFuncDisable m s
  | .funcInfo m => Sys2Proof.Machine.execFuncInfo m s
  | .funcDisableDone fn => Sys2Proof.Machine.execFuncDisableDone fn s
  | .wsCreate m => Sys2Proof.Machine.execWsCreate m s
  | .wsDestroy m => Sys2Proof.Machine.execWsDestroy m s
  | .wsDestroyProceed ws => Sys2Proof.Machine.execWsDestroyProceed ws s
  | .wsInfo m => Sys2Proof.Machine.execWsInfo m s
  | .wsSetQuota m => Sys2Proof.Machine.execWsSetQuota m s
  | .wsSettings m => Sys2Proof.Machine.execWsSettings m s
  | .wsKeyLoad m => Sys2Proof.Machine.execWsKeyLoad m s
  | .wsKeyRetire m => Sys2Proof.Machine.execWsKeyRetire m s
  | .regionAlloc m => Sys2Proof.Machine.execRegionAlloc m s
  | .regionFree m => Sys2Proof.Machine.execRegionFree m s
  | .regionRelease ws base => Sys2Proof.Machine.execRegionRelease ws base s
  | .indexCreate m => Sys2Proof.Machine.execIndexCreate m s
  | .indexDrop m => Sys2Proof.Machine.execIndexDrop m s
  | .indexInfo m => Sys2Proof.Machine.execIndexInfo m s
  | .indexTrain m => Sys2Proof.Machine.execIndexTrain m s
  | .indexImport m => Sys2Proof.Machine.execIndexImport m s
  | .indexExport m => Sys2Proof.Machine.execIndexExport m s
  | .indexStats m => Sys2Proof.Machine.execIndexStats m s
  | .indexPin m => Sys2Proof.Machine.execIndexPin m s
  | .indexUnpin m => Sys2Proof.Machine.execIndexUnpin m s
  | .programLoad m => Sys2Proof.Machine.execProgramLoad m s
  | .programUnload m => Sys2Proof.Machine.execProgramUnload m s
  | .programInfo m => Sys2Proof.Machine.execProgramInfo m s
  | .tableCreate m => Sys2Proof.Machine.execTableCreate m s
  | .tableDrop m => Sys2Proof.Machine.execTableDrop m s
  | .tableInfo m => Sys2Proof.Machine.execTableInfo m s
  | .tableStage m => Sys2Proof.Machine.execTableStage m s
  | .tableLoad m => Sys2Proof.Machine.execTableLoad m s
  | .tableSeal m => Sys2Proof.Machine.execTableSeal m s
  | .tableSwitch m => Sys2Proof.Machine.execTableSwitch m s
  | .tableDiscard m => Sys2Proof.Machine.execTableDiscard m s
  | .tableExport m => Sys2Proof.Machine.execTableExport m s
  | .sessionCreate m => Sys2Proof.Machine.execSessionCreate m s
  | .sessionDestroy m => Sys2Proof.Machine.execSessionDestroy m s
  | .sessionInfo m => Sys2Proof.Machine.execSessionInfo m s
  | .sessionAnneal m => Sys2Proof.Machine.execSessionAnneal m s
  | .annealFlush ws key => Sys2Proof.Machine.execAnnealFlush ws key s
  | .annealStripe ws key => Sys2Proof.Machine.execAnnealStripe ws key s
  | .annealManifest ws key locator => Sys2Proof.Machine.execAnnealManifest ws key locator s
  | .annealRelease ws key => Sys2Proof.Machine.execAnnealRelease ws key s
  | .sessionRoll ws key ok => Sys2Proof.Machine.execSessionRoll ws key ok s
  | .sessionResume m => Sys2Proof.Machine.execSessionResume m s
  | .imageDelete m => Sys2Proof.Machine.execImageDelete m s
  | .reqStatus m => Sys2Proof.Machine.execReqStatus m s
  | .reqCancel m => Sys2Proof.Machine.execReqCancel m s
  | .reqHandoff m => Sys2Proof.Machine.execReqHandoff m s
  | .attnCbLoad m => Sys2Proof.Machine.execAttnCbLoad m s
  | .attnCbUnload m => Sys2Proof.Machine.execAttnCbUnload m s
  | .ringCreate m => Sys2Proof.Machine.execRingCreate m s
  | .ringDestroy m => Sys2Proof.Machine.execRingDestroy m s
  | .ringInfo m => Sys2Proof.Machine.execRingInfo m s
  | .moveOpen m => Sys2Proof.Machine.execMoveOpen m s
  | .moveClose m => Sys2Proof.Machine.execMoveClose m s
  | .movePause m => Sys2Proof.Machine.execMovePause m s
  | .moveResume m => Sys2Proof.Machine.execMoveResume m s
  | .moveInfo m => Sys2Proof.Machine.execMoveInfo m s
  | .moveRate m => Sys2Proof.Machine.execMoveRate m s
  | .fabPortInfo m => Sys2Proof.Machine.execFabPortInfo m s
  | .fabPortSet m => Sys2Proof.Machine.execFabPortSet m s
  | .fabRetrain m => Sys2Proof.Machine.execFabRetrain m s
  | .fabPeers m => Sys2Proof.Machine.execFabPeers m s
  | .timeInfo m => Sys2Proof.Machine.execTimeInfo m s
  | .groupInfo m => Sys2Proof.Machine.execGroupInfo m s
  | .schedInfo m => Sys2Proof.Machine.execSchedInfo m s
  | .schedClassSet m => Sys2Proof.Machine.execSchedClassSet m s
  | .schedGateLoad m => Sys2Proof.Machine.execSchedGateLoad m s
  | .schedSample m => Sys2Proof.Machine.execSchedSample m s
  | .flashInfo m => Sys2Proof.Machine.execFlashInfo m s
  | .flashHealth m => Sys2Proof.Machine.execFlashHealth m s
  | .flashSet m => Sys2Proof.Machine.execFlashSet m s
  | .flashCarrierOffline m => Sys2Proof.Machine.execFlashCarrierOffline m s
  | .flashCarrierOnline m => Sys2Proof.Machine.execFlashCarrierOnline m s
  | .maintStart m => Sys2Proof.Machine.execMaintStart m s
  | .maintCancel m => Sys2Proof.Machine.execMaintCancel m s
  | .maintStatus m => Sys2Proof.Machine.execMaintStatus m s
  | .healthInfo m => Sys2Proof.Machine.execHealthInfo m s
  | .healthSet m => Sys2Proof.Machine.execHealthSet m s
  | .fwStage m => Sys2Proof.Machine.execFwStage m s
  | .fwActivate m => Sys2Proof.Machine.execFwActivate m s
  | .ucodeLoad m => Sys2Proof.Machine.execUcodeLoad m s
  | .opticsRecal m => Sys2Proof.Machine.execOpticsRecal m s
  | .stackRetire m => Sys2Proof.Machine.execStackRetire m s
  | .caneRetire m => Sys2Proof.Machine.execCaneRetire m s
  | .devDrain m => Sys2Proof.Machine.execDevDrain m s
  | .evrInfo m => Sys2Proof.Machine.execEvrInfo m s
  | .evrArchiveRead m => Sys2Proof.Machine.execEvrArchiveRead m s
  | .evrClear m => Sys2Proof.Machine.execEvrClear m s
  | .evrClassSet m => Sys2Proof.Machine.execEvrClassSet m s
  | .unknownOpcode m => Sys2Proof.Machine.execUnknownOpcode m s
  | .ticketDone t o => Sys2Proof.Machine.execTicketDone t o s
  | .mbxDoorbell p => Sys2Proof.Machine.execMbxDoorbell p s
  | .mbxRespReady p => Sys2Proof.Machine.execMbxRespReady p s
  | .sqPiDoorbell p => Sys2Proof.Machine.execSqPiDoorbell p s
  | .cqCiWrite p => Sys2Proof.Machine.execCqCiWrite p s
  | .interruptVectorWrite p => Sys2Proof.Machine.execInterruptVectorWrite p s
  | .evwCursorWrite p => Sys2Proof.Machine.execEvwCursorWrite p s
  | .registerWrite p => Sys2Proof.Machine.execRegisterWrite p s
  | .windowBadAccess p isWrite => Sys2Proof.Machine.execWindowBadAccess p isWrite s
  | .coalescingTimer fn vec => Sys2Proof.Machine.execCoalescingTimer fn vec s
  | .queryEntry fn ring h => Sys2Proof.Machine.execQueryEntry fn ring h s
  | .insertEntry fn ring h => Sys2Proof.Machine.execInsertEntry fn ring h s
  | .deleteEntry fn ring h => Sys2Proof.Machine.execDeleteEntry fn ring h s
  | .attnStep fn ring h => Sys2Proof.Machine.execAttnStep fn ring h s
  | .gatherEntry fn ring h => Sys2Proof.Machine.execGatherEntry fn ring h s
  | .updateEntry fn ring h => Sys2Proof.Machine.execUpdateEntry fn ring h s
  | .topkEntry fn ring h => Sys2Proof.Machine.execTopkEntry fn ring h s
  | .requestEntry fn ring h => Sys2Proof.Machine.execRequestEntry fn ring h s
  | .modelRun fn ring h => Sys2Proof.Machine.execModelRun fn ring h s
  | .hashGet fn ring h => Sys2Proof.Machine.execHashGet fn ring h s
  | .hashPut fn ring h => Sys2Proof.Machine.execHashPut fn ring h s
  | .hashDelete fn ring h => Sys2Proof.Machine.execHashDelete fn ring h s
  | .ringRejection fn ring => Sys2Proof.Machine.execRingRejection fn ring s
  | .slotsExhausted => Sys2Proof.Machine.execSlotsExhausted s
  | .scanSubrequest ident => Sys2Proof.Machine.execScanSubrequest ident s
  | .thresholdPass ident => Sys2Proof.Machine.execThresholdPass ident s
  | .refineSubrequest ident => Sys2Proof.Machine.execRefineSubrequest ident s
  | .attnScoreSubrequest ident => Sys2Proof.Machine.execAttnScoreSubrequest ident s
  | .attnPartialSubrequest ident => Sys2Proof.Machine.execAttnPartialSubrequest ident s
  | .gatherSubrequest ident => Sys2Proof.Machine.execGatherSubrequest ident s
  | .updateSubrequest ident => Sys2Proof.Machine.execUpdateSubrequest ident s
  | .hashGetSubrequest ident => Sys2Proof.Machine.execHashGetSubrequest ident s
  | .frontierReached ident => Sys2Proof.Machine.execFrontierReached ident s
  | .frontierWaitTimeout ident => Sys2Proof.Machine.execFrontierWaitTimeout ident s
  | .subreqReply slot kind shard r => Sys2Proof.Machine.execSubreqReply slot kind shard r s
  | .subreqTimeout slot kind shard => Sys2Proof.Machine.execSubreqTimeout slot kind shard s
  | .coarseBatchClose engine index => Sys2Proof.Machine.execCoarseBatchClose engine index s
  | .changeMsg c => Sys2Proof.Machine.execChangeMsg c s
  | .changeComplete index shard epoch acked => Sys2Proof.Machine.execChangeComplete index shard epoch acked s
  | .frontierNotice index => Sys2Proof.Machine.execFrontierNotice index s
  | .frontierMsg ws key shard frontier src => Sys2Proof.Machine.execFrontierMsg ws key shard frontier src s
  | .lowEpochPublish index => Sys2Proof.Machine.execLowEpochPublish index s
  | .statsSnapshot index mirror => Sys2Proof.Machine.execStatsSnapshot index mirror s
  | .groupSnapshot ws key shard sn => Sys2Proof.Machine.execGroupSnapshot ws key shard sn s
  | .compact index mirror list seq => Sys2Proof.Machine.execCompact index mirror list seq s
  | .marverCommandStart unit c => Sys2Proof.Machine.execMarverCommandStart unit c s
  | .lutLoad units => Sys2Proof.Machine.execLutLoad units s
  | .scan8 unit errs => Sys2Proof.Machine.execScan8 unit errs s
  | .scan4 unit errs => Sys2Proof.Machine.execScan4 unit errs s
  | .marverFilter unit errs => Sys2Proof.Machine.execMarverFilter unit errs s
  | .blockScore unit errs => Sys2Proof.Machine.execBlockScore unit errs s
  | .attnKey unit errs => Sys2Proof.Machine.execAttnKey unit errs s
  | .attnValue unit errs => Sys2Proof.Machine.execAttnValue unit errs s
  | .marverPool unit errs => Sys2Proof.Machine.execMarverPool unit errs s
  | .gradRmw unit errs => Sys2Proof.Machine.execGradRmw unit errs s
  | .marverAppend unit errs => Sys2Proof.Machine.execMarverAppend unit errs s
  | .marverMark unit errs => Sys2Proof.Machine.execMarverMark unit errs s
  | .marverCopy unit errs => Sys2Proof.Machine.execMarverCopy unit errs s
  | .marverScrub unit errs => Sys2Proof.Machine.execMarverScrub unit errs s
  | .marverDrain unit errs => Sys2Proof.Machine.execMarverDrain unit errs s
  | .diebusXfer die base errs => Sys2Proof.Machine.execDiebusXfer die base errs s
  | .hostSlot unit a => Sys2Proof.Machine.execHostSlot unit a s
  | .bankRefresh bank => Sys2Proof.Machine.execBankRefresh bank s
  | .poisonRewrite dpa data => Sys2Proof.Machine.execPoisonRewrite dpa data s
  | .coarseScoring engine j err => Sys2Proof.Machine.execCoarseScoring engine j err s
  | .subDistanceTable engine j err => Sys2Proof.Machine.execSubDistanceTable engine j err s
  | .insertEncoding engine j err => Sys2Proof.Machine.execInsertEncoding engine j err s
  | .refinement engine j err => Sys2Proof.Machine.execRefinement engine j err s
  | .modelProgramJob engine j err => Sys2Proof.Machine.execModelProgramJob engine j err s
  | .hotRowChunk engine j err => Sys2Proof.Machine.execHotRowChunk engine j err s
  | .trainingPass engine j err => Sys2Proof.Machine.execTrainingPass engine j err s
  | .jackPass unit ctx bind => Sys2Proof.Machine.execJackPass unit ctx bind s
  | .slotSchedule core => Sys2Proof.Machine.execSlotSchedule core s
  | .slotReply slot => Sys2Proof.Machine.execSlotReply slot s
  | .slotRelease slot => Sys2Proof.Machine.execSlotRelease slot s
  | .attnPositionRelease slot => Sys2Proof.Machine.execAttnPositionRelease slot s
  | .kvSpill ws key => Sys2Proof.Machine.execKvSpill ws key s
  | .sessionJournalWrite ws key e => Sys2Proof.Machine.execSessionJournalWrite ws key e s
  | .blockRebuild ws key layer head block src => Sys2Proof.Machine.execBlockRebuild ws key layer head block src s
  | .announce ws key v u coord => Sys2Proof.Machine.execAnnounce ws key v u coord s
  | .drained ws key v u src => Sys2Proof.Machine.execDrained ws key v u src s
  | .committed ws key v u => Sys2Proof.Machine.execCommitted ws key v u s
  | .updateSeqRelease slot => Sys2Proof.Machine.execUpdateSeqRelease slot s
  | .poolResp txn tagOk rec => Sys2Proof.Machine.execPoolResp txn tagOk rec s
  | .poolReadTimeout txn => Sys2Proof.Machine.execPoolReadTimeout txn s
  | .phaseDispatch ws ident h => Sys2Proof.Machine.execPhaseDispatch ws ident h s
  | .bindingRecord ws ident accepted => Sys2Proof.Machine.execBindingRecord ws ident accepted s
  | .checkpoint ws ident accepted c => Sys2Proof.Machine.execCheckpoint ws ident accepted c s
  | .ownerBeat ws ident => Sys2Proof.Machine.execOwnerBeat ws ident s
  | .orphanSweep => Sys2Proof.Machine.execOrphanSweep s
  | .orphanMsg ws ident epoch pool => Sys2Proof.Machine.execOrphanMsg ws ident epoch pool s
  | .handoff c => Sys2Proof.Machine.execHandoff c s
  | .handoffAck ws ident epoch heldNone => Sys2Proof.Machine.execHandoffAck ws ident epoch heldNone s
  | .handoffResend ws ident => Sys2Proof.Machine.execHandoffResend ws ident s
  | .claimMsg ws ident copies => Sys2Proof.Machine.execClaimMsg ws ident copies s
  | .probeMsg ws ident => Sys2Proof.Machine.execProbeMsg ws ident s
  | .stateLost ws ident => Sys2Proof.Machine.execStateLost ws ident s
  | .requestCompletion ws ident => Sys2Proof.Machine.execRequestCompletion ws ident s
  | .inputRise vin => Sys2Proof.Machine.execInputRise vin s
  | .railsTimeout railsOk => Sys2Proof.Machine.execRailsTimeout railsOk s
  | .powerOnResetRelease => Sys2Proof.Machine.execPowerOnResetRelease s
  | .strapSample mv => Sys2Proof.Machine.execStrapSample mv s
  | .guardIntervalEnd => Sys2Proof.Machine.execGuardIntervalEnd s
  | .bootLoad flash => Sys2Proof.Machine.execBootLoad flash s
  | .recoveryLoad pkg => Sys2Proof.Machine.execRecoveryLoad pkg s
  | .stopLine => Sys2Proof.Machine.execStopLine s
  | .stackDiscovery steps => Sys2Proof.Machine.execStackDiscovery steps s
  | .flashTargetProbe chan probes => Sys2Proof.Machine.execFlashTargetProbe chan probes s
  | .runEntry => Sys2Proof.Machine.execRunEntry s
  | .startWait => Sys2Proof.Machine.execStartWait s
  | .inputDropBeforeRun vin => Sys2Proof.Machine.execInputDropBeforeRun vin s
  | .i3cEntdaa addr => Sys2Proof.Machine.execI3cEntdaa addr s
  | .membership m pools => Sys2Proof.Machine.execMembership m pools s
  | .renewSend group => Sys2Proof.Machine.execRenewSend group s
  | .grantMsg group epoch expiry seq => Sys2Proof.Machine.execGrantMsg group epoch expiry seq s
  | .leaseLapse group => Sys2Proof.Machine.execLeaseLapse group s
  | .releaseSend group => Sys2Proof.Machine.execReleaseSend group s
  | .rebuild obj table mirror source => Sys2Proof.Machine.execRebuild obj table mirror source s
  | .scoreDecay => Sys2Proof.Machine.execScoreDecay s
  | .lehrAdmit ident => Sys2Proof.Machine.execLehrAdmit ident s
  | .lehrRoundEnd ident finished => Sys2Proof.Machine.execLehrRoundEnd ident finished s
  | .wavelengthFail port wl => Sys2Proof.Machine.execWavelengthFail port wl s
  | .remapFrame port lane wl first => Sys2Proof.Machine.execRemapFrame port lane wl first s
  | .wavelengthRetrain port rx wl pass => Sys2Proof.Machine.execWavelengthRetrain port rx wl pass s
  | .portTrainTimeout port => Sys2Proof.Machine.execPortTrainTimeout port s
  | .portUp port txPass rxPass delay => Sys2Proof.Machine.execPortUp port txPass rxPass delay s
  | .probePulse port => Sys2Proof.Machine.execProbePulse port s
  | .lightReceived port => Sys2Proof.Machine.execLightReceived port s
  | .openFibre port => Sys2Proof.Machine.execOpenFibre port s
  | .laserFeedLost feed => Sys2Proof.Machine.execLaserFeedLost feed s
  | .fibreConnLost cane => Sys2Proof.Machine.execFibreConnLost cane s
  | .fibreConnRestored cane => Sys2Proof.Machine.execFibreConnRestored cane s
  | .dataFrame port corrected uncorrectable f => Sys2Proof.Machine.execDataFrame port corrected uncorrectable f s
  | .frameReplayTimeout port => Sys2Proof.Machine.execFrameReplayTimeout port s
  | .helloMsg port msg => Sys2Proof.Machine.execHelloMsg port msg s
  | .helloTimeout port => Sys2Proof.Machine.execHelloTimeout port s
  | .linkState src ls => Sys2Proof.Machine.execLinkState src ls s
  | .linkStateTimer => Sys2Proof.Machine.execLinkStateTimer s
  | .flowIdle dst vc => Sys2Proof.Machine.execFlowIdle dst vc s
  | .packetReceive => Sys2Proof.Machine.execPacketReceive s
  | .e2eAck src vc seq nak => Sys2Proof.Machine.execE2eAck src vc seq nak s
  | .tc7Resend dst vc seq => Sys2Proof.Machine.execTc7Resend dst vc seq s
  | .memWrite p => Sys2Proof.Machine.execMemWrite p s
  | .memRead p => Sys2Proof.Machine.execMemRead p s
  | .ptpTime port msg => Sys2Proof.Machine.execPtpTime port msg s
  | .holdover => Sys2Proof.Machine.execHoldover s
  | .refLost => Sys2Proof.Machine.execRefLost s
  | .refRestored => Sys2Proof.Machine.execRefRestored s
  | .ppsPulse => Sys2Proof.Machine.execPpsPulse s
  | .ppsLost => Sys2Proof.Machine.execPpsLost s
  | .ppsOutputEdge => Sys2Proof.Machine.execPpsOutputEdge s
  | .packetSelect port => Sys2Proof.Machine.execPacketSelect port s
  | .gateTakeOver port => Sys2Proof.Machine.execGateTakeOver port s
  | .gateEntryChange port => Sys2Proof.Machine.execGateEntryChange port s
  | .queueSample port => Sys2Proof.Machine.execQueueSample port s
  | .moveDescriptorStart chan => Sys2Proof.Machine.execMoveDescriptorStart chan s
  | .moveBurstIssue => Sys2Proof.Machine.execMoveBurstIssue s
  | .moveBurstDone chan off h => Sys2Proof.Machine.execMoveBurstDone chan off h s
  | .flashOperation chan target o => Sys2Proof.Machine.execFlashOperation chan target o s
  | .reclaim group => Sys2Proof.Machine.execReclaim group s
  | .wearMove group => Sys2Proof.Machine.execWearMove group s
  | .flashPatrol group => Sys2Proof.Machine.execFlashPatrol group s
  | .groupMount group src => Sys2Proof.Machine.execGroupMount group src s
  | .carrierPresent group probes => Sys2Proof.Machine.execCarrierPresent group probes s
  | .carrierRemoved group => Sys2Proof.Machine.execCarrierRemoved group s
  | .stripeForm stream fold => Sys2Proof.Machine.execStripeForm stream fold s
  | .stripeUnitDurable setId index member => Sys2Proof.Machine.execStripeUnitDurable setId index member s
  | .stripeMemberTimeout setId index member => Sys2Proof.Machine.execStripeMemberTimeout setId index member s
  | .stripeSetRebuild setId lost units => Sys2Proof.Machine.execStripeSetRebuild setId lost units s
  | .flashTempRead temps => Sys2Proof.Machine.execFlashTempRead temps s
  | .eventIntake => Sys2Proof.Machine.execEventIntake s
  | .alarmLatchWrite => Sys2Proof.Machine.execAlarmLatchWrite s
  | .logSummary code => Sys2Proof.Machine.execLogSummary code s
  | .dropSummary => Sys2Proof.Machine.execDropSummary s
  | .archiveWrite => Sys2Proof.Machine.execArchiveWrite s
  | .statusFrame f => Sys2Proof.Machine.execStatusFrame f s
  | .statusLinkLost => Sys2Proof.Machine.execStatusLinkLost s
  | .powerCapCompare => Sys2Proof.Machine.execPowerCapCompare s
  | .powerDutyRise => Sys2Proof.Machine.execPowerDutyRise s
  | .inputLow => Sys2Proof.Machine.execInputLow s
  | .inputHigh => Sys2Proof.Machine.execInputHigh s
  | .entryTrip cause => Sys2Proof.Machine.execEntryTrip cause s
  | .tripRestart => Sys2Proof.Machine.execTripRestart s
  | .powerLoss => Sys2Proof.Machine.execPowerLoss s
  | .flushDone => Sys2Proof.Machine.execFlushDone s
  | .railCollapse vin => Sys2Proof.Machine.execRailCollapse vin s
  | .resetRequest => Sys2Proof.Machine.execResetRequest s
  | .alarmNRelease => Sys2Proof.Machine.execAlarmNRelease s
  | .thermalSample hub stk cane fh => Sys2Proof.Machine.execThermalSample hub stk cane fh s
  | .thermalDutyStep => Sys2Proof.Machine.execThermalDutyStep s
  | .thermalTrip kind inst => Sys2Proof.Machine.execThermalTrip kind inst s
  | .thermalReport => Sys2Proof.Machine.execThermalReport s
  | .puntyFlip core => Sys2Proof.Machine.execPuntyFlip core s
  | .benchFlip => Sys2Proof.Machine.execBenchFlip s
  | .fwConfirm => Sys2Proof.Machine.execFwConfirm s
  | .fwActivateReverted => Sys2Proof.Machine.execFwActivateReverted s
  | .ucodeSwitch unit => Sys2Proof.Machine.execUcodeSwitch unit s
  | .regionMigrate page => Sys2Proof.Machine.execRegionMigrate page s
  | .streamMove group stream unit => Sys2Proof.Machine.execStreamMove group stream unit s
  | .drainDone => Sys2Proof.Machine.execDrainDone s
  | .probeReturn port => Sys2Proof.Machine.execProbeReturn port s
  | .helloSendTimer port => Sys2Proof.Machine.execHelloSendTimer port s
  | .ptpSendTimer port kind => Sys2Proof.Machine.execPtpSendTimer port kind s
  | .coreFault jack inst => Sys2Proof.Machine.execCoreFault jack inst s

end Sys2Proof.Machine
end

