-- ==== Sys2Proof/WellFormed.lean ====
section
/-!
DEFINITION. Well-formed commands: operands that the interface of each row can carry, in the numbers of the part (functions, rings,
ports, engines, units) and the widths of the fields they come from. A row does not ask for it: what a command outside these bounds
does is said by its meaning.
-/

namespace Sys2Proof

open Sys2Proof.Machine

/-- A Guliq message comes from one of 16 request slots of a function, or from the management endpoint with at most 1,024 bytes
(R334, R362). -/
def Machine.MsgSrc.wf : MsgSrc → Bool
  | .slot fn idx => decide (fn < 256) && decide (idx < 16)
  | .bmc bytes => decide (bytes.length ≤ 1024)

/-- A register packet carries 4 or 8 bytes, or fewer or more for the accesses that the window answers as bad; its function is one of
256 (R330, R331). -/
def Machine.RegPkt.wf (p : RegPkt) : Bool := decide (p.fn < 256) && decide (p.offset < 2 ^ 20) && decide (p.data.length ≤ 64)

/-- Well-formed commands. -/
def Instr.wellFormed : Instr → Bool
  | .devInfo m => m.wf
  | .devLayout m => m.wf
  | .devIdentity m => m.wf
  | .devEcho m => m.wf
  | .ticketInfo m => m.wf
  | .guardInfo m => m.wf
  | .guardSet m => m.wf
  | .funcEnable m => m.wf
  | .funcDisable m => m.wf
  | .funcInfo m => m.wf
  | .funcDisableDone fn => decide (fn < 256)
  | .wsCreate m => m.wf
  | .wsDestroy m => m.wf
  | .wsDestroyProceed ws => decide (ws < 4096)
  | .wsInfo m => m.wf
  | .wsSetQuota m => m.wf
  | .wsSettings m => m.wf
  | .wsKeyLoad m => m.wf
  | .wsKeyRetire m => m.wf
  | .regionAlloc m => m.wf
  | .regionFree m => m.wf
  | .regionRelease ws base => decide (ws < 4096) && decide (base < 2 ^ 25)
  | .indexCreate m => m.wf
  | .indexDrop m => m.wf
  | .indexInfo m => m.wf
  | .indexTrain m => m.wf
  | .indexImport m => m.wf
  | .indexExport m => m.wf
  | .indexStats m => m.wf
  | .indexPin m => m.wf
  | .indexUnpin m => m.wf
  | .programLoad m => m.wf
  | .programUnload m => m.wf
  | .programInfo m => m.wf
  | .tableCreate m => m.wf
  | .tableDrop m => m.wf
  | .tableInfo m => m.wf
  | .tableStage m => m.wf
  | .tableLoad m => m.wf
  | .tableSeal m => m.wf
  | .tableSwitch m => m.wf
  | .tableDiscard m => m.wf
  | .tableExport m => m.wf
  | .sessionCreate m => m.wf
  | .sessionDestroy m => m.wf
  | .sessionInfo m => m.wf
  | .sessionAnneal m => m.wf
  | .annealFlush ws key => decide (ws < 4096) && decide (key < 2 ^ 64)
  | .annealStripe ws key => decide (ws < 4096) && decide (key < 2 ^ 64)
  | .annealManifest ws key _ => decide (ws < 4096) && decide (key < 2 ^ 64)
  | .annealRelease ws key => decide (ws < 4096) && decide (key < 2 ^ 64)
  | .sessionRoll ws key _ => decide (ws < 4096) && decide (key < 2 ^ 64)
  | .sessionResume m => m.wf
  | .imageDelete m => m.wf
  | .reqStatus m => m.wf
  | .reqCancel m => m.wf
  | .reqHandoff m => m.wf
  | .attnCbLoad m => m.wf
  | .attnCbUnload m => m.wf
  | .ringCreate m => m.wf
  | .ringDestroy m => m.wf
  | .ringInfo m => m.wf
  | .moveOpen m => m.wf
  | .moveClose m => m.wf
  | .movePause m => m.wf
  | .moveResume m => m.wf
  | .moveInfo m => m.wf
  | .moveRate m => m.wf
  | .fabPortInfo m => m.wf
  | .fabPortSet m => m.wf
  | .fabRetrain m => m.wf
  | .fabPeers m => m.wf
  | .timeInfo m => m.wf
  | .groupInfo m => m.wf
  | .schedInfo m => m.wf
  | .schedClassSet m => m.wf
  | .schedGateLoad m => m.wf
  | .schedSample m => m.wf
  | .flashInfo m => m.wf
  | .flashHealth m => m.wf
  | .flashSet m => m.wf
  | .flashCarrierOffline m => m.wf
  | .flashCarrierOnline m => m.wf
  | .maintStart m => m.wf
  | .maintCancel m => m.wf
  | .maintStatus m => m.wf
  | .healthInfo m => m.wf
  | .healthSet m => m.wf
  | .fwStage m => m.wf
  | .fwActivate m => m.wf
  | .ucodeLoad m => m.wf
  | .opticsRecal m => m.wf
  | .stackRetire m => m.wf
  | .caneRetire m => m.wf
  | .devDrain m => m.wf
  | .evrInfo m => m.wf
  | .evrArchiveRead m => m.wf
  | .evrClear m => m.wf
  | .evrClassSet m => m.wf
  | .unknownOpcode m => m.wf
  | .ticketDone _ _ => true
  | .mbxDoorbell p => p.wf
  | .mbxRespReady p => p.wf
  | .sqPiDoorbell p => p.wf
  | .cqCiWrite p => p.wf
  | .interruptVectorWrite p => p.wf
  | .evwCursorWrite p => p.wf
  | .registerWrite p => p.wf
  | .windowBadAccess p _ => p.wf
  | .coalescingTimer fn vec => decide (fn < 256) && decide (vec < 256)
  | .queryEntry fn ring _ => decide (fn < 256) && decide (ring < 256)
  | .insertEntry fn ring _ => decide (fn < 256) && decide (ring < 256)
  | .deleteEntry fn ring _ => decide (fn < 256) && decide (ring < 256)
  | .attnStep fn ring _ => decide (fn < 256) && decide (ring < 256)
  | .gatherEntry fn ring _ => decide (fn < 256) && decide (ring < 256)
  | .updateEntry fn ring _ => decide (fn < 256) && decide (ring < 256)
  | .topkEntry fn ring _ => decide (fn < 256) && decide (ring < 256)
  | .requestEntry fn ring _ => decide (fn < 256) && decide (ring < 256)
  | .modelRun fn ring _ => decide (fn < 256) && decide (ring < 256)
  | .hashGet fn ring _ => decide (fn < 256) && decide (ring < 256)
  | .hashPut fn ring _ => decide (fn < 256) && decide (ring < 256)
  | .hashDelete fn ring _ => decide (fn < 256) && decide (ring < 256)
  | .ringRejection fn ring => decide (fn < 256) && decide (ring < 256)
  | .slotsExhausted => true
  | .scanSubrequest ident => decide (ident < 2 ^ 64)
  | .thresholdPass ident => decide (ident < 2 ^ 64)
  | .refineSubrequest ident => decide (ident < 2 ^ 64)
  | .attnScoreSubrequest ident => decide (ident < 2 ^ 64)
  | .attnPartialSubrequest ident => decide (ident < 2 ^ 64)
  | .gatherSubrequest ident => decide (ident < 2 ^ 64)
  | .updateSubrequest ident => decide (ident < 2 ^ 64)
  | .hashGetSubrequest ident => decide (ident < 2 ^ 64)
  | .frontierReached ident => decide (ident < 2 ^ 64)
  | .frontierWaitTimeout ident => decide (ident < 2 ^ 64)
  | .subreqReply slot kind shard _ => decide (slot < 65536) && decide (kind < 16) && decide (shard < 65536)
  | .subreqTimeout slot kind shard => decide (slot < 65536) && decide (kind < 16) && decide (shard < 65536)
  | .coarseBatchClose engine index => decide (engine < 128) && decide (index < 1024)
  | .changeMsg _ => true
  | .changeComplete index shard epoch _ => decide (index < 1024) && decide (shard < 65536) && decide (epoch < 2 ^ 64)
  | .frontierNotice index => decide (index < 1024)
  | .frontierMsg ws key shard frontier src => decide (ws < 4096) && decide (key < 2 ^ 64) && decide (shard < 65536) && decide (frontier < 2 ^ 64) && decide (src < 65536)
  | .lowEpochPublish index => decide (index < 1024)
  | .statsSnapshot index _ => decide (index < 1024)
  | .groupSnapshot ws key shard _ => decide (ws < 4096) && decide (key < 2 ^ 64) && decide (shard < 65536)
  | .compact index _ list seq => decide (index < 1024) && decide (list < 2 ^ 32) && decide (seq < 2 ^ 64)
  | .marverCommandStart unit _ => decide (unit < 16384)
  | .lutLoad units => (units.all fun u => decide (u < 16384))
  | .scan8 unit _ => decide (unit < 16384)
  | .scan4 unit _ => decide (unit < 16384)
  | .marverFilter unit _ => decide (unit < 16384)
  | .blockScore unit _ => decide (unit < 16384)
  | .attnKey unit _ => decide (unit < 16384)
  | .attnValue unit _ => decide (unit < 16384)
  | .marverPool unit _ => decide (unit < 16384)
  | .gradRmw unit _ => decide (unit < 16384)
  | .marverAppend unit _ => decide (unit < 16384)
  | .marverMark unit _ => decide (unit < 16384)
  | .marverCopy unit _ => decide (unit < 16384)
  | .marverScrub unit _ => decide (unit < 16384)
  | .marverDrain unit _ => decide (unit < 16384)
  | .diebusXfer die _ _ => decide (die < 256)
  | .hostSlot unit _ => decide (unit < 16384)
  | .bankRefresh bank => decide (bank < 65536)
  | .poisonRewrite dpa data => decide (dpa < 2 ^ 41) && decide (dpa % 32 = 0) && decide (data.length = 32)
  | .coarseScoring engine _ _ => decide (engine < 128)
  | .subDistanceTable engine _ _ => decide (engine < 128)
  | .insertEncoding engine _ _ => decide (engine < 128)
  | .refinement engine _ _ => decide (engine < 128)
  | .modelProgramJob engine _ _ => decide (engine < 128)
  | .hotRowChunk engine _ _ => decide (engine < 128)
  | .trainingPass engine _ _ => decide (engine < 128)
  | .jackPass unit ctx _ => decide (unit < 64) && decide (ctx < 8)
  | .slotSchedule core => decide (core < 512)
  | .slotReply slot => decide (slot < 65536)
  | .slotRelease slot => decide (slot < 65536)
  | .attnPositionRelease slot => decide (slot < 65536)
  | .kvSpill ws key => decide (ws < 4096) && decide (key < 2 ^ 64)
  | .sessionJournalWrite ws key _ => decide (ws < 4096) && decide (key < 2 ^ 64)
  | .blockRebuild ws key layer head block _ => decide (ws < 4096) && decide (key < 2 ^ 64) && decide (layer < 128) && decide (head < 16) && decide (block < 2 ^ 18)
  | .announce ws key v u coord => decide (ws < 4096) && decide (key < 2 ^ 64) && decide (v < 2 ^ 32) && decide (u < 2 ^ 64) && decide (coord < 65536)
  | .drained ws key v u src => decide (ws < 4096) && decide (key < 2 ^ 64) && decide (v < 2 ^ 32) && decide (u < 2 ^ 64) && decide (src < 65536)
  | .committed ws key v u => decide (ws < 4096) && decide (key < 2 ^ 64) && decide (v < 2 ^ 32) && decide (u < 2 ^ 64)
  | .updateSeqRelease slot => decide (slot < 65536)
  | .poolResp txn _ _ => decide (txn < 2 ^ 32)
  | .poolReadTimeout txn => decide (txn < 2 ^ 32)
  | .phaseDispatch ws ident _ => decide (ws < 4096) && decide (ident < 2 ^ 64)
  | .bindingRecord ws ident _ => decide (ws < 4096) && decide (ident < 2 ^ 64)
  | .checkpoint ws ident _ _ => decide (ws < 4096) && decide (ident < 2 ^ 64)
  | .ownerBeat ws ident => decide (ws < 4096) && decide (ident < 2 ^ 64)
  | .orphanSweep => true
  | .orphanMsg ws ident epoch pool => decide (ws < 4096) && decide (ident < 2 ^ 64) && decide (epoch < 2 ^ 64) && decide (pool < 65536)
  | .handoff _ => true
  | .handoffAck ws ident epoch _ => decide (ws < 4096) && decide (ident < 2 ^ 64) && decide (epoch < 2 ^ 64)
  | .handoffResend ws ident => decide (ws < 4096) && decide (ident < 2 ^ 64)
  | .claimMsg ws ident _ => decide (ws < 4096) && decide (ident < 2 ^ 64)
  | .probeMsg ws ident => decide (ws < 4096) && decide (ident < 2 ^ 64)
  | .stateLost ws ident => decide (ws < 4096) && decide (ident < 2 ^ 64)
  | .requestCompletion ws ident => decide (ws < 4096) && decide (ident < 2 ^ 64)
  | .inputRise vin => decide (vin < 65536)
  | .railsTimeout _ => true
  | .powerOnResetRelease => true
  | .strapSample mv => mv.length == 6 && (mv.all fun l => l.length == 16)
  | .guardIntervalEnd => true
  | .bootLoad _ => true
  | .recoveryLoad _ => true
  | .stopLine => true
  | .stackDiscovery steps => steps.length == 16 && (steps.all fun x => decide (x ≤ 5))
  | .flashTargetProbe chan _ => decide (chan < 32)
  | .runEntry => true
  | .startWait => true
  | .inputDropBeforeRun vin => decide (vin < 65536)
  | .i3cEntdaa addr => decide (addr < 128)
  | .membership _ _ => true
  | .renewSend group => decide (group < 2 ^ 32)
  | .grantMsg group epoch expiry seq => decide (group < 2 ^ 32) && decide (epoch < 2 ^ 64) && decide (expiry < 2 ^ 64) && decide (seq < 2 ^ 64)
  | .leaseLapse group => decide (group < 2 ^ 32)
  | .releaseSend group => decide (group < 2 ^ 32)
  | .rebuild obj _ _ _ => decide (obj < 2 ^ 32)
  | .scoreDecay => true
  | .lehrAdmit ident => decide (ident < 2 ^ 64)
  | .lehrRoundEnd ident _ => decide (ident < 2 ^ 64)
  | .wavelengthFail port wl => decide (port < 32) && decide (wl < 16)
  | .remapFrame port lane wl first => decide (port < 32) && decide (lane < 14) && decide (wl < 16) && decide (first < 4096)
  | .wavelengthRetrain port _ wl _ => decide (port < 32) && decide (wl < 16)
  | .portTrainTimeout port => decide (port < 32)
  | .portUp port _ _ _ => decide (port < 32)
  | .probePulse port => decide (port < 32)
  | .lightReceived port => decide (port < 32)
  | .openFibre port => decide (port < 32)
  | .laserFeedLost feed => decide (feed < 8)
  | .fibreConnLost cane => decide (cane < 4)
  | .fibreConnRestored cane => decide (cane < 4)
  | .dataFrame port _ _ _ => decide (port < 32)
  | .frameReplayTimeout port => decide (port < 32)
  | .helloMsg port _ => decide (port < 32)
  | .helloTimeout port => decide (port < 32)
  | .linkState src _ => decide (src < 65536)
  | .linkStateTimer => true
  | .flowIdle dst vc => decide (dst < 65536) && decide (vc < 8)
  | .packetReceive => true
  | .e2eAck src vc seq _ => decide (src < 65536) && decide (vc < 8) && decide (seq < 2 ^ 64)
  | .tc7Resend dst vc seq => decide (dst < 65536) && decide (vc < 8) && decide (seq < 2 ^ 64)
  | .memWrite _ => true
  | .memRead _ => true
  | .ptpTime port _ => decide (port < 32)
  | .holdover => true
  | .refLost => true
  | .refRestored => true
  | .ppsPulse => true
  | .ppsLost => true
  | .ppsOutputEdge => true
  | .packetSelect port => decide (port < 32)
  | .gateTakeOver port => decide (port < 32)
  | .gateEntryChange port => decide (port < 32)
  | .queueSample port => decide (port < 32)
  | .moveDescriptorStart chan => decide (chan < 64)
  | .moveBurstIssue => true
  | .moveBurstDone chan off _ => decide (chan < 64) && decide (off < 2 ^ 64)
  | .flashOperation chan target _ => decide (chan < 32) && decide (target < 8)
  | .reclaim group => decide (group < 8)
  | .wearMove group => decide (group < 8)
  | .flashPatrol group => decide (group < 8)
  | .groupMount group _ => decide (group < 8)
  | .carrierPresent group _ => decide (group < 8)
  | .carrierRemoved group => decide (group < 8)
  | .stripeForm stream _ => decide (stream < 2 ^ 64)
  | .stripeUnitDurable setId index member => decide (setId < 2 ^ 64) && decide (index < 1024) && decide (member < 65536)
  | .stripeMemberTimeout setId index member => decide (setId < 2 ^ 64) && decide (index < 1024) && decide (member < 65536)
  | .stripeSetRebuild setId lost _ => decide (setId < 2 ^ 64) && decide (lost < 65536)
  | .flashTempRead _ => true
  | .eventIntake => true
  | .alarmLatchWrite => true
  | .logSummary code => decide (code < 65536)
  | .dropSummary => true
  | .archiveWrite => true
  | .statusFrame _ => true
  | .statusLinkLost => true
  | .powerCapCompare => true
  | .powerDutyRise => true
  | .inputLow => true
  | .inputHigh => true
  | .entryTrip cause => decide (1 ≤ cause) && decide (cause ≤ 4)
  | .tripRestart => true
  | .powerLoss => true
  | .flushDone => true
  | .railCollapse vin => decide (vin < 65536)
  | .resetRequest => true
  | .alarmNRelease => true
  | .thermalSample _ stk cane fh => stk.length == 16 && cane.length == 4 && fh.length == 2
  | .thermalDutyStep => true
  | .thermalTrip kind inst => decide (kind < 4) && decide (inst < 512)
  | .thermalReport => true
  | .puntyFlip core => decide (core < 512)
  | .benchFlip => true
  | .fwConfirm => true
  | .fwActivateReverted => true
  | .ucodeSwitch unit => decide (unit < 16384)
  | .regionMigrate page => decide (page < 2 ^ 25)
  | .streamMove group stream unit => decide (group < 8) && decide (stream < 2 ^ 64) && decide (unit < 2 ^ 32)
  | .drainDone => true
  | .probeReturn port => decide (port < 32)
  | .helloSendTimer port => decide (port < 32)
  | .ptpSendTimer port kind => decide (port < 32) && decide (kind < 3)
  | .coreFault jack inst => decide (inst < if jack then 64 else 512)

end Sys2Proof
end

