-- ==== Sys2Proof/Safety.lean ====
section
/-!
DEFINITION. The words that the statements about the block use: when the bench core accepts a message, what its answer leaves
behind, and the properties of states that every step keeps.
-/

namespace Sys2Proof.Safety

open Sys2Proof Sys2Proof.Machine

/-! ## Requests of the bench core -/

/-- The bench core accepts message `m` as command `c` (R335, R336, R363, R379), and the checks that stand before the command's own
pass: the header, the issuer, the payload's length, the workspace and the room for a ticket (R338, R358, R362, R619). -/
abbrev Accepted (c : Cmd) (m : MsgSrc) (s : State) : Prop :=
  servable c m s = true ∧ preCheck (takeRequest s m) c (msgOwner m) (msgBytes s m) = none

/-- The request as its command sees it: issuer, workspace, opcode, tag, payload and the ticket it would be given. -/
def reqCtx (m : MsgSrc) (s : State) : Ctx := ctxOf (takeRequest s m) (msgOwner m) (msgBytes s m)

/-- The state after a request whose effect is `t` is answered at once with a status and a result (R341, R359). -/
def answered (m : MsgSrc) (s : State) (status : Nat) (result : List Byte) (t : State) : State :=
  respond t (reqCtx m s).owner (reqCtx m s).op (reqCtx m s).tag status 0 result

/-- The state after a request whose effect is `t` is answered with a new ticket that has the work `w` (R341, R342). -/
def issued (m : MsgSrc) (s : State) (status : Nat) (w : Work) (t : State) : State :=
  respond (addTicket t (reqCtx m s).ticket (reqCtx m s).op (reqCtx m s).tag w) (reqCtx m s).owner (reqCtx m s).op
    (reqCtx m s).tag status (reqCtx m s).ticket.num []

/-! ## Properties of states -/

/-- Memory is in its one canonical form, so equal memories are equal data. -/
def MemoryCanonical (s : State) : Prop := Memory.wf s.mem = true

/-- Memory reads alike in two states: every byte, and every granule's poison (R85). -/
def SameMemory (s t : State) : Prop :=
  (∀ dpa, readByte t.mem dpa = readByte s.mem dpa) ∧ ∀ g, t.mem.poison.contains g = s.mem.poison.contains g

/-- A stack map of distinct stacks S0 to S15 (R58). -/
def MapOk (map : List Nat) : Prop := map ≠ [] ∧ map.Nodup ∧ ∀ x ∈ map, x < 16

/-! ## Kinds of rows -/

/-- The rows that may store to memory, or clear pages of it: the rest store nothing. -/
def storingRow : Instr → Bool
  | .funcDisable _ | .wsDestroyProceed _ | .regionAlloc _ | .regionRelease _ _ | .indexCreate _ | .indexStats _ | .programLoad _
  | .tableStage _ | .tableLoad _ | .sessionCreate _ | .sessionResume _ | .attnCbLoad _ | .fwStage _ | .evrArchiveRead _
  | .ticketDone _ _ | .attnStep _ _ _ | .ringRejection _ _ | .attnPartialSubrequest _ | .updateSubrequest _ | .subreqReply _ _ _ _
  | .subreqTimeout _ _ _ | .changeMsg _ | .compact _ _ _ _ | .lutLoad _ | .scan8 _ _ | .scan4 _ _ | .marverFilter _ _
  | .blockScore _ _ | .attnKey _ _ | .attnValue _ _ | .marverPool _ _ | .gradRmw _ _ | .marverAppend _ _ | .marverMark _ _
  | .marverCopy _ _ | .marverScrub _ _ | .marverDrain _ _ | .diebusXfer _ _ _ | .hostSlot _ _ | .poisonRewrite _ _
  | .slotSchedule _ | .slotRelease _ | .attnPositionRelease _ | .kvSpill _ _ | .blockRebuild _ _ _ _ _ _ | .phaseDispatch _ _ _
  | .bootLoad _ | .recoveryLoad _ | .stackDiscovery _ | .inputDropBeforeRun _ | .membership _ _ | .rebuild _ _ _ _ | .packetReceive
  | .memWrite _ | .moveDescriptorStart _ | .moveBurstIssue | .moveBurstDone _ _ _ | .eventIntake | .alarmLatchWrite | .logSummary _
  | .dropSummary | .entryTrip _ | .flushDone | .railCollapse _ | .resetRequest | .thermalTrip _ _ | .ucodeSwitch _
  | .regionMigrate _ => true
  | _ => false

/-- The rows that are work of the bench core or of the punty cores: what a guard halt stops (R328). -/
def benchRow : Instr → Bool
  | .devInfo _ | .devLayout _ | .devIdentity _ | .devEcho _ | .ticketInfo _ | .guardInfo _ | .guardSet _ | .funcEnable _
  | .funcDisable _ | .funcInfo _ | .funcDisableDone _ | .wsCreate _ | .wsDestroy _ | .wsDestroyProceed _ | .wsInfo _
  | .wsSetQuota _ | .wsSettings _ | .wsKeyLoad _ | .wsKeyRetire _ | .regionAlloc _ | .regionFree _ | .regionRelease _ _
  | .indexCreate _ | .indexDrop _ | .indexInfo _ | .indexTrain _ | .indexImport _ | .indexExport _ | .indexStats _ | .indexPin _
  | .indexUnpin _ | .programLoad _ | .programUnload _ | .programInfo _ | .tableCreate _ | .tableDrop _ | .tableInfo _
  | .tableStage _ | .tableLoad _ | .tableSeal _ | .tableSwitch _ | .tableDiscard _ | .tableExport _ | .sessionCreate _
  | .sessionDestroy _ | .sessionInfo _ | .sessionAnneal _ | .annealFlush _ _ | .annealStripe _ _ | .annealManifest _ _ _
  | .annealRelease _ _ | .sessionRoll _ _ _ | .sessionResume _ | .imageDelete _ | .reqStatus _ | .reqCancel _ | .reqHandoff _
  | .attnCbLoad _ | .attnCbUnload _ | .ringCreate _ | .ringDestroy _ | .ringInfo _ | .moveOpen _ | .moveClose _ | .movePause _
  | .moveResume _ | .moveInfo _ | .moveRate _ | .fabPortInfo _ | .fabPortSet _ | .fabRetrain _ | .fabPeers _ | .timeInfo _
  | .groupInfo _ | .schedInfo _ | .schedClassSet _ | .schedGateLoad _ | .schedSample _ | .flashInfo _ | .flashHealth _
  | .flashSet _ | .flashCarrierOffline _ | .flashCarrierOnline _ | .maintStart _ | .maintCancel _ | .maintStatus _ | .healthInfo _
  | .healthSet _ | .fwStage _ | .fwActivate _ | .ucodeLoad _ | .opticsRecal _ | .stackRetire _ | .caneRetire _ | .devDrain _
  | .evrInfo _ | .evrArchiveRead _ | .evrClear _ | .evrClassSet _ | .unknownOpcode _ | .ticketDone _ _ | .windowBadAccess _ _
  | .queryEntry _ _ _ | .insertEntry _ _ _ | .deleteEntry _ _ _ | .attnStep _ _ _ | .gatherEntry _ _ _ | .updateEntry _ _ _
  | .topkEntry _ _ _ | .requestEntry _ _ _ | .modelRun _ _ _ | .hashGet _ _ _ | .hashPut _ _ _ | .hashDelete _ _ _
  | .ringRejection _ _ | .slotsExhausted | .scanSubrequest _ | .thresholdPass _ | .refineSubrequest _ | .attnScoreSubrequest _
  | .attnPartialSubrequest _ | .gatherSubrequest _ | .updateSubrequest _ | .hashGetSubrequest _ | .frontierReached _
  | .frontierWaitTimeout _ | .subreqReply _ _ _ _ | .subreqTimeout _ _ _ | .changeMsg _ | .changeComplete _ _ _ _
  | .frontierNotice _ | .frontierMsg _ _ _ _ _ | .lowEpochPublish _ | .statsSnapshot _ _ | .groupSnapshot _ _ _ _
  | .compact _ _ _ _ | .poisonRewrite _ _ | .coarseScoring _ _ _ | .subDistanceTable _ _ _ | .insertEncoding _ _ _
  | .refinement _ _ _ | .modelProgramJob _ _ _ | .hotRowChunk _ _ _ | .trainingPass _ _ _ | .jackPass _ _ _ | .slotSchedule _
  | .slotReply _ | .slotRelease _ | .attnPositionRelease _ | .kvSpill _ _ | .sessionJournalWrite _ _ _ | .blockRebuild _ _ _ _ _ _
  | .announce _ _ _ _ _ | .drained _ _ _ _ _ | .committed _ _ _ _ | .updateSeqRelease _ | .poolReadTimeout _ | .phaseDispatch _ _ _
  | .bindingRecord _ _ _ | .checkpoint _ _ _ _ | .ownerBeat _ _ | .orphanSweep | .orphanMsg _ _ _ _ | .handoff _
  | .handoffAck _ _ _ _ | .handoffResend _ _ | .claimMsg _ _ _ | .probeMsg _ _ | .stateLost _ _ | .requestCompletion _ _
  | .renewSend _ | .grantMsg _ _ _ _ | .releaseSend _ | .rebuild _ _ _ _ | .moveBurstIssue | .puntyFlip _ | .benchFlip | .fwConfirm
  | .drainDone => true
  | _ => false

/-- The command that a row of the management queues is, and its message (R361). -/
def commandOf : Instr → Option (Cmd × MsgSrc)
  | .devInfo m => some (⟨0x101, .any, true, false, some 0⟩, m)
  | .devLayout m => some (⟨0x102, .any, true, false, some 0⟩, m)
  | .devIdentity m => some (⟨0x103, .any, true, false, some 0⟩, m)
  | .devEcho m => some (⟨0x104, .any, true, false, none⟩, m)
  | .ticketInfo m => some (⟨0x105, .any, true, false, some 8⟩, m)
  | .guardInfo m => some (⟨0x110, .any, true, false, some 0⟩, m)
  | .guardSet m => some (⟨0x111, .ws0, false, false, some 16⟩, m)
  | .funcEnable m => some (⟨0x120, .ws0, true, true, some 16⟩, m)
  | .funcDisable m => some (⟨0x121, .ws0, true, true, some 8⟩, m)
  | .funcInfo m => some (⟨0x122, .ws0, true, false, some 8⟩, m)
  | .wsCreate m => some (⟨0x201, .ws0, false, false, some 96⟩, m)
  | .wsDestroy m => some (⟨0x202, .ws0, false, true, some 8⟩, m)
  | .wsInfo m => some (⟨0x203, .self, false, false, some 8⟩, m)
  | .wsSetQuota m => some (⟨0x204, .ws0, false, false, some 80⟩, m)
  | .wsSettings m => some (⟨0x205, .self, false, false, some 8⟩, m)
  | .wsKeyLoad m => some (⟨0x206, .ws0, false, false, some 32⟩, m)
  | .wsKeyRetire m => some (⟨0x207, .ws0, false, true, some 8⟩, m)
  | .regionAlloc m => some (⟨0x208, .self, false, false, some 8⟩, m)
  | .regionFree m => some (⟨0x209, .self, false, true, some 8⟩, m)
  | .indexCreate m => some (⟨0x301, .own, false, true, some 128⟩, m)
  | .indexDrop m => some (⟨0x302, .own, false, true, some 8⟩, m)
  | .indexInfo m => some (⟨0x303, .own, false, false, some 8⟩, m)
  | .indexTrain m => some (⟨0x304, .own, false, true, some 32⟩, m)
  | .indexImport m => some (⟨0x305, .own, false, true, some 32⟩, m)
  | .indexExport m => some (⟨0x306, .own, false, true, some 32⟩, m)
  | .indexStats m => some (⟨0x307, .own, false, false, some 32⟩, m)
  | .indexPin m => some (⟨0x308, .own, false, false, some 16⟩, m)
  | .indexUnpin m => some (⟨0x309, .own, false, false, some 16⟩, m)
  | .programLoad m => some (⟨0x340, .own, false, true, some 32⟩, m)
  | .programUnload m => some (⟨0x341, .own, false, true, some 8⟩, m)
  | .programInfo m => some (⟨0x342, .own, false, false, some 8⟩, m)
  | .tableCreate m => some (⟨0x401, .own, false, true, some 64⟩, m)
  | .tableDrop m => some (⟨0x402, .own, false, true, some 8⟩, m)
  | .tableInfo m => some (⟨0x403, .own, false, false, some 8⟩, m)
  | .tableStage m => some (⟨0x404, .own, false, true, some 16⟩, m)
  | .tableLoad m => some (⟨0x405, .own, false, true, some 32⟩, m)
  | .tableSeal m => some (⟨0x406, .own, false, false, some 8⟩, m)
  | .tableSwitch m => some (⟨0x407, .own, false, false, some 8⟩, m)
  | .tableDiscard m => some (⟨0x408, .own, false, true, some 8⟩, m)
  | .tableExport m => some (⟨0x409, .own, false, true, some 32⟩, m)
  | .sessionCreate m => some (⟨0x501, .own, false, true, some 128⟩, m)
  | .sessionDestroy m => some (⟨0x502, .own, false, true, some 8⟩, m)
  | .sessionInfo m => some (⟨0x503, .own, false, false, some 16⟩, m)
  | .sessionAnneal m => some (⟨0x504, .own, false, true, some 16⟩, m)
  | .sessionResume m => some (⟨0x505, .own, false, true, some 32⟩, m)
  | .imageDelete m => some (⟨0x506, .own, false, true, some 16⟩, m)
  | .reqStatus m => some (⟨0x510, .own, false, false, some 8⟩, m)
  | .reqCancel m => some (⟨0x511, .own, false, true, some 8⟩, m)
  | .reqHandoff m => some (⟨0x512, .own, false, true, some 16⟩, m)
  | .attnCbLoad m => some (⟨0x520, .own, false, true, some 32⟩, m)
  | .attnCbUnload m => some (⟨0x521, .own, false, true, some 8⟩, m)
  | .ringCreate m => some (⟨0x601, .own, false, false, some 64⟩, m)
  | .ringDestroy m => some (⟨0x602, .own, false, true, some 8⟩, m)
  | .ringInfo m => some (⟨0x603, .own, false, false, some 8⟩, m)
  | .moveOpen m => some (⟨0x610, .own, false, false, some 32⟩, m)
  | .moveClose m => some (⟨0x611, .own, false, true, some 8⟩, m)
  | .movePause m => some (⟨0x612, .own, false, true, some 8⟩, m)
  | .moveResume m => some (⟨0x613, .own, false, false, some 8⟩, m)
  | .moveInfo m => some (⟨0x614, .own, false, false, some 8⟩, m)
  | .moveRate m => some (⟨0x615, .ws0, false, false, some 8⟩, m)
  | .fabPortInfo m => some (⟨0x701, .any, true, false, some 8⟩, m)
  | .fabPortSet m => some (⟨0x702, .ws0, true, false, some 8⟩, m)
  | .fabRetrain m => some (⟨0x703, .ws0, true, true, some 8⟩, m)
  | .fabPeers m => some (⟨0x704, .any, true, false, some 0⟩, m)
  | .timeInfo m => some (⟨0x705, .any, true, false, some 0⟩, m)
  | .groupInfo m => some (⟨0x706, .own, false, false, some 8⟩, m)
  | .schedInfo m => some (⟨0x710, .ws0, true, false, some 8⟩, m)
  | .schedClassSet m => some (⟨0x711, .ws0, false, false, some 16⟩, m)
  | .schedGateLoad m => some (⟨0x712, .ws0, false, true, some 48⟩, m)
  | .schedSample m => some (⟨0x713, .ws0, true, false, some 8⟩, m)
  | .flashInfo m => some (⟨0x801, .any, true, false, some 8⟩, m)
  | .flashHealth m => some (⟨0x802, .any, true, false, some 8⟩, m)
  | .flashSet m => some (⟨0x803, .ws0, false, false, some 8⟩, m)
  | .flashCarrierOffline m => some (⟨0x804, .ws0, true, true, some 8⟩, m)
  | .flashCarrierOnline m => some (⟨0x805, .ws0, true, true, some 8⟩, m)
  | .maintStart m => some (⟨0x901, .ws0, true, true, some 32⟩, m)
  | .maintCancel m => some (⟨0x902, .ws0, true, true, some 8⟩, m)
  | .maintStatus m => some (⟨0x903, .ws0, true, false, some 8⟩, m)
  | .healthInfo m => some (⟨0x904, .ws0, true, false, some 8⟩, m)
  | .healthSet m => some (⟨0x905, .ws0, false, false, some 16⟩, m)
  | .fwStage m => some (⟨0x910, .ws0, true, true, some 32⟩, m)
  | .fwActivate m => some (⟨0x911, .ws0, true, true, some 8⟩, m)
  | .ucodeLoad m => some (⟨0x912, .ws0, true, true, some 8⟩, m)
  | .opticsRecal m => some (⟨0x913, .ws0, true, true, some 32⟩, m)
  | .stackRetire m => some (⟨0x914, .ws0, true, true, some 8⟩, m)
  | .caneRetire m => some (⟨0x915, .ws0, true, true, some 8⟩, m)
  | .devDrain m => some (⟨0x916, .ws0, true, true, some 0⟩, m)
  | .evrInfo m => some (⟨0xA01, .any, true, false, some 0⟩, m)
  | .evrArchiveRead m => some (⟨0xA02, .ws0, true, true, some 32⟩, m)
  | .evrClear m => some (⟨0xA03, .ws0, true, true, some 256⟩, m)
  | .evrClassSet m => some (⟨0xA04, .ws0, false, false, some 32⟩, m)
  | _ => none

/-- Whether the hardware that a row names is there: a function, ring, port, unit or channel in range, and a stack of the layout (R58,
R330, R398). -/
def unitThereFor : Instr → State → Bool
  | .funcDisableDone fn, _ => decide (fn < 256)
  | .coalescingTimer fn vec, _ => decide (fn < 256) && decide (vec < 256)
  | .queryEntry fn ring _, _ | .insertEntry fn ring _, _ | .deleteEntry fn ring _, _ | .attnStep fn ring _, _
  | .gatherEntry fn ring _, _ | .updateEntry fn ring _, _ | .topkEntry fn ring _, _ | .requestEntry fn ring _, _
  | .modelRun fn ring _, _ | .hashGet fn ring _, _ | .hashPut fn ring _, _ | .hashDelete fn ring _, _ | .ringRejection fn ring, _
    => decide (fn < 256) && decide (ring < 256)
  | .coarseBatchClose engine _, _ | .coarseScoring engine _ _, _ | .subDistanceTable engine _ _, _ | .insertEncoding engine _ _, _
  | .refinement engine _ _, _ | .modelProgramJob engine _ _, _ | .hotRowChunk engine _ _, _ | .trainingPass engine _ _, _
    => decide (engine < 128)
  | .changeComplete index _ _ _, _ | .statsSnapshot index _, _ | .compact index _ _ _, _ => decide (index < 1024)
  | .marverCommandStart unit _, s | .scan8 unit _, s | .scan4 unit _, s | .marverFilter unit _, s | .blockScore unit _, s
  | .attnKey unit _, s | .attnValue unit _, s | .marverPool unit _, s | .gradRmw unit _, s | .marverAppend unit _, s
  | .marverMark unit _, s | .marverCopy unit _, s | .marverScrub unit _, s | .marverDrain unit _, s | .hostSlot unit _, s
    => unitThere s unit
  | .lutLoad units, s => units.all (unitThere s)
  | .diebusXfer die _ _, s => unitThere s (die * 64)
  | .bankRefresh bank, s => unitThere s (bank / 4096 * 1024)
  | .jackPass unit ctx _, _ => decide (unit < 64) && decide (ctx < 8)
  | .slotSchedule core, _ | .puntyFlip core, _ => decide (core < 512)
  | .strapSample mv, _ => mv.length == 6 && mv.all fun l => l.length == 16
  | .stackDiscovery steps, _ => steps.length == 16 && steps.all fun x => decide (x ≤ 5)
  | .flashTargetProbe chan _, _ => decide (chan < 32)
  | .i3cEntdaa addr, _ => decide (addr < 128)
  | .wavelengthFail port wl, _ | .wavelengthRetrain port _ wl _, _ => decide (port < 32) && decide (wl < 16)
  | .remapFrame port lane _ _, _ => decide (port < 32) && decide (lane < 14)
  | .portTrainTimeout port, _ | .portUp port _ _ _, _ | .probePulse port, _ | .lightReceived port, _ | .openFibre port, _
  | .dataFrame port _ _ _, _ | .frameReplayTimeout port, _ | .helloMsg port _, _ | .helloTimeout port, _ | .ptpTime port _, _
  | .packetSelect port, _ | .gateTakeOver port, _ | .gateEntryChange port, _ | .queueSample port, _ | .probeReturn port, _
  | .helloSendTimer port, _ => decide (port < 32)
  | .laserFeedLost feed, _ => decide (feed < 8)
  | .fibreConnLost cane, _ | .fibreConnRestored cane, _ => decide (cane < 4)
  | .moveDescriptorStart chan, _ | .moveBurstDone chan _ _, _ => decide (chan < 64)
  | .flashOperation chan target _, _ => decide (chan < 32) && decide (target < 8)
  | .reclaim group, _ | .wearMove group, _ | .flashPatrol group, _ | .groupMount group _, _ | .carrierPresent group _, _
  | .carrierRemoved group, _ | .streamMove group _ _, _ => decide (group < 8)
  | .entryTrip cause, _ => decide (1 ≤ cause) && decide (cause ≤ 4)
  | .thermalSample _ stk cane fh, _ => stk.length == 16 && cane.length == 4 && fh.length == 2
  | .ucodeSwitch unit, s => s.mem.layout.stackMap.contains (unit / 1024) || !inRun s
  | .ptpSendTimer port kind, _ => decide (port < 32) && decide (kind < 3)
  | .coreFault jack inst, _ => decide (inst < if jack then 64 else 512)
  | _, _ => true

/-- The owner map's runs stand in ascending order and no page lies in two (R318). -/
def OwnersApart (l : List OwnRun) : Prop := l.Pairwise fun a b => a.base + a.pages ≤ b.base

end Sys2Proof.Safety
end

