-- ==== Sys2Proof/Certificates/Slice0/Obligations.lean ====
section
/-!
DEFINITION. The statements about the block, one definition each.
-/

open Sys2Proof Sys2Proof.Machine Sys2Proof.Safety

/-! ## Commands of the management queues

Each clause: where the bench core accepts the message and the checks of its rule hold, the command runs to this answer and this
state. `t` is the state with the request taken, `d` the payload. -/

/-- Device, guard and function commands complete (R367 to R373). -/
def Obligations.DeviceCommandsComplete : Prop :=
  ∀ (m : MsgSrc) (s : State), let c := reqCtx m s; let t := takeRequest s m; let d := c.data; let f := getFn t (fld d 0 1);
  (Accepted ⟨0x101, .any, true, false, some 0⟩ m s → exec (.devInfo m) s = .next (answered m s stOk (devInfo t) t)) ∧
  (Accepted ⟨0x102, .any, true, false, some 0⟩ m s → exec (.devLayout m) s = .next (answered m s stOk (layoutRecord t) t)) ∧
  (Accepted ⟨0x103, .any, true, false, some 0⟩ m s → exec (.devIdentity m) s =
    .next (answered m s stOk (t.fuse.identityPub ++ zeros 7 ++ keyIdent t.fuse.identityPub) t)) ∧
  (Accepted ⟨0x104, .any, true, false, none⟩ m s → exec (.devEcho m) s = .next (answered m s stOk d t)) ∧
  (∀ k, Accepted ⟨0x105, .any, true, false, some 8⟩ m s → zeroAt d 4 4 = true → findTicket t ⟨c.owner, fld d 0 4⟩ = some k →
    exec (.ticketInfo m) s = .next (answered m s stOk
      ([BitVec.ofNat 8 (b2n k.done), 0] ++ leBytes 2 k.opcode ++ zeros 4 ++ leBytes 8 k.tag) t)) ∧
  (Accepted ⟨0x110, .any, true, false, some 0⟩ m s → exec (.guardInfo m) s = .next (answered m s stOk (guardRecord t) t)) ∧
  (Accepted ⟨0x111, .ws0, false, false, some 16⟩ m s → zeroAt d 2 2 = true → zeroAt d 8 8 = true →
    (fld d 0 2 = 0 ∨ 1000 ≤ fld d 0 2) → (fld d 4 4 = 0 ∨ 100 ≤ fld d 4 4) →
    let u : State := { t with guard := { t.guard with
      powerCapActive := if fld d 0 2 = 0 then t.guard.powerCapActive else fld d 0 2
      egressDevActive := if fld d 4 4 = 0 then t.guard.egressDevActive else fld d 4 4 } }
    exec (.guardSet m) s = .next (answered m s stOk (guardRecord u) u)) ∧
  (Accepted ⟨0x120, .ws0, true, true, some 16⟩ m s → zeroAt d 1 1 = true → zeroAt d 4 4 = true → 1 ≤ fld d 0 1 →
    fld d 2 2 < 4096 → wsActive t (fld d 2 2) = true → fld d 8 8 ≠ 0 → f.state = 0 →
    exec (.funcEnable m) s = .next (issued m s stPending (doneWork c [] stOk (enableResult (fld d 0 1) (fld d 2 2)))
      (enableFn t (fld d 0 1) (fld d 2 2) (fld d 8 8)))) ∧
  (Accepted ⟨0x121, .ws0, true, true, some 8⟩ m s → zeroAt d 1 7 = true → fld d 0 1 ≠ 0 → fld d 0 1 ≠ c.owner → f.state = 1 →
    exec (.funcDisable m) s = .next (issued m s stPending (work c []) (disableFn t (fld d 0 1) [c.ticket]))) ∧
  (Accepted ⟨0x122, .ws0, true, false, some 8⟩ m s → zeroAt d 1 7 = true →
    exec (.funcInfo m) s = .next (answered m s stOk (funcInfo t (fld d 0 1)) t))

/-- Workspace commands complete (R307, R309, R310, R312, R315, R316, R319, R322, R624). -/
def Obligations.WorkspaceCommandsComplete : Prop :=
  ∀ (m : MsgSrc) (s : State), let c := reqCtx m s; let t := takeRequest s m; let d := c.data; let n := fld d 0 2;
  (Accepted ⟨0x201, .ws0, false, false, some 96⟩ m s → 1 ≤ n → n < 4096 → fld d 2 1 < 2 → fld d 3 1 ≤ 5 → zeroAt d 4 12 = true →
    zeroAt d 80 16 = true → quotaOk (slice d 16 64) = true → (getWs t n).state = 0 →
    exec (.wsCreate m) s = .next (answered m s stOk []
      (putWs t n ⟨1, fld d 2 1, fld d 3 1, parseQuota (slice d 16 64), [], none⟩))) ∧
  (Accepted ⟨0x202, .ws0, false, true, some 8⟩ m s → zeroAt d 2 6 = true → 1 ≤ n → n < 4096 → wsActive t n = true →
    exec (.wsDestroy m) s = .next (issued m s stPending (work c [n])
      (putWs t n { getWs t n with state := 2, destroy := some c.ticket }))) ∧
  (Accepted ⟨0x203, .self, false, false, some 8⟩ m s → (c.ws = 0 ∨ n = c.ws) → zeroAt d 2 6 = true → n < 4096 →
    (getWs t n).state ≠ 0 → exec (.wsInfo m) s = .next (answered m s stOk (wsRecord t n) t)) ∧
  (Accepted ⟨0x204, .ws0, false, false, some 80⟩ m s → zeroAt d 2 14 = true → 1 ≤ n → n < 4096 → quotaOk (slice d 16 64) = true →
    wsActive t n = true → exec (.wsSetQuota m) s = .next (answered m s stOk []
      (putWs t n { getWs t n with quota := parseQuota (slice d 16 64) }))) ∧
  (Accepted ⟨0x205, .self, false, false, some 8⟩ m s → (c.ws = 0 ∨ n = c.ws) → zeroAt d 3 5 = true → n < 4096 → fld d 2 1 ≤ 5 →
    wsActive t n = true → exec (.wsSettings m) s = .next (answered m s stOk []
      (putWs t n { getWs t n with wclass := fld d 2 1 }))) ∧
  (Accepted ⟨0x206, .ws0, false, false, some 32⟩ m s → zeroAt d 3 1 = true → zeroAt d 18 14 = true → n < 4096 →
    fld d 2 1 < 2 → fld d 16 2 = (if fld d 2 1 = 0 then 169 else 137) → fld d 8 8 < 2 ^ 41 →
    bufferOk t 0 (fld d 8 8) (fld d 16 2) = true → wsActive t n = true →
    genOk (keysOf (keySet t n) (fld d 2 1)) (fld d 4 4) = true → exec (.wsKeyLoad m) s = .next (
      match unwrapBlob t (fld d 8 8) (fld d 16 2) with
      | none => answered m s stNoAuth [] t
      | some l => if fld d 2 1 = 1 ∨ l.take 32 ≠ (l.drop 32).take 32 then answered m s stOk []
          (putKeys t n (setKeys (keySet t n) (fld d 2 1) (⟨fld d 4 4, l⟩ :: keysOf (keySet t n) (fld d 2 1))))
        else answered m s stBadParam [] t)) ∧
  (Accepted ⟨0x207, .ws0, false, true, some 8⟩ m s → zeroAt d 3 5 = true → n < 4096 → fld d 2 1 < 2 → wsActive t n = true →
    (keysOf (keySet t n) (fld d 2 1)).length = 2 →
    exec (.wsKeyRetire m) s = .next (issued m s stPending (work c [n, fld d 2 1]) t)) ∧
  (∀ p u, Accepted ⟨0x208, .self, false, false, some 8⟩ m s → zeroAt d 4 4 = true → 1 ≤ fld d 0 4 → fld d 0 4 ≤ 65536 →
    roomFor t c.ws (fld d 0 4) (·.windowPages) = true → (getWs t c.ws).regions.length < 256 →
    allocWindow t c.ws 0 (fld d 0 4) = some (p, u) →
    exec (.regionAlloc m) s = .next (answered m s stOk (leBytes 8 (p * 65536))
      (putWs u c.ws { getWs t c.ws with regions := (getWs t c.ws).regions ++ [⟨p * 65536, fld d 0 4, none⟩] }))) ∧
  (∀ r, Accepted ⟨0x209, .self, false, true, some 8⟩ m s → (getWs t c.ws).regions.find? (·.base == fld d 0 8) = some r →
    r.closing = none → holdsQueue t c.ws r = false →
    exec (.regionFree m) s = .next (issued m s stPending (work c [fld d 0 8])
      (putWs t c.ws { getWs t c.ws with regions := (getWs t c.ws).regions.map (fun x =>
        if x.base = fld d 0 8 then { x with closing := some c.ticket } else x) })))

/-- Index and program commands complete (R101, R102, R105, R134, R137, R138, R141, R173, R620, R621). -/
def Obligations.IndexCommandsComplete : Prop :=
  ∀ (m : MsgSrc) (s : State), let c := reqCtx m s; let t := takeRequest s m; let d := c.data;
  (∀ i u, Accepted ⟨0x301, .own, false, true, some 128⟩ m s → indexBlockOk t c.ws d = true →
    (fld d 8 1 ≠ 3 ∨ privileged t c.ws = true) → buildIndex t c.ws d = some (i, u) →
    exec (.indexCreate m) s = .next (issued m s stPending (doneWork c [i] stOk (leBytes 2 i ++ zeros 6)) u)) ∧
  (∀ x, Accepted ⟨0x302, .own, false, true, some 8⟩ m s → zeroAt d 2 6 = true → getIndex t (fld d 0 2) = some x → x.ws = c.ws →
    exec (.indexDrop m) s = .next (issued m s stPending (work c [fld d 0 2]) (dropIndex t (fld d 0 2) [c.ticket]))) ∧
  (∀ x, Accepted ⟨0x303, .own, false, false, some 8⟩ m s → zeroAt d 2 6 = true → getIndex t (fld d 0 2) = some x → x.ws = c.ws →
    exec (.indexInfo m) s = .next (answered m s stOk (indexRecord t x) t)) ∧
  (∀ x f, Accepted ⟨0x304, .own, false, true, some 32⟩ m s → zeroAt d 15 1 = true → zeroAt d 18 14 = true →
    vecFmt (fld d 12 1) = some f → fld d 13 1 ≤ 64 → fld d 14 1 ≤ 64 → getIndex t (fld d 16 2) = some x → x.ws = c.ws →
    x.state = 0 → max x.nlist x.k ≤ fld d 8 4 → fld d 8 4 ≤ 2 ^ 24 → fld d 0 8 % 256 = 0 → fld d 0 8 < 2 ^ 41 →
    bufferOk t c.ws (fld d 0 8) (fld d 8 4 * x.dim * (f.width / 8)) = true →
    exec (.indexTrain m) s = .next (issued m s stPending (work c [fld d 16 2])
      (putIndex t (fld d 16 2) { x with state := 1, training := some c.ticket }))) ∧
  (∀ x, Accepted ⟨0x305, .own, false, true, some 32⟩ m s → zeroAt d 18 14 = true → getIndex t (fld d 16 2) = some x → x.ws = c.ws →
    x.state = 0 → fld d 8 8 = x.artefactBytes → fld d 0 8 < 2 ^ 41 → bufferOk t c.ws (fld d 0 8) (fld d 8 8) = true →
    exec (.indexImport m) s = .next (issued m s stPending (work c [fld d 16 2])
      (putIndex t (fld d 16 2) { x with state := 1, training := some c.ticket }))) ∧
  (∀ x, Accepted ⟨0x306, .own, false, true, some 32⟩ m s → zeroAt d 18 14 = true → getIndex t (fld d 16 2) = some x → x.ws = c.ws →
    x.state = 2 → x.kind ≠ 3 → x.artefactBytes ≤ fld d 8 8 → fld d 0 8 < 2 ^ 41 → bufferOk t c.ws (fld d 0 8) (fld d 8 8) = true →
    exec (.indexExport m) s = .next (issued m s stPending (work c [fld d 16 2]) t)) ∧
  (∀ x n k, Accepted ⟨0x307, .own, false, false, some 32⟩ m s → getIndex t (fld d 0 2) = some x → x.ws = c.ws →
    pickSnapshot t x (fld d 2 1) (fld d 8 8) = some (n, k) → zeroAt d 3 5 = true → zeroAt d 24 8 = true → fld d 2 1 ≤ 2 →
    fld d 16 8 % 16 = 0 → addrSpace (fld d 16 8) = 0 → bufOk t c.ws (fld d 16 8) 10816 = true →
    exec (.indexStats m) s = .next (answered m s stOk (leBytes 8 n.num ++ leBytes 4 k ++ zeros 4)
      { t with mem := store t.mem (bits (fld d 16 8) 40 0) (snapshotBytes x n) })) ∧
  (∀ x, Accepted ⟨0x308, .own, false, false, some 16⟩ m s → getIndex t (fld d 0 2) = some x → x.ws = c.ws → zeroAt d 2 6 = true →
    x.state ≠ 3 → net t ≤ fld d 8 8 + 100000000 → fld d 8 8 ≤ net t → x.pins.length < 16 → leaseHeld t x.gid = true →
    let r := journalPins t (fld d 0 2) x (x.pins ++ [fld d 8 8])
    r.1 = stOk → exec (.indexPin m) s = .next (answered m s stOk [] r.2)) ∧
  (∀ x, Accepted ⟨0x309, .own, false, false, some 16⟩ m s → getIndex t (fld d 0 2) = some x → x.ws = c.ws → zeroAt d 2 6 = true →
    x.pins.contains (fld d 8 8) = true → leaseHeld t x.gid = true →
    let r := journalPins t (fld d 0 2) x (x.pins.erase (fld d 8 8))
    r.1 = stOk → exec (.indexUnpin m) s = .next (answered m s stOk [] r.2)) ∧
  (Accepted ⟨0x340, .own, false, true, some 32⟩ m s → zeroAt d 18 14 = true → fld d 0 8 % 256 = 0 → fld d 0 8 < 2 ^ 41 →
    fld d 8 8 ≤ 2 ^ 32 → bufferOk t c.ws (fld d 0 8) (fld d 8 8) = true → poisonIn t.mem (fld d 0 8) (fld d 8 8) = false →
    let r := loadProgram c.ws (fld d 8 8) (fld d 16 2) (readBytes t.mem (fld d 0 8) (fld d 8 8)) t
    exec (.programLoad m) s = .next (issued m s stPending (doneWork c [] r.1 r.2.1) r.2.2)) ∧
  (∀ p, Accepted ⟨0x341, .own, false, true, some 8⟩ m s → zeroAt d 4 4 = true → getProgram t (fld d 0 4) = some p → p.ws = c.ws →
    p.closing = false → ¬1 < p.loads →
    exec (.programUnload m) s = .next (issued m s stPending (work c [fld d 0 4])
      (putProgram t (fld d 0 4) { p with loads := 0, closing := true, unloadTickets := p.unloadTickets ++ [c.ticket] }))) ∧
  (∀ p, Accepted ⟨0x342, .own, false, false, some 8⟩ m s → zeroAt d 4 4 = true → getProgram t (fld d 0 4) = some p → p.ws = c.ws →
    exec (.programInfo m) s = .next (answered m s stOk
      (p.header.take 112 ++ leBytes 2 p.engines.length ++ zeros 2 ++ leBytes 4 (inFlight t (fld d 0 4))) t))

/-- Table commands complete (R256, R257, R263 to R265, R622). -/
def Obligations.TableCommandsComplete : Prop :=
  ∀ (m : MsgSrc) (s : State), let c := reqCtx m s; let t := takeRequest s m; let d := c.data; let h := fld d 0 4;
  (Accepted ⟨0x401, .own, false, true, some 64⟩ m s → tableBlockOk t (newTable c.ws d) = true → t.tables.length < 256 →
    roomFor t c.ws 1 (·.tables) = true →
    exec (.tableCreate m) s = .next (issued m s stPending
      (doneWork c [freshHandle t] stOk (leBytes 4 (freshHandle t) ++ zeros 4))
      (tableStreams (putTable { t with nextHandle := freshHandle t } (freshHandle t) (newTable c.ws d)) (freshHandle t)
        (newTable c.ws d)))) ∧
  (∀ x, Accepted ⟨0x402, .own, false, true, some 8⟩ m s → zeroAt d 4 4 = true → getTable t h = some x → x.ws = c.ws →
    exec (.tableDrop m) s = .next (issued m s stPending (work c [h]) (putTable t h { x with state := 2, drop := x.drop ++ [c.ticket] }))) ∧
  (∀ x, Accepted ⟨0x403, .own, false, false, some 8⟩ m s → zeroAt d 4 4 = true → getTable t h = some x → x.ws = c.ws →
    exec (.tableInfo m) s = .next (answered m s stOk (tableRecord t x) t)) ∧
  (∀ x v u, Accepted ⟨0x404, .own, false, true, some 16⟩ m s → getTable t h = some x → x.ws = c.ws → x.isPool = false →
    fld d 4 1 = 0 → zeroAt d 5 11 = true → x.state ≠ 2 → (x.slots.filterMap id).length ≠ 4 → allocVersion t x = some (v, u) →
    exec (.tableStage m) s = .next (issued m s stPending (doneWork c [h, v.num] stOk (leBytes 4 v.num ++ zeros 4))
      (putTable u h (x.addVersion v)))) ∧
  (∀ x v, Accepted ⟨0x405, .own, false, true, some 32⟩ m s → getTable t h = some x → x.ws = c.ws → x.version (fld d 4 4) = some v →
    x.isPool = false → tableRangeOk t c x = true → x.state ≠ 2 → v.state = 1 → v.discard = [] →
    let r := runLoad t h x v (fld d 24 8) (fld d 8 8) (fld d 16 4)
    exec (.tableLoad m) s = .next (issued m s stPending (doneWork c [h, v.num] r.1 [])
      (modVersion r.2 h v.num fun y => { y with loads := y.loads + 1 }))) ∧
  (∀ x v, Accepted ⟨0x406, .own, false, false, some 8⟩ m s → getTable t h = some x → x.ws = c.ws → x.version (fld d 4 4) = some v →
    x.state ≠ 2 → v.state = 1 → v.loads = 0 → v.discard = [] →
    exec (.tableSeal m) s = .next (answered m s stOk [] (modVersion t h v.num fun y => { y with state := 2 }))) ∧
  (∀ x v, Accepted ⟨0x407, .own, false, false, some 8⟩ m s → getTable t h = some x → x.ws = c.ws → x.version (fld d 4 4) = some v →
    x.state ≠ 2 → v.state = 2 → v.discard = [] →
    exec (.tableSwitch m) s = .next (answered m s stOk [] (settleTable (putTable t h (x.switchTo v.num)) h))) ∧
  (∀ x v, Accepted ⟨0x408, .own, false, true, some 8⟩ m s → getTable t h = some x → x.ws = c.ws → x.version (fld d 4 4) = some v →
    x.state ≠ 2 → (v.state = 1 ∨ v.state = 2) →
    exec (.tableDiscard m) s = .next (issued m s stPending (work c [h, v.num])
      (modVersion t h v.num fun y => { y with discard := y.discard ++ [c.ticket] }))) ∧
  (∀ x v, Accepted ⟨0x409, .own, false, true, some 32⟩ m s → getTable t h = some x → x.ws = c.ws → x.version (fld d 4 4) = some v →
    tableRangeOk t c x = true →
    exec (.tableExport m) s = .next (issued m s stPending (work c [h, v.num]) (refVersion t h v.num true)))

/-- Session, durable-request and codebook commands complete (R225, R279, R280, R286, R289, R295, R300, R303, R623). -/
def Obligations.SessionCommandsComplete : Prop :=
  ∀ (m : MsgSrc) (s : State), let c := reqCtx m s; let t := takeRequest s m; let d := c.data;
  (∀ x u, Accepted ⟨0x501, .own, false, true, some 128⟩ m s → geoOk (slice d 0 64) = true → zeroAt d 78 50 = true →
    partnerOk (slice d 0 64) (fld d 76 2) = true → groupFits t (fld d 72 4) (geoDevices (slice d 0 64)) = true →
    bookForeign t c.ws (geoBook (slice d 0 64)) = false → bookFits t c.ws (geoBook (slice d 0 64)) (slice d 0 64) = true →
    sessionByKey t c.ws (fld d 64 8) = none → leaseHeld t (fld d 72 4) = true → sessionRoom t c.ws = true →
    beginSession t c.ws (fld d 64 8) 0 (fld d 72 4) (fld d 76 2) (slice d 0 64) (List.replicate (geoLayers (slice d 0 64)) 0)
      c.ticket = .ok (x, u) →
    exec (.sessionCreate m) s = .next (issued m s stPending (work c [fld d 64 8]) (tellSession u x 16 (createMsg x)))) ∧
  (∀ x, Accepted ⟨0x502, .own, false, true, some 8⟩ m s → zeroAt d 4 4 = true → sessionOf t (fld d 0 4) = some x → x.ws = c.ws →
    x.state = 1 → leaseHeld t x.group = true →
    exec (.sessionDestroy m) s = .next (issued m s stPending (work c [x.key])
      (tellSession (putSession t { x with state := 5, destroy := x.destroy ++ [c.ticket] }) x 20 []))) ∧
  (∀ x, Accepted ⟨0x503, .own, false, false, some 16⟩ m s → sessionByKey t c.ws (fld d 0 8) = some x →
    exec (.sessionInfo m) s = .next (answered m s stOk (sessionRecord x (fld d 8 8)) t)) ∧
  (∀ x, Accepted ⟨0x504, .own, false, true, some 16⟩ m s → fld d 4 1 = 0 → zeroAt d 5 1 = true → zeroAt d 6 4 = true →
    zeroAt d 10 6 = true → sessionOf t (fld d 0 4) = some x → x.ws = c.ws → x.state = 1 → leaseHeld t x.group = true → x.lost = 0 →
    exec (.sessionAnneal m) s = .next (issued m s stPending (work c [x.key])
      (putSession t { x with state := 2, annealPhase := 1, ticket := some c.ticket, roll := none }))) ∧
  (∀ x i b z u z', Accepted ⟨0x505, .own, false, true, some 32⟩ m s → zeroAt d 26 6 = true →
    sessionByKey t c.ws (fld d 0 8) = some x → x.state = 3 → imageOf x (fld d 8 8) = some i →
    let g := geoWithBook i.geometry (fld d 22 4)
    groupFits t (fld d 16 4) (geoDevices g) = true → i.arithRev = 1 → partnerOk g (fld d 20 2) = true →
    bookFits t c.ws (fld d 22 4) g = true → getBook t (fld d 22 4) = some b →
    leaseHeld t (fld d 16 4) = true → sessionRoom t c.ws = true →
    beginSession t c.ws (fld d 0 8) 4 (fld d 16 4) (fld d 20 2) g i.tokens c.ticket = .ok z →
    placeImage c.ws (fld d 0 8) i.blocks z.2 = .ok u → i.bodyOk = true → sessionByKey u c.ws (fld d 0 8) = some z' →
    exec (.sessionResume m) s = .next (if Config.sha384 b.bytes = i.digest
      then issued m s stPending (work c [fld d 0 8]) (tellSession u z' 16 (createMsg z'))
      else answered m s stBadParam [] t)) ∧
  (∀ x, Accepted ⟨0x506, .own, false, true, some 16⟩ m s → sessionByKey t c.ws (fld d 0 8) = some x →
    x.images.any (·.seq == fld d 8 8) = true → x.state ≠ 4 → x.state ≠ 3 →
    exec (.imageDelete m) s = .next (issued m s stPending (doneWork c [] stOk [])
      (putSession t { x with images := x.images.filter (·.seq != fld d 8 8) }))) ∧
  (∀ r, Accepted ⟨0x510, .own, false, false, some 8⟩ m s → statusRecord t c.ws (fld d 0 8) = some r →
    exec (.reqStatus m) s = .next (answered m s stOk r t)) ∧
  (∀ dev k, Accepted ⟨0x511, .own, false, true, some 8⟩ m s → knownRunner t c.ws (fld d 0 8) = some dev →
    reqCopyOf t c.ws (fld d 0 8) = some k → k.state ≠ 2 →
    exec (.reqCancel m) s = .next (issued m s stPending (doneWork c [fld d 0 8] stOk []) (recordCancel t k))) ∧
  (∀ dev k, Accepted ⟨0x512, .own, false, true, some 16⟩ m s → zeroAt d 10 6 = true → fld d 8 2 < t.requests.pools.length →
    t.requests.poolLive.getD (fld d 8 2) false = true → knownRunner t c.ws (fld d 0 8) = some dev →
    reqCopyOf t c.ws (fld d 0 8) = some k → k.state ≠ 2 → k.pool ≠ fld d 8 2 → k.handTo = 0xFFFF →
    exec (.reqHandoff m) s = .next (issued m s stPending (work c [fld d 0 8, fld d 8 2]) (beginHandoff t k (fld d 8 2) [c.ticket]))) ∧
  (Accepted ⟨0x520, .own, false, true, some 32⟩ m s → zeroAt d 19 1 = true → zeroAt d 22 10 = true → fld d 0 8 % 256 = 0 →
    fld d 0 8 < 2 ^ 41 → 1 ≤ fld d 16 2 → fld d 16 2 ≤ 128 → 1 ≤ fld d 18 1 → fld d 18 1 ≤ 16 →
    [64, 128, 256].contains (fld d 20 2) = true → fld d 8 8 = fld d 16 2 * fld d 18 1 * 512 * fld d 20 2 →
    bufferOk t c.ws (fld d 0 8) (fld d 8 8) = true → poisonIn t.mem (fld d 0 8) (fld d 8 8) = false →
    let r := loadBook c.ws (fld d 16 2) (fld d 18 1) (fld d 20 2) (readBytes t.mem (fld d 0 8) (fld d 8 8)) t
    exec (.attnCbLoad m) s = .next (issued m s stPending
      (doneWork c [] r.1 (if r.1 = stOk then leBytes 4 r.2.1 ++ zeros 4 else [])) r.2.2)) ∧
  (∀ b, Accepted ⟨0x521, .own, false, true, some 8⟩ m s → zeroAt d 4 4 = true → getBook t (fld d 0 4) = some b → b.ws = c.ws →
    b.closing = false → ¬1 < b.loads →
    exec (.attnCbUnload m) s = .next (issued m s stPending (work c [fld d 0 4])
      (putBook t (fld d 0 4) { b with loads := 0, closing := true, unloadTickets := b.unloadTickets ++ [c.ticket] })))

/-- Ring and move-channel commands complete (R344, R353, R447, R457, R458, R625, R627). -/
def Obligations.RingCommandsComplete : Prop :=
  ∀ (m : MsgSrc) (s : State), let c := reqCtx m s; let t := takeRequest s m; let d := c.data; let n := fld d 0 1;
  let x := getChan t n; let g := getRing (getFn t c.owner) n;
  (∀ dev, Accepted ⟨0x601, .own, false, false, some 64⟩ m s → zeroAt d 28 36 = true → fld d 24 1 ≤ 2 →
    ringSize (fld d 16 4) = true → ringSize (fld d 20 4) = true → (fld d 26 2 < 256 ∨ fld d 26 2 = 0xFFFF) → fld d 25 1 < 256 →
    (getRing (getFn t c.owner) (fld d 25 1)).state = 0 → sqOk t c.ws (fld d 0 8) (fld d 16 4 * (64 * 2 ^ fld d 24 1)) = true →
    cqOk t c.ws (fld d 8 8) (fld d 20 4) = true → roomFor t c.ws 1 (·.rings) = true → freeDevRing t = some dev →
    exec (.ringCreate m) s = .next (answered m s stOk (leBytes 2 dev ++ zeros 6) (putRing t c.owner (fld d 25 1)
      (newRing d none (fld d 0 8) (fld d 8 8) (fld d 16 4) (fld d 20 4) (64 * 2 ^ fld d 24 1) (fld d 26 2) dev)))) ∧
  (Accepted ⟨0x602, .own, false, true, some 8⟩ m s → zeroAt d 1 7 = true → g.state ≠ 0 → g.channel = none →
    exec (.ringDestroy m) s = .next (issued m s stPending (work c [n])
      (putRing t c.owner n { g with state := 2, destroy := g.destroy ++ [c.ticket] }))) ∧
  (Accepted ⟨0x603, .own, false, false, some 8⟩ m s → zeroAt d 1 7 = true → g.state ≠ 0 →
    exec (.ringInfo m) s = .next (answered m s stOk (ringRecord t g) t)) ∧
  (∀ dev ch, Accepted ⟨0x610, .own, false, false, some 32⟩ m s → zeroAt d 25 1 = true → zeroAt d 28 4 = true →
    ringSize (fld d 16 4) = true → ringSize (fld d 20 4) = true → (fld d 26 2 < 256 ∨ fld d 26 2 = 0xFFFF) → fld d 24 1 < 256 →
    (getRing (getFn t c.owner) (fld d 24 1)).state = 0 → sqOk t c.ws (fld d 0 8) (fld d 16 4 * 64) = true →
    cqOk t c.ws (fld d 8 8) (fld d 20 4) = true → roomFor t c.ws 1 (·.rings) = true → freeDevRing t = some dev →
    roomFor t c.ws 1 (·.moveChannels) = true → closedChan t = some ch →
    exec (.moveOpen m) s = .next (answered m s stOk (leBytes 1 ch ++ zeros 1 ++ leBytes 2 dev ++ zeros 4)
      (putChan (putRing t c.owner (fld d 24 1)
        (newRing d (some ch) (fld d 0 8) (fld d 8 8) (fld d 16 4) (fld d 20 4) 64 (fld d 26 2) dev)) ch
        ⟨1, c.ws, c.owner, fld d 24 1, 16, ⟨4096, ns t⟩, none, [], []⟩))) ∧
  (Accepted ⟨0x611, .own, false, true, some 8⟩ m s → zeroAt d 1 7 = true → n < 64 → x.state ≠ 0 → x.ws = c.ws →
    exec (.moveClose m) s = .next (issued m s stPending (work c [n]) (closeChannel t n [c.ticket]))) ∧
  (Accepted ⟨0x612, .own, false, true, some 8⟩ m s → zeroAt d 1 7 = true → n < 64 → (x.state = 1 ∨ x.state = 2) → x.ws = c.ws →
    exec (.movePause m) s = .next (issued m s stPending (work c [n])
      (putChan t n { x with state := 2, pauseTickets := x.pauseTickets ++ [c.ticket] }))) ∧
  (Accepted ⟨0x613, .own, false, false, some 8⟩ m s → zeroAt d 1 7 = true → n < 64 → (x.state = 2 ∨ x.state = 3) → x.ws = c.ws →
    exec (.moveResume m) s = .next (answered m s stOk [] (resumeChan t n))) ∧
  (Accepted ⟨0x614, .own, false, false, some 8⟩ m s → zeroAt d 1 7 = true → n < 64 → x.state ≠ 0 → x.ws = c.ws →
    exec (.moveInfo m) s = .next (answered m s stOk (moveRecord t n) t)) ∧
  (Accepted ⟨0x615, .ws0, false, false, some 8⟩ m s → zeroAt d 1 1 = true → zeroAt d 4 4 = true → n < 64 → x.state ≠ 0 →
    1 ≤ fld d 2 2 → fld d 2 2 ≤ 256 →
    exec (.moveRate m) s = .next (answered m s stOk [] (putChan t n { x with share := fld d 2 2, bucket := chanBucket t x })))

/-- Fabric, time, group and scheduling commands complete (R422 to R425, R442 to R445, R516, R560). -/
def Obligations.FabricCommandsComplete : Prop :=
  ∀ (m : MsgSrc) (s : State), let c := reqCtx m s; let t := takeRequest s m; let d := c.data; let p := fld d 0 1;
  (Accepted ⟨0x701, .any, true, false, some 8⟩ m s → zeroAt d 1 7 = true → p < 32 →
    exec (.fabPortInfo m) s = .next (answered m s stOk (portInfo t p) t)) ∧
  (Accepted ⟨0x702, .ws0, true, false, some 8⟩ m s → zeroAt d 3 5 = true → p < 32 → fld d 1 1 < 3 → fld d 2 1 ≤ 14 →
    let u := portSet t p (fld d 1 1) (fld d 2 1)
    exec (.fabPortSet m) s = .next (answered m s stOk (portInfo u p) u)) ∧
  (Accepted ⟨0x703, .ws0, true, true, some 8⟩ m s → zeroAt d 1 1 = true → zeroAt d 4 4 = true → p < 32 → (getPort t p).state ≠ 0 →
    exec (.fabRetrain m) s = .next (issued m s stPending (work c [p, fld d 2 2]) (fabRetrainNow t p (fld d 2 2) c.ticket))) ∧
  (Accepted ⟨0x704, .any, true, false, some 0⟩ m s → exec (.fabPeers m) s =
    .next (answered m s stOk (leBytes 2 32 ++ zeros 6 ++ (List.range 32).flatMap (peerEntry t)) t)) ∧
  (Accepted ⟨0x705, .any, true, false, some 0⟩ m s → exec (.timeInfo m) s = .next (answered m s stOk (timeRecord t) t)) ∧
  (∀ g, Accepted ⟨0x706, .own, false, false, some 8⟩ m s → zeroAt d 4 4 = true → findGroup t (fld d 0 4) = some g →
    groupHolds t g.mem.group c.ws = true → exec (.groupInfo m) s = .next (answered m s stOk (groupInfo t g) t)) ∧
  (Accepted ⟨0x710, .ws0, true, false, some 8⟩ m s → zeroAt d 1 7 = true → p < 32 →
    exec (.schedInfo m) s = .next (answered m s stOk (schedRecord t p) t)) ∧
  (Accepted ⟨0x711, .ws0, false, false, some 16⟩ m s → zeroAt d 3 1 = true → zeroAt d 6 2 = true → zeroAt d 12 4 = true →
    classValueOk t p (fld d 1 1) (fld d 2 1) (fld d 4 2) (toSigned 32 (fld d 8 4)) = true →
    let u := classValueSet t p (fld d 1 1) (fld d 2 1) (fld d 4 2) (toSigned 32 (fld d 8 4))
    exec (.schedClassSet m) s = .next (answered m s stOk (schedRecord u (if fld d 1 1 = 0xFF then 0 else fld d 1 1)) u)) ∧
  (Accepted ⟨0x712, .ws0, false, true, some 48⟩ m s → gateLoadOk t d = true → (getPort t p).sched.pendingGates = none →
    exec (.schedGateLoad m) s = .next (issued m s stPending (work c []) (putPort t p { getPort t p with
      sched := { (getPort t p).sched with 
        pendingGates := some ⟨fld d 1 1, readGates t (fld d 24 8) (fld d 4 2), fld d 16 8, fld d 2 1, fld d 8 8, some c.ticket⟩ } }))) ∧
  (Accepted ⟨0x713, .ws0, true, false, some 8⟩ m s → zeroAt d 5 3 = true → fld d 4 1 < 2 → p < 32 → fld d 1 1 < 8 →
    (fld d 2 2 = 0xFFFF ∨ (fld d 2 2 < 4096 ∧ fld d 1 1 ≠ 7)) →
    exec (.schedSample m) s = .next (answered m s stOk (sampleRecord t p (fld d 1 1) (fld d 2 2))
      (if bit (fld d 4 1) 0 then resetSample t p (fld d 1 1) (fld d 2 2) else t)))

/-- Flash, maintenance and health commands complete (R489 to R491, R495, R496, R513 to R515, R542, R543). -/
def Obligations.MaintenanceCommandsComplete : Prop :=
  ∀ (m : MsgSrc) (s : State), let c := reqCtx m s; let t := takeRequest s m; let d := c.data; let k := fld d 0 1;
  let x := getGroup t k;
  (Accepted ⟨0x801, .any, true, false, some 8⟩ m s → zeroAt d 1 7 = true → k < 32 →
    exec (.flashInfo m) s = .next (answered m s stOk (flashInfo t k) t)) ∧
  (Accepted ⟨0x802, .any, true, false, some 8⟩ m s → zeroAt d 1 7 = true → k < 8 →
    exec (.flashHealth m) s = .next (answered m s stOk (flashHealth t k) t)) ∧
  (Accepted ⟨0x803, .ws0, false, false, some 8⟩ m s → k = 1 → zeroAt d 1 3 = true → 100 ≤ fld d 4 4 → fld d 4 4 ≤ 10000 →
    exec (.flashSet m) s = .next (answered m s stOk (leBytes 4 (fld d 4 4) ++ zeros 4)
      { t with flash := { t.flash with wearLimit := fld d 4 4 } })) ∧
  (Accepted ⟨0x804, .ws0, true, true, some 8⟩ m s → zeroAt d 1 7 = true → k < 8 → (x.state = 3 ∨ x.state = 4) → x.offline = none →
    allocatedUnits x ≤ freeElsewhere t k →
    exec (.flashCarrierOffline m) s = .next (issued m s stPending (work c [k])
      (putGroup t k { x with offline := some (x.state, c.ticket) }))) ∧
  (Accepted ⟨0x805, .ws0, true, true, some 8⟩ m s → zeroAt d 1 7 = true → k < 8 → x.offline = none → x.state = 5 →
    exec (.flashCarrierOnline m) s = .next (issued m s stPending (work c [k])
      (putGroup t k { x with state := 1, readOnly := false, online := [c.ticket] }))) ∧
  (Accepted ⟨0x901, .ws0, true, true, some 32⟩ m s → zeroAt d 3 1 = true → zeroAt d 6 2 = true → zeroAt d 16 16 = true →
    scopeFits t k (fld d 1 1) (fld d 2 1) (fld d 4 2) (fld d 8 8) = true →
    let a := newActivity t k true (fld d 1 1) (fld d 2 1) (fld d 4 2) (fld d 8 8) (some c.ticket)
    (deferred t a = false ∨ queueRoom t true = true) →
    exec (.maintStart m) s = .next (issued m s (if deferred t a then stDeferred else stPending) (work c [a.ident]) (submit t a))) ∧
  (∀ a, Accepted ⟨0x902, .ws0, true, true, some 8⟩ m s → (t.rack.running ++ t.rack.queued).find? (·.ident == fld d 0 4) = some a →
    zeroAt d 4 4 = true → (a.code ≠ 4 ∨ a.command = true) →
    exec (.maintCancel m) s = .next (issued m s stPending (doneWork c [a.ident] stOk []) (stopActivity t a))) ∧
  (Accepted ⟨0x903, .ws0, true, false, some 8⟩ m s → zeroAt d 4 4 = true →
    exec (.maintStatus m) s = .next (answered m s stOk (maintStatus t (fld d 0 4)) t)) ∧
  (Accepted ⟨0x904, .ws0, true, false, some 8⟩ m s → zeroAt d 1 3 = true → componentThere t k (fld d 4 4) = true →
    exec (.healthInfo m) s = .next (answered m s stOk (healthInfo t k (fld d 4 4)) t)) ∧
  (Accepted ⟨0x905, .ws0, false, false, some 16⟩ m s → zeroAt d 2 2 = true → zeroAt d 12 4 = true → 1 ≤ k → k ≤ 11 → fld d 1 1 ≤ 1 →
    16 ≤ fld d 4 4 → fld d 4 4 < fld d 8 4 → fld d 8 4 ≤ 2 ^ 31 → (∀ p ∈ t.rack.scores, p.1 / 2 ^ 20 ≠ k) →
    exec (.healthSet m) s = .next (answered m s stOk [] { t with rack := { t.rack with
      watch := setAt t.rack.watch k (fld d 4 4), act := setAt t.rack.act k (fld d 8 4),
      auto_ := setAt t.rack.auto_ k (fld d 1 1 == 1) } }))

/-- Live-service and recorder commands complete (R529 to R531, R533, R536 to R538, R541, R545). -/
def Obligations.ServiceCommandsComplete : Prop :=
  ∀ (m : MsgSrc) (s : State), let c := reqCtx m s; let t := takeRequest s m; let d := c.data; let k := fld d 0 1;
  let put := fun (a : Activity) (u : State) => issued m s (if deferred t a then stDeferred else stPending) (work c [a.ident]) u;
  let free := fun (a : Activity) => deferred t a = false ∨ queueRoom t true = true;
  (∀ p u, Accepted ⟨0x910, .ws0, true, true, some 32⟩ m s → zeroAt d 2 6 = true → zeroAt d 20 12 = true → k ≤ 1 →
    (fld d 1 1 = 0xFF ∨ fld d 1 1 ≤ 1) → fld d 8 8 % 256 = 0 → bufferOk t 0 (fld d 8 8) (fld d 16 4) = true → stageSizeOk t d = true →
    stageSlot t d ≠ inUse t k → t.live.handover = none → t.live.ucode = none →
    let a := newActivity t 6 true 0 0 0 0 (some c.ticket)
    free a → let l := stageSource t d
    allocWindow (dropStaged t k) 0 2 (cdiv l.length 65536) = some (p, u) →
    let x : Staged := ⟨k, stageSlot t d, if k = 0 then some (packageOf l) else none, if k = 0 then [] else l, p⟩
    let v : State := { u with mem := store u.mem (p * 65536) l, live := { u.live with staging := u.live.staging ++ [(c.ticket, x, a.ident)] } }
    exec (.fwStage m) s = .next (if stageSigned t d = false then answered m s stNoAuth [] t
      else if stageValid t d = false then answered m s stBadParam [] t else put a (submit v a))) ∧
  (∀ p, Accepted ⟨0x911, .ws0, true, true, some 8⟩ m s → zeroAt d 1 7 = true → k ≤ 1 → stagedFw t (k == 1) = some p →
    fld (imgSlotOf t.boot.flash t.boot.imgSlot) 12 4 ≤ p.version → (t.rack.running ++ t.rack.queued).any (·.code == 6) = false →
    t.live.handover = none → t.live.ucode = none → p.handover = t.live.runningHandover →
    exec (.fwActivate m) s = .next (issued m s stPending (work c [])
      { t with live := { t.live with handover := some ⟨1, k == 1, c.ticket, 0, []⟩ } })) ∧
  (∀ p, Accepted ⟨0x912, .ws0, true, true, some 8⟩ m s → zeroAt d 1 7 = true → k ≤ 1 → stagedFw t (k == 1) = some p →
    fld (imgSlotOf t.boot.flash t.boot.imgSlot) 12 4 ≤ p.version → (t.rack.running ++ t.rack.queued).any (·.code == 6) = false →
    t.live.handover = none → t.live.ucode = none → let a := newActivity t 6 true 0 0 0 0 (some c.ticket)
    free a → exec (.ucodeLoad m) s =
      .next (put a (submit { t with live := { t.live with ucode := some (c.ticket, p.ucodeRev, a.ident) } } a))) ∧
  (Accepted ⟨0x913, .ws0, true, true, some 32⟩ m s → zeroAt d 2 6 = true → zeroAt d 20 12 = true → k ≤ 3 → caneOut t k = false →
    fld d 1 1 = 0 → zeroAt d 8 12 = true → let a := newActivity t 5 true 3 0 k 0 (some c.ticket)
    free a → exec (.opticsRecal m) s = .next (put a (recalBegin (submit { t with live := { t.live with
      recals := t.live.recals ++ [⟨c.ticket, k, a.ident, 0, 0, 0⟩] } } a) a.ident))) ∧
  (Accepted ⟨0x914, .ws0, true, true, some 8⟩ m s → zeroAt d 1 7 = true → stackThere t k = true → stackOut t k = false →
    t.live.stackRetires.any (·.unit == k) = false → 8 < stacksLeft t → pagesOnStack t k ≤ pagesElsewhere t k →
    let a := newActivity t 7 true 1 0 k 0 (some c.ticket)
    free a → exec (.stackRetire m) s = .next (put a (beginStackRetire t k (some c.ticket)))) ∧
  (Accepted ⟨0x915, .ws0, true, true, some 8⟩ m s → zeroAt d 1 7 = true → k ≤ 3 → caneOut t k = false →
    caneOut t ((k + 2) % 4) = false → t.fab.feedLost.getD (2 * ((k + 2) % 4)) false = false →
    (∀ g ∈ t.rack.groups, g.lease = 1 → reachedWithout t k g.mem.gateway = true) →
    let a := newActivity t 5 true 3 0 k 0 (some c.ticket)
    free a → exec (.caneRetire m) s = .next (put a (beginCaneRetire t k (some c.ticket)))) ∧
  (Accepted ⟨0x916, .ws0, true, true, some 0⟩ m s → exec (.devDrain m) s = .next (issued m s stPending (work c [])
    { t with live := { t.live with draining := true, drain := t.live.drain ++ [c.ticket] } })) ∧
  (Accepted ⟨0xA01, .any, true, false, some 0⟩ m s → exec (.evrInfo m) s = .next (answered m s stOk (evrInfo t) t)) ∧
  (Accepted ⟨0xA02, .ws0, true, true, some 32⟩ m s → zeroAt d 12 4 = true → zeroAt d 24 8 = true → 1 ≤ fld d 8 4 →
    fld d 8 4 ≤ 65536 → bufOk t c.ws (fld d 16 8) (64 * fld d 8 4) = true → (c.owner ≠ 256 ∨ addrSpace (fld d 16 8) = 0) →
    let recs := (List.range (fld d 8 4)).map fun i => archivedAt t (fld d 0 8 + i)
    exec (.evrArchiveRead m) s = .next (issued m s stPending
      (doneWork c [] stOk (leBytes 4 (recs.filter Option.isSome).length ++ zeros 4))
      (writeBuf t c.owner c.ws (fld d 16 8) (recs.flatMap (·.getD (zeros 64))) t.fab.nextTxn))) ∧
  (Accepted ⟨0xA03, .ws0, true, true, some 256⟩ m s → zeroAt d 24 8 = true → zeroAt d 129 31 = true →
    let n := (t.evr.archive.filter fun p => decide (p.1 ≤ fld d 16 8) && p.2.getD 63 0 == 0xA5).length
    exec (.evrClear m) s = .next (if tokenCheck t d ≠ 0 then answered m s stNoAuth [] (emit t 0x0A04 2 0 (tokenCheck t d) 0 0)
      else issued m s stPending (work c [fld d 16 8, n, fld d 8 8])
        (emitFull t 0x0A03 2 0 (fld d 16 8) (leNat (keyIdent (slice d 32 97))) (fld d 8 8) n 0))) ∧
  (Accepted ⟨0xA04, .ws0, false, false, some 32⟩ m s → k = 2 → zeroAt d 10 2 = true → zeroAt d 24 8 = true →
    let u : State := { t with evr := { t.evr with traceMask := fld d 2 2 } }
    exec (.evrClassSet m) s = .next (answered m s stOk (evrInfo u) u)) ∧
  (Accepted ⟨0xA04, .ws0, false, false, some 32⟩ m s → k = 1 → zeroAt d 10 2 = true → zeroAt d 24 8 = true →
    100 ≤ fld d 4 4 → fld d 4 4 ≤ 100000 → 64 ≤ fld d 8 2 → fld d 8 2 ≤ 4096 →
    let u : State := { t with evr := { t.evr with logRate := fld d 4 4, logBurst := fld d 8 2, filledAt := ns t,
                                                  tokens := min (fld d 8 2 * 10 ^ 9) (logTokens t) } }
    exec (.evrClassSet m) s = .next (answered m s stOk (evrInfo u) u))

/-! ## What follows a command, and what the outside does

Each clause names when its command acts, on the state and the operands alone, and the state it then leaves. -/

/-- Tickets run to their end: the work of DISABLE, DESTROY and a buffer's release, unknown opcodes, and a ticket whose outcome
stands; a coalescing timer that is due raises its vector's interrupt, or its pending bit where it is masked (R310, R316, R342,
R354, R355, R357). -/
def Obligations.TicketEventsComplete : Prop :=
  (∀ fn s, fn < 256 → disableReady s fn = true → firmwareRuns s = true →
    exec (.funcDisableDone fn) s = .next (disableDone s fn)) ∧
  (∀ ws s, firmwareRuns s = true → (getWs s ws).state = 2 → wsQuiet s ws = true →
    exec (.wsDestroyProceed ws) s = .next (endWorkspace ws s)) ∧
  (∀ ws base r s, firmwareRuns s = true → (getWs s ws).regions.find? (·.base == base) = some r → r.closing.isSome = true →
    regionBusy s ws r = false →
    exec (.regionRelease ws base) s = .next (releaseRegion s ws r)) ∧
  (∀ m s, unknownMsg m s = true → exec (.unknownOpcode m) s = .next (respond (takeRequest s m) (msgOwner m)
    (fld (msgBytes s m) 0 2) (fld (msgBytes s m) 8 8) stBadParam 0 [])) ∧
  (∀ t o k st r u s, firmwareRuns s = true → findTicket s t = some k → k.done = false → doneQueued s t = false →
    ticketOutcome s t k o = some (st, r, u) → exec (.ticketDone t o) s = .next (finishTicket u t st r)) ∧
  (∀ fn vec s, fn < 256 → vec < 256 → timerDue s fn vec = true → (getVec (getFn s fn) vec).mask = true →
    exec (.coalescingTimer fn vec) s = .next (putVec s fn vec { getVec (getFn s fn) vec with pending := true })) ∧
  (∀ fn vec s, fn < 256 → vec < 256 → timerDue s fn vec = true → (getVec (getFn s fn) vec).mask = false →
    exec (.coalescingTimer fn vec) s = .next (sendInterrupt s fn vec))

/-- Writes to a function's window complete: doorbells, ring counters, vectors, the recorder's cursor and the rest, and the refusal
of an access that is not allowed (R331, R334, R339, R345, R350, R355, R529). -/
def Obligations.WindowWritesComplete : Prop :=
  ∀ (p : RegPkt) (s : State), let f := getFn s p.fn; let r := (p.offset - 0x1000) / 16; let g := getRing f r;
  (doorbellActs s p = true → exec (.mbxDoorbell p) s =
    .next (ackWrite (putFn s p.fn ((bellSlots (writtenOnes p 0x100)).foldl ringSlot f)) p)) ∧
  (respReadyActs s p = true → exec (.mbxRespReady p) s =
    .next (ackWrite (drainQueue (putFn s p.fn (freeSlots f (writtenOnes p 0x110))) p.fn 16) p)) ∧
  (∀ x, sqBellActs s p = true → takesBells s g = true → x = BitVec.ofNat 32 (mergeReg p (0x1000 + 16 * r) g.sqPi.toNat) →
    sqBellOk g x = true → exec (.sqPiDoorbell p) s = .next (ackWrite (putRing s p.fn r { g with sqPi := x }) p)) ∧
  (∀ x, cqBellActs s p = true → g.state ≠ 0 → x = BitVec.ofNat 32 (mergeReg p (0x1008 + 16 * r) g.cqCi.toNat) →
    cqBellOk g x = true → exec (.cqCiWrite p) s = .next (ackWrite (putRing s p.fn r { g with cqCi := x }) p)) ∧
  (∀ v x w y, vecWriteActs s p = true → v = (p.offset - 0x3000) / 16 → x = getVec f v →
    w = mergeReg p (0x3000 + 16 * v) (vecCtrl x) →
    y = { x with coalCount := bits w 47 32, coalNs := bits w 31 8, mask := bit w 1, enable := bit w 0 } →
    exec (.interruptVectorWrite p) s = .next (ackWrite (if x.pending = true ∧ y.mask = false ∧ y.enable = true
      then sendInterrupt (putVec s p.fn v y) p.fn v else putVec s p.fn v y) p)) ∧
  (∀ n, cursorWriteActs s p = true → n = mergeReg p 0x400 s.evr.cursor.toNat → exec (.evwCursorWrite p) s =
    .next (ackWrite { s with evr := { s.evr with cursor := BitVec.ofNat 64 n, window := snapshotAt s.evr n } } p)) ∧
  (writeHeard s p = true → ownRow p = false → p.offset / 8 * 8 = 0x118 → exec (.registerWrite p) s =
    .next (ackWrite (putFn s p.fn { f with mbxVector := bits (mergeReg p 0x118 (f.mbxVector * 2 ^ 16)) 31 16 }) p)) ∧
  (writeHeard s p = true → ownRow p = false → p.offset / 8 * 8 ≠ 0x118 → 0x8000 ≤ p.offset → p.offset < 0xC000 →
    exec (.registerWrite p) s = .next (ackWrite (putFn s p.fn (writeSlotBytes f p)) p)) ∧
  (∀ isWrite, packetHeard s p = true → s.guard.halted = false → widthOk p.offset p.data.length isWrite = false → f.badAt = none →
    exec (.windowBadAccess p isWrite) s = .next (ackWrite (emitFull
      (putFn s p.fn { f with badAt := some (ns s), badCount := 0 }) 0x0501 0 0 p.fn p.offset p.data.length (f.badCount + 1) 0) p))

/-- A ring entry of each kind completes: the granted ring's head, with a slot that its quota and its pool allow, is claimed and,
where nothing refuses it, its work begins (R106, R163, R175, R176, R219, R235, R267, R271, R292, R352). -/
def Obligations.RingEntriesComplete : Prop :=
  ∀ (fn ring : Nat) (h : HostView) (s : State) (e : List Byte) (dev : Nat) (pool : Pool) (slot : Nat) (x : Slot),
  fn < 256 → ring < 256 → workHead s fn ring = some e → ringGrant s = some (dev, fn, ring) →
  slotFor s (getFn s fn).ws (wantsLatency (fld e 0 1) (entryPayload e)) = some (pool, slot) →
  let b : Src := ⟨fn, (getFn s fn).ws, h, none⟩; let u := claimEntry s fn ring e pool slot; let p := x.payload;
  getSlot u slot = some x →
  (∀ ix, fld e 0 1 = 1 → queryRefusal b u p = none → getIndex u (fld p 0 2) = some ix → withinBudget u = true →
    exec (.queryEntry fn ring h) s = .next (launchQuery slot (refIndex (putSlot u slot { x with
      obj := fld p 0 2 + 1, vec := (b.read u (fld p 16 8) (queryBytes ix p)).map (·.toNat), pred := queryPred b u p }) (fld p 0 2) true))) ∧
  (∀ ix, fld e 0 1 = 2 → insertRefusal b u p = none → getIndex u (fld p 0 2) = some ix →
    exec (.insertEntry fn ring h) s = .next (startChange (fld p 0 2) (insertVector b u ix p) slot u)) ∧
  (fld e 0 1 = 3 → deleteRefusal b u p = none → exec (.deleteEntry fn ring h) s = .next (startChange (fld p 0 2) [] slot u)) ∧
  (∀ q vec kv, fld e 0 1 = 4 → stepRefusal b u p = none → sessionOf u (aSession p) = some q →
    vec = vector32 (aFmt p 0) (geoHeads q.geometry * aRows q.geometry p * geoDim q.geometry) (b.read u (fld p 32 8) (queryLen q.geometry p)) →
    kv = vector32 (aFmt p 1) (2 * geoHeads q.geometry * aNew p * geoDim q.geometry) (b.read u (fld p 40 8) (kvLen q.geometry p)) →
    notFinite32 vec = false → notFinite32 kv = false →
    let cs := kv.map fun c => convert .e4m3 (f32 c)
    exec (.attnStep fn ring h) s = .next (launchStep slot (refSession (putSlot u slot { x with
      obj := aSession p, vec := vec, pred := cs.map (fun c => BitVec.ofNat 8 c.1), arith := cs.foldl (fun a c => a ||| c.2) 0,
      prog := [0, 0, 0, b2n q.roll.isSome, 0] }) q.ws q.key true))) ∧
  (∀ t v y, fld e 0 1 = 5 → gatherCheck b u p = .ok t → x.bind = [] → t.current = some v →
    y = { x with obj := fld p 0 4, bind := [v.num, v.bindCount], vec := batchVec b u p } →
    gatherReady (refVersion (putSlot u slot y) (fld p 0 4) v.num true) y = true →
    exec (.gatherEntry fn ring h) s = .next (launchGather slot (refVersion (putSlot u slot y) (fld p 0 4) v.num true))) ∧
  (∀ t v y, fld e 0 1 = 6 → updateCheck b u p = .ok t → x.bind = [] → t.current = some v →
    y = { x with obj := fld p 0 4, bind := [v.num, v.updates], vec := batchVec b u p, pred := b.read u (fld p 32 8) (gradBytes t p) } →
    repeated y v = none → leaseHeld u t.gid = true → seqVerdict t v (fld p 48 8) = .start → phaseHeld y = false →
    exec (.updateEntry fn ring h) s = .next (beginUpdate slot (refVersion (putSlot u slot y) (fld p 0 4) v.num true))) ∧
  (fld e 0 1 = 7 → topkFieldsOk p = true → b.ok u (fld p 0 8) ((fld p 20 4 - 1) * fld p 28 4 + (topkSpan p 0).2) = true →
    b.ok u (fld p 8 8) (fld p 32 4) = true → fld p 20 4 * fld p 24 2 * 8 ≤ fld p 32 4 →
    (((List.range (fld p 20 4)).map (topkSpan p)).findSome? fun r => b.fail u r.1 r.2) = none →
    exec (.topkEntry fn ring h) s = .next (completeSlot u slot (topkEntry x (topkResult b u p).2.1 (topkResult b u p).2.2) 0
      [(fld p 8 8, (topkResult b u p).1)])) ∧
  (∀ o k, fld e 0 1 = 8 → requestRefusal b u p = none → requestPools u (fld p 0 8) = some (o, k) →
    let c := firstCopy b u p o k
    let stub : ReqStub :=
      { ident := c.ident, ws := c.ws, fn := x.fn, ring := x.ring, eflags := x.eflags, userTag := x.tag, slot := slot,
        at_ := ns u, lastCheckpoint := ns u, probed := false, acks := [], phase := 0, epoch := 1, pool := o, cancelled := false }
    exec (.requestEntry fn ring h) s = .next (writeTo (writeTo (putSlot { u with requests := { u.requests with
      stubs := stub :: u.requests.stubs } } slot { x with st := .waiting, wait := 1 }) o c) k c)) ∧
  (fld e 0 1 = 9 → exec (.modelRun fn ring h) s = .next (match modelRefusal b u p with
    | none => refProgram (putSlot u slot { x with obj := fld p 0 4, vec := (b.read u (fld p 8 8) (fld p 24 4)).map (·.toNat) })
        (fld p 0 4) true
    | some r => failSlot u slot r.1 r.2)) ∧
  (fld e 0 1 = 10 → hashRefusal u b.ws p false true = none → withinBudget u = true →
    exec (.hashGet fn ring h) s =
      .next (launchHash slot (refIndex (putSlot u slot { x with obj := fld p 0 2 + 1 }) (fld p 0 2) true))) ∧
  (fld e 0 1 = 11 → hashRefusal u b.ws p true false = none →
    exec (.hashPut fn ring h) s = .next (startChange (fld p 0 2) [] slot u)) ∧
  (fld e 0 1 = 12 → hashRefusal u b.ws p false false = none →
    exec (.hashDelete fn ring h) s = .next (startChange (fld p 0 2) [] slot u))

/-- A malformed head is answered ST_BAD_PARAM without a slot, and heads that wait for a slot are reported at most once a second
(R118, R348). -/
def Obligations.RingRefusalsComplete : Prop :=
  (∀ fn ring s e, fn < 256 → ring < 256 → workHead s fn ring = some e → entryOk e = false → ringsAdmit s fn = true →
    cqRoom (getRing (getFn s fn) ring) = true →
    let g := getRing (getFn s fn) ring
    exec (.ringRejection fn ring) s = .next (postEntry (putRing s fn ring { g with sqCi := g.sqCi + 1, inFlight := g.inFlight + 1 })
      fn ring (rejectionEntry e g.sqCi.toNat) (bit (fld e 1 1) 0))) ∧
  (∀ s, firmwareRuns s = true → waitingHeads s ≠ [] → s.hub.exhaustedAt = none →
    exec .slotsExhausted s = .next (emitDev { s with hub := { s.hub with exhaustedAt := some (ns s) } } 0x0303 (waitingHeads s).length
      (b2n (freePoolSlot s .localPool).isNone + 2 * b2n (freePoolSlot s .latency).isNone)
      (((waitingHeads s).filter (heldByQuota s)).length)))

/-- A sub-request of each kind is admitted at its device: it takes a remote-pool slot and is served, where its group's lease is
held; an index sub-request is served once its frontier is reached (R183, R190, R245, R249, R269, R274, R352). -/
def Obligations.SubrequestsComplete : Prop :=
  ∀ (ident : Nat) (s : State) (x : SubIn) (slot : Nat), getSub s ident = some x → freePoolSlot s .remote = some slot →
  firmwareRuns s = true → nextSubOf s ident = true → leaseHeld s x.group = true →
  let y : SubIn := { x with slot := some slot }; let t := putSub (passCore s .remote slot) y;
  let here := (∃ i ix mir c, servedCopy t y = some (i, ix, mir, c) ∧ frontierAt t ix c y.bind0 = true);
  (x.kind = 1 → here → exec (.scanSubrequest ident) s = .next (serveScan t y)) ∧
  (x.kind = 2 → here → exec (.refineSubrequest ident) s = .next (serveRefine t y)) ∧
  (x.kind = 3 → exec (.attnScoreSubrequest ident) s = .next (serveScore t y)) ∧
  (x.kind = 4 → exec (.attnPartialSubrequest ident) s = .next (servePartial t y)) ∧
  (x.kind = 5 → exec (.gatherSubrequest ident) s = .next (serveGather t y)) ∧
  (x.kind = 6 → exec (.updateSubrequest ident) s = .next (serveUpdate t y)) ∧
  (x.kind = 7 → here → exec (.hashGetSubrequest ident) s = .next (serveHash t y))

/-- A sub-request's later steps and its replies complete (R74, R172, R191). -/
def Obligations.SubrequestEventsComplete : Prop :=
  (∀ ident q i ix mir c s, getSub s ident = some q → firmwareRuns s = true → q.threshold = true → q.kind ≠ 3 →
    servedCopy s q = some (i, ix, mir, c) → exec (.thresholdPass ident) s = .next (serveThreshold s q)) ∧
  (∀ ident q i ix mir c s, getSub s ident = some q → firmwareRuns s = true → waitsFrontier q = true →
    servedCopy s q = some (i, ix, mir, c) → frontierAt s ix c q.bind0 = true →
    exec (.frontierReached ident) s = .next (serveIndexSub s q)) ∧
  (∀ ident q s, getSub s ident = some q → firmwareRuns s = true → waitsFrontier q = true →
    elapsed s q.arrivedAt 10000000 = true → exec (.frontierWaitTimeout ident) s = .next (replySub s q .fenced)) ∧
  (∀ slot kind shard r x o s, firmwareRuns s = true → getSlot s slot = some x → awaited s x kind shard r = some o →
    exec (.subreqReply slot kind shard r) s = .next (giveReply slot x o r (takeReply s o))) ∧
  (∀ slot kind shard x o s, firmwareRuns s = true → getSlot s slot = some x →
    (x.subs.find? fun o => o.kind == kind && o.shard == shard && subTimedOut s o) = some o →
    exec (.subreqTimeout slot kind shard) s = .next (abandonSub slot x o s))

/-- Changes of an index and what keeps its copies alike complete: a change at its primary and at its second copy, its end,
frontiers, low epochs, snapshots and compaction (R157, R169 to R171, R180, R181, R184). -/
def Obligations.IndexEventsComplete : Prop :=
  (∀ c s idx x mir k, firmwareRuns s = true → changeArrived s c = true → indexByKey s c.ws c.key = some (idx, x) →
    x.placeOf c.shard = some (mir, k) → leaseHeld s x.gid = true →
    let txn := ((changePacket s c).map (·.txn)).getD 0
    let t := match changePacket s c with | some p => takeMsg s p | none => s
    (c.epoch ≠ 0 → exec (.changeMsg c) s = .next (takeChange t idx x mir k c txn)) ∧
    (c.epoch = 0 → primaryDev s x.gid c.shard = some (fabricDev s) → withinBudget s = true → k.changes.length < 2 ^ 20 →
      exec (.changeMsg c) s = .next (assignChange t idx x mir k c txn))) ∧
  (∀ index shard epoch acked x mir c ch s, index < 1024 → firmwareRuns s = true → getIndex s index = some x →
    x.placeOf shard = some (mir, c) → c.changes.find? (·.epoch == epoch) = some ch →
    let d : Change := { ch with mirrorDone := ch.mirrorDone || (acked && ch.needMirror) }
    changeDone s d = true →
    exec (.changeComplete index shard epoch acked) s = .next (answerChange
      (putCopy s index mir { c with changes := c.changes.filter (·.epoch != epoch) }) d.src x.ws d.homeSlot d.txn stOk d.epoch
      d.ordinal d.marked)) ∧
  (∀ index x s, getIndex s index = some x → firmwareRuns s = true → leaseHeld s x.gid = true →
    exec (.frontierNotice index) s = .next ((primaryCopies s x).foldl (noticeCopy index) s)) ∧
  (∀ ws key shard frontier src s, firmwareRuns s = true → src ≠ fabricDev s →
    exec (.frontierMsg ws key shard frontier src) s = .next (takeFrontier ws key shard frontier src s)) ∧
  (∀ index x s, getIndex s index = some x → firmwareRuns s = true → leaseHeld s x.gid = true →
    exec (.lowEpochPublish index) s = .next (publishLow index x s)) ∧
  (∀ index mirror x c num s, index < 1024 → firmwareRuns s = true → getIndex s index = some x → x.role mirror = some c →
    c.live = true → x.state = 2 → nextSnap x c (copyFrontier s c (appliesAsMirror s x c)) = some num → sendsSnaps s x c = false →
    exec (.statsSnapshot index mirror) s = .next (putCopy s index mirror
      { c with snapshots := keepSnaps s index x (c.snapshots ++ [takeSnapshot s x c num]) })) ∧
  (∀ ws key shard sn idx x s, indexByKey s ws key = some (idx, x) → firmwareRuns s = true → leaseHeld s x.gid = true →
    exec (.groupSnapshot ws key shard sn) s = .next (joinSnap s idx shard sn)) ∧
  (∀ index mirror list seq x c s, index < 1024 → firmwareRuns s = true → getIndex s index = some x → x.role mirror = some c →
    compactAdmits s x c.shard = true →
    exec (.compact index mirror list seq) s =
      .next (if x.kind = 3 then compactBucket x c list seq s else compactChunk index mirror x c list seq s))

/-! ## Marver units -/

/-- A context of a marver unit takes the step of its command: of the four contexts of the unit, the one the round robin grants,
and that context's bank-port operation; its errors are met, and the unit's records say what the step left (R68, R73, R147, R148,
R244). -/
def Obligations.MarverStepsComplete : Prop :=
  ∀ (unit : Nat) (errs : List MemErr) (s : State) (i : Nat) (c : MarverCtx), unitThere s unit = true → inRun s = true →
  stepCtx (getUnit s unit) = some (i, c) → let t := meetErrs s unit errs;
  let after := fun (r : MarverCtx × State) => Host.Outcome.next (φ := Fault) (ρ := Refusal) (endStep unit i r.1 r.2);
  (nextOp c = .scan8 → exec (.scan8 unit errs) s = after (scanStep unit c t)) ∧
  (nextOp c = .scan4 → exec (.scan4 unit errs) s = after (scanStep unit c t)) ∧
  (nextOp c = .filter → exec (.marverFilter unit errs) s = after (filterStep unit c t)) ∧
  (nextOp c = .blockScore → exec (.blockScore unit errs) s = after (blockStep unit c t)) ∧
  (nextOp c = .attnKey → exec (.attnKey unit errs) s = after (keyStep unit c t)) ∧
  (nextOp c = .attnValue → exec (.attnValue unit errs) s = after (valueStep unit c t)) ∧
  (nextOp c = .pool → exec (.marverPool unit errs) s = after (poolStep unit c t)) ∧
  (nextOp c = .gradRmw → exec (.gradRmw unit errs) s = after (gradStep unit c t)) ∧
  (nextOp c = .append → exec (.marverAppend unit errs) s = after (appendStep unit c t)) ∧
  (nextOp c = .mark → exec (.marverMark unit errs) s = after (markStep unit c t)) ∧
  (nextOp c = .copy → exec (.marverCopy unit errs) s = after (copyBurst 16 c t)) ∧
  (nextOp c = .drain → exec (.marverDrain unit errs) s = after (drainStep unit c t))

/-- Marver commands start and their tables load; a die bus, a host slot and a refresh are granted; a stack's scrub is asked for
and walks on; a poisoned granule is written again (R66, R68, R78, R79, R87 to R89). -/
def Obligations.MarverEventsComplete : Prop :=
  (∀ unit s cmd rest i, unitThere s unit = true → inRun s = true → (getUnit s unit).queue = cmd :: rest →
    (getUnit s unit).ctxs.findIdx? (·.isNone) = some i →
    pagesHeld (getUnit s unit) MarverCmd.tables + cmd.tables ≤ 16 → pagesHeld (getUnit s unit) MarverCmd.scratch + cmd.scratch ≤ 8 →
    atSwitch s unit = false → exec (.marverCommandStart unit none) s =
      .next (putUnit s unit { getUnit s unit with queue := rest, ctxs := setAt (getUnit s unit).ctxs i (some (startCtx cmd)) })) ∧
  (∀ unit c s, unitThere s unit = true → inRun s = true → s.guard.halted = false → commandOk unit c = true →
    (getUnit s unit).queue.length < 16 → exec (.marverCommandStart unit (some c)) s =
      .next (startHead unit (putUnit s unit { getUnit s unit with queue := (getUnit s unit).queue ++ [c] }))) ∧
  (∀ units s, units.all (unitThere s) = true → inRun s = true → oneTransfer s units = true → exec (.lutLoad units) s =
    .next (units.foldl (fun v u => unitStep .lutLoad (fun _ c w => (loadKiB c, w)) u [] v) s)) ∧
  (∀ unit errs a s, unitThere s unit = true → inRun s = true → s.rack.running.find? (stackScrub (unit / 1024)) = some a →
    (patrolAt s unit).patrol < unitGranules → exec (.marverScrub unit errs) s = .next (scrubStep unit errs a s)) ∧
  (∀ unit errs s, unitThere s unit = true → inRun s = true → (s.rack.running ++ s.rack.queued).any (stackScrub (unit / 1024)) = false →
    (patrolAt s unit).patrol < unitGranules → exec (.marverScrub unit errs) s =
      .next (submit s (newActivity s 1 false 1 0 (unit / 1024) 0 none))) ∧
  (∀ die base errs s, unitThere s (die * 64) = true → inRun s = true →
    exec (.diebusXfer die base errs) s = .next (grantDieBus die base errs s)) ∧
  (∀ unit a s, unitThere s unit = true → inRun s = true → slotOk s unit a = true →
    exec (.hostSlot unit a) s = .next (hostSlot unit a s)) ∧
  (∀ bank s, unitThere s (bank / 4096 * 1024) = true → inRun s = true → refreshDue s bank = true → exec (.bankRefresh bank) s =
    .next { s with marver := { s.marver with refreshed := Tab.insert s.marver.refreshed bank (ns s) } }) ∧
  (∀ dpa data a s, firmwareRuns s = true → dpa % 32 = 0 → data.length = 32 → s.mem.poison.contains (dpa / 32) = true →
    objectPage s dpa = true → (s.rack.running.find? fun b => b.code == 4 && sameScope (granuleRebuild s (dpa / 32)) b) = some a →
    exec (.poisonRewrite dpa data) s = .next (dropActivity { s with mem := store s.mem (32 * (dpa / 32)) data } a.ident))

/-! ## Hub units -/

/-- A gaffer engine takes a job and runs the job at the head of its queue (R48, R106, R124, R125, R139, R142, R190). -/
def Obligations.GafferJobsComplete : Prop :=
  ∀ (engine : Nat) (s : State), engine < 128 → firmwareRuns s = true → let g := getGaffer s engine;
  let fits := fun (j : GafferJob) (k : JobKind) => j.kind = k ∧ j.core ≤ 512 ∧ scoreRetired s 3 engine = false;
  let ran := fun (j : GafferJob) (rest : List GafferJob) (err : Option (Nat × Bool)) (r : List Nat × Nat) =>
    Host.Outcome.next (φ := Fault) (ρ := Refusal)
      (wakeModel engine (sramError engine err (putGaffer s engine (keepOutput { g with queue := rest } j r.1 r.2))));
  (∀ j err, fits j .coarse → vectorJob s j = true → exec (.coarseScoring engine (some j) err) s = .next (submitCoarse engine j s)) ∧
  (∀ j err, fits j .subDistance → vectorJob s j = true → exec (.subDistanceTable engine (some j) err) s = .next (submitJob engine j s)) ∧
  (∀ j err, fits j .insertEncode → vectorJob s j = true → exec (.insertEncoding engine (some j) err) s = .next (submitJob engine j s)) ∧
  (∀ j err x, fits j .refine → g.pages.contains 0 = true → getIndex s j.obj = some x → 4 * x.dim ≤ j.data.length →
    exec (.refinement engine (some j) err) s = .next (submitJob engine j s)) ∧
  (∀ j err p, fits j .model → getProgram s j.obj = some p → p.engines.contains engine = true →
    exec (.modelProgramJob engine (some j) err) s = .next (submitJob engine j s)) ∧
  (∀ j err, fits j .hotRow → j.data.length ≤ 1024 * 4 * j.obj →
    exec (.hotRowChunk engine (some j) err) s = .next (submitJob engine j s)) ∧
  (∀ j err x, fits j .training → j.core = 512 → getIndex s j.obj = some x → x.state = 1 →
    exec (.trainingPass engine (some j) err) s = .next (submitJob engine j s)) ∧
  (∀ j rest err x, g.queue = j :: rest → getIndex s j.obj = some x → let v := vals32 (jobCodes j.data);
    (j.kind = .coarse → exec (.coarseScoring engine none err) s = ran j rest err (codedOut (coarseScores x v))) ∧
    (j.kind = .subDistance → exec (.subDistanceTable engine none err) s =
      ran j rest err ((lookupTable x v).1.flatMap (fun r => r), (lookupTable x v).2)) ∧
    (j.kind = .insertEncode → exec (.insertEncoding engine none err) s =
      ran j rest err (nearestList x v :: encodeItem x v, (codedOut (coarseScores x v)).2)) ∧
    (j.kind = .refine → exec (.refinement engine none err) s = ran j rest err
      (codedOut ((streamed x j.data).map (refinedDist x (jobCodes (slice j.data 0 (4 * x.dim)))))))) ∧
  (∀ j rest err, g.queue = j :: rest → j.kind = .model → exec (.modelProgramJob engine none err) s = ran j rest err (modelOut s j)) ∧
  (∀ j rest err, g.queue = j :: rest → j.kind = .hotRow → exec (.hotRowChunk engine none err) s =
    ran j rest err ((chunkSums j.obj (jobCodes j.data)).map (·.toNat), 0)) ∧
  (∀ j rest err, g.queue = j :: rest → j.kind = .training →
    exec (.trainingPass engine none err) s = ran j rest err (trainingOut s j))

/-- A coarse batch closes at its window's end; a jack binds and passes; a core's slots are scheduled in turn, take model outputs
and are released (R114, R115, R120, R127, R202). -/
def Obligations.HubEventsComplete : Prop :=
  (∀ engine index b s, engine < 128 → (getGaffer s engine).batches.find? (·.index == index) = some b →
    elapsed s b.openedAt s.boot.settings.coarseWindowNs = true →
    exec (.coarseBatchClose engine index) s = .next (putGaffer s engine (closeBatch (getGaffer s engine) b))) ∧
  (∀ unit ctx b s, unit < 64 → ctx < 8 → firmwareRuns s = true → getJack s (8 * unit + ctx) = none →
    scoreRetired s 5 ((8 * unit + ctx) / 8) = false → exec (.jackPass unit ctx (some b)) s =
      .next { s with hub := { s.hub with 
        jacks := Tab.insert s.hub.jacks (8 * unit + ctx) { b with keep := [], kept := [], out := [], floor := none } } }) ∧
  (∀ unit ctx c s, unit < 64 → ctx < 8 → firmwareRuns s = true → getJack s (8 * unit + ctx) = some c →
    let w := jackPass c.dedup c.kept c.floor (min 64 (c.depth - c.out.length)) c.input
    let y : JackCtx := { c with keep := w, out := c.out ++ w, kept := if c.dedup then c.kept ++ w.map (·.ident) else c.kept,
                                floor := match w.getLast? with | some r => some r.key | none => c.floor }
    exec (.jackPass unit ctx none) s = .next { s with hub := { s.hub with jacks := Tab.insert s.hub.jacks (8 * unit + ctx) y } }) ∧
  (∀ core i x s, core < 512 → firmwareRuns s = true → schedGrant s core = some i → getSlot s (128 * core + i) = some x →
    exec (.slotSchedule core) s = .next (runSlot (128 * core + i) x
      { s with hub := { s.hub with schedPtr := Tab.insert s.hub.schedPtr core ((i + 1) % 128) } })) ∧
  (∀ slot x e o s, firmwareRuns s = true → getSlot s slot = some x → modelOutput s slot = some (e, o) → x.kind = 9 → x.st = .waiting →
    x.pg 0 = 1 → let g := getGaffer s e
    exec (.slotReply slot) s = .next (putSlot (putGaffer s e { g with outputs := g.outputs.erase o }) slot
      { x with wait := x.wait - 1, st := if x.wait - 1 = 0 then .ready else .waiting, vec := o.2.1,
               arith := if o.2.2 != 256 then o.2.2 else 0, prog := [if o.2.2 != 256 then 2 else 3] })) ∧
  (∀ slot x e s, firmwareRuns s = true → getSlot s slot = some x → x.st = .completing → x.done = some e →
    resultsVisible s slot = true → x.kind ≠ 8 → exec (.slotRelease slot) s =
      .next (releaseRefs (postSlot (freeJacks (dropSlot s slot) slot) x (timedEntry s x e)) x))

/-! ## Sessions -/

/-- Annealing, rolling and the upkeep of sessions complete (R230, R238, R284 to R286, R288, R291). -/
def Obligations.SessionEventsComplete : Prop :=
  ∀ (ws key : Nat) (s : State) (x : Session), firmwareRuns s = true →
  (annealing s ws key 1 = some x → stepsLeft s x = false →
    (deferred s (annealActivity s x) = false ∨ queueRoom s true = true) → exec (.annealFlush ws key) s =
      .next (submit (putSession s { x with annealPhase := 3 }) (annealActivity s x))) ∧
  (∀ a, annealing s ws key 3 = some x → annealRuns s x = some a → findStream s 4 x.ws (sessionOwner x) = none →
    exec (.annealStripe ws key) s = .next (dropActivity (putSession s { x with
      annealPhase := 4, journal := x.journal.map (fun e => { e with striped := true }) }) a.ident)) ∧
  (∀ a g st d, annealing s ws key 3 = some x → annealRuns s x = some a → findStream s 4 x.ws (sessionOwner x) = some (g, st) →
    st.units.isEmpty = false → nextUnits (getGroup s g) st true = some d →
    exec (.annealStripe ws key) s = .next (formStripe g st d s)) ∧
  (∀ locator, annealing s ws key 4 = some x → x.roll = none → exec (.annealManifest ws key locator) s = .next (putSession s { x with
    annealPhase := 5, annealSeq := x.annealSeq + 1, images := x.images ++ [newImage s x locator] })) ∧
  (annealing s ws key 5 = some x → x.roll = none → exec (.annealRelease ws key) s =
    .next (endAnneal (releaseSession (tellSession s x 20 []) x 3) x stOk (annealResult x))) ∧
  (∀ ok, annealing s ws key 5 = some x → x.roll.isSome = true → (rollRuns s x).isSome = true →
    exec (.sessionRoll ws key ok) s = .next (sessionRoll ws key ok s)) ∧
  (∀ slot, stepWaits s slot = true → exec (.attnPositionRelease slot) s = .next (launchStep slot s)) ∧
  (sessionByKey s ws key = some x → overBudget x = true → exec (.kvSpill ws key) s = .next (spillOne ws key s)) ∧
  (∀ e p, sessionByKey s ws key = some x → journalPacket s ws key e = some p →
    let r := journalEnt s x { e with own := false, striped := false }
    exec (.sessionJournalWrite ws key e) s = .next (ackAppend (takeMsg r.2 p) (fld p.payload 16 2) ws p.txn r.1)) ∧
  (∀ layer head block e y u, sessionByKey s ws key = some x → rebuildDue s x layer head block = true →
    writeRebuilt s x { e with layer := layer, head := head, block := block } = some (y, u) →
    exec (.blockRebuild ws key layer head block (some e)) s = .next (reserveAttn (putSession u y) x.handle))

/-! ## Tables -/

/-- The passes of an update over its devices and the reads of a pool complete (R273, R274, R278). -/
def Obligations.TableEventsComplete : Prop :=
  (∀ ws key v u coord h t s, firmwareRuns s = true → ctrlArrived s coord ws 0 key v u = true →
    let r := takeCtrl s coord ws 0 key v u
    tableByKey r ws key = some (h, t) → leaseHeld r t.gid = true → exec (.announce ws key v u coord) s =
      .next (settleDrains (putTable r h { t.modVersion v (fun x => { x with announced := u }) with
        drainsDue := t.drainsDue ++ [(v, u, coord)] }) h)) ∧
  (∀ ws key v u src s, firmwareRuns s = true → ctrlArrived s src ws 1 key v u = true →
    exec (.drained ws key v u src) s = .next (takeDrained ws key v u src s)) ∧
  (∀ ws key v u s, firmwareRuns s = true → ctrlArrived s (coordDev s ws key) ws 2 key v u = true →
    exec (.committed ws key v u) s = .next (takeCommitted ws key v u s)) ∧
  (∀ slot x t v s, firmwareRuns s = true → getSlot s slot = some x → getTable s x.obj = some t →
    t.version (x.bind.getD 0 0) = some v → x.kind = 6 → x.st = .admitted → leaseHeld s t.gid = true →
    seqVerdict t v (fld x.payload 48 8) = .start → phaseHeld x = false → exec (.updateSeqRelease slot) s =
      .next (beginUpdate slot (putSlot s slot { x with bind := [v.num, v.updates] }))) ∧
  (∀ txn tagOk rec r s, s.poolReads.find? (·.txn == txn) = some r → firmwareRuns s = true →
    exec (.poolResp txn tagOk rec) s = .next (pumpPools (poolArrived r tagOk rec (takePool s txn)))) ∧
  (∀ txn r s, s.poolReads.find? (·.txn == txn) = some r → firmwareRuns s = true →
    elapsed s r.sentAt (s.boot.settings.subreqTimeoutUs * 1000) = true →
    exec (.poolReadTimeout txn) s = .next (pumpPools (failPool s r.slot stStateLost)))

/-! ## Durable requests -/

/-- The owner's, the keeper's and the home's steps of a durable request complete (R294, R295, R299 to R303). -/
def Obligations.RequestEventsComplete : Prop :=
  ∀ (ws ident : Nat) (s : State), firmwareRuns s = true →
  (∀ h p, reqPacket s 8 ws ident = some p → exec (.phaseDispatch ws ident h) s = .next (startPhase p h s)) ∧
  (∀ h c, reqPacket s 8 ws ident = none → reqCopyOf s ws ident = some c → poolLease s = true → mayDispatch c = true →
    exec (.phaseDispatch ws ident h) s = .next (sendPhase s c)) ∧
  (∀ p accepted, reqPacket s 9 ws ident = some p →
    exec (.bindingRecord ws ident accepted) s = .next (takeBinding p accepted s)) ∧
  (∀ accepted c p, copyPacket s 0 c = some p → c.ws = ws → c.ident = ident →
    exec (.checkpoint ws ident accepted (some c)) s = .next (takeWrite c p s)) ∧
  (∀ accepted p, reqPacket s 10 ws ident = some p →
    exec (.checkpoint ws ident accepted none) s = .next (takePhaseDone p accepted s)) ∧
  (∀ c d, reqCopyOf s ws ident = some c → poolLease s = true → c.state ≠ 2 → c.doneEntry = none →
    keeperOf s c.partner ident = some d → exec (.ownerBeat ws ident) s =
      .next (sendReq (putReqCopy s { c with beatAt := ns s }) d 1 ws ident c.epoch c.pool [])) ∧
  (elapsed s s.requests.sweepAt 5000000 = true → exec .orphanSweep s = .next (sweepCopies s)) ∧
  (∀ epoch pool p, reqPacket s 5 ws ident = some p → fld p.payload 16 8 = epoch → fld p.payload 24 2 = pool →
    exec (.orphanMsg ws ident epoch pool) s = .next (addClaim (takeMsg s p) ws ident 0xFFFF)) ∧
  (∀ c p, poolLease s = true → copyPacket s 2 c = some p → exec (.handoff c) s = .next (takeHandoff c p s)) ∧
  (∀ epoch heldNone p c, reqPacket s 3 ws ident = some p → reqCopyOf s ws ident = some c → fld p.payload 16 8 = epoch →
    fld p.payload 32 1 = b2n heldNone → c.state = 1 → epoch = c.epoch + 1 →
    exec (.handoffAck ws ident epoch heldNone) s = .next (takeHandoffAck c epoch heldNone (takeMsg s p))) ∧
  (∀ c, poolLease s = true → reqCopyOf s ws ident = some c → c.state = 1 → elapsed s c.sentAt 2000000 = true →
    exec (.handoffResend ws ident) s = .next (resendHandoff c s)) ∧
  (∀ copies w i entry self, poolLease s = true →
    (s.requests.claims.find? fun c => c.1 == ws && c.2.1 == ident) = some (w, i, entry) → ownPool s = some self →
    exec (.claimMsg ws ident copies) s = .next (makeClaim ws ident entry self copies s)) ∧
  (∀ b d, stubOf s ws ident = some b → homeKeeper s ident = some d → elapsed s b.lastCheckpoint 100000000 = true → b.probed = false →
    exec (.probeMsg ws ident) s =
      .next (sendReq (modStub s ws ident fun x => { x with probed := true }) d 6 ws ident b.epoch b.pool [])) ∧
  (∀ p b, reqPacket s 7 ws ident = some p → stubOf (takeMsg s p) ws ident = some b → exec (.stateLost ws ident) s =
    .next (completeSlot (takeMsg s p) b.slot (leBytes 8 b.userTag ++ (lostEntry ident).drop 8) (fld (lostEntry ident) 13 1) [])) ∧
  (∀ p b, reqPacket s 11 ws ident = some p → stubOf (takeMsg s p) ws ident = some b →
    let e := slice p.payload 32 64
    exec (.requestCompletion ws ident) s =
      .next (completeSlot (takeMsg s p) b.slot (leBytes 8 b.userTag ++ e.drop 8) (fld e 13 1) []))

/-! ## Bring-up, power and temperature -/

/-- The stages of bring-up complete, each leaving the stage its rule gives (R378 to R380, R382, R386, R391, R392, R394, R395,
R582, R584, R590). -/
def Obligations.BringUpComplete : Prop :=
  ∀ (s : State),
  (∀ vin, s.boot.stage = .off → 40000 ≤ vin → s.power.after = 0 → exec (.inputRise vin) s =
    .next (enterPower { s with power := { s.power with vin := vin, trip := 0, entryOn := true } })) ∧
  (∀ ok, s.boot.stage = .power → exec (.railsTimeout ok) s =
    .next (stopWith { s with boot := { s.boot with railsOk := ok } } (if ok = true then 2 else 1))) ∧
  (s.boot.stage = .power → exec .powerOnResetRelease s = .next { s with
    clk := resetClock
    boot := { s.boot with stage := .strap, since := 0, railsOk := true }
    svc := { s.svc with phase := 1 } }) ∧
  (∀ mv l, mv.length = 6 → (mv.all fun l => l.length == 16) = true → s.boot.stage = .strap → elapsed s s.boot.since 200000 = true →
    mv.mapM contactLevel = some l → bits (strapWord l) 9 8 ≠ 3 → bit (strapWord l) 10 = true → exec (.strapSample mv) s =
      .next { s with boot := { s.boot with straps := strapWord l, stage := .strapGuard, since := ns s }, svc := { s.svc with phase := 4 } }) ∧
  (s.boot.stage = .strapGuard → elapsed s s.boot.since 100000 = true → exec .guardIntervalEnd s = .next { s with
    boot := { s.boot with stage := .boot, since := ns s }, svc := { s.svc with phase := 2, rstIgnored := false } }) ∧
  (s.boot.stage = .bootGuard → elapsed s s.boot.since 100000 = true → exec .guardIntervalEnd s = .next { s with
    boot := { s.boot with stage := .discover, since := ns s, lastLine := ns s }
    svc := { s.svc with phase := 3 }
    fab := { s.fab with canesAnswered := 15 - s.fab.canesRetired } }) ∧
  (∀ flash, s.boot.stage = .boot → bootMode s ≠ 3 → exec (.bootLoad flash) s = .next (bootLoad flash s)) ∧
  (∀ pkg, s.boot.stage = .boot → bootMode s = 3 → exec (.recoveryLoad pkg) s = .next (recoveryLoad pkg s)) ∧
  (s.boot.stage = .stopped → elapsed s s.boot.lastLine 1000000000 = true → exec .stopLine s = .next { s with
    boot := { s.boot with lastLine := ns s }, svc := { s.svc with uart := s.svc.uart ++ [stopText s.boot.stopCode] } }) ∧
  (∀ steps, steps.length = 16 → (steps.all fun x => decide (x ≤ 5)) = true → s.boot.stage = .discover → s.boot.stacksDone = false →
    exec (.stackDiscovery steps) s = .next (stackDiscovery steps s)) ∧
  (∀ chan probes, chan < 32 → mayProbe s chan = true → exec (.flashTargetProbe chan probes) s = .next (doProbe chan probes s)) ∧
  (s.boot.stage = .discover → unmet s = 0 → exec .runEntry s = .next (runEntry s)) ∧
  (s.boot.stage = .discover → unmet s ≠ 0 → elapsed s s.boot.lastLine 10000000000 = true → exec .startWait s =
    .next (emitDev { s with boot := { s.boot with lastLine := ns s } } 0x0102 (unmet s) 0 0)) ∧
  (∀ vin, s.boot.stage ≠ .off → s.boot.stage ≠ .run → vin < 38000 → exec (.inputDropBeforeRun vin) s =
    .next (railsOff { s with power := { s.power with vin := vin } } 0)) ∧
  (∀ addr, addr < 128 → bit s.boot.straps 11 = true → s.svc.phase = 3 → s.svc.i3cAddr = none → exec (.i3cEntdaa addr) s =
    .next { s with svc := { s.svc with i3cAddr := some addr } })

/-- On entry to RUN the guard is locked, WS0 is ACTIVE and privileged, function 0 is enabled for WS0 at the first gateway, RUN_OK is
driven and EV_RUN is raised; memory, the fuses and the queue are as they were (R304, R330, R395). -/
def Obligations.RunEntryState : Prop :=
  ∀ (s : State), s.boot.stage = .discover → unmet s = 0 → ∃ t, exec .runEntry s = .next t ∧ t.boot.stage = .run ∧
    t.guard.locked = true ∧ t.svc.runOk = true ∧ t.evr.intake.getLast?.map (·.code) = some 0x0103 ∧
    (getWs t 0).state = 1 ∧ (getWs t 0).wflags = 1 ∧ (getFn t 0).state = 1 ∧ (getFn t 0).ws = 0 ∧
    (∀ g, firstGateway s = some g → (getFn t 0).gateway = g) ∧ SameMemory s t ∧ t.fuse = s.fuse ∧ t.pending = s.pending

/-- Power: status frames, caps, trips, loss of the input and the flush complete (R563, R566, R569 to R573, R575, R592, R593). -/
def Obligations.PowerEventsComplete : Prop :=
  ∀ (s : State),
  (∀ f, f.crcOk = true → exec (.statusFrame f) s = .next (statusFrame f s)) ∧
  (inRun s = true → elapsed s s.power.lastFrame 10000 = true → exec .statusLinkLost s =
    .next (startFlush (emit (emit s 0x0908 10 0 0 0 0) 0x0901 10 0 s.power.vin 0 0) 2)) ∧
  (capEnforced s = true → elapsed s s.power.capAt 8000 = true → let t : State := { s with power := { s.power with capAt := ns s } }
    exec .powerCapCompare s = .next (if capNow s * 80000 < powerSum s then overCap t else underCap t)) ∧
  (dutyMayRise s = true → exec .powerDutyRise s =
    .next { s with power := { s.power with duty := s.power.duty + 1, dutyAt := ns s } }) ∧
  (inRun s = true → 38000 ≤ s.power.vin → s.power.vin < 40000 → s.power.lowSent = false → exec .inputLow s =
    .next (emit { s with power := { s.power with lowSent := true } } 0x0904 10 0 s.power.vin 0 0)) ∧
  (inRun s = true → 59500 < s.power.vin → s.power.highSent = false → exec .inputHigh s =
    .next (emit { s with power := { s.power with highSent := true } } 0x0905 10 0 s.power.vin 0 0)) ∧
  (∀ cause, 1 ≤ cause → cause ≤ 4 → s.boot.stage ≠ .off → exec (.entryTrip cause) s =
    .next (railsOff (loseBuffers { s with power := { s.power with trip := cause, lastTrip := cause } }) 1)) ∧
  (s.boot.stage = .off → s.power.after = 1 → exec .tripRestart s =
    .next { s with power := { s.power with after := 0, trip := 0, vin := 0 } }) ∧
  (inRun s = true → lossShown s = true → exec .powerLoss s = .next (startFlush (emit s 0x0901 10 0 s.power.vin 0 0) 0)) ∧
  (s.power.flushing = true → exec .flushDone s = .next (flushDone s)) ∧
  (∀ vin, s.power.flushing = true → vin < 24000 → exec (.railCollapse vin) s =
    .next (railsOff (loseBuffers { s with power := { s.power with vin := vin } }) s.power.after)) ∧
  (s.svc.rstIgnored = false → s.power.flushing = false → (s.svc.phase = 2 ∨ s.svc.phase = 3) →
    (s.boot.stage ≠ .stopped ∨ s.boot.stopCode = 7) → let t : State := { s with svc := { s.svc with rstIgnored := true } }
    exec .resetRequest s = .next (if s.boot.stage = .run then startFlush (emitDev t 0x0941 0 0 0) 0 else restart t)) ∧
  (s.svc.alarm = true → elapsed s s.svc.alarmAt 1000000 = true → exec .alarmNRelease s =
    .next { s with svc := { s.svc with alarm := false } })

/-- Temperatures are sampled, throttle in steps, trip after a millisecond and are reported every minute (R604, R605, R607,
R608). -/
def Obligations.ThermalEventsComplete : Prop :=
  ∀ (s : State),
  (∀ hub stk cane fh, stk.length = 16 → cane.length = 4 → fh.length = 2 → s.boot.stage ≠ .off →
    exec (.thermalSample hub stk cane fh) s = .next (thermalSample hub stk cane fh s)) ∧
  (s.boot.stage ≠ .off → elapsed s s.therm.dutyAt 100000 = true → exec .thermalDutyStep s = .next (thermalDutyStep s)) ∧
  (∀ kind inst, s.boot.stage ≠ .off → s.power.flushing = false → tripDue s kind inst = true →
    let temp := (((dies s.therm).find? fun d => d.1 == kind && d.2.1 == inst).map (·.2.2)).getD 0
    let t := emitDev s 0x0962 kind inst (ofSigned 64 temp)
    exec (.thermalTrip kind inst) s = .next (if s.boot.stage = .run then startFlush t 1 else railsOff t 1)) ∧
  (inRun s = true → elapsed s s.therm.reportAt 60000000000 = true → let h := s.therm
    exec .thermalReport s = .next (emitFull { s with therm := { h with reportAt := ns s } } 0x0964 0 0 (ofSigned 64 h.hubTemp)
      (ofSigned 64 (hottest h.stackTemps)) (ofSigned 64 (hottest h.caneTemps)) (ofSigned 64 (hottest h.fhTemps)) h.duty))

/-- A power-off keeps what survives it: the fuses, the archive, the boot flash and the block's queue; memory and every workspace,
function, index and table are gone (R323, R384, R526, R566). -/
def Obligations.PowerOffKeeps : Prop :=
  ∀ (s : State) (cause : Nat), 1 ≤ cause → cause ≤ 4 → s.boot.stage ≠ .off → ∃ t, exec (.entryTrip cause) s = .next t ∧
    t.boot.stage = .off ∧ t.power.trip = cause ∧ t.power.lastTrip = cause ∧ t.fuse = s.fuse ∧ t.boot.flash = s.boot.flash ∧
    t.evr.archive = s.evr.archive ∧ t.pending = s.pending ∧ (∀ dpa, readByte t.mem dpa = 0) ∧ t.mem.poison = [] ∧ t.wss = [] ∧
    t.fns = [] ∧ t.indexes = [] ∧ t.tables = [] ∧ t.guard = resetGuard

/-! ## Groups, leases and the lehr scheduler -/

/-- Membership, leases, rebuilds, scores and lehr activities complete (R492, R498, R499, R501, R504, R508, R511, R512). -/
def Obligations.RackEventsComplete : Prop :=
  ∀ (s : State),
  (∀ m pools, firmwareRuns s = true → let u := takePools pools (takeInbox s 0x50 m.gateway)
    memWins (findGroup u m.group) m = true → firmwareRuns (takeInbox s 0x50 m.gateway) = true →
    exec (.membership m pools) s = .next (announceGroup m u)) ∧
  (∀ group g, findGroup s group = some g → firmwareRuns s = true → withinBudget s = true → belongs s g.mem = true →
    exec (.renewSend group) s = .next (sendRenew s g)) ∧
  (∀ group epoch expiry seq g sent, findGroup s group = some g → firmwareRuns s = true → g.renews.find? (·.1 == seq) = some (seq, sent) →
    g.mem.epoch ≤ epoch → g.lease ≠ 2 → (g.leaseEpoch = 0 ∨ epoch ≤ g.leaseEpoch) → exec (.grantMsg group epoch expiry seq) s =
      .next (putLease (takeInbox s 0x51 g.mem.gateway) { g with
        lease := 1, expiry := expiry, expiryLocal := sent + 200000000
        leaseEpoch := epoch, renews := g.renews.filter (·.1 != seq) })) ∧
  (∀ group g, findGroup s group = some g → inRun s = true → leaseOver s g = true →
    exec (.leaseLapse group) s = .next (fenceGroup g s)) ∧
  (∀ group g, findGroup s group = some g → firmwareRuns s = true → g.lease = 1 → swapDone s g = true →
    exec (.releaseSend group) s = .next (sendLease (putLease s { g with releaseSent := true }) g 2)) ∧
  (∀ obj table mirror src gid shard a b, firmwareRuns s = true → rebuildScope s obj table mirror = some (gid, shard, a) →
    s.rack.running.find? (fun b => b.code == 4 && sameScope a b) = some b → b.command = false →
    exec (.rebuild obj table mirror src) s = .next (dropActivity (takeSource obj table mirror src gid shard s) b.ident)) ∧
  (∀ obj table mirror src gid shard a, firmwareRuns s = true → rebuildScope s obj table mirror = some (gid, shard, a) →
    s.rack.running.find? (fun b => b.code == 4 && sameScope a b) = none →
    s.rack.queued.any (fun b => b.code == 4 && sameScope a b) = false →
    exec (.rebuild obj table mirror src) s = .next (submit s a)) ∧
  (inRun s = true → elapsed s s.rack.decayAt 60000000000 = true → exec .scoreDecay s = .next { s with rack := { s.rack with
    decayAt := ns s, scores := s.rack.scores.map fun p => (p.1, decayScore s p.1 p.2) } }) ∧
  (∀ ident a, admissible s ident = true → s.rack.queued.find? (·.ident == ident) = some a → let t := dropActivity s ident
    exec (.lehrAdmit ident) s = .next (recalBegin
      { t with rack := { t.rack with running := t.rack.running ++ [{ a with since := net s, roundAt := ns s }] } } ident)) ∧
  (∀ ident finished, roundEnds s ident finished = true → inRun s = true →
    exec (.lehrRoundEnd ident finished) s = .next (lehrRoundEnd ident finished s))

/-! ## Links and the fabric -/

/-- Wavelengths, training, light and frames of a port complete (R393, R402, R403, R406, R409, R411, R417). -/
def Obligations.LinkEventsComplete : Prop :=
  ∀ (port : Nat) (s : State), port < 32 → let x := getPort s port;
  (∀ wl, wl < 16 → linksLive s = true → trained s port = true → wlWorks x.rx wl = true →
    exec (.wavelengthFail port wl) s = .next (wavelengthFail s port wl)) ∧
  (∀ lane wl first, lane < 14 → remapActs s port lane wl = true → exec (.remapFrame port lane wl first) s = .next (remapFrame s port lane wl)) ∧
  (∀ rx wl pass, wl < 16 → linksLive s = true → trained s port = true → wlDue s port wl rx = true →
    exec (.wavelengthRetrain port rx wl pass) s = .next (wavelengthRetrain s port wl rx pass)) ∧
  (x.state = 3 → elapsed s x.since 50000000 = true → exec (.portTrainTimeout port) s = .next (trainTimeout s port)) ∧
  (∀ tx rx delay, linksLive s = true → portUpActs s port tx rx = true →
    exec (.portUp port tx rx delay) s = .next (portUpRow s port tx rx delay)) ∧
  (x.state = 2 → x.emission = 1 → caneLit s (caneOf port) = true → (x.pulses = 0 ∨ elapsed s x.probeAt 1000000000 = true) →
    exec (.probePulse port) s = .next (putPort s port { x with probeAt := ns s, pulses := x.pulses + 1 })) ∧
  (linksLive s = true → x.state = 2 → x.emission = 1 → caneLit s (caneOf port) = true → x.lightSince = none →
    exec (.lightReceived port) s = .next (putPort s port { x with lightSince := some (ns s), probeAt := ns s, pulses := x.pulses + 1 })) ∧
  ((3 ≤ x.state ∨ x.lightSince.isSome = true) → exec (.openFibre port) s = .next (openFibre s port)) ∧
  (∀ corrected uncorrectable f, linksLive s = true → trained s port = true →
    exec (.dataFrame port corrected uncorrectable f) s = .next (frameArrives s port corrected uncorrectable f)) ∧
  (trained s port = true → x.unacked.any (fun f => elapsed s f.sentAt 10000) = true →
    exec (.frameReplayTimeout port) s = .next (replayFrames s port)) ∧
  (∀ msg, linksLive s = true → 3 ≤ x.state → 7 ≤ msg.length → exec (.helloMsg port msg) s = .next (helloAt s port msg)) ∧
  (trained s port = true → elapsed s x.partner.helloAt 30000000 = true → exec (.helloTimeout port) s =
    .next (retrainPort (putPort s port { x with partner := { x.partner with status := 3 } }) port)) ∧
  (linksLive s = true → x.state = 1 → caneLit s (caneOf port) = true → elapsed s x.since 1000000000 = true →
    exec (.probeReturn port) s = .next (setPort s port 2 1)) ∧
  (linksLive s = true → 3 ≤ x.state → elapsed s x.helloSentAt 10000000 = true → exec (.helloSendTimer port) s =
    .next (linkLocal (putPort s port { x with helloSentAt := ns s }) port 0x60
      (helloBytes (putPort s port { x with helloSentAt := ns s }) port)))

/-- Laser feeds and fibre connectors come and go; packets, acknowledgements, link state and accesses to the device's memory
complete (R404, R415, R417, R597). -/
def Obligations.FabricEventsComplete : Prop :=
  ∀ (s : State),
  (∀ feed, feed < 8 → linksLive s = true → feedLit s (feed / 2) (feed % 2) = true →
    exec (.laserFeedLost feed) s = .next (feedLostRow s feed)) ∧
  (∀ cane, cane < 4 → contactsSensed s = true → s.fab.connPresent.getD cane false = true → exec (.fibreConnLost cane) s =
    .next (emit (darken { s with fab := { s.fab with
      connPresent := setAt s.fab.connPresent cane false, connAt := setAt s.fab.connAt cane (ns s) } } cane) 0x0942 0 0 cane 0 0)) ∧
  (∀ cane, cane < 4 → contactsSensed s = true → s.fab.connPresent.getD cane true = false →
    elapsed s (s.fab.connAt.getD cane 0) 100000000 = true → exec (.fibreConnRestored cane) s = .next (connRestored s cane)) ∧
  (∀ src ls, linksLive s = true → inMesh s src = true → (meshPeers s).contains (src % 64) = true → ls.length = 32 →
    let t := takeInbox s 0x52 src
    exec (.linkState src ls) s =
      .next { t with fab := { t.fab with peers := (src % 64, ls) :: t.fab.peers.filter (·.1 != src % 64) } }) ∧
  (linksLive s = true → (s.fab.linkChanged.isSome = true ∨ elapsed s s.fab.linkSentAt 10000000 = true) →
    exec .linkStateTimer s = .next (sendLinkState s)) ∧
  (∀ dst vc, s.fab.flows.contains (findFlow s dst vc) = true → elapsed s (findFlow s dst vc).lastAt 100000 = true →
    exec (.flowIdle dst vc) s = .next (putFlow s { findFlow s dst vc with path := 0 })) ∧
  (∀ port p rest, linksLive s = true → s.fab.arrived = (port, p) :: rest →
    let t := freeCells { s with fab := { s.fab with arrived := rest } } port p
    exec .packetReceive s =
      .next (takeRequests (takeSessions (takeLoads (if p.dst = fabricDev s then receiveHere t port p else relay t p))))) ∧
  (∀ src vc seq nak, linksLive s = true → exec (.e2eAck src vc seq nak) s = .next (e2eAck s src vc seq nak)) ∧
  (∀ dst vc seq h, heldOf s dst vc seq = some h → linksLive s = true → exec (.tc7Resend dst vc seq) s = .next (resendHeld s h)) ∧
  (∀ p, s.boot.stage = .run → p.msg = 0x10 → 8 ≤ p.payload.length → let t := takeMsg s p; let a := bits (fld p.payload 0 8) 40 0;
    let d := p.payload.drop 8
    fabricOk t p d.length = true → endsPoisoned t.mem a d.length = false →
    exec (.memWrite p) s = .next (sendTxn { t with mem := store t.mem a d } p.src p.vc p.ws 0x11 p.txn [])) ∧
  (∀ p, s.boot.stage = .run → p.msg = 0x12 → 12 ≤ p.payload.length → let t := takeMsg s p; let a := bits (fld p.payload 0 8) 40 0;
    let n := fld p.payload 8 4
    fabricOk t p n = true → exec (.memRead p) s =
      .next (sendTxn t p.src p.vc p.ws 0x13 p.txn (if poisonIn t.mem a n then [] else readBytes t.mem a n)))

/-! ## Clocks -/

/-- Time messages, holdover, the reference and the 1PPS input and output complete (R419, R550, R555, R558, R559). -/
def Obligations.ClockEventsComplete : Prop :=
  ∀ (s : State),
  (∀ port msg, port < 32 → linksLive s = true → (portUp s port = true ∨ ((getPort s port).state = 3 ∧ msg.kind = 2)) →
    exec (.ptpTime port msg) s = .next (timeMsg s port msg)) ∧
  (∀ port kind, port < 32 → kind < 3 → ptpDue s port kind = true → exec (.ptpSendTimer port kind) s = .next (ptpSend s port kind)) ∧
  (isGrandmaster s = false → s.clk.state = 2 → elapsed s s.clk.lastSync 4000000 = true →
    exec .holdover s = .next { s with clk := { s.clk with state := 3 } }) ∧
  (isGrandmaster s = false → s.clk.state = 3 → elapsed s s.clk.lastSync 14000000 = true →
    exec .holdover s = .next (enterUnlocked s)) ∧
  (s.clk.refLost = false → s.boot.stage = .run → exec .refLost s =
    .next (emitDev { s with clk := { s.clk with refLost := true } } 0x0921 0 0 0)) ∧
  (s.clk.refLost = false → s.boot.stage ≠ .off → s.boot.stage ≠ .stopped → s.boot.stage ≠ .run →
    exec .refLost s = .next (stopWith s 2)) ∧
  (s.clk.refLost = true → exec .refRestored s = .next (emitDev { s with clk := { s.clk with refLost := false } } 0x0922 0 0 0)) ∧
  (s.boot.stage = .run → exec .ppsPulse s = .next (ppsPulse s)) ∧
  (ppsGone s = true → exec .ppsLost s = .next (emitDev { s with clk := { s.clk with
    ppsLocked := false, ppsCount := 0, ppsAt := none, ppsOffset := 0 } } 0x0925 0 0 0)) ∧
  (inRun s = true → withinBudget s = true → s.clk.ppsOutAt < net s / 1000000000 * 1000000000 →
    exec .ppsOutputEdge s = .next { s with clk := { s.clk with ppsOutAt := net s / 1000000000 * 1000000000 } })

/-! ## Traffic and move engines -/

/-- Egress selection, gates, samples and the move engines complete (R429, R438, R442, R445, R451, R452, R455). -/
def Obligations.TrafficEventsComplete : Prop :=
  ∀ (s : State),
  (∀ port, port < 32 → canSelect s port = true → exec (.packetSelect port) s = .next (packetSelect s port)) ∧
  (∀ port g, port < 32 → (getPort s port).sched.pendingGates = some g → g.takeOver ≤ net s →
    exec (.gateTakeOver port) s = .next (takeOver s port)) ∧
  (∀ port, port < 32 → let x := getPort s port; let e := gateAt x.sched.gates (net s);
    x.sched.gates.mode ≠ 0 → exec (.gateEntryChange port) s =
      .next (putPort s port { x with sched := { x.sched with gateEntry := e.1, gateMask := e.2 } })) ∧
  (∀ port, port < 32 → let x := getPort s port
    elapsed s x.sched.sampledAt (x.sched.sampleUs * 1000) = true →
    exec (.queueSample port) s = .next (putPort s port { x with sched := { x.sched with
      queues := x.sched.queues.map (fun q => { q with
        own := addSample q.own (depthOf q) (headAge s q), summed := addSample q.summed (depthOf q) (headAge s q) })
      sampledAt := ns s } })) ∧
  (∀ chan, chan < 64 → canStart s chan = true → let x := getChan s chan; let g := getRing (getFn s x.fn) x.ring;
    let d := readBytes s.mem (g.sqDpa + g.sqCi.toNat % g.sqEntries * 64) 64
    descCheck x.ws d = none → exec (.moveDescriptorStart chan) s =
      .next (putChan (putRing s x.fn x.ring { g with sqCi := g.sqCi + 1, inFlight := g.inFlight + 1 }) chan
        { x with job := some ⟨d, g.sqCi.toNat, 0, 0, [], 0, 0, 0, ns s⟩ })) ∧
  (∀ r, firmwareRuns s = true → busGrant s = some r → let t : State := { s with move := { s.move with ptr := (r + 1) % 65 } }
    exec .moveBurstIssue s = .next (if r = 0 then grantResult t else grantChannel t (r - 1))) ∧
  (∀ chan off h j b, chan < 64 → findBurst s chan off = some (j, b) → inRun s = true →
    exec (.moveBurstDone chan off h) s = .next (settleChannel (burstEnd s chan j b h) chan))

/-! ## Flash -/

/-- Flash operations, reclaim, wear, patrol, mounts, carriers and stripes complete (R463, R469, R472, R474, R478, R483, R486,
R488, R490, R544, R596). -/
def Obligations.FlashEventsComplete : Prop :=
  ∀ (s : State),
  (∀ chan target o, chan < 32 → target < 8 → hasFlashOp s chan target = true →
    exec (.flashOperation chan target o) s = .next (flashOperation chan target o s)) ∧
  (∀ group, group < 8 → reclaimDue s group = true → let t := reclaimRound s group
    exec (.reclaim group) s = .next (putGroup t group
      { getGroup t group with reclaiming := decide (freeOutside t group * 100 < 2 * goodBlocks t group) })) ∧
  (∀ group, group < 8 → wearDue s group = true → s.rack.running.find? (groupActivity 2 group) = none →
    exec (.wearMove group) s = .next (requestGroupActivity s 2 group)) ∧
  (∀ group a, group < 8 → wearDue s group = true → s.rack.running.find? (groupActivity 2 group) = some a →
    exec (.wearMove group) s = .next (wearMove group s)) ∧
  (∀ group, group < 8 → ((getGroup s group).state = 3 ∨ (getGroup s group).state = 4) →
    s.rack.running.any (groupActivity 1 group) = false → exec (.flashPatrol group) s = .next (requestGroupActivity s 1 group)) ∧
  (∀ group, group < 8 → ((getGroup s group).state = 3 ∨ (getGroup s group).state = 4) →
    s.rack.running.any (groupActivity 1 group) = true → exec (.flashPatrol group) s = .next (flashPatrol group s)) ∧
  (∀ group src, group < 8 → ((getGroup s group).state = 1 ∨ (getGroup s group).state = 2) →
    exec (.groupMount group src) s = .next (mountGroup group src s)) ∧
  (∀ group probes, group < 8 → (getGroup s group).state = 0 → (inRun s = true ∨ s.boot.stage = .discover) →
    exec (.carrierPresent group probes) s = .next (carrierPresent group probes s)) ∧
  (∀ group, group < 8 → (getGroup s group).state = 5 → exec (.carrierRemoved group) s =
    .next (putGroup s group { getGroup s group with present := false, presentAt := ns s })) ∧
  (∀ group, group < 8 → (getGroup s group).state ≠ 0 → exec (.carrierRemoved group) s = .next (carrierRemoved group s)) ∧
  (∀ stream fold g st d, journalStream s stream = some (g, st) → nextUnits (getGroup s g) st fold = some d →
    exec (.stripeForm stream fold) s = .next (formStripe g st d s)) ∧
  (∀ setId index member, waitsFor s setId index member = true →
    exec (.stripeUnitDurable setId index member) s = .next (markDurable s setId index member)) ∧
  (∀ setId index member, memberLate s setId index member = true →
    exec (.stripeMemberTimeout setId index member) s = .next (replaceMember setId index member s)) ∧
  (∀ setId lost units, s.flash.sets.any (fun r => r.setId == setId && r.members.contains lost) = true →
    exec (.stripeSetRebuild setId lost units) s = .next (stripeRebuild setId lost units s)) ∧
  (∀ temps, (inRun s = true ∨ s.boot.stage = .discover) → exec (.flashTempRead temps) s =
    .next ((temps.take 8).zipIdx.foldl (fun u p => readTemp u p.2 p.1) s))

/-! ## The event recorder -/

/-- Intake, latches, summaries and the archive complete (R519, R522, R524 to R526). -/
def Obligations.RecorderEventsComplete : Prop :=
  ∀ (s : State),
  (∀ e ptr, s.evr.intake ≠ [] → intakeChoice s.evr = some (e, ptr) → exec .eventIntake s =
    .next (recordEvent { s with evr := { s.evr with intake := s.evr.intake.erase e, ptr := ptr } } e)) ∧
  (∀ l rest, s.evr.latches = l :: rest → unarchived s.evr < 65536 → exec .alarmLatchWrite s =
    .next (writeRecord { s with evr := { s.evr with latches := rest } } l.ev l.rep)) ∧
  (∀ code f, dueFold s code = some f → exec (.logSummary code) s = .next (summarise s f)) ∧
  (dropDue s = true → s.evr.dTrace + s.evr.dFold + s.evr.dExcl = 0 → exec .dropSummary s =
    .next { s with evr := { s.evr with dropAt := none, dAlarm := 0 } }) ∧
  (dropDue s = true → s.evr.dTrace + s.evr.dFold + s.evr.dExcl ≠ 0 → exec .dropSummary s =
    .next (recordEvent { s with evr := { s.evr with dTrace := 0, dFold := 0, dExcl := 0, dAlarm := 0, dropAt := some (ns s) } }
      (ownEvent s 0x0A02 s.evr.dTrace s.evr.dFold s.evr.dExcl s.evr.dAlarm 0))) ∧
  (0 < unarchived s.evr → (archiveState s = 1 ∨ archiveState s = 2) → exec .archiveWrite s = .next (archiveUnit s))

/-! ## Live service -/

/-- Handovers, microcode switches, migrations, drains and core faults complete (R492, R534 to R536, R539, R542, R545). -/
def Obligations.LiveEventsComplete : Prop :=
  ∀ (s : State),
  (∀ core h, core < 512 → firmwareRuns s = true → flipDue s core = true → s.live.handover = some h → exec (.puntyFlip core) s =
    .next { s with live := { s.live with handover := some { h with phase := 2, newCores := h.newCores ++ [core] } } }) ∧
  (∀ h, firmwareRuns s = true → s.live.handover = some h → h.phase = 2 → h.newCores.length = 512 →
    exec .benchFlip s = .next (benchFlip s)) ∧
  (∀ h, firmwareRuns s = true → s.live.handover = some h → h.phase = 3 → elapsed s h.flippedAt 100000000 = false →
    exec .fwConfirm s = .next (fwConfirm s)) ∧
  (∀ h, inRun s = true → s.live.handover = some h → h.phase = 3 → elapsed s h.flippedAt 100000000 = true →
    exec .fwActivateReverted s =
      .next (finishTicket (emitDev { s with live := { s.live with handover := none } } 0x0B03 0 0 0) h.ticket stBadParam ([1] ++ zeros 7))) ∧
  (∀ unit, s.mem.layout.stackMap.contains (unit / 1024) = true → inRun s = true → switchDue s unit = true →
    exec (.ucodeSwitch unit) s = .next (ucodeSwitch unit s)) ∧
  (∀ page, inRun s = true → s.live.stackRetires.any (fun r => actRuns s r.act && (runsOnStack s r.unit).any (·.base == page)) = true →
    exec (.regionMigrate page) s = .next (moveRegion page (fun _ => true) s)) ∧
  (∀ group stream unit, group < 8 → (getGroup s group).offline.isSome = true →
    exec (.streamMove group stream unit) s = .next (streamMove group stream unit s)) ∧
  (firmwareRuns s = true → drainReady s = true → s.live.drained = true → exec .drainDone s =
    .next (finishAll { s with live := { s.live with drain := [], drained := true } } s.live.drain stOk [])) ∧
  (firmwareRuns s = true → drainReady s = true → s.live.drained = false → exec .drainDone s =
    .next (emitDev ((s.rack.groups.filter (·.lease == 1)).foldl (fun u g => sendLease u g 2)
      (finishAll { s with live := { s.live with drain := [], drained := true } } s.live.drain stOk [])) 0x0B0A 0 0 0)) ∧
  (∀ jack inst, inst < (if jack = true then 64 else 512) → inRun s = true → exec (.coreFault jack inst) s =
    .next (score (emit s 0x0304 (if jack = true then 5 else 3) inst inst 0 0) (if jack = true then 5 else 4) inst 64 0x0304))

/-! ## The block as a whole -/

/-- A step with a command waiting is that command's effect on the state with the rest of the queue: the queue convention of the
model (assumption 48). -/
def Obligations.StepRunsFrontCommand : Prop :=
  ∀ (c : Instr) (rest : List Instr) (s : State),
    step { s with pending := c :: rest } = exec c { s with pending := rest }

/-- A step with nothing waiting passes one core cycle: the cycle counter counts and the time counter advances by 2^31 units of
2^-32 ns, corrected by the rate, and nothing else changes (the model's choice, assumption 49). -/
def Obligations.IdleStepTicks : Prop :=
  ∀ s : State, s.pending = [] → step s = .next { s with
    clk := { s.clk with cycles := s.clk.cycles + 1
                        time := (s.clk.time + (2 ^ 31 * (1000000000 + s.clk.rate) / 1000000000).toNat) % 2 ^ 96 } }

/-- No command changes the queue of commands that wait behind it (assumption 48). -/
def Obligations.ExecKeepsQueue : Prop :=
  ∀ (c : Instr) (s t : State), exec c s = .next t → t.pending = s.pending

/-- A row runs exactly where the hardware it names is there; where it is not, the row stops by the one fault that says so
(R58, R330, R398). -/
def Obligations.AbsentUnitsFault : Prop :=
  ∀ (c : Instr) (s : State),
    (unitThereFor c s = true → ∃ t, exec c s = .next t) ∧
    (unitThereFor c s = false → ∃ row, exec c s = .fault (.absentUnit row))

/-- The bench core answers a request at the first check that fails, with that check's status and no result, and executes nothing
(R619): what changes is that the request is taken and its answer posted. -/
def Obligations.RefusedRequestsChangeNothing : Prop :=
  ∀ (i : Instr) (c : Cmd) (m : MsgSrc) (s : State) (st : Nat), commandOf i = some (c, m) → servable c m s = true →
    let msg := msgBytes s m
    let t := takeRequest s m
    ((headerOk msg = false ∧ st = 0x10) ∨
      (headerOk msg = true ∧ issuerOk t c (msgOwner m) = false ∧ st = 0x11) ∨
      (headerOk msg = true ∧ issuerOk t c (msgOwner m) = true ∧ (∃ n, c.size = some n ∧ n ≠ fld msg 4 2) ∧ st = 0x10) ∨
      (headerOk msg = true ∧ issuerOk t c (msgOwner m) = true ∧ (∀ n, c.size = some n → n = fld msg 4 2) ∧
        (getWs t (wsOfOwner t (msgOwner m))).state = 2 ∧ c.op ≠ 0x203 ∧ st = 0x10) ∨
      (headerOk msg = true ∧ issuerOk t c (msgOwner m) = true ∧ (∀ n, c.size = some n → n = fld msg 4 2) ∧
        ((getWs t (wsOfOwner t (msgOwner m))).state ≠ 2 ∨ c.op = 0x203) ∧ c.async = true ∧
        ticketRoom t (wsOfOwner t (msgOwner m)) = false ∧ st = 0x12)) →
    exec i s = .next (respond t (msgOwner m) (fld msg 0 2) (fld msg 8 8) st 0 [])

/-- A guard halt stops the bench core and every punty core: the rows that are their work change nothing, no request is accepted, and
no packet leaves a queue below TC7. Taking the halt counts in VIOL_HALT, keeps memory, flash and the held keys, and lowers RUN_OK and
HALT_N of the service port (R328). -/
def Obligations.GuardHaltStopsFirmware : Prop :=
  (∀ (c : Instr) (s : State), benchRow c = true → s.guard.halted = true →
    exec c s = .next s ∨ ∃ row, exec c s = .fault (.absentUnit row)) ∧
  (∀ (m : MsgSrc) (s : State), s.guard.halted = true → canAccept s m = false) ∧
  (∀ (q : PQueue) (s : State), s.guard.halted = true → (mayLeave s q = true ↔ 7 ≤ q.cls ∧ q.pkts ≠ [])) ∧
  ∀ s : State, let t := guardHalt s;
    t.guard.halted = true ∧ t.guard.violHalt = min 0xFFFF (s.guard.violHalt + 1) ∧ t.mem = s.mem ∧ t.flash = s.flash ∧
    t.guard.keys = s.guard.keys ∧ t.svc.runOk = false ∧ t.svc.haltN = false

/-- After reset no stage of the power sequence runs, memory lists nothing, no workspace, key, page owner, ring, index, session, table
or peer exists, the guard's lock and its violation counts are 0, and every function is DISABLED with an empty mailbox and its counts at
0 (R323, R332, R334, R395). -/
def Obligations.ResetState : Prop :=
  let s := State.reset
  s.boot.stage = .off ∧ s.guard.locked = false ∧ s.guard.halted = false ∧ s.guard.violTotal = 0 ∧ s.guard.violHalt = 0 ∧
  s.mem.cells = [] ∧ s.mem.poison = [] ∧ s.guard.owners = [] ∧ s.guard.keys = [] ∧ s.wss = [] ∧ s.indexes = [] ∧
  s.sessions = [] ∧ s.tables = [] ∧ s.fab.peers = [] ∧ s.pending = [] ∧
  ∀ fn, (getFn s fn).state = 0 ∧ (getFn s fn).busy = 0 ∧ (getFn s fn).ready = 0 ∧ (getFn s fn).accepted = 0 ∧
    (getFn s fn).badBells = 0 ∧ (getFn s fn).rings = []

/-! ## Memory -/

/-- Every step keeps memory in its canonical form: listed addresses and poisoned granules strictly rising, no listed byte 0. -/
def Obligations.StepKeepsMemoryCanonical : Prop :=
  ∀ s t : State, MemoryCanonical s → step s = .next t → MemoryCanonical t

/-- Memory after reset is in its canonical form (the other half of the invariant). -/
def Obligations.ResetMemoryCanonical : Prop := MemoryCanonical State.reset

/-- A row that stores nothing leaves every byte of memory and every granule's poison as it was. -/
def Obligations.StorelessRowsKeepMemory : Prop :=
  ∀ (c : Instr) (s t : State), storingRow c = false → exec c s = .next t → SameMemory s t

/-- A fabric MEM_WRITE of length n at DPA a changes no byte outside a to a + n - 1, and where its access is allowed and its ends are
not poisoned it leaves the message's data there (R87, R318, R417). -/
def Obligations.MemWriteFrame : Prop :=
  ∀ (p : Packet) (s : State), let a := bits (fld p.payload 0 8) 40 0; let d := p.payload.drop 8;
    ∃ t, exec (.memWrite p) s = .next t ∧
      (∀ x, x < a ∨ a + d.length ≤ x → readByte t.mem x = readByte s.mem x) ∧
      (s.boot.stage = .run → p.msg = 0x10 → 8 ≤ p.payload.length → MemoryCanonical s →
        fabricOk (takeMsg s p) p d.length = true → endsPoisoned s.mem a d.length = false →
        (∀ i (h : i < d.length), readByte t.mem (a + i) = d[i]) ∧
        ∀ g, t.mem.poison.contains g =
          (s.mem.poison.contains g && !(decide (a ≤ g * 32) && decide (g * 32 + 32 ≤ a + d.length))))

/-- Rewriting a poisoned granule of an object page changes no byte outside the granule and no other granule's poison (R87). -/
def Obligations.PoisonRewriteFrame : Prop :=
  ∀ (dpa : Nat) (data : List Byte) (s : State), ∃ t, exec (.poisonRewrite dpa data) s = .next t ∧
    (∀ x, x < dpa ∨ dpa + 32 ≤ x → readByte t.mem x = readByte s.mem x) ∧
    ∀ g, g ≠ dpa / 32 → t.mem.poison.contains g = s.mem.poison.contains g

/-- Pages given to a workspace hold zeros and no poison, and the rest of memory is as it was (R317), for a buffer of the window and
for a marver region. -/
def Obligations.AllocatedPagesRead0 : Prop :=
  ∀ (s t : State) (ws kind unit n p : Nat),
    (allocWindow s ws kind n = some (p, t) ∨ allocMarver s ws unit n = some (p, t)) →
    (∀ dpa, p ≤ pageOfDpa s dpa → pageOfDpa s dpa < p + n → readByte t.mem dpa = 0) ∧
    (∀ dpa, ¬(p ≤ pageOfDpa s dpa ∧ pageOfDpa s dpa < p + n) → readByte t.mem dpa = readByte s.mem dpa) ∧
    (∀ g, p ≤ pageOfDpa s (g * 32) → pageOfDpa s (g * 32) < p + n → t.mem.poison.contains g = false) ∧
    ∀ g, ¬(p ≤ pageOfDpa s (g * 32) ∧ pageOfDpa s (g * 32) < p + n) → t.mem.poison.contains g = s.mem.poison.contains g

/-- A page is owned once (R318): pages given to a workspace had no owner, are the workspace's afterwards, lie below the guard reserve
where they are of the window, and every other page keeps its owner; no page lies in two runs before or after. -/
def Obligations.PagesHaveOneOwner : Prop :=
  ∀ (s t : State) (ws kind n p : Nat), OwnersApart s.guard.owners → 1 ≤ n →
    (allocWindow s ws kind n = some (p, t) → p + n ≤ windowPages s - 1024 ∧ OwnersApart t.guard.owners ∧
      (∀ i, i < n → ownerOf s (p + i) = none ∧ ownerOf t (p + i) = some ⟨p, n, kind, ws⟩) ∧
      ∀ q, q < p ∨ p + n ≤ q → ownerOf t q = ownerOf s q) ∧
    (∀ unit, (∀ r ∈ s.guard.owners, r.base < windowPages s → r.base + r.pages ≤ windowPages s) →
      allocMarver s ws unit n = some (p, t) → windowPages s ≤ p ∧ OwnersApart t.guard.owners ∧
      (∀ i, i < n → ownerOf s (p + i) = none ∧ ownerOf t (p + i) = some ⟨p, n, 1, ws⟩) ∧
      ∀ q, q < p ∨ p + n ≤ q → ownerOf t q = ownerOf s q) ∧
    OwnersApart (freePages s p).guard.owners

/-! ## Addresses -/

/-- A marver address holds the stack, the core die, the bank and the offset in its four fields (R56). -/
def Obligations.MarverAddressLayout : Prop :=
  ∀ stack die bank off : Nat, stack < 16 → die < 16 → bank < 256 → off < 2 ^ 25 →
    let ma := mkMa stack die bank off
    ma < 2 ^ 41 ∧ maStack ma = stack ∧ maDie ma = die ∧ maBank ma = bank ∧ maOffset ma = off ∧
    bits ma 40 37 = stack ∧ bits ma 36 33 = die ∧ bits ma 32 25 = bank ∧ bits ma 24 0 = off

/-- The interleave of R60 and its inverse of R61 undo each other: from a DPA of the memory, and from a marver address of a stack of
the layout; a marver address of another stack, or beyond the bank, has no DPA (R57, R58, R60,
R61). -/
def Obligations.AddressRoundTrip : Prop :=
  ∀ map : List Nat, MapOk map →
    (∀ dpa, dpa < map.length * (0x480000 * 2 ^ 14) → maToDpa map (dpaToMa map dpa) = some dpa) ∧
    (∀ ma, ma < 2 ^ 41 → maStack ma ∈ map → maOffset ma ≤ 0x11FFFFF →
      ∃ dpa, maToDpa map ma = some dpa ∧ dpa < map.length * (0x480000 * 2 ^ 14) ∧ dpaToMa map dpa = ma) ∧
    (∀ ma, maStack ma ∉ map ∨ 0x11FFFFF < maOffset ma → maToDpa map ma = none)

/-- A memory controller maps a valid DPA to an MA by the formulas of R60. -/
def Obligations.InterleaveFormula : Prop :=
  ∀ (map : List Nat) (dpa : Nat), map ≠ [] → dpa < map.length * (0x480000 * 2 ^ 14) →
    let n := map.length; let u := bits dpa 40 8; let c := bits u 5 0; let q := bits u 32 6
    let r := q % n; let l := q / n; let ell := (r + fold4 l) % n; let pc := c ^^^ fold6 l; let j := bits l 5 0
    l < 0x480000 ∧ (n ≤ 16 → dpa = bits dpa 40 0) ∧
    fold4 l = bits l 3 0 ^^^ bits l 7 4 ^^^ bits l 11 8 ^^^ bits l 15 12 ^^^ bits l 19 16 ^^^ bits l 22 20 ∧
    fold6 l = bits l 5 0 ^^^ bits l 11 6 ^^^ bits l 17 12 ^^^ bits l 22 18 ∧
    (n ≤ 16 → ∃ h : ell < n, maStack (dpaToMa map dpa) = map[ell] % 16 ∧ maDie (dpaToMa map dpa) = bits j 5 2 ∧
      maBank (dpaToMa map dpa) = 4 * pc + bits j 1 0 ∧ maOffset (dpaToMa map dpa) = bits l 22 6 * 256 + bits dpa 7 0)

/-! ## Values -/

/-- A refined distance's key sorts as the number does (R37): the three given keys, the formula for each sign, the order of numbers,
and NaN after every number and before the sentinel. -/
def Obligations.DistanceKeyOrder : Prop :=
  distKey 0 = 0x80000000 ∧ distKey 0x7F800000 = 0xFF800000 ∧
  (∀ f, f < 2 ^ 32 → isNaN32 f = true → distKey f = 0xFFC00000) ∧
  (∀ f, f < 2 ^ 31 → isNaN32 f = false → distKey f = f ||| 0x80000000) ∧
  distKey 0x80000000 = distKey 0 ∧
  (∀ f, 2 ^ 31 < f → f < 2 ^ 32 → isNaN32 f = false → distKey f = 0xFFFFFFFF - f) ∧
  (∀ a b, a < 2 ^ 32 → b < 2 ^ 32 → isNaN32 a = false → isNaN32 b = false →
    ((f32 a).numLt (f32 b) = true ↔ distKey a < distKey b)) ∧
  ∀ f n, f < 2 ^ 32 → isNaN32 f = false → isNaN32 n = true → distKey f < distKey n ∧ distKey n < DIST_SENTINEL

/-- Multi-byte fields are little-endian (R7): a field written in `n` bytes reads back, modulo 2 to the power of its width, wherever
it stands, and any bytes are the field of the number they spell. -/
def Obligations.FieldsReadBack : Prop :=
  (∀ (a b : List Byte) (n v : Nat), fld (a ++ leBytes n v ++ b) a.length n = v % 256 ^ n) ∧
  (∀ l : List Byte, leBytes l.length (fld l 0 l.length) = l) ∧
  ∀ (l : List Byte) (n i : Nat), i < n → n ≤ l.length → fld l i 1 = fld l 0 n / 256 ^ i % 256

/-- A round-robin arbiter grants the first requester at or after its pointer, and none only where none asks (R122). -/
def Obligations.RoundRobinGrant : Prop :=
  ∀ (n ptr : Nat) (want : Nat → Bool), ptr < n →
    (∀ k, roundRobin n ptr want = some k ↔
      ∃ d, d < n ∧ k = (ptr + d) % n ∧ want k = true ∧ ∀ e, e < d → want ((ptr + e) % n) = false) ∧
    (roundRobin n ptr want = none ↔ ∀ k, k < n → want k = false)

/-- An exact sum does not depend on the order of its terms or on how they are divided among units, and its transport form carries it
unrounded; a transport form whose Reserved field is not zero is refused (R22, R40, R41). -/
def Obligations.ExactSumsIgnorePlacement : Prop :=
  (∀ a b : List Val, a.Perm b → LAcc.sum a = LAcc.sum b) ∧
  (∀ a : LAcc, -(2 ^ 159 : Int) ≤ a.val → a.val < 2 ^ 159 → LAcc.ofBytes a.toBytes = some a) ∧
  (∀ a b : List Val, -(2 ^ 159 : Int) ≤ (LAcc.sum (a ++ b)).val → (LAcc.sum (a ++ b)).val < 2 ^ 159 →
    LAcc.join (LAcc.sum a) (LAcc.sum b) = LAcc.sum (a ++ b)) ∧
  ∀ l : List Byte, (fld l 20 1 / 16 ≠ 0 ∨ fld l 21 3 ≠ 0) → LAcc.ofBytes l = none

/-- A scan's local best-32 (R71): of the list so far and the candidate, the at most 32 least by distance and then ordinal, in that
order; what is not kept ranks at or below everything kept. -/
def Obligations.LocalBest32 : Prop :=
  ∀ (c : MarverCtx) (e : Entry), c.cmd.pass ≠ 1 → c.best.length ≤ 32 → e.ordinal < 2 ^ 64 →
    (∀ x ∈ c.best, x.ordinal < 2 ^ 64) →
    c.best.Pairwise (fun x y => x.dist < y.dist ∨ x.dist = y.dist ∧ x.ordinal ≤ y.ordinal) →
    let b := (retain c e).best
    b.length = min 32 (c.best.length + 1) ∧
    b.Pairwise (fun x y => x.dist < y.dist ∨ x.dist = y.dist ∧ x.ordinal ≤ y.ordinal) ∧
    (∀ x ∈ b, x ∈ c.best ∨ x = e) ∧
    (∀ x, x ∈ c.best ∨ x = e → x ∉ b → ∀ y ∈ b, y.dist < x.dist ∨ y.dist = x.dist ∧ y.ordinal ≤ x.ordinal) ∧
    (retain c e).passed = min (2 ^ 32 - 1) (c.passed + 1)

/-! ## Rules of the mailbox -/

/-- DEV_ECHO returns its request payload unchanged, with ST_OK, and changes no state (R369): a request accepted gives the answer
posted for it and nothing else. -/
def Obligations.EchoReturnsPayload : Prop :=
  ∀ (m : MsgSrc) (s : State), Accepted ⟨0x104, .any, true, false, none⟩ m s →
    let msg := msgBytes s m
    exec (.devEcho m) s =
      .next (respond (takeRequest s m) (msgOwner m) 0x104 (fld msg 8 8) 0 0 ((msg.drop 32).take (fld msg 4 2)))

/-- A doorbell bit for a slot that is already BUSY is ignored and counted in BAD_DOORBELL, and of two doorbells for one slot the
first acts and the second is ignored (R337). -/
def Obligations.BusySlotDoorbellIgnored : Prop :=
  (∀ (f : Func) (i : Nat), f.busy.getLsbD i = true → ringSlot f i = { f with badBells := min (2 ^ 32 - 1) (f.badBells + 1) }) ∧
  (∀ (f : Func) (i : Nat), i < 16 → f.busy.getLsbD i = false →
    let g := ringSlot f i
    g.busy = f.busy ||| BitVec.ofNat 16 (2 ^ i) ∧ g.arrival = f.arrival ++ [i] ∧ g.badBells = f.badBells ∧
    ringSlot g i = { g with badBells := min (2 ^ 32 - 1) (g.badBells + 1) }) ∧
  ∀ (p : RegPkt) (s : State), doorbellActs s p = true →
    exec (.mbxDoorbell p) s =
      .next (ackWrite (putFn s p.fn ((bellSlots (writtenOnes p 0x100)).foldl ringSlot (getFn s p.fn))) p)
end

