-- ==== Sys2Proof/Laws/Memory.lean ====
section
/-!
SUPPORT. Sparse tables and memory: read after write, what a write leaves alone, and the canonical form kept by every memory
operation.
-/

namespace Sys2Proof

/-! ## Tables -/

theorem Tab.get_insert {α : Type} (d : α) (t : Tab α) (k j : Nat) (v : α) :
    Tab.get d (Tab.insert t k v) j = if k = j then v else Tab.get d t j := by
  induction t with
  | nil => rfl
  | cons p t ih =>
    obtain ⟨a, w⟩ := p
    simp only [Tab.insert]
    split
    · rfl
    · split
      · subst_vars; simp only [Tab.get]; split <;> rfl
      · simp only [Tab.get, ih]
        by_cases h1 : a = j <;> by_cases h2 : k = j <;> simp_all

theorem Tab.get_erase_ne {α : Type} (d : α) (t : Tab α) (k j : Nat) (h : k ≠ j) :
    Tab.get d (Tab.erase t k) j = Tab.get d t j := by
  induction t with
  | nil => rfl
  | cons p t ih =>
    obtain ⟨a, w⟩ := p
    simp only [Tab.erase]
    split
    · subst_vars; simp [Tab.get, h]
    · simp only [Tab.get, ih]

theorem Tab.wf_iff {α : Type} [DecidableEq α] (d : α) (t : Tab α) :
    Tab.wf d t = true ↔ t.Pairwise (fun a b => a.1 < b.1) ∧ ∀ p ∈ t, p.2 ≠ d := by
  induction t with
  | nil => simp [Tab.wf]
  | cons p t ih =>
    cases t with
    | nil => simp [Tab.wf]
    | cons q t =>
      obtain ⟨a, v⟩ := p
      obtain ⟨b, w⟩ := q
      simp only [Tab.wf, Bool.and_eq_true, decide_eq_true_eq, ih, List.pairwise_cons, List.mem_cons]
      constructor
      · rintro ⟨⟨h1, h2⟩, ⟨h3, h4⟩, h5⟩
        refine ⟨⟨?_, h3, h4⟩, ?_⟩
        · rintro c (rfl | hc)
          · exact h1
          · exact Nat.lt_trans h1 (h3 c hc)
        · rintro c (rfl | hc)
          · exact h2
          · exact h5 c hc
      · rintro ⟨⟨h1, h2, h3⟩, h4⟩
        exact ⟨⟨h1 _ (Or.inl rfl), h4 (a, v) (Or.inl rfl)⟩, ⟨h2, h3⟩, fun p hp => h4 p (Or.inr hp)⟩

theorem Tab.mem_insert {α : Type} (t : Tab α) (k : Nat) (v : α) (p : Nat × α) (h : p ∈ Tab.insert t k v) :
    p = (k, v) ∨ p ∈ t := by
  induction t with
  | nil => simpa [Tab.insert] using h
  | cons q t ih =>
    obtain ⟨a, w⟩ := q
    simp only [Tab.insert] at h
    split at h
    · simpa using h
    · split at h
      · simp only [List.mem_cons] at h ⊢; grind
      · simp only [List.mem_cons] at h ⊢; grind

theorem Tab.erase_sublist {α : Type} (t : Tab α) (k : Nat) : (Tab.erase t k).Sublist t := by
  induction t with
  | nil => exact List.Sublist.refl _
  | cons q t ih =>
    obtain ⟨a, w⟩ := q
    simp only [Tab.erase]
    split
    · exact List.sublist_cons_self _ _
    · exact ih.cons_cons _

theorem Tab.wf_sublist {α : Type} [DecidableEq α] (d : α) (t u : Tab α) (h : t.Sublist u) (hu : Tab.wf d u = true) :
    Tab.wf d t = true := by
  rw [Tab.wf_iff] at hu ⊢
  exact ⟨hu.1.sublist h, fun p hp => hu.2 p (h.subset hp)⟩

theorem Tab.wf_erase {α : Type} [DecidableEq α] (d : α) (t : Tab α) (k : Nat) (h : Tab.wf d t = true) :
    Tab.wf d (Tab.erase t k) = true := Tab.wf_sublist d _ _ (Tab.erase_sublist t k) h

theorem Tab.wf_filter {α : Type} [DecidableEq α] (d : α) (t : Tab α) (f : Nat × α → Bool) (h : Tab.wf d t = true) :
    Tab.wf d (t.filter f) = true := Tab.wf_sublist d _ _ List.filter_sublist h

theorem Tab.pairwise_insert {α : Type} (t : Tab α) (k : Nat) (v : α) (h : t.Pairwise (fun a b => a.1 < b.1)) :
    (Tab.insert t k v).Pairwise (fun a b => a.1 < b.1) := by
  induction t with
  | nil => simp [Tab.insert]
  | cons q t ih =>
    obtain ⟨a, w⟩ := q
    rw [List.pairwise_cons] at h
    simp only [Tab.insert]
    split
    · rename_i hk
      refine List.pairwise_cons.2 ⟨?_, List.pairwise_cons.2 h⟩
      intro c hc
      rcases List.mem_cons.1 hc with rfl | hc
      · exact hk
      · exact Nat.lt_trans hk (h.1 c hc)
    · split
      · subst_vars; exact List.pairwise_cons.2 h
      · refine List.pairwise_cons.2 ⟨?_, ih h.2⟩
        intro c hc
        rcases Tab.mem_insert t k v c hc with rfl | hc
        · show a < k; omega
        · exact h.1 c hc

theorem Tab.wf_set {α : Type} [DecidableEq α] (d : α) (t : Tab α) (k : Nat) (v : α) (h : Tab.wf d t = true) :
    Tab.wf d (Tab.set d t k v) = true := by
  unfold Tab.set
  split
  · exact Tab.wf_erase d t k h
  · rename_i hv
    rw [Tab.wf_iff] at h ⊢
    refine ⟨Tab.pairwise_insert t k v h.1, fun p hp => ?_⟩
    rcases Tab.mem_insert t k v p hp with rfl | hp
    · exact hv
    · exact h.2 p hp

theorem Tab.get_above {α : Type} (d : α) (t : Tab α) (k : Nat) (h : ∀ p ∈ t, k < p.1) : Tab.get d t k = d := by
  induction t with
  | nil => rfl
  | cons q t ih =>
    obtain ⟨a, w⟩ := q
    have h1 := h (a, w) (List.mem_cons_self ..)
    simp only [Tab.get]
    rw [if_neg (by simp at h1; omega)]
    exact ih fun p hp => h p (List.mem_cons_of_mem _ hp)

theorem Tab.get_erase_self {α : Type} [DecidableEq α] (d : α) (t : Tab α) (k : Nat) (h : Tab.wf d t = true) :
    Tab.get d (Tab.erase t k) k = d := by
  rw [Tab.wf_iff] at h
  have hp := h.1
  clear h
  induction t with
  | nil => rfl
  | cons q t ih =>
    obtain ⟨a, w⟩ := q
    rw [List.pairwise_cons] at hp
    simp only [Tab.erase]
    split
    · subst_vars; exact Tab.get_above d t a hp.1
    · simp only [Tab.get]
      rw [if_neg (by assumption)]
      exact ih hp.2

theorem Tab.get_set {α : Type} [DecidableEq α] (d : α) (t : Tab α) (k j : Nat) (v : α) (h : Tab.wf d t = true) :
    Tab.get d (Tab.set d t k v) j = if k = j then v else Tab.get d t j := by
  unfold Tab.set
  split
  · subst_vars
    split
    · subst_vars; exact Tab.get_erase_self _ t _ h
    · exact Tab.get_erase_ne _ t k j (by assumption)
  · exact Tab.get_insert d t k j v

theorem Tab.get_set_ne {α : Type} [DecidableEq α] (d : α) (t : Tab α) (k j : Nat) (v : α) (h : k ≠ j) :
    Tab.get d (Tab.set d t k v) j = Tab.get d t j := by
  unfold Tab.set
  split
  · exact Tab.get_erase_ne d t k j h
  · rw [Tab.get_insert, if_neg h]

end Sys2Proof

namespace Sys2Proof.Laws

open Sys2Proof Sys2Proof.Machine

/-! ## One byte -/

theorem readByte_writeByte_ne (m : Mem) (a b : Nat) (v : Byte) (h : a ≠ b) :
    readByte (writeByte m a v) b = readByte m b := Tab.get_set_ne 0 m.cells a b v h

theorem wf_iff (m : Mem) : Memory.wf m = true ↔ Tab.wf 0 m.cells = true ∧ m.poison.Pairwise (· < ·) := by
  simp [Memory.wf]

theorem wf_cells (m : Mem) (h : Memory.wf m = true) : Tab.wf 0 m.cells = true := ((wf_iff m).mp h).1

theorem wf_poison (m : Mem) (h : Memory.wf m = true) : m.poison.Pairwise (· < ·) := ((wf_iff m).mp h).2

theorem wf_same (m : Mem) (t : Tab Nat) (l : Layout) : Memory.wf { m with ceCount := t, layout := l } = Memory.wf m := rfl

/-- Poison taken away leaves memory canonical. -/
theorem wf_filterPoison (m : Mem) (f : Nat → Bool) (h : Memory.wf m = true) :
    Memory.wf { m with poison := m.poison.filter f } = true :=
  (wf_iff _).mpr ⟨wf_cells m h, (wf_poison m h).filter f⟩

theorem mem_insertNat (k x : Nat) (l : List Nat) : x ∈ insertNat k l ↔ x = k ∨ x ∈ l := by
  induction l with
  | nil => simp [insertNat]
  | cons a t ih => simp only [insertNat]; grind

theorem pairwise_insertNat (k : Nat) (l : List Nat) (h : l.Pairwise (· < ·)) : (insertNat k l).Pairwise (· < ·) := by
  induction l with
  | nil => simp [insertNat]
  | cons a t ih =>
    rw [List.pairwise_cons] at h
    simp only [insertNat]
    split
    · rw [List.pairwise_cons, List.pairwise_cons]; grind
    · split
      · rw [List.pairwise_cons]; exact h
      · rw [List.pairwise_cons]
        refine ⟨fun x hx => ?_, ih h.2⟩
        rw [mem_insertNat] at hx
        grind

theorem readByte_writeByte (m : Mem) (a b : Nat) (v : Byte) (h : Memory.wf m = true) :
    readByte (writeByte m a v) b = if a = b then v else readByte m b := Tab.get_set 0 m.cells a b v (wf_cells m h)

theorem wf_writeByte (m : Mem) (a : Nat) (b : Byte) (h : Memory.wf m = true) : Memory.wf (writeByte m a b) = true :=
  (wf_iff _).mpr ⟨Tab.wf_set 0 m.cells a b (wf_cells m h), wf_poison m h⟩

@[simp] theorem writeByte_poison (m : Mem) (a : Nat) (b : Byte) : (writeByte m a b).poison = m.poison := rfl
@[simp] theorem writeByte_layout (m : Mem) (a : Nat) (b : Byte) : (writeByte m a b).layout = m.layout := rfl

/-! ## Runs of bytes -/

theorem wf_writeBytes (m : Mem) (a : Nat) (l : List Byte) (h : Memory.wf m = true) : Memory.wf (writeBytes m a l) = true := by
  induction l generalizing m a with
  | nil => exact h
  | cons b t ih => exact ih _ _ (wf_writeByte m a b h)

@[simp] theorem writeBytes_poison (m : Mem) (a : Nat) (l : List Byte) : (writeBytes m a l).poison = m.poison := by
  induction l generalizing m a with
  | nil => rfl
  | cons b t ih => simp [writeBytes, ih]

@[simp] theorem writeBytes_layout (m : Mem) (a : Nat) (l : List Byte) : (writeBytes m a l).layout = m.layout := by
  induction l generalizing m a with
  | nil => rfl
  | cons b t ih => simp [writeBytes, ih]

/-- A write of bytes leaves every byte outside them alone. -/
theorem readByte_writeBytes_outside (m : Mem) (a : Nat) (l : List Byte) (c : Nat) (h : c < a ∨ a + l.length ≤ c) :
    readByte (writeBytes m a l) c = readByte m c := by
  induction l generalizing m a with
  | nil => rfl
  | cons b t ih =>
    simp only [writeBytes, List.length_cons] at h ⊢
    rw [ih _ _ (by omega), readByte_writeByte_ne _ _ _ _ (by omega)]

/-- A byte written reads back. -/
theorem readByte_writeBytes_inside (m : Mem) (a : Nat) (l : List Byte) (i : Nat) (h : Memory.wf m = true)
    (hi : i < l.length) : readByte (writeBytes m a l) (a + i) = l[i] := by
  induction l generalizing m a i with
  | nil => simp at hi
  | cons b t ih =>
    simp only [writeBytes]
    cases i with
    | zero =>
      rw [readByte_writeBytes_outside _ _ _ _ (by omega), readByte_writeByte _ _ _ _ h]
      simp
    | succ i =>
      have := ih (writeByte m a b) (a + 1) i (wf_writeByte m a b h) (by simpa using hi)
      rw [show a + (i + 1) = a + 1 + i by omega, this]
      simp

theorem readByte_clearPoison (m : Mem) (a n c : Nat) : readByte (clearPoison m a n) c = readByte m c := rfl

theorem wf_clearPoison (m : Mem) (a n : Nat) (h : Memory.wf m = true) : Memory.wf (clearPoison m a n) = true :=
  wf_filterPoison m _ h

@[simp] theorem clearPoison_layout (m : Mem) (a n : Nat) : (clearPoison m a n).layout = m.layout := rfl

theorem wf_setPoison (m : Mem) (a : Nat) (h : Memory.wf m = true) : Memory.wf (setPoison m a) = true :=
  (wf_iff _).mpr ⟨wf_cells m h, pairwise_insertNat a _ (wf_poison m h)⟩

theorem readByte_setPoison (m : Mem) (g c : Nat) : readByte (setPoison m g) c = readByte m c := rfl

/-! ## Stores -/

theorem wf_store (m : Mem) (a : Nat) (l : List Byte) (h : Memory.wf m = true) : Memory.wf (store m a l) = true :=
  wf_clearPoison _ _ _ (wf_writeBytes m a l h)

@[simp] theorem store_layout (m : Mem) (a : Nat) (l : List Byte) : (store m a l).layout = m.layout := by simp [store]

theorem readByte_store_outside (m : Mem) (a : Nat) (l : List Byte) (c : Nat) (h : c < a ∨ a + l.length ≤ c) :
    readByte (store m a l) c = readByte m c := readByte_writeBytes_outside m a l c h

theorem readByte_store_inside (m : Mem) (a : Nat) (l : List Byte) (i : Nat) (h : Memory.wf m = true) (hi : i < l.length) :
    readByte (store m a l) (a + i) = l[i] := readByte_writeBytes_inside m a l i h hi

/-- A store clears the poison of the whole granules it writes and of no other (R87). -/
theorem mem_store_poison (m : Mem) (a : Nat) (l : List Byte) (g : Nat) :
    g ∈ (store m a l).poison ↔ g ∈ m.poison ∧ ¬(a ≤ g * 32 ∧ g * 32 + 32 ≤ a + l.length) := by
  simp only [store, clearPoison, writeBytes_poison, List.mem_filter, Bool.not_eq_true', Bool.and_eq_false_iff,
    decide_eq_false_iff_not]
  grind

theorem wf_storeMaCells (map : List Nat) (m : Mem) (a : Nat) (l : List Byte) (h : Memory.wf m = true) :
    Memory.wf (storeMaCells map m a l) = true := by
  induction l generalizing m a with
  | nil => exact h
  | cons b t ih => exact ih _ _ (wf_writeByte m _ b h)

theorem wf_storeMa (s : State) (a : Nat) (l : List Byte) (h : Memory.wf s.mem = true) :
    Memory.wf (storeMa s a l).mem = true :=
  wf_filterPoison _ _ (wf_storeMaCells _ _ a l h)

/-- Pages given to a workspace read 0 (R317). -/
theorem readByte_clearPages (s : State) (base pages dpa : Nat)
    (h : base ≤ pageOfDpa s dpa ∧ pageOfDpa s dpa < base + pages) : readByte (clearPages s base pages).mem dpa = 0 := by
  have key : ∀ l : List (Nat × Byte),
      Tab.get (0 : Byte) (l.filter fun c => !(decide (base ≤ pageOfDpa s c.1) && decide (pageOfDpa s c.1 < base + pages))) dpa = 0 := by
    intro l
    induction l with
    | nil => rfl
    | cons p l ih =>
      obtain ⟨a, v⟩ := p
      simp only [List.filter_cons]
      split
      · simp only [Tab.get]
        split
        · subst_vars; simp_all
        · exact ih
      · exact ih
  exact key s.mem.cells

theorem wf_clearPages (s : State) (base pages : Nat) (h : Memory.wf s.mem = true) :
    Memory.wf (clearPages s base pages).mem = true :=
  (wf_iff _).mpr ⟨Tab.wf_filter 0 _ _ (wf_cells _ h), (wf_poison _ h).filter _⟩

theorem wf_takePages (s : State) (ws kind base pages : Nat) (h : Memory.wf s.mem = true) :
    Memory.wf (takePages s ws kind base pages).mem = true := wf_clearPages s base pages h

theorem wf_reset : Memory.wf State.reset.mem = true := rfl

end Sys2Proof.Laws
end

