-- ==== Sys2Proof/Laws/Requests.lean ====
section
/-!
SUPPORT. What serving a request of the bench core does, said once for all its commands.
-/

namespace Sys2Proof.Laws

open Sys2Proof Sys2Proof.Machine Sys2Proof.Safety

/-- An accepted message runs its command's body on the state with the request taken, and its answer is given. -/
theorem serve_accepted {c : Cmd} {m : MsgSrc} {s : State} (body : Ctx → State → Answer × State) (h : Accepted c m s) :
    serve c m body s =
      .next (give (reqCtx m s) (body (reqCtx m s) (takeRequest s m)).1 (body (reqCtx m s) (takeRequest s m)).2) := by
  obtain ⟨h1, h2⟩ := h
  simp only [serve, when, h1, if_true, serveNow, h2, reqCtx]

/-- A message that the bench core does not accept as the command leaves the block as it is (R336, R379). -/
theorem serve_idle {c : Cmd} {m : MsgSrc} {s : State} (body : Ctx → State → Answer × State) (h : servable c m s = false) :
    serve c m body s = .next s := by
  simp [serve, when, h]

/-- A message whose checks fail is answered with their status and nothing else (R619). -/
theorem serve_refused {c : Cmd} {m : MsgSrc} {s : State} {st : Nat} (body : Ctx → State → Answer × State)
    (h1 : servable c m s = true) (h2 : preCheck (takeRequest s m) c (msgOwner m) (msgBytes s m) = some st) :
    serve c m body s = .next (respond (takeRequest s m) (msgOwner m) (fld (msgBytes s m) 0 2) (fld (msgBytes s m) 8 8) st 0 []) := by
  simp only [serve, when, h1, if_true, serveNow, h2]

/-- Every request of a Guliq row completes. -/
theorem serve_next (c : Cmd) (m : MsgSrc) (body : Ctx → State → Answer × State) (s : State) : ∃ t, serve c m body s = .next t :=
  ⟨_, rfl⟩

/-- The answers, as the statements name them. -/
theorem give_reply (m : MsgSrc) (s t : State) (st : Nat) (r : List Byte) :
    give (reqCtx m s) (.reply st r) t = answered m s st r t := rfl

theorem give_issue (m : MsgSrc) (s t : State) (st : Nat) (w : Work) :
    give (reqCtx m s) (.issue st w) t = issued m s st w t := rfl

/-- A body whose checks all hold runs. -/
theorem checked_ok (cs : List (Bool × Nat)) (run : Answer × State) (s : State) (h : checks cs = none) :
    checked cs run s = run := by
  simp only [checked, h]

/-- The checks of a body hold when each of them does. -/
theorem checks_none (cs : List (Bool × Nat)) (h : ∀ p ∈ cs, p.1 = true) : checks cs = none := by
  induction cs with
  | nil => rfl
  | cons p t ih =>
    obtain ⟨ok, st⟩ := p
    have h1 : ok = true := h (ok, st) (List.mem_cons_self ..)
    simp only [checks, h1, if_true]
    exact ih fun q hq => h q (List.mem_cons_of_mem _ hq)

end Sys2Proof.Laws
end

