-- ==== Sys2Proof/Laws/Queue.lean ====
section
/-!
SUPPORT. Every operation of the block leaves the command queue as it was: one lemma for each function that answers a state, the
meanings of the rows among them.
-/

open Sys2Proof Sys2Proof.Machine

namespace Sys2Proof.Laws

theorem queue_foldl {α : Type} (g : State → α → State) (h : ∀ a b, (g a b).pending = a.pending) (l : List α)
    (s : State) : (l.foldl g s).pending = s.pending := by
  induction l generalizing s with
  | nil => rfl
  | cons a t ih => simp [ih, h]

theorem queue_foldl_snd {α β : Type} (g : β × State → α → β × State) (h : ∀ a b, (g a b).2.pending = a.2.pending)
    (l : List α) (s : β × State) : (l.foldl g s).2.pending = s.2.pending := by
  induction l generalizing s with
  | nil => rfl
  | cons a t ih => rw [List.foldl_cons, ih, h]

theorem queue_refuse (st : Nat) (s : State) :
    (refuse st s).2.pending = s.pending := by
  simp [refuse]

theorem queue_checked (cs : List (Bool × Nat)) (run : Answer × State) (s : State) (h_run : (run).2.pending = s.pending) :
    (checked cs run s).2.pending = s.pending := by
  unfold checked; (repeat' split) <;> simp [queue_refuse, h_run]

theorem queue_putChan (s : State) (c : Nat) (x : Channel) :
    (putChan s c x).pending = s.pending := by
  simp [putChan]

theorem queue_moveRate (c : Ctx) (s : State) :
    (moveRate c s).2.pending = s.pending := by
  simp [moveRate, queue_checked, queue_putChan]

theorem queue_when (c : Bool) (f : State → State) (s : State) (h_f : ∀ y0, (f y0).pending = y0.pending) :
    (when c f s).pending = s.pending := by
  unfold when; (repeat' split) <;> simp [h_f]

theorem queue_guarded (row : String) (present : Bool) (t : State) :
    ∀ rr, guarded row present t = .next rr → (rr).pending = t.pending := by
  intro r h; unfold guarded at h; grind []

theorem queue_putGroup (s : State) (g : Nat) (x : FlashGroup) :
    (putGroup s g x).pending = s.pending := by
  simp [putGroup]

theorem queue_emitFull (s : State) (code : Nat) (kind : Nat) (inst : Nat) (p0 : Nat) (p1 : Nat) (p2 : Nat) (p3 : Nat) (p4 : Nat) :
    (emitFull s code kind inst p0 p1 p2 p3 p4).pending = s.pending := by
  simp [emitFull]

theorem queue_emit (s : State) (code : Nat) (kind : Nat) (inst : Nat) (p0 : Nat) (p1 : Nat) (p2 : Nat) :
    (emit s code kind inst p0 p1 p2).pending = s.pending := by
  simp [emit, queue_emitFull]

theorem queue_loseUnit (s : State) (g : Nat) (u : Nat) :
    (loseUnit s g u).pending = s.pending := by
  simp [loseUnit, queue_putGroup, queue_emit]

theorem queue_putFChan (s : State) (c : Nat) (x : FlashChan) :
    (putFChan s c x).pending = s.pending := by
  simp [putFChan]

theorem queue_checkSpare (s : State) (g : Nat) :
    (checkSpare s g).pending = s.pending := by
  grind [checkSpare, queue_putGroup, queue_emit]

theorem queue_takeOutTarget (s : State) (c : Nat) (tg : Nat) :
    (takeOutTarget s c tg).pending = s.pending := by
  simp only [takeOutTarget]; (repeat' split) <;> first
    | grind [queue_putGroup, queue_emit, queue_loseUnit, queue_putFChan, queue_checkSpare]
    | simp [queue_putGroup, queue_emit, queue_loseUnit, queue_putFChan, queue_checkSpare, queue_foldl]

theorem queue_submit (s : State) (a : Activity) :
    (submit s a).pending = s.pending := by
  unfold submit; (repeat' split) <;> simp

theorem queue_beginStackRetire (s : State) (stk : Nat) (t : Option TicketRef) :
    (beginStackRetire s stk t).pending = s.pending := by
  simp [beginStackRetire, queue_submit]

theorem queue_putScore (s : State) (kind : Nat) (idx : Nat) (x : Score) :
    (putScore s kind idx x).pending = s.pending := by
  simp [putScore]

theorem queue_addPoints (s : State) (kind : Nat) (idx : Nat) (pts : Nat) (code : Nat) :
    (addPoints s kind idx pts code).pending = s.pending := by
  simp [addPoints, queue_putScore]

theorem queue_checkWatch (s : State) (kind : Nat) (idx : Nat) :
    (checkWatch s kind idx).pending = s.pending := by
  grind [checkWatch, queue_putScore, queue_emitFull]

theorem queue_beginCaneRetire (s : State) (c : Nat) (t : Option TicketRef) :
    (beginCaneRetire s c t).pending = s.pending := by
  simp [beginCaneRetire, queue_submit]

theorem queue_retireGaffer (s : State) (e : Nat) :
    (retireGaffer s e).pending = s.pending := by
  simp [retireGaffer]

theorem queue_putPort (s : State) (p : Nat) (x : Port) :
    (putPort s p x).pending = s.pending := by
  simp [putPort]

theorem queue_holdWavelength (s : State) (idx : Nat) :
    (holdWavelength s idx).pending = s.pending := by
  simp [holdWavelength, queue_putPort]

theorem queue_emitDev (s : State) (code : Nat) (p0 : Nat) (p1 : Nat) (p2 : Nat) :
    (emitDev s code p0 p1 p2).pending = s.pending := by
  simp [emitDev, queue_emitFull]

theorem queue_unreachable (s : State) (dst : Nat) :
    (unreachable s dst).pending = s.pending := by
  unfold unreachable; (repeat' split) <;> simp [queue_emitDev]

theorem queue_movePackets (s : State) (from_ : Nat) (ps : List Packet) :
    (movePackets s from_ ps).pending = s.pending := by
  unfold movePackets; refine queue_foldl _ ?_ _ _; intro a b; (repeat' split) <;> first
    | grind [queue_putPort, queue_unreachable]
    | simp [queue_putPort, queue_unreachable, queue_foldl]
    | simp_all [queue_putPort, queue_unreachable, queue_foldl]

theorem queue_noteLinks (s : State) :
    (noteLinks s).pending = s.pending := by
  simp [noteLinks]

theorem queue_setPort (s : State) (p : Nat) (st : Nat) (emission : Nat) :
    (setPort s p st emission).pending = s.pending := by
  grind [setPort, queue_movePackets, queue_putPort, queue_noteLinks]

theorem queue_scoreFuel (x0 : Nat) (x1 : State) (kind : Nat) (idx : Nat) (pts : Nat) (code : Nat) :
    (scoreFuel x0 x1 kind idx pts code).pending = x1.pending := by
  fun_induction scoreFuel <;> grind [queue_takeOutTarget, queue_beginStackRetire, queue_addPoints, queue_checkWatch, queue_submit,
    queue_putScore, queue_beginCaneRetire, queue_retireGaffer, queue_holdWavelength, queue_setPort, queue_emitFull]

theorem queue_score (s : State) (kind : Nat) (idx : Nat) (pts : Nat) (code : Nat) :
    (score s kind idx pts code).pending = s.pending := by
  simp [score, queue_scoreFuel]

theorem queue_putFn (s : State) (n : Nat) (f : Func) :
    (putFn s n f).pending = s.pending := by
  simp [putFn]

theorem queue_putVec (s : State) (fn : Nat) (v : Nat) (x : Vec) :
    (putVec s fn v x).pending = s.pending := by
  simp [putVec, queue_putFn]

theorem queue_putFlow (s : State) (f : Flow) :
    (putFlow s f).pending = s.pending := by
  simp [putFlow]

theorem queue_enqueue (s : State) (port : Nat) (p : Packet) :
    (enqueue s port p).pending = s.pending := by
  simp [enqueue, queue_putPort]

theorem queue_sendPacket (s : State) (p : Packet) :
    (sendPacket s p).pending = s.pending := by
  grind [sendPacket, queue_putFlow, queue_enqueue, queue_unreachable]

theorem queue_sendTxn (s : State) (dst : Nat) (vc : Nat) (ws : Nat) (msg : Nat) (txn : Nat) (body : List Byte) :
    (sendTxn s dst vc ws msg txn body).pending = s.pending := by
  simp [sendTxn, queue_sendPacket, queue_foldl]

theorem queue_sendMsg (s : State) (dst : Nat) (vc : Nat) (ws : Nat) (msg : Nat) (body : List Byte) :
    (sendMsg s dst vc ws msg body).pending = s.pending := by
  simp [sendMsg, queue_sendTxn]

theorem queue_sendInterrupt (s : State) (fn : Nat) (v : Nat) :
    (sendInterrupt s fn v).pending = s.pending := by
  simp [sendInterrupt, queue_sendMsg, queue_putVec]

theorem queue_interruptDue (s : State) (fn : Nat) (v : Nat) :
    (interruptDue s fn v).pending = s.pending := by
  grind [interruptDue, queue_putVec, queue_sendInterrupt]

theorem queue_addEvent (s : State) (fn : Nat) (v : Nat) :
    (addEvent s fn v).pending = s.pending := by
  grind [addEvent, queue_putVec, queue_interruptDue]

theorem queue_postInto (s : State) (fn : Nat) (slot : Nat) (msg : List Byte) :
    (postInto s fn slot msg).pending = s.pending := by
  simp [postInto, queue_putFn, queue_addEvent]

theorem queue_post (s : State) (owner : Nat) (msg : List Byte) :
    (post s owner msg).pending = s.pending := by
  grind [post, queue_putFn, queue_postInto]

theorem queue_finishTicket (s : State) (t : TicketRef) (status : Nat) (result : List Byte) :
    (finishTicket s t status result).pending = s.pending := by
  unfold finishTicket; (repeat' split) <;> simp [queue_post]

theorem queue_finishAll (s : State) (ts : List TicketRef) (status : Nat) (result : List Byte) :
    (finishAll s ts status result).pending = s.pending := by
  simp [finishAll, queue_finishTicket, queue_foldl]

theorem queue_endRetrain (s : State) (p : Nat) :
    (endRetrain s p).pending = s.pending := by
  simp [endRetrain, queue_putPort, queue_finishAll]

theorem queue_dropActivity (s : State) (ident : Nat) :
    (dropActivity s ident).pending = s.pending := by
  simp [dropActivity]

theorem queue_finishRecal (s : State) (r : Recal) :
    (finishRecal s r).pending = s.pending := by
  simp [finishRecal, queue_finishTicket, queue_emit, queue_dropActivity]

theorem queue_putRecal (s : State) (r : Recal) :
    (putRecal s r).pending = s.pending := by
  simp [putRecal]

theorem queue_recalNext (s : State) (r : Recal) (x2 : Nat) :
    (recalNext s r x2).pending = s.pending := by
  fun_induction recalNext <;> simp_all [queue_finishRecal, queue_putRecal, queue_setPort]

theorem queue_recalPortEnd (s : State) (p : Nat) (up : Bool) :
    (recalPortEnd s p up).pending = s.pending := by
  unfold recalPortEnd; (repeat' split) <;> simp [queue_recalNext]

theorem queue_darken (s : State) (c : Nat) :
    (darken s c).pending = s.pending := by
  unfold darken; refine queue_foldl _ ?_ _ _; intro a b; (repeat' split) <;> first
    | grind [queue_putPort, queue_endRetrain, queue_recalPortEnd, queue_setPort]
    | simp [queue_putPort, queue_endRetrain, queue_recalPortEnd, queue_setPort, queue_foldl]
    | simp_all [queue_putPort, queue_endRetrain, queue_recalPortEnd, queue_setPort, queue_foldl]

theorem queue_feedLostRow (s : State) (f : Nat) :
    (feedLostRow s f).pending = s.pending := by
  grind [feedLostRow, queue_score, queue_emit, queue_darken]

theorem queue_execLaserFeedLost (feed : Nat) (s : State) :
    ∀ rr, execLaserFeedLost feed s = .next rr → (rr).pending = s.pending := by
  intro r h; unfold execLaserFeedLost at h; grind [queue_when, queue_guarded, queue_feedLostRow]

theorem queue_putRing (s : State) (fn : Nat) (r : Nat) (g : Ring) :
    (putRing s fn r g).pending = s.pending := by
  simp [putRing, queue_putFn]

theorem queue_settleRing (s : State) (fn : Nat) (r : Nat) :
    (settleRing s fn r).pending = s.pending := by
  grind [settleRing, queue_putRing, queue_finishAll]

theorem queue_sendMemWrite (s : State) (dst : Nat) (vc : Nat) (ws : Nat) (txn : Nat) (addr : Nat) (data : List Byte) :
    (sendMemWrite s dst vc ws txn addr data).pending = s.pending := by
  simp [sendMemWrite, queue_sendTxn]

theorem queue_writeBuf (s : State) (fn : Nat) (ws : Nat) (a : Nat) (data : List Byte) (txn : Nat) :
    (writeBuf s fn ws a data txn).pending = s.pending := by
  unfold writeBuf; (repeat' split) <;> simp [queue_sendMemWrite]

theorem queue_postEntry (s : State) (fn : Nat) (r : Nat) (e : List Byte) (noInterrupt : Bool) :
    (postEntry s fn r e noInterrupt).pending = s.pending := by
  unfold postEntry; (repeat' split) <;> simp [queue_putRing, queue_settleRing, queue_writeBuf, queue_addEvent]

theorem queue_completeMove (s : State) (c : Nat) (j : MoveJob) (status : Nat) (cause : Nat) (reason : Nat) (bad : Bool) (halted : Bool) :
    (completeMove s c j status cause reason bad halted).pending = s.pending := by
  simp [completeMove, queue_postEntry, queue_putChan]

theorem queue_drainChannel (s : State) (c : Nat) :
    (drainChannel s c).pending = s.pending := by
  grind [drainChannel, queue_putRing, queue_finishAll, queue_completeMove, queue_putChan]

theorem queue_settleJob (s : State) (c : Nat) :
    (settleJob s c).pending = s.pending := by
  grind [settleJob, queue_completeMove, queue_putChan]

theorem queue_settlePause (s : State) (c : Nat) :
    (settlePause s c).pending = s.pending := by
  grind [settlePause, queue_finishAll, queue_putChan]

theorem queue_settleChannel (s : State) (c : Nat) :
    (settleChannel s c).pending = s.pending := by
  simp [settleChannel, queue_drainChannel, queue_settleJob, queue_settlePause]

theorem queue_settleOffline (s : State) (g : Nat) :
    (settleOffline s g).pending = s.pending := by
  grind [settleOffline, queue_putGroup, queue_finishTicket, queue_emit]

theorem queue_freePages (s : State) (base : Nat) :
    (freePages s base).pending = s.pending := by
  simp [freePages]

theorem queue_freeSessionPages (s : State) (x : Session) :
    (freeSessionPages s x).pending = s.pending := by
  unfold freeSessionPages; refine queue_foldl _ ?_ _ _; intro a b; (repeat' split) <;> first
    | grind [queue_freePages]
    | simp [queue_freePages, queue_foldl]
    | simp_all [queue_freePages, queue_foldl]

theorem queue_deleteStreams (s : State) (p : Stream → Bool) :
    (deleteStreams s p).pending = s.pending := by
  simp [deleteStreams]

theorem queue_putSession (s : State) (x : Session) :
    (putSession s x).pending = s.pending := by
  simp [putSession]

theorem queue_putBook (s : State) (h : Nat) (b : CodebookSet) :
    (putBook s h b).pending = s.pending := by
  simp [putBook]

theorem queue_settleBook (s : State) (h : Nat) :
    (settleBook s h).pending = s.pending := by
  unfold settleBook; (repeat' split) <;> simp [queue_finishAll, queue_freePages]

theorem queue_refBook (s : State) (h : Nat) (up : Bool) :
    (refBook s h up).pending = s.pending := by
  unfold refBook; (repeat' split) <;> simp [queue_putBook, queue_settleBook]

theorem queue_releaseSession (s : State) (x : Session) (state : Nat) :
    (releaseSession s x state).pending = s.pending := by
  simp [releaseSession, queue_freeSessionPages, queue_deleteStreams, queue_putSession, queue_refBook]

theorem queue_eraseSession (s : State) (x : Session) :
    (eraseSession s x).pending = s.pending := by
  simp [eraseSession]

theorem queue_settleSession (s : State) (ws : Nat) (key : Nat) :
    (settleSession s ws key).pending = s.pending := by
  unfold settleSession; (repeat' split) <;> simp [queue_releaseSession, queue_finishAll, queue_eraseSession]

theorem queue_settleWork (s : State) (t : TicketRef) (k : Ticket) :
    (settleWork s t k).pending = s.pending := by
  unfold settleWork; (repeat' split) <;> simp [queue_settleChannel, queue_settleRing, queue_settleOffline, queue_settleSession
    ]

theorem queue_putGaffer (s : State) (e : Nat) (g : Gaffer) :
    (putGaffer s e g).pending = s.pending := by
  simp [putGaffer]

theorem queue_setPages (s : State) (src : Nat) (dst : Nat) (n : Nat) (es : List Nat) :
    (setPages s src dst n es).pending = s.pending := by
  simp [setPages, queue_putGaffer, queue_foldl]

theorem queue_settleProgram (s : State) (h : Nat) :
    (settleProgram s h).pending = s.pending := by
  unfold settleProgram; (repeat' split) <;> simp [queue_finishAll, queue_setPages, queue_freePages]

theorem queue_finishUnload (s : State) (k : Ticket) :
    ∀ rr, finishUnload s k = some rr → (rr).2.2.pending = s.pending := by
  intro r h; unfold finishUnload at h; grind [queue_settleProgram]

theorem queue_putIndex (s : State) (i : Nat) (x : Index) :
    (putIndex s i x).pending = s.pending := by
  simp [putIndex]

theorem queue_finishImport (s : State) (k : Ticket) :
    ∀ rr, finishImport s k = some rr → (rr).2.2.pending = s.pending := by
  intro r h; unfold finishImport at h; grind [queue_putIndex]

theorem queue_finishTrain (s : State) (k : Ticket) :
    ∀ rr, finishTrain s k = some rr → (rr).2.2.pending = s.pending := by
  intro r h; unfold finishTrain at h; grind [queue_putIndex]

theorem queue_removeTable (s : State) (h : Nat) :
    (removeTable s h).pending = s.pending := by
  unfold removeTable; (repeat' split) <;> simp [queue_deleteStreams]

theorem queue_putTable (s : State) (h : Nat) (t : Table) :
    (putTable s h t).pending = s.pending := by
  simp [putTable]

theorem queue_freeVersionPages (s : State) (x : Version) :
    (freeVersionPages s x).pending = s.pending := by
  unfold freeVersionPages; refine queue_foldl _ ?_ _ _; intro a b; (repeat' split) <;> first
    | grind [queue_freePages]
    | simp [queue_freePages, queue_foldl]
    | simp_all [queue_freePages, queue_foldl]

theorem queue_freeVersion (s : State) (h : Nat) (v : Nat) :
    (freeVersion s h v).pending = s.pending := by
  unfold freeVersion; (repeat' split) <;> simp [queue_finishAll, queue_putTable, queue_freeVersionPages]

theorem queue_settleTable (s : State) (h : Nat) :
    (settleTable s h).pending = s.pending := by
  simp only [settleTable]; (repeat' split) <;> first
    | grind [queue_finishAll, queue_removeTable, queue_freeVersion]
    | simp [queue_finishAll, queue_removeTable, queue_freeVersion, queue_foldl]

theorem queue_finishTableDrop (s : State) (k : Ticket) :
    ∀ rr, finishTableDrop s k = some rr → (rr).2.2.pending = s.pending := by
  intro r h; unfold finishTableDrop at h; grind [queue_settleTable]

theorem queue_setBootRec (s : State) (g : BootRec → BootRec) :
    (setBootRec s g).pending = s.pending := by
  simp [setBootRec]

theorem queue_finishStage (s : State) (t : TicketRef) (ok : Bool) :
    ∀ rr, finishStage s t ok = some rr → (rr).2.2.pending = s.pending := by
  intro r h; unfold finishStage at h; grind [queue_setBootRec, queue_emitDev, queue_dropActivity, queue_freePages]

theorem queue_modVersion (s : State) (h : Nat) (v : Nat) (f : Version → Version) :
    (modVersion s h v f).pending = s.pending := by
  unfold modVersion; (repeat' split) <;> simp [queue_putTable]

theorem queue_refVersion (s : State) (h : Nat) (v : Nat) (up : Bool) :
    (refVersion s h v up).pending = s.pending := by
  simp [refVersion, queue_modVersion, queue_settleTable]

theorem queue_storeMa (s : State) (ma : Nat) (l : List Byte) :
    (storeMa s ma l).pending = s.pending := by
  simp [storeMa]

theorem queue_copyRegion (s : State) (src : Nat) (dst : Nat) (pages : Nat) :
    (copyRegion s src dst pages).pending = s.pending := by
  simp [copyRegion, queue_storeMa]

theorem queue_copyRegions (s : State) (src : List (Nat × Nat × Nat)) (dst : List (Nat × Nat × Nat)) :
    (copyRegions s src dst).pending = s.pending := by
  simp [copyRegions, queue_copyRegion, queue_foldl]

theorem queue_finishTableStage (s : State) (k : Ticket) :
    ∀ rr, finishTableStage s k = some rr → (rr).2.2.pending = s.pending := by
  intro r h; unfold finishTableStage at h; grind [queue_refVersion, queue_copyRegions, queue_putTable]

theorem queue_finishTableLoad (s : State) (k : Ticket) :
    (finishTableLoad s k).pending = s.pending := by
  simp [finishTableLoad, queue_modVersion, queue_settleTable]

theorem queue_finishExport (s : State) (k : Ticket) :
    ∀ rr, finishExport s k = some rr → (rr).2.2.pending = s.pending := by
  intro r h; unfold finishExport at h; grind []

theorem queue_finishCbUnload (s : State) (k : Ticket) :
    ∀ rr, finishCbUnload s k = some rr → (rr).2.2.pending = s.pending := by
  intro r h; unfold finishCbUnload at h; grind [queue_settleBook]

theorem queue_takeSub (s : State) (src : Nat) (ws : Nat) (txn : Nat) (vc : Nat) (l : List Byte) :
    (takeSub s src ws txn vc l).pending = s.pending := by
  simp [takeSub]

theorem queue_writeAcked (s : State) (src : Nat) (txn : Nat) :
    (writeAcked s src txn).pending = s.pending := by
  simp [writeAcked]

theorem queue_answerRegRead (s : State) (p : Packet) :
    (answerRegRead s p).pending = s.pending := by
  grind [answerRegRead, queue_sendTxn]

theorem queue_deliver (s : State) (p : Packet) :
    (deliver s p).pending = s.pending := by
  unfold deliver; (repeat' split) <;> simp [queue_takeSub, queue_writeAcked, queue_answerRegRead]

theorem queue_sendWhole (s : State) (dst : Nat) (vc : Nat) (ws : Nat) (msg : Nat) (txn : Nat) (body : List Byte) :
    (sendWhole s dst vc ws msg txn body).pending = s.pending := by
  unfold sendWhole; (repeat' split) <;> simp [queue_deliver, queue_sendTxn]

theorem queue_sendCtrl (s : State) (dev : Nat) (t : Table) (op : Nat) (v : Nat) (u : Nat) (rest : List Byte) :
    (sendCtrl s dev t op v u rest).pending = s.pending := by
  simp [sendCtrl, queue_sendWhole]

theorem queue_settleDrains (s : State) (h : Nat) :
    (settleDrains s h).pending = s.pending := by
  unfold settleDrains; (repeat' split) <;> simp [queue_putTable, queue_sendCtrl, queue_foldl]

theorem queue_sendSess (s : State) (dev : Nat) (txn : Nat) (x : Session) (op : Nat) (rest : List Byte) :
    (sendSess s dev txn x op rest).pending = s.pending := by
  simp [sendSess, queue_sendWhole]

theorem queue_tellSession (s : State) (x : Session) (op : Nat) (rest : List Byte) :
    (tellSession s x op rest).pending = s.pending := by
  simp [tellSession, queue_sendSess, queue_foldl]

theorem queue_activateSession (s : State) (k : Ticket) (from_ : Nat) :
    ∀ rr, activateSession s k from_ = some rr → (rr).2.2.pending = s.pending := by
  intro r h; unfold activateSession at h; grind [queue_putSession, Option.map_eq_some_iff, Option.bind_eq_some_iff]

theorem queue_finishResume (s : State) (k : Ticket) (ok : Bool) :
    ∀ rr, finishResume s k ok = some rr → (rr).2.2.pending = s.pending := by
  intro r h; unfold finishResume at h; grind [queue_tellSession, queue_releaseSession, queue_activateSession, Option.map_eq_some_iff,
    Option.bind_eq_some_iff]

theorem queue_finishTableExport (s : State) (k : Ticket) (o : DoneInput) :
    ∀ rr, finishTableExport s k o = some rr → (rr).2.2.pending = s.pending := by
  intro r h; unfold finishTableExport at h; grind [queue_refVersion]

theorem queue_finishDiscard (s : State) (k : Ticket) :
    ∀ rr, finishDiscard s k = some rr → (rr).2.2.pending = s.pending := by
  intro r h; unfold finishDiscard at h; grind [queue_settleTable]

theorem queue_finishRetrain (s : State) (k : Ticket) (t : TicketRef) :
    ∀ rr, finishRetrain s k t = some rr → (rr).2.2.pending = s.pending := by
  intro r h; unfold finishRetrain at h; grind []

theorem queue_drawFree (s : State) (w : Nat) :
    (drawFree s w).2.pending = s.pending := by
  simp [drawFree]

theorem queue_finishClear (s : State) (w : Work) :
    ∀ rr, finishClear s w = some rr → (rr).2.2.pending = s.pending := by
  intro r h; unfold finishClear at h; grind [queue_drawFree]

theorem queue_queueOp (s : State) (g : Nat) (b : Nat) (cls : Nat) (unit : Nat) (data : List Byte) :
    (queueOp s g b cls unit data).pending = s.pending := by
  unfold queueOp; (repeat' split) <;> simp

theorem queue_openNext (s : State) (g : Nat) (reserveOk : Bool) :
    ∀ rr, openNext s g reserveOk = some rr → (rr).pending = s.pending := by
  intro r h; unfold openNext at h; grind [queue_putGroup, queue_queueOp]

theorem queue_withRoom (s : State) (g : Nat) (reserveOk : Bool) :
    ∀ rr, withRoom s g reserveOk = some rr → (rr).pending = s.pending := by
  intro r h; unfold withRoom at h; grind [queue_openNext]

theorem queue_placeUnit (s : State) (g : Nat) (u : Nat) (data : List Byte) (gen : Nat) (cls : Nat) (reserveOk : Bool) :
    ∀ rr, placeUnit s g u data gen cls reserveOk = some rr → (rr).pending = s.pending := by
  intro r h; unfold placeUnit at h; grind [queue_putGroup, queue_queueOp, queue_withRoom]

theorem queue_emptyBlock (s : State) (g : Nat) (b : Nat) :
    (emptyBlock s g b).pending = s.pending := by
  unfold emptyBlock
  refine queue_foldl _ ?_ _ _
  intro a b; split
  · rename_i m _
    cases hh : placeUnit a g b m.data m.gen 4 true with
    | none => rfl
    | some t => exact queue_placeUnit _ _ _ _ _ _ _ _ hh
  · rfl

theorem queue_reclaimRound (s : State) (g : Nat) :
    (reclaimRound s g).pending = s.pending := by
  unfold reclaimRound; (repeat' split) <;> simp [queue_emptyBlock]

theorem queue_reclaimFor (s : State) (g : Nat) (x2 : Nat) :
    (reclaimFor s g x2).pending = s.pending := by
  fun_induction reclaimFor <;> simp_all [queue_reclaimRound]

theorem queue_writeUnit (s : State) (g : Nat) (u : Nat) (data : List Byte) (gen : Nat) (reserveOk : Bool) :
    (writeUnit s g u data gen reserveOk).2.pending = s.pending := by
  grind [writeUnit, queue_putGroup, queue_emit, queue_placeUnit, queue_withRoom, queue_reclaimFor]

theorem queue_rewriteUnits (ws : Nat) (old : Key) (new : Key) (x3 : List (Nat × Nat × MapUnit)) (x4 : State) :
    (rewriteUnits ws old new x3 x4).2.pending = x4.pending := by
  fun_induction rewriteUnits <;> grind [queue_writeUnit]

theorem queue_putKeys (s : State) (ws : Nat) (k : KeySet) :
    (putKeys s ws k).pending = s.pending := by
  simp [putKeys]

theorem queue_finishKeyRetire (s : State) (k : Ticket) :
    ∀ rr, finishKeyRetire s k = some rr → (rr).2.2.pending = s.pending := by
  intro r h; unfold finishKeyRetire at h; grind [queue_rewriteUnits, queue_putKeys]

theorem queue_dropSpills (s : State) :
    (dropSpills s).pending = s.pending := by
  simp [dropSpills]

theorem queue_freeCopy (s : State) (c : Copy) :
    (freeCopy s c).pending = s.pending := by
  simp [freeCopy, queue_freePages, queue_foldl]

theorem queue_putProgram (s : State) (h : Nat) (p : Program) :
    (putProgram s h p).pending = s.pending := by
  simp [putProgram]

theorem queue_refProgram (s : State) (h : Nat) (up : Bool) :
    (refProgram s h up).pending = s.pending := by
  unfold refProgram; (repeat' split) <;> simp [queue_putProgram, queue_settleProgram]

theorem queue_removeIndex (s : State) (idx : Nat) :
    (removeIndex s idx).pending = s.pending := by
  unfold removeIndex; (repeat' split) <;> simp [queue_dropSpills, queue_freeCopy, queue_deleteStreams, queue_freePages,
    queue_refProgram, queue_foldl]

theorem queue_settleIndex (s : State) (idx : Nat) :
    (settleIndex s idx).pending = s.pending := by
  unfold settleIndex; (repeat' split) <;> simp [queue_removeIndex, queue_finishAll]

theorem queue_finishDrop (s : State) (k : Ticket) :
    ∀ rr, finishDrop s k = some rr → (rr).2.2.pending = s.pending := by
  intro r h; unfold finishDrop at h; grind [queue_settleIndex]

theorem queue_ticketOutcome (s : State) (t : TicketRef) (k : Ticket) (o : DoneInput) :
    ∀ rr, ticketOutcome s t k o = some rr → (rr).2.2.pending = s.pending := by
  intro r h; unfold ticketOutcome at h; split at h
  · cases h; dsimp only; split
    · exact queue_finishTableLoad _ _
    · rfl
  · extract_lets a at h
    generalize k.work.op = c at h
    split at h <;> first
      | exact queue_finishKeyRetire _ _ _ h
      | exact queue_finishDrop _ _ _ h
      | exact queue_finishTrain _ _ _ h
      | exact queue_finishImport _ _ _ h
      | exact queue_finishExport _ _ _ h
      | exact queue_finishUnload _ _ _ h
      | exact queue_finishTableDrop _ _ _ h
      | exact queue_finishDiscard _ _ _ h
      | exact queue_finishTableExport _ _ _ _ h
      | exact queue_activateSession _ _ _ _ h
      | exact queue_finishResume _ _ _ _ h
      | exact queue_finishCbUnload _ _ _ h
      | exact queue_finishRetrain _ _ _ _ h
      | exact queue_finishStage _ _ _ _ h
      | exact queue_finishClear _ _ _ h
      | (rw [Option.map_eq_some_iff] at h; obtain ⟨b, hb, h⟩ := h; cases h
         exact (queue_settleDrains _ _).trans (queue_finishTableStage _ _ _ hb))
      | exact absurd h (by simp)

theorem queue_ticketDone (t : TicketRef) (o : DoneInput) (s : State) :
    (ticketDone t o s).pending = s.pending := by
  unfold ticketDone; (repeat' split) <;> grind [queue_settleWork, queue_finishTicket, → queue_ticketOutcome]

theorem queue_fwConfirm (s : State) :
    (fwConfirm s).pending = s.pending := by
  unfold fwConfirm; (repeat' split) <;> simp [queue_emitDev, queue_finishTicket]

theorem queue_execInputLow (s : State) :
    ∀ rr, execInputLow s = .next rr → (rr).pending = s.pending := by
  intro r h; unfold execInputLow at h; grind [queue_when, queue_emit]

theorem queue_markFailed (s : State) (kind : Nat) (slot : Bool) :
    (markFailed s kind slot).pending = s.pending := by
  simp [markFailed, queue_setBootRec]

theorem queue_considered (s : State) (kind : Nat) :
    (considered s kind).2.pending = s.pending := by
  grind [considered, queue_markFailed]

theorem queue_withTable (c : Ctx) (s : State) (h : Nat) (f : Table → Answer × State) (h_f : ∀ y0, (f y0).2.pending = s.pending) :
    (withTable c s h f).2.pending = s.pending := by
  unfold withTable; (repeat' split) <;> simp [queue_refuse, h_f]

theorem queue_withVersion (c : Ctx) (s : State) (f : Nat → Table → Version → Answer × State) (h_f : ∀ y0 y1 y2,
  (f y0 y1 y2).2.pending = s.pending) :
    (withVersion c s f).2.pending = s.pending := by
  grind [withVersion, queue_withTable, queue_refuse]

theorem queue_tableDiscard (c : Ctx) (s : State) :
    (tableDiscard c s).2.pending = s.pending := by
  grind [tableDiscard, queue_modVersion, queue_withVersion, queue_refuse]

theorem queue_respond (s : State) (owner : Nat) (op : Nat) (tag : Nat) (status : Nat) (ticket : Nat) (result : List Byte) :
    (respond s owner op tag status ticket result).pending = s.pending := by
  simp [respond, queue_post]

theorem queue_addTicket (s : State) (t : TicketRef) (op : Nat) (tag : Nat) (w : Work) :
    (addTicket s t op tag w).pending = s.pending := by
  simp [addTicket, queue_putFn]

theorem queue_give (c : Ctx) (a : Answer) (s : State) :
    (give c a s).pending = s.pending := by
  unfold give; (repeat' split) <;> simp [queue_respond, queue_addTicket]

theorem queue_takeRequest (s : State) (m : MsgSrc) :
    (takeRequest s m).pending = s.pending := by
  unfold takeRequest; (repeat' split) <;> simp [queue_putFn]

theorem queue_serveNow (c : Cmd) (m : MsgSrc) (body : Ctx → State → Answer × State) (s : State) (h_body : ∀ y0 y1,
  (body y0 y1).2.pending = y1.pending) :
    (serveNow c m body s).pending = s.pending := by
  grind [serveNow, queue_give, queue_respond, queue_takeRequest]

theorem queue_serve (c : Cmd) (m : MsgSrc) (body : Ctx → State → Answer × State) (s : State) (h_body : ∀ y0 y1,
  (body y0 y1).2.pending = y1.pending) :
    ∀ rr, serve c m body s = .next rr → (rr).pending = s.pending := by
  intro r h; unfold serve at h; grind [queue_serveNow, queue_when]

theorem queue_execTableDiscard (m : MsgSrc) (s : State) :
    ∀ rr, execTableDiscard m s = .next rr → (rr).pending = s.pending := by
  intro r h; unfold execTableDiscard at h; grind [queue_tableDiscard, queue_serve]

theorem queue_remapChains (s : State) (lo : Nat) (size : Nat) (to_ : Nat) :
    (remapChains s lo size to_).pending = s.pending := by
  unfold remapChains
  refine queue_foldl _ ?_ _ _
  intro a b; split
  · refine queue_foldl _ ?_ _ _
    intro a b; refine queue_foldl _ ?_ _ _
    intro a b; dsimp only; split
    · exact queue_storeMa _ _ _
    · rfl
  · rfl

theorem queue_stagePool (c : Ctx) (s : State) (h : Nat) (t : Table) :
    (stagePool c s h t).2.pending = s.pending := by
  simp [stagePool, queue_checked, queue_putTable]

theorem queue_writeFwSlot (s : State) (slot : Bool) (p : FwPackage) :
    (writeFwSlot s slot p).pending = s.pending := by
  simp [writeFwSlot, queue_setBootRec]

theorem queue_putLease (s : State) (g : Group) :
    (putLease s g).pending = s.pending := by
  simp [putLease]

theorem queue_putStream (s : State) (g : Nat) (st : Stream) :
    (putStream s g st).pending = s.pending := by
  simp [putStream, queue_putGroup]

theorem queue_copyUnit (g unit h v : Nat) (st : Stream) (m : MapUnit) (s : State) :
    (copyUnit g unit h v st m s).pending = s.pending := by
  unfold copyUnit; dsimp only; (repeat' split) <;> simp [queue_writeUnit, queue_putGroup, queue_putStream]

theorem queue_streamMove (g stream unit : Nat) (s : State) : (streamMove g stream unit s).pending = s.pending := by
  unfold streamMove; dsimp only; (repeat' split) <;> simp [queue_copyUnit, queue_putGroup, queue_settleOffline]

theorem queue_execStreamMove (group : Nat) (stream : Nat) (unit : Nat) (s : State) :
    ∀ rr, execStreamMove group stream unit s = .next rr → (rr).pending = s.pending := by
  intro r h; unfold execStreamMove at h; grind [queue_when, queue_guarded, queue_streamMove]

theorem queue_putUnit (s : State) (u : Nat) (x : MarverUnit) :
    (putUnit s u x).pending = s.pending := by
  simp [putUnit]

theorem queue_meetError (s : State) (e : MemErr) :
    (meetError s e).pending = s.pending := by
  unfold meetError; (repeat' split) <;> simp [queue_score, queue_emit]

theorem queue_meetErrs (s : State) (u : Nat) (errs : List MemErr) :
    (meetErrs s u errs).pending = s.pending := by
  simp [meetErrs, queue_meetError, queue_foldl]

theorem queue_scrubStep (u : Nat) (errs : List MemErr) (a : Activity) (s : State) :
    (scrubStep u errs a s).pending = s.pending := by
  grind [scrubStep, queue_putUnit, queue_dropActivity, queue_meetErrs]

theorem queue_execMarverScrub (unit : Nat) (errs : List MemErr) (s : State) :
    ∀ rr, execMarverScrub unit errs s = .next rr → (rr).pending = s.pending := by
  intro r h; unfold execMarverScrub at h; grind [queue_scrubStep, queue_submit, queue_when, queue_guarded]

theorem queue_keepResult (c : MarverCtx) (s : State) :
    (keepResult c s).pending = s.pending := by
  unfold keepResult; (repeat' split) <;> simp

theorem queue_endStep (u : Nat) (i : Nat) (c : MarverCtx) (s : State) :
    (endStep u i c s).pending = s.pending := by
  unfold endStep; (repeat' split) <;> simp [queue_keepResult, queue_putUnit]

theorem queue_unitStep (op : MarverOp) (step : Nat → MarverCtx → State → MarverCtx × State) (u : Nat) (errs : List MemErr) (s : State)
  (h_step : ∀ y0 y1 y2, (step y0 y1 y2).2.pending = y2.pending) :
    (unitStep op step u errs s).pending = s.pending := by
  unfold unitStep; (repeat' split) <;> simp [queue_endStep, queue_meetErrs, h_step]

theorem queue_marverRow (name : String) (op : MarverOp) (step : Nat → MarverCtx → State → MarverCtx × State) (u : Nat)
  (errs : List MemErr) (s : State) (h_step : ∀ y0 y1 y2, (step y0 y1 y2).2.pending = y2.pending) :
    ∀ rr, marverRow name op step u errs s = .next rr → (rr).pending = s.pending := by
  intro r h; unfold marverRow at h; grind [queue_unitStep, queue_when, queue_guarded]

theorem queue_blockStep (x0 : Nat) (c : MarverCtx) (s : State) :
    (blockStep x0 c s).2.pending = s.pending := by
  simp [blockStep]

theorem queue_execBlockScore (unit : Nat) (errs : List MemErr) (s : State) :
    ∀ rr, execBlockScore unit errs s = .next rr → (rr).pending = s.pending := by
  intro r h; unfold execBlockScore at h; grind [queue_marverRow, queue_blockStep]

theorem queue_railsOff (s : State) (after : Nat) :
    (railsOff s after).pending = s.pending := by
  simp [railsOff]

theorem queue_startFlush (s : State) (after : Nat) :
    (startFlush s after).pending = s.pending := by
  simp [startFlush]

theorem queue_thermalTrip (kind : Nat) (inst : Nat) (s : State) :
    (thermalTrip kind inst s).pending = s.pending := by
  unfold thermalTrip; (repeat' split) <;> simp [queue_emitDev, queue_railsOff, queue_startFlush]

theorem queue_execThermalTrip (kind : Nat) (inst : Nat) (s : State) :
    ∀ rr, execThermalTrip kind inst s = .next rr → (rr).pending = s.pending := by
  intro r h; unfold execThermalTrip at h; grind [queue_when, queue_thermalTrip]

theorem queue_flashSet (c : Ctx) (s : State) :
    (flashSet c s).2.pending = s.pending := by
  simp [flashSet, queue_checked]

theorem queue_putSlot (s : State) (n : Nat) (x : Slot) :
    (putSlot s n x).pending = s.pending := by
  simp [putSlot]

theorem queue_modSlot (s : State) (n : Nat) (f : Slot → Slot) :
    (modSlot s n f).pending = s.pending := by
  unfold modSlot; (repeat' split) <;> simp [queue_putSlot]

theorem queue_refIndex (s : State) (idx : Nat) (up : Bool) :
    (refIndex s idx up).pending = s.pending := by
  unfold refIndex; (repeat' split) <;> simp [queue_settleIndex, queue_putIndex]

theorem queue_completeSlot (s : State) (n : Nat) (e : List Byte) (arith : Nat) (writes : List (Nat × List Byte)) :
    (completeSlot s n e arith writes).pending = s.pending := by
  unfold completeSlot; (repeat' split) <;> simp [queue_putSlot]

theorem queue_failSlot (s : State) (n : Nat) (status : Nat) (reason : Nat) :
    (failSlot s n status reason).pending = s.pending := by
  unfold failSlot; (repeat' split) <;> simp [queue_completeSlot]

theorem queue_sendChange (s : State) (dev : Nat) (m : ChangeMsg) :
    (sendChange s dev m).pending = s.pending := by
  simp [sendChange, queue_sendWhole]

theorem queue_forwardChange (n : Nat) (s : State) :
    (forwardChange n s).pending = s.pending := by
  grind [forwardChange, queue_putSlot, queue_failSlot, queue_sendChange]

theorem queue_startChange (idx : Nat) (vec : List Nat) (n : Nat) (s : State) :
    (startChange idx vec n s).pending = s.pending := by
  simp [startChange, queue_modSlot, queue_refIndex, queue_forwardChange]

theorem queue_drainStep (x0 : Nat) (c : MarverCtx) (s : State) :
    (drainStep x0 c s).2.pending = s.pending := by
  simp [drainStep]

theorem queue_passCore (s : State) (p : Pool) (slot : Nat) :
    (passCore s p slot).pending = s.pending := by
  simp [passCore]

theorem queue_claimEntry (s : State) (fn : Nat) (r : Nat) (e : List Byte) (p : Pool) (slot : Nat) :
    (claimEntry s fn r e p slot).pending = s.pending := by
  simp [claimEntry, queue_putRing, queue_putSlot, queue_passCore]

theorem queue_admitAs (kind : Nat) (fn : Nat) (r : Nat) (h : HostView) (start : Src → Nat → State → State) (s : State)
  (h_start : ∀ y0 y1 y2, (start y0 y1 y2).pending = y2.pending) :
    (admitAs kind fn r h start s).pending = s.pending := by
  unfold admitAs; (repeat' split) <;> simp [queue_claimEntry, h_start]

theorem queue_admitRow (row : String) (kind : Nat) (fn : Nat) (r : Nat) (h : HostView) (start : Src → Nat → State → State) (s : State)
  (h_start : ∀ y0 y1 y2, (start y0 y1 y2).pending = y2.pending) :
    ∀ rr, admitRow row kind fn r h start s = .next rr → (rr).pending = s.pending := by
  intro r h; unfold admitRow at h; (repeat' split at h) <;> grind [queue_admitAs, → queue_guarded, Option.map_eq_some_iff,
    Option.bind_eq_some_iff]

theorem queue_finishGather (n : Nat) (s : State) :
    (finishGather n s).pending = s.pending := by
  unfold finishGather; (repeat' split) <;> simp [queue_completeSlot, queue_failSlot]

theorem queue_sendSub (s : State) (n : Nat) (key : Nat) (kind : Nat) (shard : Nat) (round : Nat) (bind0 : Nat) (bind1 : Nat)
  (gid : Nat) (body : List Byte) (dev : Nat) (mirror : Bool) (retried : Bool) :
    (sendSub s n key kind shard round bind0 bind1 gid body dev mirror retried).pending = s.pending := by
  unfold sendSub; (repeat' split) <;> simp [queue_sendWhole, queue_putSlot]

theorem queue_askGather (n : Nat) (t : Table) (shard : Nat) (tried : List Nat) (s : State) :
    (askGather n t shard tried s).pending = s.pending := by
  unfold askGather; (repeat' split) <;> simp [queue_failSlot, queue_sendSub]

theorem queue_sendReq (s : State) (dev : Nat) (op : Nat) (ws : Nat) (ident : Nat) (epoch : Nat) (pool : Nat) (rest : List Byte) :
    (sendReq s dev op ws ident epoch pool rest).pending = s.pending := by
  simp [sendReq, queue_sendWhole]

theorem queue_holdPhase (s : State) (n : Nat) :
    (holdPhase s n).pending = s.pending := by
  unfold holdPhase; (repeat' split) <;> simp [queue_sendReq, queue_putSlot]

theorem queue_sendPoolRead (s : State) (ws : Nat) (vc : Nat) (dev : Nat) (addr : Nat) (bytes : Nat) (txn : Nat) :
    ∀ rr, sendPoolRead s ws vc dev addr bytes txn = some rr → (rr).pending = s.pending := by
  intro r h; unfold sendPoolRead at h; grind [queue_sendPacket]

theorem queue_dropPoolReads (s : State) (n : Nat) :
    (dropPoolReads s n).pending = s.pending := by
  simp [dropPoolReads]

theorem queue_failPool (s : State) (n : Nat) (st : Nat) :
    (failPool s n st).pending = s.pending := by
  simp [failPool, queue_failSlot, queue_dropPoolReads]

theorem queue_readPoolRow (s : State) (n : Nat) (row : Nat) (second : Bool) :
    (readPoolRow s n row second).pending = s.pending := by
  unfold readPoolRow; (repeat' split) <;> grind [→ queue_sendPoolRead, queue_failPool]

theorem queue_pumpGather (rows : List Nat) (n : Nat) (x2 : Nat) (x3 : State) :
    (pumpGather rows n x2 x3).pending = x3.pending := by
  fun_induction pumpGather <;> simp_all [queue_readPoolRow, queue_putSlot]

theorem queue_launchGather (n : Nat) (s : State) :
    (launchGather n s).pending = s.pending := by
  simp only [launchGather]; (repeat' split) <;> first
    | grind [queue_finishGather, queue_askGather, queue_holdPhase, queue_putSlot, queue_failSlot, queue_pumpGather]
    | simp [queue_askGather, queue_foldl]

theorem queue_startGather (b : Src) (n : Nat) (s : State) :
    (startGather b n s).pending = s.pending := by
  grind [startGather, queue_refVersion, queue_putSlot, queue_failSlot, queue_launchGather]

theorem queue_execGatherEntry (fn : Nat) (ring : Nat) (h : HostView) (s : State) :
    ∀ rr, execGatherEntry fn ring h s = .next rr → (rr).pending = s.pending := by
  intro r h; unfold execGatherEntry at h; (repeat' split at h) <;> grind [→ queue_admitRow, queue_startGather, Option.map_eq_some_iff,
    Option.bind_eq_some_iff]

theorem queue_finishStep (n : Nat) (s : State) :
    (finishStep n s).pending = s.pending := by
  unfold finishStep; (repeat' split) <;> simp [queue_completeSlot, queue_failSlot]

theorem queue_writeTokens (s : State) (x : Session) (y : Block) (at_ : Nat) (ts : List Token) :
    (writeTokens s x y at_ ts).pending = s.pending := by
  simp [writeTokens, queue_storeMa, queue_foldl]

theorem queue_clearPages (s : State) (base : Nat) (pages : Nat) :
    (clearPages s base pages).pending = s.pending := by
  simp [clearPages]

theorem queue_takePages (s : State) (ws : Nat) (kind : Nat) (base : Nat) (pages : Nat) :
    (takePages s ws kind base pages).pending = s.pending := by
  simp [takePages, queue_clearPages]

theorem queue_allocMarver (s : State) (ws : Nat) (unit : Nat) (n : Nat) :
    ∀ rr, allocMarver s ws unit n = some rr → (rr).2.pending = s.pending := by
  intro r h; unfold allocMarver at h; grind [queue_takePages]

theorem queue_cutPage (s : State) (x : Session) (unit : Nat) (size : Nat) :
    ∀ rr, cutPage s x unit size = some rr → (rr).2.2.2.pending = s.pending := by
  intro r h; unfold cutPage at h; grind [queue_allocMarver, Option.map_eq_some_iff, Option.bind_eq_some_iff]

theorem queue_takeCode (s : State) (x : Session) (unit : Nat) :
    ∀ rr, takeCode s x unit = some rr → (rr).2.2.pending = s.pending := by
  intro r h; unfold takeCode at h; split at h
  · cases h; rfl
  · rw [Option.map_eq_some_iff] at h; obtain ⟨a, ha, h⟩ := h; cases h; exact queue_cutPage _ _ _ _ _ ha

theorem queue_takeKv (s : State) (x : Session) (unit : Nat) :
    ∀ rr, takeKv s x unit = some rr → (rr).2.2.pending = s.pending := by
  intro r h; unfold takeKv at h; split at h
  · cases h; rfl
  · rw [Option.map_eq_some_iff] at h; obtain ⟨a, ha, h⟩ := h; cases h; exact queue_cutPage _ _ _ _ _ ha

theorem queue_takeStaging (s : State) (x : Session) (unit : Nat) :
    ∀ rr, takeStaging s x unit = some rr → (rr).2.pending = s.pending := by
  intro r h; unfold takeStaging at h; split at h
  · cases h; rfl
  · split at h
    · cases h
    · rw [Option.map_eq_some_iff] at h; obtain ⟨a, ha, h⟩ := h; cases h; exact queue_allocMarver _ _ _ _ _ ha

theorem queue_openBlock (s : State) (x : Session) (layer : Nat) (head : Nat) (b : Nat) :
    ∀ rr, openBlock s x layer head b = some rr → (rr).2.2.pending = s.pending := by
  intro r h; unfold openBlock at h; (repeat' split at h) <;> grind [→ queue_takeCode, → queue_takeKv, → queue_takeStaging,
    queue_storeMa, Option.map_eq_some_iff, Option.bind_eq_some_iff]

theorem queue_createStream (s : State) (kind : Nat) (ws : Nat) (owner : Nat) (gid : Nat) :
    ∀ rr, createStream s kind ws owner gid = some rr → (rr).2.2.pending = s.pending := by
  intro r h; unfold createStream at h; grind [queue_putGroup]

theorem queue_appendPiece (s : State) (g : Nat) (st : Stream) (data : List Byte) :
    (appendPiece s g st data).2.2.pending = s.pending := by
  grind [appendPiece, queue_writeUnit, queue_putStream]

theorem queue_streamWrite_go (g : Nat) (id : Nat) (x2 : Nat) (x3 : Nat) (x4 : State) (x5 : List Byte) :
    (streamWrite.go g id x2 x3 x4 x5).2.2.pending = x4.pending := by
  fun_induction streamWrite.go <;> grind [queue_appendPiece]

theorem queue_streamWrite (s : State) (kind : Nat) (ws : Nat) (owner : Nat) (gid : Nat) (data : List Byte) :
    (streamWrite s kind ws owner gid data).2.2.pending = s.pending := by
  unfold streamWrite; (repeat' split) <;> grind [→ queue_createStream, queue_streamWrite_go]

theorem queue_journalEnt (s : State) (x : Session) (e : JournalEnt) :
    (journalEnt s x e).2.pending = s.pending := by
  grind [journalEnt, queue_putSession, queue_streamWrite]

theorem queue_holdAppend (s : State) (ws : Nat) (key : Nat) (layer : Nat) (head : Nat) (block : Nat) (at_ : Nat) (ts : List Token) :
    (holdAppend s ws key layer head block at_ ts).2.2.pending = s.pending := by
  unfold holdAppend; (repeat' split) <;> grind [queue_putSession, queue_writeTokens, → queue_openBlock, queue_journalEnt]

theorem queue_awaitAck (s : State) (n : Nat) (j : Nat) (role : Nat) (dev : Nat) (txn : Nat) :
    (awaitAck s n j role dev txn).pending = s.pending := by
  simp [awaitAck, queue_modSlot]

theorem queue_appendPart (n : Nat) (j : Nat) (s : State) :
    (appendPart n j s).2.pending = s.pending := by
  simp only [appendPart]; (repeat' split) <;> first
    | grind [queue_holdAppend, queue_awaitAck, queue_putSession, queue_sendSess]
    | simp [queue_holdAppend, queue_awaitAck, queue_putSession, queue_sendSess, queue_foldl]

theorem queue_appendAll (n : Nat) (x1 : List Nat) (x2 : State) :
    (appendAll n x1 x2).2.pending = x2.pending := by
  fun_induction appendAll <;> grind [queue_appendPart]

theorem queue_appendOrFinish (n : Nat) (s : State) :
    (appendOrFinish n s).pending = s.pending := by
  grind [appendOrFinish, queue_finishStep, queue_failSlot, queue_modSlot, queue_appendAll]

theorem queue_putReqCopy (s : State) (c : ReqCopy) :
    (putReqCopy s c).pending = s.pending := by
  simp [putReqCopy]

theorem queue_takeMsg (s : State) (p : Packet) :
    (takeMsg s p).pending = s.pending := by
  simp [takeMsg]

theorem queue_takeWrite (c : ReqCopy) (p : Packet) (s : State) :
    (takeWrite c p s).pending = s.pending := by
  grind [takeWrite, queue_putReqCopy, queue_sendReq, queue_takeMsg]

theorem queue_endAnneal (s : State) (x : Session) (st : Nat) (r : List Byte) :
    (endAnneal s x st r).pending = s.pending := by
  unfold endAnneal; (repeat' split) <;> simp [queue_finishTicket]

theorem queue_annealRelease (ws : Nat) (key : Nat) (s : State) :
    (annealRelease ws key s).pending = s.pending := by
  unfold annealRelease; (repeat' split) <;> simp [queue_endAnneal, queue_tellSession, queue_releaseSession]

theorem queue_ctrlAll (s : State) (t : Table) (op : Nat) (v : Nat) (u : Nat) :
    (ctrlAll s t op v u).pending = s.pending := by
  simp [ctrlAll, queue_sendCtrl, queue_foldl]

theorem queue_endRun (s : State) (n : Nat) (h : Nat) (v : Nat) (u : Nat) :
    (endRun s n h v u).pending = s.pending := by
  unfold endRun; (repeat' split) <;> simp [queue_ctrlAll, queue_putTable]

theorem queue_failUpdate (s : State) (n : Nat) (st : Nat) (r : Nat) :
    (failUpdate s n st r).pending = s.pending := by
  unfold failUpdate; (repeat' split) <;> simp [queue_endRun, queue_failSlot]

theorem queue_concludeUpdate (n : Nat) (s : State) :
    (concludeUpdate n s).pending = s.pending := by
  grind [concludeUpdate, queue_modVersion, queue_completeSlot, queue_endRun, queue_failUpdate]

theorem queue_closeSub (s : State) (n : Nat) (o : SubOut) :
    (closeSub s n o).pending = s.pending := by
  simp [closeSub, queue_modSlot]

theorem queue_noteCopy (n : Nat) (o : SubOut) (st : Nat) (s : State) :
    (noteCopy n o st s).pending = s.pending := by
  grind [noteCopy, queue_concludeUpdate, queue_modSlot, queue_closeSub]

theorem queue_finishCaneRetire (s : State) (r : Retire) :
    (finishCaneRetire s r).pending = s.pending := by
  unfold finishCaneRetire; (repeat' split) <;> simp [queue_setBootRec, queue_finishTicket, queue_emit, queue_dropActivity,
    queue_setPort, queue_foldl]

theorem queue_finishStackRetire (s : State) (r : Retire) :
    (finishStackRetire s r).pending = s.pending := by
  unfold finishStackRetire; (repeat' split) <;> simp [queue_setBootRec, queue_finishTicket, queue_emit, queue_dropActivity]

theorem queue_endActivity (s : State) (a : Activity) :
    ∀ rr, endActivity s a = some rr → (rr).pending = s.pending := by
  intro r h; unfold endActivity at h; grind [queue_finishCaneRetire, queue_finishTicket, queue_finishStackRetire, queue_dropActivity,
    Option.map_eq_some_iff, Option.bind_eq_some_iff]

theorem queue_lehrRoundEnd (ident : Nat) (finished : Bool) (s : State) :
    (lehrRoundEnd ident finished s).pending = s.pending := by
  grind [lehrRoundEnd, queue_endActivity, queue_dropActivity]

theorem queue_journalRows (s : State) (h : Nat) (mirror : Bool) (v : Nat) (u : Nat) (rs : List (List Byte)) :
    (journalRows s h mirror v u rs).2.pending = s.pending := by
  grind [journalRows, queue_putTable, queue_streamWrite]

theorem queue_writeRows (s : State) (t : Table) (x : Version) (mirror : Bool) (rs : List (List Byte)) :
    (writeRows s t x mirror rs).pending = s.pending := by
  simp [writeRows, queue_storeMa, queue_foldl]

theorem queue_loadRemote (s : State) (ws : Nat) (l : List Byte) :
    (loadRemote s ws l).pending = s.pending := by
  grind [loadRemote, queue_journalRows, queue_writeRows]

theorem queue_takeLoads (s : State) :
    (takeLoads s).pending = s.pending := by
  simp [takeLoads, queue_loadRemote, queue_foldl]

theorem queue_takeCount (p : Packet) (s : State) :
    (takeCount p s).pending = s.pending := by
  unfold takeCount; (repeat' split) <;> simp [queue_putSession]

theorem queue_takeRelease (p : Packet) (s : State) :
    (takeRelease p s).pending = s.pending := by
  unfold takeRelease; (repeat' split) <;> simp [queue_releaseSession, queue_eraseSession]

theorem queue_allocWindow (s : State) (ws : Nat) (kind : Nat) (n : Nat) :
    ∀ rr, allocWindow s ws kind n = some rr → (rr).2.pending = s.pending := by
  intro r h; unfold allocWindow at h; grind [queue_takePages]

theorem queue_takeCreate (p : Packet) (s : State) :
    (takeCreate p s).pending = s.pending := by
  unfold takeCreate; (repeat' split) <;> grind [→ queue_allocWindow, queue_putSession, queue_refBook]

theorem queue_ackAppend (s : State) (dev : Nat) (ws : Nat) (txn : Nat) (st : Nat) :
    (ackAppend s dev ws txn st).pending = s.pending := by
  simp [ackAppend, queue_sendWhole]

theorem queue_takeAppend (p : Packet) (s : State) :
    (takeAppend p s).pending = s.pending := by
  grind [takeAppend, queue_holdAppend, queue_ackAppend, queue_sendSess]

theorem queue_takeSessions (s : State) :
    (takeSessions s).pending = s.pending := by
  unfold takeSessions; refine queue_foldl _ ?_ _ _; intro a b; (repeat' split) <;> first
    | grind [queue_takeCount, queue_takeRelease, queue_takeCreate, queue_takeAppend]
    | simp [queue_takeCount, queue_takeRelease, queue_takeCreate, queue_takeAppend, queue_foldl]
    | simp_all [queue_takeCount, queue_takeRelease, queue_takeCreate, queue_takeAppend, queue_foldl]

theorem queue_writeTo (s : State) (pool : Nat) (c : ReqCopy) :
    (writeTo s pool c).pending = s.pending := by
  unfold writeTo; (repeat' split) <;> simp [queue_sendReq]

theorem queue_recordCancel (s : State) (c : ReqCopy) :
    (recordCancel s c).pending = s.pending := by
  simp [recordCancel, queue_writeTo, queue_putReqCopy]

theorem queue_missShard (s : State) (n : Nat) (shard : Nat) :
    (missShard s n shard).pending = s.pending := by
  simp [missShard, queue_modSlot]

theorem queue_askShard (s : State) (n : Nat) (x : Index) (kind : Nat) (shard : Nat) (round : Nat) (b0 : Nat) (b1 : Nat)
  (body : List Byte) (tried : List Nat) :
    (askShard s n x kind shard round b0 b1 body tried).pending = s.pending := by
  unfold askShard; (repeat' split) <;> simp [queue_missShard, queue_sendSub]

theorem queue_askScan (s : State) (n : Nat) (ix : Index) (shard : Nat) (tried : List Nat) :
    (askScan s n ix shard tried).pending = s.pending := by
  unfold askScan; (repeat' split) <;> simp [queue_askShard]

theorem queue_askRefine (s : State) (n : Nat) (ix : Index) (shard : Nat) (tried : List Nat) :
    (askRefine s n ix shard tried).pending = s.pending := by
  grind [askRefine, queue_askShard]

theorem queue_finishQuery (s : State) (n : Nat) (ix : Index) :
    (finishQuery s n ix).pending = s.pending := by
  unfold finishQuery; (repeat' split) <;> simp [queue_completeSlot]

theorem queue_refineOrFinish (s : State) (n : Nat) (ix : Index) :
    (refineOrFinish s n ix).pending = s.pending := by
  simp only [refineOrFinish]; (repeat' split) <;> first
    | grind [queue_askRefine, queue_finishQuery, queue_putSlot]
    | simp [queue_askRefine, queue_finishQuery, queue_putSlot, queue_foldl]

theorem queue_queryAdvance (ix : Index) (n : Nat) (x2 : Nat) (x3 : State) :
    (queryAdvance ix n x2 x3).pending = x3.pending := by
  induction x2 generalizing x3 with
  | zero => rfl
  | succ k ih =>
    unfold queryAdvance; split
    · split
      · rfl
      · split
        · exact queue_finishQuery _ _ _
        · split
          · rw [ih, queue_foldl _ (fun _ _ => queue_askScan _ _ _ _ _)]
            exact queue_putSlot _ _ _
          · exact queue_refineOrFinish _ _ _
    · rfl

theorem queue_launchQuery (n : Nat) (s : State) :
    (launchQuery n s).pending = s.pending := by
  simp only [launchQuery]; (repeat' split) <;> first
    | grind [queue_askScan, queue_holdPhase, queue_putSlot, queue_failSlot, queue_queryAdvance]
    | simp [queue_askScan, queue_putSlot, queue_queryAdvance, queue_foldl]

theorem queue_beginUpdate (n : Nat) (s : State) :
    (beginUpdate n s).pending = s.pending := by
  unfold beginUpdate; (repeat' split) <;> simp [queue_putSlot, queue_ctrlAll, queue_putTable]

theorem queue_releaseUpdate (n : Nat) (s : State) :
    (releaseUpdate n s).pending = s.pending := by
  unfold releaseUpdate; (repeat' split) <;> simp [queue_holdPhase, queue_putSlot, queue_failSlot, queue_beginUpdate]

theorem queue_askPosition (s : State) (n : Nat) (kind : Nat) (p : Nat) (retried : Bool) :
    (askPosition s n kind p retried).pending = s.pending := by
  unfold askPosition; (repeat' split) <;> simp [queue_sendSub]

theorem queue_selectStage (n : Nat) (s : State) :
    (selectStage n s).pending = s.pending := by
  unfold selectStage; split
  · rfl
  · split
    · exact queue_failSlot _ _ _ _
    · rename_i x _ _ q _
      extract_lets H sel ties scored t u
      have hu : u.pending = s.pending :=
        (queue_foldl _ (fun _ _ => queue_askPosition _ _ _ _ _) _ _).trans (queue_putSlot _ _ _)
      split
      · split
        · exact (queue_appendOrFinish _ _).trans hu
        · exact hu
      · exact hu

theorem queue_beginStep (n : Nat) (T : Nat) (commits : Bool) (s : State) :
    (beginStep n T commits s).pending = s.pending := by
  unfold beginStep; (repeat' split) <;> simp [queue_askPosition, queue_holdPhase, queue_putSlot, queue_failSlot, queue_selectStage,
    queue_foldl]

theorem queue_launchStep (n : Nat) (s : State) :
    (launchStep n s).pending = s.pending := by
  grind [launchStep, queue_beginStep, queue_failSlot]

theorem queue_goPhase (n : Nat) (s : State) :
    (goPhase n s).pending = s.pending := by
  grind [goPhase, queue_putSlot, queue_launchQuery, queue_releaseUpdate, queue_launchGather, queue_launchStep]

theorem queue_takeGo (p : Packet) (s : State) :
    (takeGo p s).pending = s.pending := by
  grind [takeGo, queue_putReqCopy, queue_goPhase]

theorem queue_takeBeat (p : Packet) (s : State) :
    (takeBeat p s).pending = s.pending := by
  unfold takeBeat; (repeat' split) <;> simp [queue_putReqCopy]

theorem queue_modStub (s : State) (ws : Nat) (ident : Nat) (f : ReqStub → ReqStub) :
    (modStub s ws ident f).pending = s.pending := by
  simp [modStub]

theorem queue_noteAccepted (p : Packet) (s : State) :
    (noteAccepted p s).pending = s.pending := by
  grind [noteAccepted, queue_sendReq, queue_modStub]

theorem queue_yieldCopy (s : State) (c : ReqCopy) (epoch : Nat) (pool : Nat) :
    (yieldCopy s c epoch pool).pending = s.pending := by
  simp [yieldCopy, queue_putReqCopy, queue_finishAll]

theorem queue_takeRefused (p : Packet) (s : State) :
    (takeRefused p s).pending = s.pending := by
  grind [takeRefused, queue_yieldCopy, queue_failSlot]

theorem queue_sendHandoff (s : State) (c : ReqCopy) :
    (sendHandoff s c).pending = s.pending := by
  grind [sendHandoff, queue_putReqCopy, queue_sendReq]

theorem queue_beginHandoff (s : State) (c : ReqCopy) (pool : Nat) (tickets : List TicketRef) :
    (beginHandoff s c pool tickets).pending = s.pending := by
  grind [beginHandoff, queue_sendHandoff, queue_putReqCopy]

theorem queue_takeReport (p : Packet) (s : State) :
    (takeReport p s).pending = s.pending := by
  simp [takeReport, queue_modStub]

theorem queue_addClaim (s : State) (ws : Nat) (ident : Nat) (entry : Nat) :
    (addClaim s ws ident entry).pending = s.pending := by
  simp [addClaim]

theorem queue_takeReqMsg (p : Packet) (s : State) :
    (takeReqMsg p s).pending = s.pending := by
  grind [takeReqMsg, queue_recordCancel, queue_takeGo, queue_takeBeat, queue_noteAccepted, queue_takeRefused, queue_beginHandoff,
    queue_takeReport, queue_addClaim]

theorem queue_takeRequests (s : State) :
    (takeRequests s).pending = s.pending := by
  simp [takeRequests, queue_takeReqMsg, queue_foldl]

theorem queue_putRxFlow (s : State) (f : RxFlow) :
    (putRxFlow s f).pending = s.pending := by
  simp [putRxFlow]

theorem queue_joinMessage (s : State) (f : RxFlow) (p : Packet) (gap : Bool) :
    (joinMessage s f p gap).pending = s.pending := by
  grind [joinMessage, queue_putRxFlow, queue_deliver]

theorem queue_sendE2e (s : State) (src : Nat) (vc : Nat) (upTo : Nat) :
    (sendE2e s src vc upTo).pending = s.pending := by
  simp [sendE2e, queue_sendMsg]

theorem queue_receiveHere (s : State) (port : Nat) (p : Packet) :
    (receiveHere s port p).pending = s.pending := by
  grind [receiveHere, queue_putPort, queue_putRxFlow, queue_joinMessage, queue_deliver, queue_sendE2e]

theorem queue_freeCells (s : State) (port : Nat) (p : Packet) :
    (freeCells s port p).pending = s.pending := by
  simp [freeCells, queue_putPort]

theorem queue_relay (s : State) (p : Packet) :
    (relay s p).pending = s.pending := by
  unfold relay; (repeat' split) <;> simp [queue_enqueue, queue_unreachable]

theorem queue_receive (s : State) :
    (receive s).pending = s.pending := by
  unfold receive; (repeat' split) <;> simp [queue_receiveHere, queue_freeCells, queue_relay]

theorem queue_execPacketReceive (s : State) :
    ∀ rr, execPacketReceive s = .next rr → (rr).pending = s.pending := by
  intro r h; unfold execPacketReceive at h; grind [queue_takeLoads, queue_when, queue_takeSessions, queue_takeRequests, queue_receive]

theorem queue_checkpointed (s : State) (c : ReqCopy) :
    (checkpointed s c).pending = s.pending := by
  unfold checkpointed; (repeat' split) <;> simp [queue_sendHandoff, queue_writeTo, queue_putReqCopy, queue_sendReq, queue_finishAll
    ]

theorem queue_phaseDone (done : List Byte) (ws : List (Nat × List Byte)) (accepted : Bool) (c : ReqCopy) (s : State) :
    (phaseDone done ws accepted c s).pending = s.pending := by
  grind [phaseDone, queue_putReqCopy, queue_yieldCopy, queue_checkpointed]

theorem queue_takePhaseDone (p : Packet) (accepted : Bool) (s : State) :
    (takePhaseDone p accepted s).pending = s.pending := by
  grind [takePhaseDone, queue_takeMsg, queue_phaseDone]

theorem queue_execCheckpoint (ws : Nat) (ident : Nat) (accepted : Bool) (c : Option ReqCopy) (s : State) :
    ∀ rr, execCheckpoint ws ident accepted c s = .next rr → (rr).pending = s.pending := by
  intro r h; unfold execCheckpoint at h; grind [queue_when, queue_takeWrite, queue_takePhaseDone]

theorem queue_finishChange (s : State) (n : Nat) (st : Nat) (epoch : Nat) (ordinal : Nat) (marked : Nat) :
    (finishChange s n st epoch ordinal marked).pending = s.pending := by
  unfold finishChange; (repeat' split) <;> simp [queue_completeSlot]

theorem queue_answerChange (s : State) (src : Nat) (ws : Nat) (homeSlot : Nat) (txn : Nat) (st : Nat) (epoch : Nat) (ordinal : Nat)
  (marked : Nat) :
    (answerChange s src ws homeSlot txn st epoch ordinal marked).pending = s.pending := by
  unfold answerChange; (repeat' split) <;> simp [queue_sendWhole, queue_finishChange]

theorem queue_dropLate (s : State) :
    (dropLate s).pending = s.pending := by
  grind [dropLate, queue_takeMsg]

theorem queue_takeReply (s : State) (o : SubOut) :
    (takeReply s o).pending = s.pending := by
  unfold takeReply; (repeat' split) <;> simp [queue_takeMsg]

theorem queue_dropAcks (s : State) (n : Nat) (j : Nat) :
    (dropAcks s n j).pending = s.pending := by
  simp [dropAcks, queue_modSlot]

theorem queue_attnAbandon (n : Nat) (o : SubOut) (s : State) :
    (attnAbandon n o s).pending = s.pending := by
  grind [attnAbandon, queue_askPosition, queue_failSlot, queue_dropAcks, queue_appendPart, queue_closeSub]

theorem queue_keepAttn (n : Nat) (o : SubOut) (r : Reply) (next : Nat → State → State) (s : State) (h_next : ∀ y0 y1,
  (next y0 y1).pending = y1.pending) :
    (keepAttn n o r next s).pending = s.pending := by
  grind [keepAttn, queue_modSlot, queue_closeSub]

theorem queue_loseStep (s : State) (n : Nat) (block : Nat) :
    (loseStep s n block).pending = s.pending := by
  unfold loseStep; (repeat' split) <;> simp [queue_completeSlot]

theorem queue_attnReply (n : Nat) (o : SubOut) (r : Reply) (s : State) :
    (attnReply n o r s).pending = s.pending := by
  simp only [attnReply]; (repeat' split) <;> first
    | grind [queue_finishStep, queue_appendOrFinish, queue_failSlot, queue_attnAbandon, queue_selectStage, queue_keepAttn,
        queue_loseStep, queue_closeSub]
    | simp [queue_finishStep, queue_appendOrFinish, queue_failSlot, queue_attnAbandon, queue_selectStage, queue_keepAttn,
        queue_loseStep, queue_closeSub, queue_foldl]

theorem queue_changeReply (n : Nat) (o : SubOut) (r : Reply) (s : State) :
    (changeReply n o r s).pending = s.pending := by
  unfold changeReply; (repeat' split) <;> simp [queue_finishChange, queue_closeSub]

theorem queue_sendShard (n : Nat) (t : Table) (s : State) (shard : Nat) :
    (sendShard n t s shard).pending = s.pending := by
  unfold sendShard; refine queue_foldl _ ?_ _ _; intro a b; (repeat' split) <;> first
    | grind [queue_sendSub]
    | simp [queue_sendSub, queue_foldl]
    | simp_all [queue_sendSub, queue_foldl]

theorem queue_sendShards (n : Nat) (s : State) :
    (sendShards n s).pending = s.pending := by
  unfold sendShards; (repeat' split) <;> simp [queue_putSlot, queue_sendShard, queue_failUpdate, queue_foldl]

theorem queue_countsDone (n : Nat) (s : State) :
    (countsDone n s).pending = s.pending := by
  unfold countsDone; (repeat' split) <;> simp [queue_sendShards, queue_putSlot]

theorem queue_askCounts (n : Nat) (t : Table) (shard : Nat) (tried : List Nat) (s : State) :
    (askCounts n t shard tried s).pending = s.pending := by
  unfold askCounts; (repeat' split) <;> simp [queue_failUpdate, queue_sendSub]

theorem queue_updateAbandon (n : Nat) (o : SubOut) (s : State) :
    (updateAbandon n o s).pending = s.pending := by
  grind [updateAbandon, queue_askCounts, queue_noteCopy, queue_failUpdate, queue_closeSub]

theorem queue_updateReply (n : Nat) (o : SubOut) (r : Reply) (s : State) :
    (updateReply n o r s).pending = s.pending := by
  simp only [updateReply]; (repeat' split) <;> first
    | grind [queue_countsDone, queue_noteCopy, queue_concludeUpdate, queue_modSlot, queue_failUpdate, queue_updateAbandon, queue_closeSub]
    | simp [queue_countsDone, queue_noteCopy, queue_concludeUpdate, queue_modSlot, queue_failUpdate, queue_updateAbandon,
        queue_closeSub, queue_foldl]

theorem queue_keepList (s : State) (n : Nat) (kind : Nat) (l : DeviceList) :
    (keepList s n kind l).pending = s.pending := by
  simp [keepList, queue_modSlot]

theorem queue_queryAbandon (n : Nat) (o : SubOut) (s : State) :
    (queryAbandon n o s).pending = s.pending := by
  grind [queryAbandon, queue_askScan, queue_askRefine, queue_missShard, queue_queryAdvance, queue_closeSub]

theorem queue_queryReply (n : Nat) (o : SubOut) (r : Reply) (s : State) :
    (queryReply n o r s).pending = s.pending := by
  simp only [queryReply]; (repeat' split) <;> first
    | grind [queue_keepList, queue_queryAdvance, queue_closeSub, queue_queryAbandon]
    | simp [queue_keepList, queue_queryAdvance, queue_closeSub, queue_queryAbandon, queue_foldl]

theorem queue_hashUnanswered (n : Nat) (s : State) :
    (hashUnanswered n s).pending = s.pending := by
  unfold hashUnanswered; (repeat' split) <;> simp [queue_failSlot]

theorem queue_askHash (n : Nat) (ix : Index) (tried : List Nat) (s : State) :
    (askHash n ix tried s).pending = s.pending := by
  grind [askHash, queue_hashUnanswered, queue_putSlot, queue_sendSub]

theorem queue_hashAbandon (n : Nat) (o : SubOut) (poison : Bool) (s : State) :
    (hashAbandon n o poison s).pending = s.pending := by
  grind [hashAbandon, queue_askHash, queue_hashUnanswered, queue_modSlot, queue_closeSub]

theorem queue_hashReply (n : Nat) (o : SubOut) (r : Reply) (s : State) :
    (hashReply n o r s).pending = s.pending := by
  unfold hashReply; (repeat' split) <;> simp [queue_completeSlot, queue_hashAbandon, queue_closeSub]

theorem queue_gatherAbandon (n : Nat) (o : SubOut) (s : State) :
    (gatherAbandon n o s).pending = s.pending := by
  grind [gatherAbandon, queue_askGather, queue_failSlot, queue_closeSub]

theorem queue_gatherReply (n : Nat) (o : SubOut) (r : Reply) (s : State) :
    (gatherReply n o r s).pending = s.pending := by
  simp only [gatherReply]; (repeat' split) <;> first
    | grind [queue_finishGather, queue_failSlot, queue_modSlot, queue_gatherAbandon, queue_closeSub]
    | simp [queue_finishGather, queue_failSlot, queue_modSlot, queue_gatherAbandon, queue_closeSub, queue_foldl]

theorem queue_giveReply (n : Nat) (x : Slot) (o : SubOut) (r : Reply) (s : State) :
    (giveReply n x o r s).pending = s.pending := by
  unfold giveReply; (repeat' split) <;> simp [queue_attnReply, queue_changeReply, queue_updateReply, queue_queryReply, queue_hashReply,
    queue_gatherReply]

theorem queue_takeSlotReply (n : Nat) (kind : Nat) (shard : Nat) (r : Reply) (s : State) :
    (takeSlotReply n kind shard r s).pending = s.pending := by
  unfold takeSlotReply; (repeat' split) <;> simp [queue_dropLate, queue_takeReply, queue_giveReply]

theorem queue_startHead (u : Nat) (s : State) :
    (startHead u s).pending = s.pending := by
  grind [startHead, queue_putUnit]

theorem queue_portUpRow (s : State) (p : Nat) (txPass : List Bool) (rxPass : List Bool) (delay : Int) :
    (portUpRow s p txPass rxPass delay).pending = s.pending := by
  simp [portUpRow, queue_putPort, queue_endRetrain, queue_noteLinks, queue_recalPortEnd, queue_setPort]

theorem queue_execPortUp (port : Nat) (txPass : List Bool) (rxPass : List Bool) (delay : Int) (s : State) :
    ∀ rr, execPortUp port txPass rxPass delay s = .next rr → (rr).pending = s.pending := by
  intro r h; unfold execPortUp at h; grind [queue_portUpRow, queue_when, queue_guarded]

theorem queue_noteRetrain (s : State) (p : Nat) :
    (noteRetrain s p).pending = s.pending := by
  simp [noteRetrain, queue_score, queue_putPort]

theorem queue_retrainPort (s : State) (p : Nat) :
    (retrainPort s p).pending = s.pending := by
  simp [retrainPort, queue_noteRetrain, queue_setPort]

theorem queue_replayFrames (s : State) (p : Nat) :
    (replayFrames s p).pending = s.pending := by
  grind [replayFrames, queue_retrainPort, queue_putPort]

theorem queue_execFrameReplayTimeout (port : Nat) (s : State) :
    ∀ rr, execFrameReplayTimeout port s = .next rr → (rr).pending = s.pending := by
  intro r h; unfold execFrameReplayTimeout at h; grind [queue_when, queue_guarded, queue_replayFrames]

theorem queue_growCopy_go (s : State) (x : Index) (c : Copy) (u : Nat) (x4 : List Nat) :
    ∀ rr, growCopy.go s x c u x4 = some rr → (rr).2.pending = s.pending := by
  fun_induction growCopy.go <;> grind [→ queue_allocMarver, Option.map_eq_some_iff, Option.bind_eq_some_iff]

theorem queue_growCopy (s : State) (x : Index) (c : Copy) (u : Nat) :
    ∀ rr, growCopy s x c u = some rr → (rr).2.pending = s.pending := by
  intro r h; unfold growCopy at h; grind [queue_growCopy_go]

theorem queue_ensureSpill (s : State) (x : Index) (u : Nat) :
    (ensureSpill s x u).pending = s.pending := by
  unfold ensureSpill; (repeat' split) <;> grind [→ queue_allocMarver]

theorem queue_takeOnUnit (s : State) (x : Index) (c : Copy) (u : Nat) :
    ∀ rr, takeOnUnit s x c u = some rr → (rr).2.2.pending = s.pending := by
  intro r h; unfold takeOnUnit at h; (repeat' split at h) <;> grind [→ queue_growCopy, queue_ensureSpill, Option.map_eq_some_iff,
    Option.bind_eq_some_iff]

theorem queue_placeChunk (s : State) (x : Index) (c : Copy) (chunks : List Nat) :
    ∀ rr, placeChunk s x c chunks = some rr → (rr).2.2.pending = s.pending := by
  intro r h; unfold placeChunk at h; grind [queue_takeOnUnit, Option.map_eq_some_iff, Option.bind_eq_some_iff]

theorem queue_nextSlot (s : State) (idx : Nat) (x : Index) (c : Copy) (list : Nat) :
    ∀ rr, nextSlot s idx x c list = some rr → (rr).2.2.2.pending = s.pending := by
  intro r h; unfold nextSlot at h; dsimp only at h; split at h
  · split at h
    · cases h; rfl
    · rw [Option.map_eq_some_iff] at h; obtain ⟨a, ha, h⟩ := h; cases h
      rw [queue_storeMa]; exact queue_placeChunk _ _ _ _ _ ha
  · rw [Option.map_eq_some_iff] at h; obtain ⟨a, ha, h⟩ := h; cases h
    rw [queue_storeMa]; exact queue_placeChunk _ _ _ _ _ ha

theorem queue_writeSlot (s : State) (x : Index) (ma : Nat) (i : Nat) (it : Item) :
    (writeSlot s x ma i it).pending = s.pending := by
  unfold writeSlot; (repeat' split) <;> simp [queue_storeMa]

theorem queue_storeVector (s : State) (idx : Nat) (x : Index) (mirror : Bool) (c : Copy) (seq : Nat) (vec : List Nat) :
    (storeVector s idx x mirror c seq vec).2.2.2.pending = s.pending := by
  unfold storeVector; (repeat' split) <;> simp [queue_streamWrite]

theorem queue_ordPageFor (s : State) (x : Index) (c : Copy) (seq : Nat) :
    ∀ rr, ordPageFor s x c seq = some rr → (rr).2.pending = s.pending := by
  intro r h; unfold ordPageFor at h; split at h
  · cases h; rfl
  · split at h
    · cases h
    · rw [Option.map_eq_some_iff] at h; obtain ⟨a, ha, h⟩ := h; cases h; exact queue_allocWindow _ _ _ _ _ ha

theorem queue_appendItem (s : State) (idx : Nat) (x : Index) (mirror : Bool) (c : Copy) (e : Nat) (ordinal : Nat) (ident : Nat)
  (attrs : List Byte) (vec : List Nat) :
    (appendItem s idx x mirror c e ordinal ident attrs vec).2.2.pending = s.pending := by
  unfold appendItem; (repeat' split) <;> grind [→ queue_nextSlot, queue_writeSlot, queue_storeVector, → queue_ordPageFor]

theorem queue_valueStep (x0 : Nat) (c : MarverCtx) (s : State) :
    (valueStep x0 c s).2.pending = s.pending := by
  grind [valueStep]

theorem queue_execAttnValue (unit : Nat) (errs : List MemErr) (s : State) :
    ∀ rr, execAttnValue unit errs s = .next rr → (rr).pending = s.pending := by
  intro r h; unfold execAttnValue at h; grind [queue_valueStep, queue_marverRow]

theorem queue_debitGuard (s : State) (ws : Nat) (len : Nat) :
    (debitGuard s ws len).pending = s.pending := by
  simp [debitGuard]

theorem queue_sendFrame (s : State) (p : Nat) :
    (sendFrame s p).pending = s.pending := by
  simp [sendFrame, queue_putPort]

theorem queue_sendFrames (p : Nat) (flush : Bool) (x2 : Nat) (x3 : State) :
    (sendFrames p flush x2 x3).pending = x3.pending := by
  fun_induction sendFrames <;> simp_all [queue_sendFrame]

theorem queue_putOnWire (s : State) (p : Nat) (q : Packet) (flush : Bool) :
    (putOnWire s p q flush).pending = s.pending := by
  simp [putOnWire, queue_sendFrames, queue_putPort]

theorem queue_sendHead (s : State) (p : Nat) (q : PQueue) (alarm : Bool) :
    (sendHead s p q alarm).pending = s.pending := by
  unfold sendHead; (repeat' split) <;> simp [queue_putPort, queue_debitGuard, queue_putOnWire]

theorem queue_submitJob (e : Nat) (j : GafferJob) (s : State) :
    (submitJob e j s).pending = s.pending := by
  grind [submitJob, queue_putGaffer]

theorem queue_sramError (e : Nat) (err : Option (Nat × Bool)) (s : State) :
    (sramError e err s).pending = s.pending := by
  unfold sramError; (repeat' split) <;> simp [queue_score, queue_emit, queue_putGaffer]

theorem queue_wakeModel (e : Nat) (s : State) :
    (wakeModel e s).pending = s.pending := by
  grind [wakeModel, queue_putSlot]

theorem queue_runHead (kind : JobKind) (e : Nat) (err : Option (Nat × Bool)) (run : State → GafferJob → List Nat × Nat) (s : State) :
    (runHead kind e err run s).pending = s.pending := by
  grind [runHead, queue_sramError, queue_wakeModel, queue_putGaffer]

theorem queue_gafferRow (kind : JobKind) (e : Nat) (j : Option GafferJob) (err : Option (Nat × Bool)) (ok : State → GafferJob → Bool)
  (put : Nat → GafferJob → State → State) (run : State → GafferJob → List Nat × Nat) (s : State) (h_put : ∀ y0 y1 y2,
  (put y0 y1 y2).pending = y2.pending) :
    (gafferRow kind e j err ok put run s).pending = s.pending := by
  unfold gafferRow; (repeat' split) <;> simp [queue_runHead, h_put]

theorem queue_execSubDistanceTable (engine : Nat) (j : Option GafferJob) (err : Option (Nat × Bool)) (s : State) :
    ∀ rr, execSubDistanceTable engine j err s = .next rr → (rr).pending = s.pending := by
  intro r h; unfold execSubDistanceTable at h; grind [queue_submitJob, queue_guarded, queue_gafferRow]

theorem queue_withIndex (c : Ctx) (s : State) (idx : Nat) (f : Index → Answer × State) (h_f : ∀ y0, (f y0).2.pending = s.pending) :
    (withIndex c s idx f).2.pending = s.pending := by
  unfold withIndex; (repeat' split) <;> simp [queue_refuse, h_f]

theorem queue_indexImport (c : Ctx) (s : State) :
    (indexImport c s).2.pending = s.pending := by
  simp [indexImport, queue_checked, queue_putIndex, queue_withIndex]

theorem queue_execIndexImport (m : MsgSrc) (s : State) :
    ∀ rr, execIndexImport m s = .next rr → (rr).pending = s.pending := by
  intro r h; unfold execIndexImport at h; grind [queue_indexImport, queue_serve]

theorem queue_tableDrop (c : Ctx) (s : State) :
    (tableDrop c s).2.pending = s.pending := by
  unfold tableDrop; (repeat' split) <;> simp [queue_withTable, queue_putTable, queue_refuse]

theorem queue_indexInfo (c : Ctx) (s : State) :
    (indexInfo c s).2.pending = s.pending := by
  unfold indexInfo; (repeat' split) <;> simp [queue_withIndex, queue_refuse]

theorem queue_execIndexInfo (m : MsgSrc) (s : State) :
    ∀ rr, execIndexInfo m s = .next rr → (rr).pending = s.pending := by
  intro r h; unfold execIndexInfo at h; grind [queue_indexInfo, queue_serve]

theorem queue_requeue (s : State) (p : Packet) :
    (requeue s p).pending = s.pending := by
  unfold requeue; (repeat' split) <;> simp [queue_enqueue, queue_unreachable]

theorem queue_takeInbox (s : State) (msg : Nat) (src : Nat) :
    (takeInbox s msg src).pending = s.pending := by
  simp [takeInbox]

theorem queue_e2eAck (s : State) (src : Nat) (vc : Nat) (seq : Nat) (nak : Bool) :
    (e2eAck s src vc seq nak).pending = s.pending := by
  unfold e2eAck; (repeat' split) <;> simp [queue_requeue, queue_takeInbox, queue_foldl]

theorem queue_wsKeyLoad (c : Ctx) (s : State) :
    (wsKeyLoad c s).2.pending = s.pending := by
  simp [wsKeyLoad, queue_checked, queue_putKeys]

theorem queue_execWsKeyLoad (m : MsgSrc) (s : State) :
    ∀ rr, execWsKeyLoad m s = .next rr → (rr).pending = s.pending := by
  intro r h; unfold execWsKeyLoad at h; grind [queue_serve, queue_wsKeyLoad]

theorem queue_programUnload (c : Ctx) (s : State) :
    (programUnload c s).2.pending = s.pending := by
  grind [programUnload, queue_putProgram, queue_refuse]

theorem queue_execHealthInfo (m : MsgSrc) (s : State) :
    ∀ rr, execHealthInfo m s = .next rr → (rr).pending = s.pending := by
  intro r h; unfold execHealthInfo at h; grind [queue_checked, queue_serve]

theorem queue_rearmInput (s : State) (mv : Nat) :
    (rearmInput s mv).pending = s.pending := by
  unfold rearmInput; (repeat' split) <;> simp

theorem queue_enterPower (s : State) :
    (enterPower s).pending = s.pending := by
  simp [enterPower]

theorem queue_takeFrame (f : StatusFrame) (s : State) :
    (takeFrame f s).pending = s.pending := by
  simp [takeFrame]

theorem queue_statusFrame (f : StatusFrame) (s : State) :
    (statusFrame f s).pending = s.pending := by
  grind [statusFrame, queue_rearmInput, queue_enterPower, queue_emit, queue_takeFrame]

theorem queue_execStatusFrame (f : StatusFrame) (s : State) :
    ∀ rr, execStatusFrame f s = .next rr → (rr).pending = s.pending := by
  intro r h; unfold execStatusFrame at h; grind [queue_statusFrame, queue_when]

theorem queue_startDelete (b : Src) (n : Nat) (s : State) :
    (startDelete b n s).pending = s.pending := by
  unfold startDelete; (repeat' split) <;> simp [queue_failSlot, queue_startChange]

theorem queue_sendBeat (ws : Nat) (ident : Nat) (s : State) :
    (sendBeat ws ident s).pending = s.pending := by
  unfold sendBeat; (repeat' split) <;> simp [queue_putReqCopy, queue_sendReq]

theorem queue_takeCtrl (s : State) (src : Nat) (ws : Nat) (op : Nat) (key : Nat) (v : Nat) (u : Nat) :
    (takeCtrl s src ws op key v u).pending = s.pending := by
  unfold takeCtrl; (repeat' split) <;> simp [queue_takeMsg]

theorem queue_drainedAll (n : Nat) (s : State) :
    (drainedAll n s).pending = s.pending := by
  simp only [drainedAll]; (repeat' split) <;> first
    | grind [queue_sendShards, queue_askCounts, queue_putSlot]
    | simp [queue_askCounts, queue_putSlot, queue_foldl]

theorem queue_takeDrained (ws : Nat) (key : Nat) (v : Nat) (u : Nat) (src : Nat) (s : State) :
    (takeDrained ws key v u src s).pending = s.pending := by
  grind [takeDrained, queue_takeCtrl, queue_drainedAll, queue_putTable]

theorem queue_execDrained (ws : Nat) (key : Nat) (v : Nat) (u : Nat) (src : Nat) (s : State) :
    ∀ rr, execDrained ws key v u src s = .next rr → (rr).pending = s.pending := by
  intro r h; unfold execDrained at h; grind [queue_takeDrained, queue_when]

theorem queue_evrClear (c : Ctx) (s : State) :
    (evrClear c s).2.pending = s.pending := by
  grind [evrClear, queue_emit, queue_refuse, queue_emitFull]

theorem queue_reforward (gid : Nat) (s : State) :
    (reforward gid s).pending = s.pending := by
  simp [reforward, queue_forwardChange, queue_foldl]

theorem queue_badDoorbell (s : State) (fn : Nat) (r : Nat) (reg : Nat) (value : Nat) :
    (badDoorbell s fn r reg value).pending = s.pending := by
  grind [badDoorbell, queue_putRing, queue_emitFull]

theorem queue_ackWrite (s : State) (p : RegPkt) :
    (ackWrite s p).pending = s.pending := by
  unfold ackWrite; (repeat' split) <;> simp [queue_sendTxn, queue_takeInbox]

theorem queue_cqBell (p : RegPkt) (s : State) :
    (cqBell p s).pending = s.pending := by
  grind [cqBell, queue_putRing, queue_badDoorbell, queue_ackWrite]

theorem queue_execCqCiWrite (p : RegPkt) (s : State) :
    ∀ rr, execCqCiWrite p s = .next rr → (rr).pending = s.pending := by
  intro r h; unfold execCqCiWrite at h; grind [queue_cqBell, queue_when]

theorem queue_sessionAnneal (c : Ctx) (s : State) :
    (sessionAnneal c s).2.pending = s.pending := by
  grind [sessionAnneal, queue_checked, queue_putSession, queue_refuse]

theorem queue_execSessionAnneal (m : MsgSrc) (s : State) :
    ∀ rr, execSessionAnneal m s = .next rr → (rr).pending = s.pending := by
  intro r h; unfold execSessionAnneal at h; grind [queue_sessionAnneal, queue_serve]

theorem queue_copyStreams (s : State) (x : Index) (idx : Nat) (mirror : Bool) :
    (copyStreams s x idx mirror).pending = s.pending := by
  unfold copyStreams; (repeat' split) <;> grind [→ queue_createStream]

theorem queue_placeBuckets (x : Index) (us : List Nat) (x2 : Nat) (x3 : Nat) (x4 : Copy) (x5 : State) :
    ∀ rr, placeBuckets x us x2 x3 x4 x5 = some rr → (rr).2.pending = x5.pending := by
  fun_induction placeBuckets <;> grind [→ queue_takeOnUnit, queue_storeMa, Option.map_eq_some_iff, Option.bind_eq_some_iff]

theorem queue_startCopy (s : State) (x : Index) (shard : Nat) :
    ∀ rr, startCopy s x shard = some rr → (rr).2.pending = s.pending := by
  intro r h; unfold startCopy at h; grind [queue_placeBuckets]

theorem queue_buildIndex (s : State) (ws : Nat) (p : List Byte) :
    ∀ rr, buildIndex s ws p = some rr → (rr).2.pending = s.pending := by
  intro r h; unfold buildIndex at h; extract_lets x idx pages room at h; split at h
  · cases h
  · simp only [Option.bind_eq_some_iff, Option.map_eq_some_iff] at h
    obtain ⟨a, ha, b, hb, c, hc, h⟩ := h; subst h
    have h1 := queue_allocWindow _ _ _ _ _ ha
    have h2 := queue_startCopy _ _ _ _ hb
    have h3 : c.2.pending = s.pending := by
      split at hc
      · simp only [Option.map_eq_some_iff] at hc; obtain ⟨d, hd, hc⟩ := hc; subst hc
        exact (queue_startCopy _ _ _ _ hd).trans (h2.trans h1)
      · cases hc; exact h2.trans h1
    dsimp only
    (repeat' split) <;> simp only [queue_copyStreams, queue_refProgram, queue_putIndex, h3]

theorem queue_checkLanes (s : State) (p : Nat) :
    (checkLanes s p).pending = s.pending := by
  grind [checkLanes, queue_retrainPort, queue_emit]

theorem queue_fabRetrainNow (s : State) (p : Nat) (mask : Nat) (t : TicketRef) :
    (fabRetrainNow s p mask t).pending = s.pending := by
  unfold fabRetrainNow; (repeat' split) <;> simp [queue_retrainPort, queue_checkLanes, queue_putPort]

theorem queue_fabRetrain (c : Ctx) (s : State) :
    (fabRetrain c s).2.pending = s.pending := by
  simp [fabRetrain, queue_checked, queue_fabRetrainNow]

theorem queue_execFabRetrain (m : MsgSrc) (s : State) :
    ∀ rr, execFabRetrain m s = .next rr → (rr).pending = s.pending := by
  intro r h; unfold execFabRetrain at h; grind [queue_fabRetrain, queue_serve]

theorem queue_putSub (s : State) (x : SubIn) :
    (putSub s x).pending = s.pending := by
  simp [putSub]

theorem queue_replySub (s : State) (x : SubIn) (r : Reply) :
    (replySub s x r).pending = s.pending := by
  simp [replySub, queue_sendWhole]

theorem queue_admitSub (kind : Nat) (ident : Nat) (serve : State → SubIn → State) (s : State) (h_serve : ∀ y0 y1,
  (serve y0 y1).pending = y0.pending) :
    (admitSub kind ident serve s).pending = s.pending := by
  unfold admitSub; (repeat' split) <;> simp [queue_putSub, queue_passCore, queue_replySub, h_serve]

theorem queue_whenReached (serve : State → SubIn → State) (s : State) (q : SubIn) (h_serve : ∀ y0 y1,
  (serve y0 y1).pending = y0.pending) :
    (whenReached serve s q).pending = s.pending := by
  unfold whenReached; (repeat' split) <;> simp [queue_replySub, h_serve]

theorem queue_serveScan (s : State) (q : SubIn) :
    (serveScan s q).pending = s.pending := by
  grind [serveScan, queue_putSub, queue_replySub]

theorem queue_execScanSubrequest (ident : Nat) (s : State) :
    ∀ rr, execScanSubrequest ident s = .next rr → (rr).pending = s.pending := by
  intro r h; unfold execScanSubrequest at h; grind [queue_admitSub, queue_whenReached, queue_serveScan]

theorem queue_partnerWrite (ws : Nat) (key : Nat) (e : JournalEnt) (s : State) :
    (partnerWrite ws key e s).pending = s.pending := by
  unfold partnerWrite; (repeat' split) <;> simp [queue_ackAppend, queue_takeMsg, queue_journalEnt]

theorem queue_tableInfo (c : Ctx) (s : State) :
    (tableInfo c s).2.pending = s.pending := by
  unfold tableInfo; (repeat' split) <;> simp [queue_withTable, queue_refuse]

theorem queue_takeCommitted (ws : Nat) (key : Nat) (v : Nat) (u : Nat) (s : State) :
    (takeCommitted ws key v u s).pending = s.pending := by
  unfold takeCommitted; (repeat' split) <;> simp [queue_modVersion, queue_takeCtrl, queue_modSlot, queue_launchGather, queue_foldl]

theorem queue_dropIndex (s : State) (idx : Nat) (ts : List TicketRef) :
    (dropIndex s idx ts).pending = s.pending := by
  unfold dropIndex; (repeat' split) <;> simp [queue_putIndex, queue_finishTicket]

theorem queue_keepVector (s : State) (idx : Nat) (x : Index) (mirror : Bool) (c : Copy) (seq : Nat) (v : List Byte) :
    ∀ rr, keepVector s idx x mirror c seq v = some rr → (rr).2.2.pending = s.pending := by
  intro r h; unfold keepVector at h; grind [queue_streamWrite]

theorem queue_execAnnealRelease (ws : Nat) (key : Nat) (s : State) :
    ∀ rr, execAnnealRelease ws key s = .next rr → (rr).pending = s.pending := by
  intro r h; unfold execAnnealRelease at h; grind [queue_annealRelease, queue_when]

theorem queue_sendRow (s : State) (t : Table) (v : Nat) (r : List Byte) :
    (sendRow s t v r).pending = s.pending := by
  simp [sendRow, queue_sendCtrl, queue_foldl]

theorem queue_sendStopLine (s : State) :
    (sendStopLine s).pending = s.pending := by
  simp [sendStopLine]

theorem queue_stopWith (s : State) (code : Nat) :
    (stopWith s code).pending = s.pending := by
  simp [stopWith, queue_setBootRec, queue_sendStopLine]

theorem queue_execRailsTimeout (railsOk : Bool) (s : State) :
    ∀ rr, execRailsTimeout railsOk s = .next rr → (rr).pending = s.pending := by
  intro r h; unfold execRailsTimeout at h; grind [queue_stopWith, queue_when]

theorem queue_recalBegin (s : State) (act : Nat) :
    (recalBegin s act).pending = s.pending := by
  unfold recalBegin; (repeat' split) <;> simp [queue_recalNext]

theorem queue_opticsRecal (c : Ctx) (s : State) :
    (opticsRecal c s).2.pending = s.pending := by
  simp [opticsRecal, queue_checked, queue_submit, queue_recalBegin]

theorem queue_execOpticsRecal (m : MsgSrc) (s : State) :
    ∀ rr, execOpticsRecal m s = .next rr → (rr).pending = s.pending := by
  intro r h; unfold execOpticsRecal at h; grind [queue_serve, queue_opticsRecal]

theorem queue_sendPhase (s : State) (c : ReqCopy) :
    (sendPhase s c).pending = s.pending := by
  simp [sendPhase, queue_putReqCopy, queue_sendReq]

theorem queue_startQuery (b : Src) (n : Nat) (s : State) :
    (startQuery b n s).pending = s.pending := by
  unfold startQuery; (repeat' split) <;> simp [queue_putSlot, queue_failSlot, queue_launchQuery, queue_refIndex]

theorem queue_refSession (s : State) (ws : Nat) (key : Nat) (up : Bool) :
    (refSession s ws key up).pending = s.pending := by
  unfold refSession; (repeat' split) <;> simp [queue_putSession, queue_settleSession]

theorem queue_startStep (b : Src) (n : Nat) (s : State) :
    (startStep b n s).pending = s.pending := by
  grind [startStep, queue_putSlot, queue_failSlot, queue_refSession, queue_launchStep]

theorem queue_startTopk (b : Src) (n : Nat) (s : State) :
    (startTopk b n s).pending = s.pending := by
  grind [startTopk, queue_completeSlot, queue_failSlot]

theorem queue_startModel (b : Src) (n : Nat) (s : State) :
    (startModel b n s).pending = s.pending := by
  unfold startModel; (repeat' split) <;> simp [queue_putSlot, queue_failSlot, queue_refProgram]

theorem queue_startUpdate (b : Src) (n : Nat) (s : State) :
    (startUpdate b n s).pending = s.pending := by
  simp only [startUpdate]; (repeat' split) <;> first
    | grind [queue_refVersion, queue_holdPhase, queue_completeSlot, queue_putSlot, queue_failSlot, queue_beginUpdate]
    | simp [queue_refVersion, queue_holdPhase, queue_completeSlot, queue_putSlot, queue_failSlot, queue_beginUpdate, queue_foldl]

theorem queue_startPhase (p : Packet) (h : HostView) (s : State) :
    (startPhase p h s).pending = s.pending := by
  grind [startPhase, queue_startQuery, queue_startStep, queue_startGather, queue_startTopk, queue_putSlot, queue_startModel,
    queue_passCore, queue_startUpdate, queue_takeMsg]

theorem queue_dispatchPhase (ws : Nat) (ident : Nat) (h : HostView) (s : State) :
    (dispatchPhase ws ident h s).pending = s.pending := by
  unfold dispatchPhase; (repeat' split) <;> simp [queue_sendPhase, queue_startPhase, queue_phaseDone]

theorem queue_execPhaseDispatch (ws : Nat) (ident : Nat) (h : HostView) (s : State) :
    ∀ rr, execPhaseDispatch ws ident h s = .next rr → (rr).pending = s.pending := by
  intro r h; unfold execPhaseDispatch at h; grind [queue_when, queue_dispatchPhase]

theorem queue_sessionDestroy (c : Ctx) (s : State) :
    (sessionDestroy c s).2.pending = s.pending := by
  unfold sessionDestroy; (repeat' split) <;> simp [queue_tellSession, queue_checked, queue_putSession, queue_refuse]

theorem queue_execSessionDestroy (m : MsgSrc) (s : State) :
    ∀ rr, execSessionDestroy m s = .next rr → (rr).pending = s.pending := by
  intro r h; unfold execSessionDestroy at h; grind [queue_sessionDestroy, queue_serve]

theorem queue_stackDiscovery (steps : List Nat) (s : State) :
    (stackDiscovery steps s).pending = s.pending := by
  simp only [stackDiscovery]; (repeat' split) <;> first
    | grind [queue_stopWith, queue_score, queue_emitDev, queue_emit]
    | simp [queue_stopWith, queue_score, queue_emitDev, queue_emit, queue_foldl]

theorem queue_execStackDiscovery (steps : List Nat) (s : State) :
    ∀ rr, execStackDiscovery steps s = .next rr → (rr).pending = s.pending := by
  intro r h; unfold execStackDiscovery at h; grind [queue_when, queue_stackDiscovery, queue_guarded]

theorem queue_beginSession (s : State) (ws : Nat) (key : Nat) (state : Nat) (gid : Nat) (partner : Nat) (g : List Byte)
  (tokens : List Nat) (t : TicketRef) :
    ∀ rr, beginSession s ws key state gid partner g tokens t = .ok rr → (rr).2.pending = s.pending := by
  intro r h; unfold beginSession at h; (repeat' split at h) <;> grind [→ queue_allocWindow, → queue_createStream, queue_putSession,
    queue_refBook, Option.map_eq_some_iff, Option.bind_eq_some_iff]

theorem queue_writeRebuilt (s : State) (x : Session) (e : JournalEnt) :
    ∀ rr, writeRebuilt s x e = some rr → (rr).2.pending = s.pending := by
  intro r h; unfold writeRebuilt at h; (repeat' split at h) <;> grind [→ queue_takeKv, → queue_openBlock, queue_storeMa,
    Option.map_eq_some_iff, Option.bind_eq_some_iff]

theorem queue_placeImageBlock (s : State) (ws : Nat) (key : Nat) (e : JournalEnt) :
    ∀ rr, placeImageBlock s ws key e = .ok rr → (rr).pending = s.pending := by
  intro r h; unfold placeImageBlock at h; split at h
  · cases h; rfl
  · rename_i x0 _
    extract_lets x p placed at h
    have hp : ∀ t, placed = some t → t.pending = s.pending := by
      intro t ht; simp only [placed] at ht; split at ht
      · rw [Option.map_eq_some_iff] at ht; obtain ⟨b, hb, ht⟩ := ht; cases ht
        rw [queue_putSession]
        exact (queue_writeRebuilt _ _ _ _ hb).trans (queue_putSession _ _)
      · cases ht; exact queue_putSession _ _
    cases ht : placed with
    | none => rw [ht] at h; cases h
    | some t =>
      rw [ht] at h; dsimp only at h
      split at h
      · split at h
        · split at h
          · cases h; exact (queue_journalEnt _ _ _).trans (hp t ht)
          · cases h
        · cases h; exact hp _ ht
      · cases h; exact hp _ ht

theorem queue_placeImage (ws : Nat) (key : Nat) (x2 : List JournalEnt) (x3 : State) :
    ∀ rr, placeImage ws key x2 x3 = .ok rr → (rr).pending = x3.pending := by
  fun_induction placeImage <;> grind [queue_placeImageBlock, Option.map_eq_some_iff, Option.bind_eq_some_iff]

theorem queue_sessionResume (c : Ctx) (s : State) :
    (sessionResume c s).2.pending = s.pending := by
  simp only [sessionResume]; (repeat' split) <;> grind [queue_tellSession, queue_checked, → queue_beginSession, → queue_placeImage,
    queue_refuse, Option.map_eq_some_iff, Option.bind_eq_some_iff]

theorem queue_execSessionResume (m : MsgSrc) (s : State) :
    ∀ rr, execSessionResume m s = .next rr → (rr).pending = s.pending := by
  intro r h; unfold execSessionResume at h; grind [queue_serve, queue_sessionResume]

theorem queue_takeBinding (p : Packet) (accepted : Bool) (s : State) :
    (takeBinding p accepted s).pending = s.pending := by
  grind [takeBinding, queue_writeTo, queue_putReqCopy, queue_yieldCopy, queue_sendReq, queue_takeMsg]

theorem queue_execBindingRecord (ws : Nat) (ident : Nat) (accepted : Bool) (s : State) :
    ∀ rr, execBindingRecord ws ident accepted s = .next rr → (rr).pending = s.pending := by
  intro r h; unfold execBindingRecord at h; grind [queue_takeBinding, queue_when]

theorem queue_passJack (n : Nat) (s : State) :
    (passJack n s).pending = s.pending := by
  unfold passJack; (repeat' split) <;> simp

theorem queue_doorbell (p : RegPkt) (s : State) :
    (doorbell p s).pending = s.pending := by
  simp [doorbell, queue_putFn, queue_ackWrite]

theorem queue_dropStub (s : State) (n : Nat) :
    (dropStub s n).pending = s.pending := by
  simp [dropStub]

theorem queue_putWs (s : State) (n : Nat) (w : Ws) :
    (putWs s n w).pending = s.pending := by
  simp [putWs]

theorem queue_wsCreate (c : Ctx) (s : State) :
    (wsCreate c s).2.pending = s.pending := by
  simp [wsCreate, queue_checked, queue_putWs]

theorem queue_execWsCreate (m : MsgSrc) (s : State) :
    ∀ rr, execWsCreate m s = .next rr → (rr).pending = s.pending := by
  intro r h; unfold execWsCreate at h; grind [queue_wsCreate, queue_serve]

theorem queue_journalLoad (s : State) (h : Nat) (t : Table) (v : Nat) (rs : List (List Byte)) :
    (journalLoad s h t v rs).2.pending = s.pending := by
  grind [journalLoad, queue_journalRows]

theorem queue_requestGroupActivity (s : State) (code : Nat) (g : Nat) :
    (requestGroupActivity s code g).pending = s.pending := by
  unfold requestGroupActivity; (repeat' split) <;> simp [queue_submit]

theorem queue_flashPatrol (g : Nat) (s : State) :
    (flashPatrol g s).pending = s.pending := by
  grind [flashPatrol, queue_putGroup, queue_queueOp, queue_requestGroupActivity]

theorem queue_execFlashPatrol (group : Nat) (s : State) :
    ∀ rr, execFlashPatrol group s = .next rr → (rr).pending = s.pending := by
  intro r h; unfold execFlashPatrol at h; grind [queue_when, queue_flashPatrol, queue_guarded]

theorem queue_modScheds (s : State) (port : Nat) (f : Sched → Sched) :
    (modScheds s port f).pending = s.pending := by
  simp [modScheds]

theorem queue_classValueSet (s : State) (tgt : Nat) (port : Nat) (cls : Nat) (ws : Nat) (v : Int) :
    (classValueSet s tgt port cls ws v).pending = s.pending := by
  unfold classValueSet; (repeat' split) <;> simp [queue_modScheds]

theorem queue_schedClassSet (c : Ctx) (s : State) :
    (schedClassSet c s).2.pending = s.pending := by
  simp [schedClassSet, queue_classValueSet, queue_checked]

theorem queue_execSchedClassSet (m : MsgSrc) (s : State) :
    ∀ rr, execSchedClassSet m s = .next rr → (rr).pending = s.pending := by
  intro r h; unfold execSchedClassSet at h; grind [queue_schedClassSet, queue_serve]

theorem queue_portSet (s : State) (p : Nat) (pflags : Nat) (lanes : Nat) :
    (portSet s p pflags lanes).pending = s.pending := by
  grind [portSet, queue_checkLanes, queue_putPort, queue_endRetrain, queue_recalPortEnd, queue_setPort]

theorem queue_fabPortSet (c : Ctx) (s : State) :
    (fabPortSet c s).2.pending = s.pending := by
  simp [fabPortSet, queue_portSet, queue_checked]

theorem queue_execFabPortSet (m : MsgSrc) (s : State) :
    ∀ rr, execFabPortSet m s = .next rr → (rr).pending = s.pending := by
  intro r h; unfold execFabPortSet at h; grind [queue_fabPortSet, queue_serve]

theorem queue_releaseRegion (s : State) (ws : Nat) (r : Region) :
    (releaseRegion s ws r).pending = s.pending := by
  unfold releaseRegion; (repeat' split) <;> simp [queue_clearPages, queue_putWs, queue_finishTicket, queue_freePages]

theorem queue_execRegionRelease (ws : Nat) (base : Nat) (s : State) :
    ∀ rr, execRegionRelease ws base s = .next rr → (rr).pending = s.pending := by
  intro r h; unfold execRegionRelease at h; grind [queue_when, queue_releaseRegion]

theorem queue_bindJack (n : Nat) (b : JackCtx) (s : State) :
    (bindJack n b s).pending = s.pending := by
  unfold bindJack; (repeat' split) <;> simp

theorem queue_takeOver (s : State) (p : Nat) :
    (takeOver s p).pending = s.pending := by
  grind [takeOver, queue_putPort, queue_finishTicket]

theorem queue_execGateTakeOver (port : Nat) (s : State) :
    ∀ rr, execGateTakeOver port s = .next rr → (rr).pending = s.pending := by
  intro r h; unfold execGateTakeOver at h; grind [queue_takeOver, queue_when, queue_guarded]

theorem queue_mountArchive (s : State) (g : Nat) :
    (mountArchive s g).pending = s.pending := by
  unfold mountArchive; (repeat' split) <;> simp [queue_putGroup]

theorem queue_reportFlush (s : State) (g : Nat) :
    (reportFlush s g).pending = s.pending := by
  grind [reportFlush, queue_putGroup, queue_emit]

theorem queue_adoptRoot (s : State) (g : Nat) (y : FlashGroup) (fromOffline : Bool) :
    (adoptRoot s g y fromOffline).pending = s.pending := by
  unfold adoptRoot; (repeat' split) <;> simp [queue_putGroup, queue_reportFlush]

theorem queue_formatGroup (s : State) (g : Nat) (marks : List Nat) :
    (formatGroup s g marks).pending = s.pending := by
  simp [formatGroup, queue_putGroup, queue_emit]

theorem queue_mountGroup (g : Nat) (src : MountSource) (s : State) :
    (mountGroup g src s).pending = s.pending := by
  simp only [mountGroup]; (repeat' split) <;> first
    | grind [queue_putGroup, queue_finishAll, queue_mountArchive, queue_adoptRoot, queue_formatGroup]
    | simp [queue_putGroup, queue_finishAll, queue_mountArchive, queue_adoptRoot, queue_formatGroup, queue_foldl]

theorem queue_execGroupMount (group : Nat) (src : MountSource) (s : State) :
    ∀ rr, execGroupMount group src s = .next rr → (rr).pending = s.pending := by
  intro r h; unfold execGroupMount at h; grind [queue_mountGroup, queue_when, queue_guarded]

theorem queue_execAttnStep (fn : Nat) (ring : Nat) (h : HostView) (s : State) :
    ∀ rr, execAttnStep fn ring h s = .next rr → (rr).pending = s.pending := by
  intro r h; unfold execAttnStep at h; (repeat' split at h) <;> grind [queue_startStep, → queue_admitRow, Option.map_eq_some_iff,
    Option.bind_eq_some_iff]

theorem queue_endRequest (ws : Nat) (ident : Nat) (e : List Byte) (s : State) :
    (endRequest ws ident e s).pending = s.pending := by
  unfold endRequest; (repeat' split) <;> simp [queue_completeSlot]

theorem queue_execStateLost (ws : Nat) (ident : Nat) (s : State) :
    ∀ rr, execStateLost ws ident s = .next rr → (rr).pending = s.pending := by
  intro r h; unfold execStateLost at h; grind [queue_endRequest, queue_when, queue_takeMsg]

theorem queue_takeMaster (s : State) (port : Nat) (m : PtpMsg) (o : Int) :
    (takeMaster s port m o).pending = s.pending := by
  unfold takeMaster; (repeat' split) <;> simp [queue_emitDev]

theorem queue_chooseSlot (kind : Nat) (version : Bool → Option Nat) (bodyOk : Bool → Bool) (x3 : Nat) (x4 : List Bool) (x5 : State) :
    (chooseSlot kind version bodyOk x3 x4 x5).2.pending = x5.pending := by
  fun_induction chooseSlot <;> grind [queue_setBootRec, queue_markFailed]

theorem queue_chooseFw (s : State) :
    (chooseFw s).2.pending = s.pending := by
  unfold chooseFw; (repeat' split) <;> grind [queue_chooseSlot, queue_considered]

theorem queue_execFlashInfo (m : MsgSrc) (s : State) :
    ∀ rr, execFlashInfo m s = .next rr → (rr).pending = s.pending := by
  intro r h; unfold execFlashInfo at h; grind [queue_checked, queue_serve]

theorem queue_probeOne (c : Nat) (s : State) (ce : Nat × Option TargetProbe) :
    (probeOne c s ce).pending = s.pending := by
  grind [probeOne, queue_emit, queue_putFChan]

theorem queue_probeChannel (s : State) (c : Nat) (probes : List (Option TargetProbe)) :
    (probeChannel s c probes).pending = s.pending := by
  simp [probeChannel, queue_probeOne, queue_putFChan, queue_foldl]

theorem queue_startMount (s : State) (g : Nat) :
    (startMount s g).pending = s.pending := by
  simp [startMount, queue_putGroup]

theorem queue_carrierPresent (g : Nat) (probes : List (List (Option TargetProbe))) (s : State) :
    (carrierPresent g probes s).pending = s.pending := by
  simp [carrierPresent, queue_putGroup, queue_probeChannel, queue_startMount, queue_foldl]

theorem queue_execCarrierPresent (group : Nat) (probes : List (List (Option TargetProbe))) (s : State) :
    ∀ rr, execCarrierPresent group probes s = .next rr → (rr).pending = s.pending := by
  intro r h; unfold execCarrierPresent at h; grind [queue_carrierPresent, queue_when, queue_guarded]

theorem queue_loadReject (st : Nat) (reason : Nat) (opIndex : Nat) (s : State) :
    (loadReject st reason opIndex s).2.2.pending = s.pending := by
  simp [loadReject]

theorem queue_placeProgram (ws : Nat) (want : Nat) (l : List Byte) (s : State) :
    (placeProgram ws want l s).2.2.pending = s.pending := by
  unfold placeProgram; extract_lets emin emax k pages es wpages okSize room win; split
  · rename_i at_ t h
    rw [queue_putProgram, queue_setPages]
    simp only [win] at h
    split at h
    · cases h; rfl
    · rw [Option.map_eq_some_iff] at h; obtain ⟨r, hr, h⟩ := h; cases h
      exact queue_allocWindow _ _ _ _ _ hr
  · exact queue_loadReject _ _ _ _

theorem queue_loadProgram (ws : Nat) (bytes : Nat) (want : Nat) (l : List Byte) (s : State) :
    (loadProgram ws bytes want l s).2.2.pending = s.pending := by
  grind [loadProgram, queue_putProgram, queue_loadReject, queue_placeProgram]

theorem queue_slotsExhausted (s : State) :
    (slotsExhausted s).pending = s.pending := by
  grind [slotsExhausted, queue_emitDev]

theorem queue_stageBlock (s : State) (x : Session) (y : Block) :
    (stageBlock s x y).pending = s.pending := by
  unfold stageBlock; (repeat' split) <;> simp [queue_storeMa]

theorem queue_servePartial (s : State) (q : SubIn) :
    (servePartial s q).pending = s.pending := by
  unfold servePartial; split
  · exact queue_replySub _ _ _
  · extract_lets H d r R mine lost
    split
    · exact queue_replySub _ _ _
    · split
      · rfl
      · rw [queue_replySub]
        refine queue_foldl _ ?_ _ _
        intro a b; split
        · exact queue_stageBlock _ _ _
        · rfl

theorem queue_serveScore (s : State) (q : SubIn) :
    (serveScore s q).pending = s.pending := by
  grind [serveScore, queue_putSub, queue_replySub]

theorem queue_reserveAttn (s : State) (handle : Nat) :
    (reserveAttn s handle).pending = s.pending := by
  unfold reserveAttn; refine queue_foldl _ ?_ _ _; intro a b; (repeat' split) <;> first
    | grind [queue_servePartial, queue_serveScore]
    | simp [queue_servePartial, queue_serveScore, queue_foldl]
    | simp_all [queue_servePartial, queue_serveScore, queue_foldl]

theorem queue_rebuildBlock (ws : Nat) (key : Nat) (layer : Nat) (head : Nat) (block : Nat) (src : Option JournalEnt) (s : State) :
    (rebuildBlock ws key layer head block src s).pending = s.pending := by
  unfold rebuildBlock; (repeat' split) <;> grind [queue_putSession, queue_reserveAttn, → queue_writeRebuilt]

theorem queue_execBlockRebuild (ws : Nat) (key : Nat) (layer : Nat) (head : Nat) (block : Nat) (src : Option JournalEnt) (s : State) :
    ∀ rr, execBlockRebuild ws key layer head block src s = .next rr → (rr).pending = s.pending := by
  intro r h; unfold execBlockRebuild at h; grind [queue_rebuildBlock, queue_when]

theorem queue_vecWrite (p : RegPkt) (s : State) :
    (vecWrite p s).pending = s.pending := by
  grind [vecWrite, queue_putVec, queue_ackWrite, queue_sendInterrupt]

theorem queue_execInterruptVectorWrite (p : RegPkt) (s : State) :
    ∀ rr, execInterruptVectorWrite p s = .next rr → (rr).pending = s.pending := by
  intro r h; unfold execInterruptVectorWrite at h; grind [queue_when, queue_vecWrite]

theorem queue_copyGranules (src : Nat) (dst : Nat) (n : Nat) (s : State) :
    (copyGranules src dst n s).pending = s.pending := by
  simp [copyGranules, queue_storeMa]

theorem queue_shardLost (s : State) (gid : Nat) (shard : Nat) :
    (shardLost s gid shard).pending = s.pending := by
  unfold shardLost; (repeat' split) <;> simp [queue_emitDev]

theorem queue_appendEntry (s : State) (ma : Nat) (key : Nat) (value : Nat) (ins : Nat) (del : Nat) :
    (appendEntry s ma key value ins del).pending = s.pending := by
  simp [appendEntry, queue_storeMa]

theorem queue_bucketRoom (s : State) (x : Index) (c : Copy) (b : Nat) :
    ∀ rr, bucketRoom s x c b = some rr → (rr).2.2.pending = s.pending := by
  intro r h; unfold bucketRoom at h; dsimp only at h; split at h
  · cases h
  · split at h
    · cases h; rfl
    · split at h
      · cases h
      · rw [Option.map_eq_some_iff] at h; obtain ⟨a, ha, h⟩ := h; cases h
        dsimp only; rw [queue_storeMa, queue_storeMa]; exact queue_takeOnUnit _ _ _ _ _ ha

theorem queue_placeItem (idx : Nat) (x : Index) (mirror : Bool) (it : RebuildItem) (c : Copy) (s : State) :
    ∀ rr, placeItem idx x mirror it c s = some rr → (rr).2.pending = s.pending := by
  intro r h; unfold placeItem at h; split at h
  · simp only [Option.map_eq_some_iff] at h; obtain ⟨a, ha, h⟩ := h; subst h
    exact (queue_appendEntry _ _ _ _ _ _).trans (queue_bucketRoom _ _ _ _ _ ha)
  · simp only [Option.bind_eq_some_iff, Option.map_eq_some_iff] at h
    obtain ⟨a, ha, b, hb, c, hc, h⟩ := h; subst h
    exact (queue_writeSlot _ _ _ _ _).trans ((queue_keepVector _ _ _ _ _ _ _ _ hc).trans
      ((queue_nextSlot _ _ _ _ _ _ hb).trans (queue_ordPageFor _ _ _ _ _ ha)))

theorem queue_placeItems (idx : Nat) (x : Index) (mirror : Bool) (x3 : List RebuildItem) (x4 : Copy) (x5 : State) :
    ∀ rr, placeItems idx x mirror x3 x4 x5 = some rr → (rr).2.pending = x5.pending := by
  induction x3 generalizing x4 x5 with
  | nil => intro r h; cases h; rfl
  | cons it t ih =>
    intro r h; unfold placeItems at h; simp only [Option.bind_eq_some_iff] at h; obtain ⟨a, ha, h⟩ := h
    exact (ih _ _ _ h).trans (queue_placeItem _ _ _ _ _ _ _ ha)

theorem queue_putCopy (s : State) (idx : Nat) (mirror : Bool) (c : Copy) :
    (putCopy s idx mirror c).pending = s.pending := by
  unfold putCopy; (repeat' split) <;> simp [queue_putIndex]

theorem queue_fillIndex (idx : Nat) (mirror : Bool) (src : RebuildSource) (x : Index) (c : Copy) (s : State) :
    ∀ rr, fillIndex idx mirror src x c s = some rr → (rr).pending = s.pending := by
  intro r h; unfold fillIndex at h; (repeat' split at h) <;> grind [→ queue_placeItems, queue_putCopy, Option.map_eq_some_iff,
    Option.bind_eq_some_iff]

theorem queue_fillTable (h : Nat) (mirror : Bool) (src : RebuildSource) (t : Table) (s : State) :
    (fillTable h mirror src t s).pending = s.pending := by
  unfold fillTable; extract_lets written counted
  have h1 : written.pending = s.pending := by
    refine queue_foldl _ ?_ _ _
    intro a b; split
    · exact queue_storeMa _ _ _
    · rfl
  have h2 : counted.pending = s.pending :=
    (queue_foldl _ (fun _ _ => queue_modVersion _ _ _ _) _ _).trans h1
  split
  · exact (queue_putTable _ _ _).trans h2
  · exact h2

theorem queue_takeSource (obj : Nat) (table : Bool) (mirror : Bool) (src : RebuildSource) (gid : Nat) (shard : Nat) (s : State) :
    (takeSource obj table mirror src gid shard s).pending = s.pending := by
  unfold takeSource; split
  · exact queue_shardLost _ _ _
  · split
    · split
      · exact queue_fillTable _ _ _ _ _
      · rfl
    · split
      · rename_i x c _
        cases hh : fillIndex obj mirror src x c s with
        | none => rfl
        | some t => exact queue_fillIndex _ _ _ _ _ _ _ hh
      · rfl

theorem queue_rebuildCopy (obj : Nat) (table : Bool) (mirror : Bool) (src : RebuildSource) (s : State) :
    (rebuildCopy obj table mirror src s).pending = s.pending := by
  unfold rebuildCopy; (repeat' split) <;> simp [queue_submit, queue_dropActivity, queue_takeSource]

theorem queue_remapAll (s : State) (f : Nat → Nat) (p : Nat) (q : Nat) :
    (remapAll s f p q).pending = s.pending := by
  simp [remapAll]

theorem queue_headActs (s : State) (p : Nat) (h : FrameHead) :
    (headActs s p h).pending = s.pending := by
  unfold headActs; (repeat' split) <;> simp [queue_putPort, queue_replayFrames]

theorem queue_settleOldKv (s : State) (ws : Nat) (key : Nat) :
    (settleOldKv s ws key).pending = s.pending := by
  unfold settleOldKv; split
  · rfl
  · dsimp only; rw [queue_foldl _ (fun _ _ => queue_freePages _ _)]; exact queue_putSession _ _

theorem queue_spillOne (ws : Nat) (key : Nat) (s : State) :
    (spillOne ws key s).pending = s.pending := by
  grind [spillOne, queue_settleOldKv, queue_putSession, queue_storeMa, queue_streamWrite]

theorem queue_execKvSpill (ws : Nat) (key : Nat) (s : State) :
    ∀ rr, execKvSpill ws key s = .next rr → (rr).pending = s.pending := by
  intro r h; unfold execKvSpill at h; grind [queue_when, queue_spillOne]

theorem queue_ucodeSwitch (u : Nat) (s : State) :
    (ucodeSwitch u s).pending = s.pending := by
  grind [ucodeSwitch, queue_putUnit, queue_emitDev, queue_finishTicket, queue_dropActivity]

theorem queue_reqHandoff (c : Ctx) (s : State) :
    (reqHandoff c s).2.pending = s.pending := by
  grind [reqHandoff, queue_sendReq, queue_beginHandoff, queue_refuse]

theorem queue_execReqHandoff (m : MsgSrc) (s : State) :
    ∀ rr, execReqHandoff m s = .next rr → (rr).pending = s.pending := by
  intro r h; unfold execReqHandoff at h; grind [queue_serve, queue_reqHandoff]

theorem queue_execOrphanMsg (ws : Nat) (ident : Nat) (epoch : Nat) (pool : Nat) (s : State) :
    ∀ rr, execOrphanMsg ws ident epoch pool s = .next rr → (rr).pending = s.pending := by
  intro r h; unfold execOrphanMsg at h; grind [queue_when, queue_takeMsg, queue_addClaim]

theorem queue_carrierRemoved (g : Nat) (s : State) :
    (carrierRemoved g s).pending = s.pending := by
  grind [carrierRemoved, queue_putGroup, queue_finishTicket, queue_finishAll, queue_emit]

theorem queue_overCap (s : State) :
    (overCap s).pending = s.pending := by
  unfold overCap; dsimp only; split
  · rfl
  · split
    · rw [queue_emit]
    · rfl

theorem queue_underCap (s : State) :
    (underCap s).pending = s.pending := by
  simp [underCap]

theorem queue_powerCapCompare (s : State) :
    (powerCapCompare s).pending = s.pending := by
  unfold powerCapCompare; (repeat' split) <;> simp [queue_overCap, queue_underCap]

theorem queue_execPowerCapCompare (s : State) :
    ∀ rr, execPowerCapCompare s = .next rr → (rr).pending = s.pending := by
  intro r h; unfold execPowerCapCompare at h; grind [queue_when, queue_powerCapCompare]

theorem queue_helloAt (s : State) (p : Nat) (l : List Byte) :
    (helloAt s p l).pending = s.pending := by
  grind [helloAt, queue_putPort, queue_emit, queue_noteLinks, queue_setPort]

theorem queue_execStartWait (s : State) :
    ∀ rr, execStartWait s = .next rr → (rr).pending = s.pending := by
  intro r h; unfold execStartWait at h; grind [queue_when, queue_emitDev]

theorem queue_fenceChanges (idx : Nat) (mirror : Bool) (s : State) :
    (fenceChanges idx mirror s).pending = s.pending := by
  unfold fenceChanges; (repeat' split) <;> simp [queue_putCopy, queue_answerChange, queue_foldl]

theorem queue_fenceRequest (s : State) (n : Nat) (x : Slot) :
    (fenceRequest s n x).pending = s.pending := by
  unfold fenceRequest; (repeat' split) <;> simp [queue_failSlot, queue_failUpdate, queue_finishChange]

theorem queue_sendLease (s : State) (g : Group) (op : Nat) :
    (sendLease s g op).pending = s.pending := by
  simp [sendLease, queue_sendMsg]

theorem queue_fenceGroup (g : Group) (s : State) :
    (fenceGroup g s).pending = s.pending := by
  unfold fenceGroup; extract_lets gid t0 t1 t2 t3
  have h1 : t1.pending = s.pending := by
    simp only [t1, t0]; rw [queue_sendLease, queue_emitDev]; exact queue_putLease _ _
  have h2 : t2.pending = s.pending := by
    simp only [t2]; rw [queue_foldl _ (fun _ _ => by rw [queue_fenceChanges, queue_fenceChanges])]; exact h1
  have h3 : t3.pending = s.pending := by
    refine (queue_foldl _ ?_ _ _).trans h2
    intro a b; split
    · exact queue_fenceRequest _ _ _
    · rfl
  exact (queue_foldl _ (fun _ _ => queue_replySub _ _ _) _ _).trans h3

theorem queue_execLeaseLapse (group : Nat) (s : State) :
    ∀ rr, execLeaseLapse group s = .next rr → (rr).pending = s.pending := by
  intro r h; unfold execLeaseLapse at h; grind [queue_fenceGroup, queue_when]

theorem queue_badAccess (p : RegPkt) (s : State) :
    (badAccess p s).pending = s.pending := by
  grind [badAccess, queue_putFn, queue_ackWrite, queue_emitFull]

theorem queue_execRingInfo (m : MsgSrc) (s : State) :
    ∀ rr, execRingInfo m s = .next rr → (rr).pending = s.pending := by
  intro r h; unfold execRingInfo at h; grind [queue_checked, queue_serve]

theorem queue_moveRegion (page : Nat) (ok : Nat → Bool) (s : State) :
    (moveRegion page ok s).pending = s.pending := by
  unfold moveRegion; grind [queue_clearPages, queue_remapAll, queue_remapChains, queue_storeMa, queue_freePages, → queue_allocMarver,
    Option.map_eq_some_iff, Option.bind_eq_some_iff]

theorem queue_bankMove (page : Nat) (unit : Nat) (s : State) :
    (bankMove page unit s).pending = s.pending := by
  grind [bankMove, queue_dropActivity, queue_moveRegion]

theorem queue_latchEvent (s : State) (ev : Event) :
    (latchEvent s ev).pending = s.pending := by
  grind [latchEvent]

theorem queue_markDrop (s : State) :
    (markDrop s).pending = s.pending := by
  simp [markDrop]

theorem queue_foldEvent (s : State) (ev : Event) :
    (foldEvent s ev).pending = s.pending := by
  simp [foldEvent, queue_markDrop]

theorem queue_assertAlarm (s : State) :
    (assertAlarm s).pending = s.pending := by
  simp [assertAlarm]

theorem queue_forward (s : State) (r : Rec) :
    (forward s r).pending = s.pending := by
  simp only [forward]; (repeat' split) <;> (first | grind [queue_sendPacket] | simp [queue_sendPacket, queue_foldl])

theorem queue_writeRecord (s : State) (ev : Event) (rep : Nat) :
    (writeRecord s ev rep).pending = s.pending := by
  grind [writeRecord, queue_assertAlarm, queue_forward]

theorem queue_recordEvent (s : State) (ev : Event) :
    (recordEvent s ev).pending = s.pending := by
  unfold recordEvent; extract_lets u; generalize classOf ev.code = c; split
  · split
    · rfl
    · split
      · exact queue_writeRecord _ _ _
      · exact queue_markDrop _
  · split
    · exact queue_writeRecord _ _ _
    · exact queue_foldEvent _ _
  · split
    · exact queue_writeRecord _ _ _
    · exact queue_latchEvent _ _

theorem queue_intakeOne (s : State) :
    (intakeOne s).pending = s.pending := by
  unfold intakeOne; (repeat' split) <;> simp [queue_recordEvent]

theorem queue_freeWsPages (s : State) (ws : Nat) :
    (freeWsPages s ws).pending = s.pending := by
  simp [freeWsPages, queue_clearPages, queue_finishAll, queue_freePages, queue_foldl]

theorem queue_execReqStatus (m : MsgSrc) (s : State) :
    ∀ rr, execReqStatus m s = .next rr → (rr).pending = s.pending := by
  intro r h; unfold execReqStatus at h; grind [queue_serve, queue_refuse]

theorem queue_markEntry (s : State) (ma : Nat) (i : Nat) (epoch : Nat) :
    (markEntry s ma i epoch).pending = s.pending := by
  grind [markEntry, queue_storeMa]

theorem queue_markSlot (s : State) (x : Index) (ma : Nat) (i : Nat) (epoch : Nat) :
    (markSlot s x ma i epoch).pending = s.pending := by
  grind [markSlot, queue_storeMa]

theorem queue_markOne (x : Index) (epoch : Nat) (ma : Nat) (i : Nat) (c : MarverCtx) (s : State) :
    (markOne x epoch ma i c s).2.pending = s.pending := by
  grind [markOne, queue_markEntry, queue_markSlot]

theorem queue_markGo (x : Index) (x1 : Nat) (x2 : MarverCtx) (x3 : State) :
    (markGo x x1 x2 x3).2.pending = x3.pending := by
  fun_induction markGo <;> grind [queue_markOne]

theorem queue_answerUnknown (m : MsgSrc) (s : State) :
    (answerUnknown m s).pending = s.pending := by
  simp [answerUnknown, queue_respond, queue_takeRequest]

theorem queue_execFrontierWaitTimeout (ident : Nat) (s : State) :
    ∀ rr, execFrontierWaitTimeout ident s = .next rr → (rr).pending = s.pending := by
  intro r h; unfold execFrontierWaitTimeout at h; grind [queue_when, queue_replySub]

theorem queue_execI3cEntdaa (addr : Nat) (s : State) :
    ∀ rr, execI3cEntdaa addr s = .next rr → (rr).pending = s.pending := by
  intro r h; unfold execI3cEntdaa at h; grind [queue_when, queue_guarded]

theorem queue_execFuncInfo (m : MsgSrc) (s : State) :
    ∀ rr, execFuncInfo m s = .next rr → (rr).pending = s.pending := by
  intro r h; unfold execFuncInfo at h; grind [queue_checked, queue_serve]

theorem queue_execMbxDoorbell (p : RegPkt) (s : State) :
    ∀ rr, execMbxDoorbell p s = .next rr → (rr).pending = s.pending := by
  intro r h; unfold execMbxDoorbell at h; grind [queue_when, queue_doorbell]

theorem queue_enableFn (s : State) (fn : Nat) (ws : Nat) (gw : Nat) :
    (enableFn s fn ws gw).pending = s.pending := by
  simp [enableFn, queue_putFn]

theorem queue_disableDone (s : State) (fn : Nat) :
    (disableDone s fn).pending = s.pending := by
  grind [disableDone, queue_finishAll, queue_enableFn, queue_putFn]

theorem queue_wavelengthRetrain (s : State) (p : Nat) (w : Nat) (rx : Bool) (pass : Bool) :
    (wavelengthRetrain s p w rx pass).pending = s.pending := by
  grind [wavelengthRetrain, queue_score, queue_putPort, queue_emit]

theorem queue_execWavelengthRetrain (port : Nat) (rx : Bool) (wl : Nat) (pass : Bool) (s : State) :
    ∀ rr, execWavelengthRetrain port rx wl pass s = .next rr → (rr).pending = s.pending := by
  intro r h; unfold execWavelengthRetrain at h; grind [queue_wavelengthRetrain, queue_when, queue_guarded]

theorem queue_revertUnit (s : State) (b : Nat × Nat × Option MapUnit) :
    (revertUnit s b).pending = s.pending := by
  grind [revertUnit, queue_putGroup, queue_drawFree]

theorem queue_hostSlot (u : Nat) (a : HostAccess) (s : State) :
    (hostSlot u a s).pending = s.pending := by
  simp [hostSlot, queue_meetError, queue_putUnit, queue_foldl]

theorem queue_execHostSlot (unit : Nat) (a : HostAccess) (s : State) :
    ∀ rr, execHostSlot unit a s = .next rr → (rr).pending = s.pending := by
  intro r h; unfold execHostSlot at h; grind [queue_hostSlot, queue_when, queue_guarded]

theorem queue_regionFree (c : Ctx) (s : State) :
    (regionFree c s).2.pending = s.pending := by
  grind [regionFree, queue_checked, queue_putWs, queue_refuse]

theorem queue_execRegionFree (m : MsgSrc) (s : State) :
    ∀ rr, execRegionFree m s = .next rr → (rr).pending = s.pending := by
  intro r h; unfold execRegionFree at h; grind [queue_regionFree, queue_serve]

theorem queue_dropReqCopy (s : State) (ws : Nat) (ident : Nat) :
    (dropReqCopy s ws ident).pending = s.pending := by
  simp [dropReqCopy]

theorem queue_runEntry (s : State) :
    (runEntry s).pending = s.pending := by
  simp [runEntry, queue_setBootRec, queue_emitDev]

theorem queue_keyStep (x0 : Nat) (c : MarverCtx) (s : State) :
    (keyStep x0 c s).2.pending = s.pending := by
  grind [keyStep]

theorem queue_frameBody (s : State) (p : Nat) (body : List Byte) :
    (frameBody s p body).pending = s.pending := by
  simp [frameBody, queue_putPort]

theorem queue_nakFrame (s : State) (p : Nat) :
    (nakFrame s p).pending = s.pending := by
  simp [nakFrame, queue_putPort]

theorem queue_dataFrame (s : State) (p : Nat) (f : List Byte) :
    (dataFrame s p f).pending = s.pending := by
  grind [dataFrame, queue_frameBody, queue_nakFrame, queue_headActs]

theorem queue_sendRenew (s : State) (g : Group) :
    (sendRenew s g).pending = s.pending := by
  simp [sendRenew, queue_sendMsg, queue_putLease, queue_drawFree]

theorem queue_benchFlip (s : State) :
    (benchFlip s).pending = s.pending := by
  simp only [benchFlip]; (repeat' split) <;> (first | grind [queue_sendRenew] | simp [queue_sendRenew, queue_foldl])

theorem queue_execBenchFlip (s : State) :
    ∀ rr, execBenchFlip s = .next rr → (rr).pending = s.pending := by
  intro r h; unfold execBenchFlip at h; grind [queue_when, queue_benchFlip]

theorem queue_storeStripeUnit (s : State) (ws : Nat) (gid : Nat) (setId : Nat) (index : Nat) (data : List Byte) :
    (storeStripeUnit s ws gid setId index data).2.pending = s.pending := by
  grind [storeStripeUnit, queue_streamWrite]

theorem queue_completeStripe (s : State) (setId : Nat) (index : Nat) :
    (completeStripe s setId index).pending = s.pending := by
  grind [completeStripe, queue_putGroup, queue_putStream]

theorem queue_markDurable (s : State) (setId : Nat) (index : Nat) (member : Nat) :
    (markDurable s setId index member).pending = s.pending := by
  simp [markDurable, queue_completeStripe]

theorem queue_selfStore (s : State) (gid : Nat) (ws : Nat) (setId : Nat) (index : Nat) (members : List Nat) (units : List (List Byte)) :
    (selfStore s gid ws setId index members units).pending = s.pending := by
  grind [selfStore, queue_storeStripeUnit, queue_markDurable]

theorem queue_stripeWait (s : State) :
    (stripeWait s).pending = s.pending := by
  grind [stripeWait, queue_emitDev]

theorem queue_formStripe (g : Nat) (st : Stream) (d : List (List Byte)) (s : State) :
    (formStripe g st d s).pending = s.pending := by
  grind [formStripe, queue_selfStore, queue_putStream, queue_stripeWait]

theorem queue_annealStripe (ws : Nat) (key : Nat) (s : State) :
    (annealStripe ws key s).pending = s.pending := by
  unfold annealStripe; (repeat' split) <;> simp [queue_dropActivity, queue_formStripe, queue_putSession]

theorem queue_changeAbandon (n : Nat) (o : SubOut) (s : State) :
    (changeAbandon n o s).pending = s.pending := by
  unfold changeAbandon; (repeat' split) <;> simp [queue_finishChange, queue_closeSub]

theorem queue_appendEntryStep (ma : Nat) (x : Index) (c : MarverCtx) (s : State) :
    (appendEntryStep ma x c s).2.pending = s.pending := by
  grind [appendEntryStep, queue_appendEntry, queue_writeSlot]

theorem queue_journalChange (s : State) (idx : Nat) (x : Index) (mirror : Bool) (e : Nat) (ordinal : Nat) (p : List Byte)
  (vec : List Nat) :
    (journalChange s idx x mirror e ordinal p vec).2.2.pending = s.pending := by
  simp [journalChange, queue_streamWrite]

theorem queue_markAll (s : State) (x : Index) (e : Nat) (l : List Locator) :
    (markAll s x e l).pending = s.pending := by
  simp [markAll, queue_markSlot, queue_foldl]

theorem queue_applyDelete (s : State) (x : Index) (c : Copy) (e : Nat) (p : List Byte) :
    (applyDelete s x c e p).2.2.2.pending = s.pending := by
  unfold applyDelete; (repeat' split) <;> grind [queue_markAll]

theorem queue_applyHash (s : State) (x : Index) (c : Copy) (e : Nat) (put : Bool) (p : List Byte) :
    (applyHash s x c e put p).2.2.2.pending = s.pending := by
  unfold applyHash; extract_lets key b old mark
  have hm : ∀ t : State, (mark t).pending = t.pending :=
    fun t => queue_foldl _ (fun _ _ => queue_markEntry _ _ _ _) _ _
  split
  · exact hm s
  · split
    · rfl
    · split
      · rfl
      · rename_i h
        exact (queue_appendEntry _ _ _ _ _ _).trans ((hm _).trans (queue_bucketRoom _ _ _ _ _ h))

theorem queue_applyInsert (s : State) (idx : Nat) (x : Index) (mirror : Bool) (c : Copy) (e : Nat) (ordinal : Nat) (p : List Byte)
  (vec : List Nat) :
    (applyInsert s idx x mirror c e ordinal p vec).2.2.2.pending = s.pending := by
  unfold applyInsert; (repeat' split) <;> grind [queue_appendItem, queue_markAll]

theorem queue_applyChange (s : State) (idx : Nat) (x : Index) (mirror : Bool) (c : Copy) (kind : Nat) (e : Nat) (ordinal : Nat)
  (p : List Byte) (vec : List Nat) :
    (applyChange s idx x mirror c kind e ordinal p vec).2.2.2.pending = s.pending := by
  unfold applyChange; (repeat' split) <;> grind [queue_applyDelete, queue_applyHash, queue_applyInsert]

theorem queue_assignChange (s : State) (idx : Nat) (x : Index) (mirror : Bool) (c : Copy) (m : ChangeMsg) (txn : Nat) :
    (assignChange s idx x mirror c m txn).pending = s.pending := by
  unfold assignChange; (repeat' split) <;> grind [queue_journalChange, queue_applyChange, queue_putCopy, queue_answerChange,
    queue_sendChange]

theorem queue_funcEnable (c : Ctx) (s : State) :
    (funcEnable c s).2.pending = s.pending := by
  grind [funcEnable, queue_checked, queue_enableFn, queue_putFn, queue_refuse]

theorem queue_takePools (pools : Option (List (List Nat × Bool))) (s : State) :
    (takePools pools s).pending = s.pending := by
  unfold takePools; (repeat' split) <;> simp

theorem queue_resendChanges (before : State) (idx : Nat) (mirror : Bool) (s : State) :
    (resendChanges before idx mirror s).pending = s.pending := by
  unfold resendChanges; (repeat' split) <;> simp [queue_putCopy, queue_sendChange, queue_foldl]

theorem queue_installGroup (s : State) (g : Group) :
    (installGroup s g).pending = s.pending := by
  simp [installGroup]

theorem queue_promote (s : State) (old : Option Group) (m : Membership) :
    (promote s old m).pending = s.pending := by
  simp [promote]

theorem queue_moveSessions (old : Option Group) (m : Membership) (s : State) :
    (moveSessions old m s).pending = s.pending := by
  unfold moveSessions; (repeat' split) <;> simp

theorem queue_allocRegions (ws : Nat) (units : List Nat) (x2 : List (Nat × Nat)) (x3 : State) :
    ∀ rr, allocRegions ws units x2 x3 = some rr → (rr).2.pending = x3.pending := by
  induction x2 generalizing x3 with
  | nil => intro r h; cases h; rfl
  | cons p t ih =>
    obtain ⟨u, n⟩ := p
    intro r h; unfold allocRegions at h; simp only [Option.bind_eq_some_iff, Option.map_eq_some_iff] at h
    obtain ⟨a, ha, b, hb, h⟩ := h; subst h
    exact (ih _ _ hb).trans (queue_allocMarver _ _ _ _ _ ha)

theorem queue_targetRegions (h : Nat) (shard : Nat) (mirror : Bool) (x3 : List Nat) (x4 : State) :
    ∀ rr, targetRegions h shard mirror x3 x4 = some rr → (rr).pending = x4.pending := by
  induction x3 generalizing x4 with
  | nil => intro r h; cases h; rfl
  | cons v vs ih =>
    intro r h; unfold targetRegions at h; split at h
    · cases h; rfl
    · split at h
      · exact ih _ _ h
      · extract_lets freed at h
        have hf : freed.pending = x4.pending := queue_foldl _ (fun _ _ => queue_freePages _ _) _ _
        rw [Option.bind_eq_some_iff] at h; obtain ⟨a, ha, h⟩ := h
        exact (ih _ _ h).trans ((queue_modVersion _ _ _ _).trans ((queue_allocRegions _ _ _ _ _ ha).trans hf))

theorem queue_targetTable (h : Nat) (shard : Nat) (s : State) :
    (targetTable h shard s).2.pending = s.pending := by
  simp only [targetTable]; (repeat' split) <;> first
    | grind [queue_targetRegions, queue_putTable]
    | simp [queue_targetRegions, queue_putTable, queue_foldl]

theorem queue_targetIndex (idx : Nat) (shard : Nat) (s : State) :
    (targetIndex idx shard s).2.pending = s.pending := by
  unfold targetIndex; (repeat' split) <;> grind [queue_copyStreams, queue_putIndex, queue_freeCopy, → queue_startCopy]

theorem queue_takeTargets (gid : Nat) (shards : List Nat) (s : State) :
    (takeTargets gid shards s).2.pending = s.pending := by
  unfold takeTargets; extract_lets ix tb
  refine queue_foldl_snd _ ?_ _ _
  intro a k
  refine (queue_foldl_snd _ ?_ _ _).trans (queue_foldl_snd _ ?_ _ _)
  · intro q h; exact queue_targetTable _ _ _
  · intro q i; exact queue_targetIndex _ _ _

theorem queue_markSuspect (m : Membership) (s : State) :
    (markSuspect m s).pending = s.pending := by
  unfold markSuspect; (repeat' split) <;> simp [queue_score, queue_emitDev]

theorem queue_recheckRuns (gid : Nat) (s : State) :
    (recheckRuns gid s).pending = s.pending := by
  unfold recheckRuns
  refine queue_foldl _ ?_ _ _
  intro a b; refine queue_foldl _ ?_ _ _
  intro a b; split
  · split
    · exact (queue_drainedAll _ _).trans (queue_putTable _ _ _)
    · rfl
  · rfl

theorem queue_announceGroup (m : Membership) (s : State) :
    (announceGroup m s).pending = s.pending := by
  simp [announceGroup, queue_resendChanges, queue_sendMsg, queue_installGroup, queue_promote, queue_moveSessions, queue_takeTargets,
    queue_markSuspect, queue_recheckRuns, queue_reforward, queue_foldl]

theorem queue_takeMembership (m : Membership) (pools : Option (List (List Nat × Bool))) (s : State) :
    (takeMembership m pools s).pending = s.pending := by
  grind [takeMembership, queue_sendMsg, queue_takePools, queue_announceGroup, queue_takeInbox]

theorem queue_dropStaged (s : State) (kind : Nat) :
    (dropStaged s kind).pending = s.pending := by
  simp [dropStaged, queue_freePages, queue_foldl]

theorem queue_fwActivate (c : Ctx) (s : State) :
    (fwActivate c s).2.pending = s.pending := by
  simp [fwActivate, queue_checked]

theorem queue_ringDestroy (c : Ctx) (s : State) :
    (ringDestroy c s).2.pending = s.pending := by
  simp [ringDestroy, queue_putRing, queue_checked]

theorem queue_execRingDestroy (m : MsgSrc) (s : State) :
    ∀ rr, execRingDestroy m s = .next rr → (rr).pending = s.pending := by
  intro r h; unfold execRingDestroy at h; grind [queue_ringDestroy, queue_serve]

theorem queue_remapFrame (s : State) (p : Nat) (lane : Nat) (w : Nat) :
    (remapFrame s p lane w).pending = s.pending := by
  grind [remapFrame, queue_checkLanes, queue_putPort]

theorem queue_readBootFlash (flash : Option BootFlash) (s : State) :
    (readBootFlash flash s).pending = s.pending := by
  simp [readBootFlash, queue_emitDev]

theorem queue_thermalReport (s : State) :
    (thermalReport s).pending = s.pending := by
  simp [thermalReport, queue_emitFull]

theorem queue_scoreThreshold (s : State) (q : SubIn) :
    (scoreThreshold s q).pending = s.pending := by
  unfold scoreThreshold; (repeat' split) <;> simp [queue_replySub]

theorem queue_serveThreshold (s : State) (q : SubIn) :
    (serveThreshold s q).pending = s.pending := by
  unfold serveThreshold; (repeat' split) <;> simp [queue_replySub]

theorem queue_execThresholdPass (ident : Nat) (s : State) :
    ∀ rr, execThresholdPass ident s = .next rr → (rr).pending = s.pending := by
  intro r h; unfold execThresholdPass at h; grind [queue_scoreThreshold, queue_when, queue_serveThreshold]

theorem queue_execAnnealStripe (ws : Nat) (key : Nat) (s : State) :
    ∀ rr, execAnnealStripe ws key s = .next rr → (rr).pending = s.pending := by
  intro r h; unfold execAnnealStripe at h; grind [queue_annealStripe, queue_when]

theorem queue_movePause (c : Ctx) (s : State) :
    (movePause c s).2.pending = s.pending := by
  grind [movePause, queue_checked, queue_putChan]

theorem queue_execMovePause (m : MsgSrc) (s : State) :
    ∀ rr, execMovePause m s = .next rr → (rr).pending = s.pending := by
  intro r h; unfold execMovePause at h; grind [queue_movePause, queue_serve]

theorem queue_puntyFlip (core : Nat) (s : State) :
    (puntyFlip core s).pending = s.pending := by
  unfold puntyFlip; (repeat' split) <;> simp

theorem queue_execPuntyFlip (core : Nat) (s : State) :
    ∀ rr, execPuntyFlip core s = .next rr → (rr).pending = s.pending := by
  intro r h; unfold execPuntyFlip at h; grind [queue_when, queue_guarded, queue_puntyFlip]

theorem queue_programInfo (c : Ctx) (s : State) :
    (programInfo c s).2.pending = s.pending := by
  grind [programInfo, queue_refuse]

theorem queue_fwStage (c : Ctx) (s : State) :
    (fwStage c s).2.pending = s.pending := by
  unfold fwStage; (repeat' split) <;> grind [→ queue_allocWindow, queue_checked, queue_dropStaged, queue_submit, queue_refuse]

theorem queue_guardHold (s : State) (limit : Nat) (value : Nat) :
    (guardHold s limit value).pending = s.pending := by
  grind [guardHold, queue_emit]

theorem queue_rebuildSet (setId : Nat) (lost : Nat) (units : List (Nat × Nat × List Byte)) (s : State) :
    (rebuildSet setId lost units s).pending = s.pending := by
  simp only [rebuildSet]; (repeat' split) <;> (first | grind [queue_storeStripeUnit] | simp [queue_storeStripeUnit, queue_foldl])

theorem queue_stripeRebuild (setId : Nat) (lost : Nat) (units : List (Nat × Nat × List Byte)) (s : State) :
    (stripeRebuild setId lost units s).pending = s.pending := by
  grind [stripeRebuild, queue_submit, queue_rebuildSet, queue_dropActivity]

theorem queue_execStripeSetRebuild (setId : Nat) (lost : Nat) (units : List (Nat × Nat × List Byte)) (s : State) :
    ∀ rr, execStripeSetRebuild setId lost units s = .next rr → (rr).pending = s.pending := by
  intro r h; unfold execStripeSetRebuild at h; grind [queue_when, queue_stripeRebuild]

theorem queue_loseBuffers (s : State) :
    (loseBuffers s).pending = s.pending := by
  simp [loseBuffers, queue_revertUnit, queue_foldl]

theorem queue_execEntryTrip (cause : Nat) (s : State) :
    ∀ rr, execEntryTrip cause s = .next rr → (rr).pending = s.pending := by
  intro r h; unfold execEntryTrip at h; grind [queue_loseBuffers, queue_when, queue_guarded, queue_railsOff]

theorem queue_guardEnd (s : State) :
    (guardEnd s).pending = s.pending := by
  unfold guardEnd; (repeat' split) <;> simp

theorem queue_caneRetire (c : Ctx) (s : State) :
    (caneRetire c s).2.pending = s.pending := by
  simp [caneRetire, queue_checked, queue_beginCaneRetire]

theorem queue_execCaneRetire (m : MsgSrc) (s : State) :
    ∀ rr, execCaneRetire m s = .next rr → (rr).pending = s.pending := by
  intro r h; unfold execCaneRetire at h; grind [queue_serve, queue_caneRetire]

theorem queue_execModelProgramJob (engine : Nat) (j : Option GafferJob) (err : Option (Nat × Bool)) (s : State) :
    ∀ rr, execModelProgramJob engine j err s = .next rr → (rr).pending = s.pending := by
  intro r h; unfold execModelProgramJob at h; grind [queue_submitJob, queue_guarded, queue_gafferRow]

theorem queue_pumpPools (s : State) :
    (pumpPools s).pending = s.pending := by
  unfold pumpPools; refine queue_foldl _ ?_ _ _; intro a b; (repeat' split) <;> first
    | grind [queue_pumpGather]
    | simp [queue_pumpGather, queue_foldl]
    | simp_all [queue_pumpGather, queue_foldl]

theorem queue_writeLatch (s : State) :
    (writeLatch s).pending = s.pending := by
  unfold writeLatch; (repeat' split) <;> simp [queue_writeRecord]

theorem queue_commitStep (s : State) (x : Slot) :
    (commitStep s x).pending = s.pending := by
  unfold commitStep; (repeat' split) <;> simp [queue_tellSession, queue_putSession]

theorem queue_freeOldChunks (s : State) (idx : Nat) :
    (freeOldChunks s idx).pending = s.pending := by
  unfold freeOldChunks; (repeat' split) <;> simp [queue_putIndex]

theorem queue_releaseRefs (s : State) (x : Slot) :
    (releaseRefs s x).pending = s.pending := by
  grind [releaseRefs, queue_commitStep, queue_refVersion, queue_freeOldChunks, queue_settleOldKv, queue_settleDrains, queue_refSession,
    queue_refIndex, queue_refProgram]

theorem queue_wsSettings (c : Ctx) (s : State) :
    (wsSettings c s).2.pending = s.pending := by
  simp [wsSettings, queue_checked, queue_putWs]

theorem queue_execLehrRoundEnd (ident : Nat) (finished : Bool) (s : State) :
    ∀ rr, execLehrRoundEnd ident finished s = .next rr → (rr).pending = s.pending := by
  intro r h; unfold execLehrRoundEnd at h; grind [queue_lehrRoundEnd, queue_when]

theorem queue_execProbePulse (port : Nat) (s : State) :
    ∀ rr, execProbePulse port s = .next rr → (rr).pending = s.pending := by
  intro r h; unfold execProbePulse at h; grind [queue_when, queue_putPort, queue_guarded]

theorem queue_execMoveRate (m : MsgSrc) (s : State) :
    ∀ rr, execMoveRate m s = .next rr → (rr).pending = s.pending := by
  intro r h; unfold execMoveRate at h; grind [queue_moveRate, queue_serve]

theorem queue_resendHandoff (c : ReqCopy) (s : State) :
    (resendHandoff c s).pending = s.pending := by
  unfold resendHandoff; (repeat' split) <;> simp [queue_sendHandoff, queue_putReqCopy, queue_finishAll]

theorem queue_execHandoffResend (ws : Nat) (ident : Nat) (s : State) :
    ∀ rr, execHandoffResend ws ident s = .next rr → (rr).pending = s.pending := by
  intro r h; unfold execHandoffResend at h; grind [queue_when, queue_resendHandoff]

theorem queue_reqCancel (c : Ctx) (s : State) :
    (reqCancel c s).2.pending = s.pending := by
  grind [reqCancel, queue_recordCancel, queue_sendReq, queue_refuse]

theorem queue_stopActivity (s : State) (a : Activity) :
    (stopActivity s a).pending = s.pending := by
  unfold stopActivity; (repeat' split) <;> simp [queue_finishTicket, queue_dropActivity]

theorem queue_rejectHead (fn : Nat) (r : Nat) (s : State) :
    (rejectHead fn r s).pending = s.pending := by
  grind [rejectHead, queue_putRing, queue_postEntry]

theorem queue_serveHash (s : State) (q : SubIn) :
    (serveHash s q).pending = s.pending := by
  grind [serveHash, queue_replySub]

theorem queue_serveRefine (s : State) (q : SubIn) :
    (serveRefine s q).pending = s.pending := by
  unfold serveRefine; (repeat' split) <;> simp [queue_replySub]

theorem queue_serveIndexSub (s : State) (q : SubIn) :
    (serveIndexSub s q).pending = s.pending := by
  unfold serveIndexSub; (repeat' split) <;> simp [queue_serveScan, queue_serveHash, queue_serveRefine]

theorem queue_execFrontierReached (ident : Nat) (s : State) :
    ∀ rr, execFrontierReached ident s = .next rr → (rr).pending = s.pending := by
  intro r h; unfold execFrontierReached at h; grind [queue_when, queue_whenReached, queue_serveIndexSub]

theorem queue_execSchedInfo (m : MsgSrc) (s : State) :
    ∀ rr, execSchedInfo m s = .next rr → (rr).pending = s.pending := by
  intro r h; unfold execSchedInfo at h; grind [queue_checked, queue_serve]

theorem queue_loadBook (ws : Nat) (layers : Nat) (heads : Nat) (dim : Nat) (l : List Byte) (s : State) :
    (loadBook ws layers heads dim l s).2.2.pending = s.pending := by
  unfold loadBook; split
  · rfl
  · split
    · exact queue_putBook _ _ _
    · extract_lets n; split
      · rfl
      · rename_i p t h; split at h
        · rw [queue_putBook]; exact queue_allocWindow _ _ _ _ _ h
        · exact absurd h (by simp)

theorem queue_takeHandoffAck (c : ReqCopy) (epoch : Nat) (heldNone : Bool) (s : State) :
    (takeHandoffAck c epoch heldNone s).pending = s.pending := by
  unfold takeHandoffAck; (repeat' split) <;> simp [queue_putReqCopy, queue_dropReqCopy, queue_finishAll]

theorem queue_connLost (s : State) (c : Nat) :
    (connLost s c).pending = s.pending := by
  simp [connLost, queue_emit, queue_darken]

theorem queue_execFibreConnLost (cane : Nat) (s : State) :
    ∀ rr, execFibreConnLost cane s = .next rr → (rr).pending = s.pending := by
  intro r h; unfold execFibreConnLost at h; grind [queue_when, queue_guarded, queue_connLost]

theorem queue_annealFlush (ws : Nat) (key : Nat) (s : State) :
    (annealFlush ws key s).pending = s.pending := by
  unfold annealFlush; (repeat' split) <;> simp [queue_submit, queue_putSession]

theorem queue_writeBack (ma : Nat) (c : MarverCtx) (s : State) :
    (writeBack ma c s).2.pending = s.pending := by
  simp [writeBack, queue_storeMa]

theorem queue_gradStep (x0 : Nat) (c : MarverCtx) (s : State) :
    (gradStep x0 c s).2.pending = s.pending := by
  grind [gradStep, queue_writeBack]

theorem queue_execGradRmw (unit : Nat) (errs : List MemErr) (s : State) :
    ∀ rr, execGradRmw unit errs s = .next rr → (rr).pending = s.pending := by
  intro r h; unfold execGradRmw at h; grind [queue_marverRow, queue_gradStep]

theorem queue_violation (s : State) (limit : Nat) (value : Nat) :
    (violation s limit value).pending = s.pending := by
  simp [violation, queue_emit, queue_assertAlarm]

theorem queue_refuseAccess (s : State) (p : Packet) (n : Nat) :
    (refuseAccess s p n).pending = s.pending := by
  grind [refuseAccess, queue_violation]

theorem queue_memWrite (s : State) (p : Packet) :
    (memWrite s p).pending = s.pending := by
  grind [memWrite, queue_takeMsg, queue_sendTxn, queue_refuseAccess]

theorem queue_noteTooShort (s : State) (p : Nat) :
    (noteTooShort s p).pending = s.pending := by
  grind [noteTooShort, queue_putPort, queue_emit]

theorem queue_packetSelect (s : State) (p : Nat) :
    (packetSelect s p).pending = s.pending := by
  grind [packetSelect, queue_sendFrames, queue_noteTooShort, queue_guardHold, queue_putPort, queue_putOnWire, queue_sendHead]

theorem queue_execPacketSelect (port : Nat) (s : State) :
    ∀ rr, execPacketSelect port s = .next rr → (rr).pending = s.pending := by
  intro r h; unfold execPacketSelect at h; grind [queue_packetSelect, queue_when, queue_guarded]

theorem queue_grantResult (s : State) :
    (grantResult s).pending = s.pending := by
  unfold grantResult; (repeat' split) <;> simp [queue_writeBuf]

theorem queue_sendBurst (s : State) (c : Nat) (d : List Byte) (b : Burst) :
    (sendBurst s c d b).pending = s.pending := by
  unfold sendBurst; (repeat' split) <;> simp [queue_sendMemWrite, queue_sendTxn]

theorem queue_grantChannel (s : State) (c : Nat) :
    (grantChannel s c).pending = s.pending := by
  grind [grantChannel, queue_settleChannel, queue_violation, queue_sendBurst, queue_putChan]

theorem queue_moveGrant (s : State) :
    (moveGrant s).pending = s.pending := by
  unfold moveGrant; (repeat' split) <;> simp [queue_grantResult, queue_grantChannel]

theorem queue_execMoveBurstIssue (s : State) :
    ∀ rr, execMoveBurstIssue s = .next rr → (rr).pending = s.pending := by
  intro r h; unfold execMoveBurstIssue at h; grind [queue_moveGrant, queue_when]

theorem queue_copyBurst (k : Nat) (c : MarverCtx) (s : State) :
    (copyBurst k c s).2.pending = s.pending := by
  simp [copyBurst, queue_copyGranules]

theorem queue_busStep (u : Nat) (c : MarverCtx) (s : State) :
    (busStep u c s).2.pending = s.pending := by
  grind [busStep, queue_bankMove, queue_copyBurst]

theorem queue_grantDieBus (die : Nat) (base : Bool) (errs : List MemErr) (s : State) :
    (grantDieBus die base errs s).pending = s.pending := by
  grind [grantDieBus, queue_busStep, queue_endStep, queue_meetErrs]

theorem queue_execDiebusXfer (die : Nat) (base : Bool) (errs : List MemErr) (s : State) :
    ∀ rr, execDiebusXfer die base errs s = .next rr → (rr).pending = s.pending := by
  intro r h; unfold execDiebusXfer at h; grind [queue_when, queue_grantDieBus, queue_guarded]

theorem queue_execUpdateEntry (fn : Nat) (ring : Nat) (h : HostView) (s : State) :
    ∀ rr, execUpdateEntry fn ring h s = .next rr → (rr).pending = s.pending := by
  intro r h; unfold execUpdateEntry at h; (repeat' split at h) <;> grind [→ queue_admitRow, queue_startUpdate, Option.map_eq_some_iff,
    Option.bind_eq_some_iff]

theorem queue_execRequestCompletion (ws : Nat) (ident : Nat) (s : State) :
    ∀ rr, execRequestCompletion ws ident s = .next rr → (rr).pending = s.pending := by
  intro r h; unfold execRequestCompletion at h; grind [queue_endRequest, queue_when, queue_takeMsg]

theorem queue_scanStep (x0 : Nat) (c : MarverCtx) (s : State) :
    (scanStep x0 c s).2.pending = s.pending := by
  unfold scanStep; (repeat' split) <;> simp

theorem queue_execScan8 (unit : Nat) (errs : List MemErr) (s : State) :
    ∀ rr, execScan8 unit errs s = .next rr → (rr).pending = s.pending := by
  intro r h; unfold execScan8 at h; grind [queue_scanStep, queue_marverRow]

theorem queue_rejectHeld (s : State) (h : Nat) :
    (rejectHeld s h).pending = s.pending := by
  simp [rejectHeld, queue_failSlot, queue_foldl]

theorem queue_sessionRoll (ws : Nat) (key : Nat) (ok : Bool) (s : State) :
    (sessionRoll ws key ok s).pending = s.pending := by
  grind [sessionRoll, queue_endAnneal, queue_rejectHeld, queue_tellSession, queue_freeSessionPages, queue_releaseSession,
    queue_dropActivity, queue_putSession, queue_sendSess]

theorem queue_execSessionRoll (ws : Nat) (key : Nat) (ok : Bool) (s : State) :
    ∀ rr, execSessionRoll ws key ok s = .next rr → (rr).pending = s.pending := by
  intro r h; unfold execSessionRoll at h; grind [queue_when, queue_sessionRoll]

theorem queue_tableSwitch (c : Ctx) (s : State) :
    (tableSwitch c s).2.pending = s.pending := by
  grind [tableSwitch, queue_withVersion, queue_putTable, queue_settleTable, queue_refuse]

theorem queue_makeClaim (ws : Nat) (ident : Nat) (entry : Nat) (self : Nat) (copies : List (Nat × ReqCopy)) (s : State) :
    (makeClaim ws ident entry self copies s).pending = s.pending := by
  grind [makeClaim, queue_writeTo, queue_putReqCopy, queue_sendReq]

theorem queue_closeChannel (s : State) (c : Nat) (tickets : List TicketRef) :
    (closeChannel s c tickets).pending = s.pending := by
  simp [closeChannel, queue_finishAll, queue_putChan]

theorem queue_windDown (s : State) (fn : Nat) :
    (windDown s fn).pending = s.pending := by
  unfold windDown; refine queue_foldl _ ?_ _ _; intro a b; (repeat' split) <;> first
    | grind [queue_putRing, queue_drainChannel, queue_settleRing, queue_closeChannel]
    | simp [queue_putRing, queue_drainChannel, queue_settleRing, queue_closeChannel, queue_foldl]
    | simp_all [queue_putRing, queue_drainChannel, queue_settleRing, queue_closeChannel, queue_foldl]

theorem queue_disableFn (s : State) (fn : Nat) (tickets : List TicketRef) :
    (disableFn s fn tickets).pending = s.pending := by
  simp [disableFn, queue_putFn, queue_windDown]

theorem queue_funcDisable (c : Ctx) (s : State) :
    (funcDisable c s).2.pending = s.pending := by
  grind [funcDisable, queue_checked, queue_finishAll, queue_putFn, queue_disableFn]

theorem queue_execFuncDisable (m : MsgSrc) (s : State) :
    ∀ rr, execFuncDisable m s = .next rr → (rr).pending = s.pending := by
  intro r h; unfold execFuncDisable at h; grind [queue_funcDisable, queue_serve]

theorem queue_execModelRun (fn : Nat) (ring : Nat) (h : HostView) (s : State) :
    ∀ rr, execModelRun fn ring h s = .next rr → (rr).pending = s.pending := by
  intro r h; unfold execModelRun at h; (repeat' split at h) <;> grind [→ queue_admitRow, queue_startModel, Option.map_eq_some_iff,
    Option.bind_eq_some_iff]

theorem queue_execSessionJournalWrite (ws : Nat) (key : Nat) (e : JournalEnt) (s : State) :
    ∀ rr, execSessionJournalWrite ws key e s = .next rr → (rr).pending = s.pending := by
  intro r h; unfold execSessionJournalWrite at h; grind [queue_when, queue_partnerWrite]

theorem queue_enterUnlocked (s : State) :
    (enterUnlocked s).pending = s.pending := by
  simp [enterUnlocked, queue_emitDev]

theorem queue_execHoldover (s : State) :
    ∀ rr, execHoldover s = .next rr → (rr).pending = s.pending := by
  intro r h; unfold execHoldover at h; grind [queue_when, queue_enterUnlocked]

theorem queue_regionAlloc (c : Ctx) (s : State) :
    (regionAlloc c s).2.pending = s.pending := by
  unfold regionAlloc; (repeat' split) <;> grind [→ queue_allocWindow, queue_checked, queue_putWs, queue_refuse]

theorem queue_execCoalescingTimer (fn : Nat) (vec : Nat) (s : State) :
    ∀ rr, execCoalescingTimer fn vec s = .next rr → (rr).pending = s.pending := by
  intro r h; unfold execCoalescingTimer at h; grind [queue_interruptDue, queue_when, queue_guarded]

theorem queue_tableExport (c : Ctx) (s : State) :
    (tableExport c s).2.pending = s.pending := by
  grind [tableExport, queue_checked, queue_refVersion, queue_withTable, queue_refuse]

theorem queue_execTableExport (m : MsgSrc) (s : State) :
    ∀ rr, execTableExport m s = .next rr → (rr).pending = s.pending := by
  intro r h; unfold execTableExport at h; grind [queue_tableExport, queue_serve]

theorem queue_tableStreams (s : State) (h : Nat) (t : Table) :
    (tableStreams s h t).pending = s.pending := by
  unfold tableStreams; (repeat' split) <;> grind [→ queue_createStream]

theorem queue_tableCreate (c : Ctx) (s : State) :
    (tableCreate c s).2.pending = s.pending := by
  simp [tableCreate, queue_checked, queue_putTable, queue_tableStreams]

theorem queue_readTemp (s : State) (g : Nat) (t : Int) :
    (readTemp s g t).pending = s.pending := by
  grind [readTemp, queue_putGroup]

theorem queue_execDeleteEntry (fn : Nat) (ring : Nat) (h : HostView) (s : State) :
    ∀ rr, execDeleteEntry fn ring h s = .next rr → (rr).pending = s.pending := by
  intro r h; unfold execDeleteEntry at h; (repeat' split at h) <;> grind [→ queue_admitRow, queue_startDelete, Option.map_eq_some_iff,
    Option.bind_eq_some_iff]

theorem queue_appendStep (x0 : Nat) (c : MarverCtx) (s : State) :
    (appendStep x0 c s).2.pending = s.pending := by
  grind [appendStep, queue_appendEntryStep, queue_storeMa]

theorem queue_execMarverAppend (unit : Nat) (errs : List MemErr) (s : State) :
    ∀ rr, execMarverAppend unit errs s = .next rr → (rr).pending = s.pending := by
  intro r h; unfold execMarverAppend at h; grind [queue_marverRow, queue_appendStep]

theorem queue_enterStrap (s : State) :
    (enterStrap s).pending = s.pending := by
  simp [enterStrap]

theorem queue_excludeWaiting (s : State) :
    (excludeWaiting s).pending = s.pending := by
  simp [excludeWaiting]

theorem queue_archiveUnit (s : State) :
    (archiveUnit s).pending = s.pending := by
  unfold archiveUnit; (repeat' split) <;> simp [queue_excludeWaiting]

theorem queue_execArchiveWrite (s : State) :
    ∀ rr, execArchiveWrite s = .next rr → (rr).pending = s.pending := by
  intro r h; unfold execArchiveWrite at h; grind [queue_when, queue_archiveUnit]

theorem queue_takeAllEvents (x0 : Nat) (x1 : State) :
    (takeAllEvents x0 x1).pending = x1.pending := by
  fun_induction takeAllEvents <;> simp_all [queue_intakeOne]

theorem queue_linkLocal (s : State) (port : Nat) (msg : Nat) (body : List Byte) :
    (linkLocal s port msg body).pending = s.pending := by
  simp [linkLocal, queue_putPort]

theorem queue_execHelloSendTimer (port : Nat) (s : State) :
    ∀ rr, execHelloSendTimer port s = .next rr → (rr).pending = s.pending := by
  intro r h; unfold execHelloSendTimer at h; grind [queue_linkLocal, queue_when, queue_putPort, queue_guarded]

theorem queue_indexDrop (c : Ctx) (s : State) :
    (indexDrop c s).2.pending = s.pending := by
  unfold indexDrop; (repeat' split) <;> simp [queue_dropIndex, queue_withIndex, queue_refuse]

theorem queue_execIndexDrop (m : MsgSrc) (s : State) :
    ∀ rr, execIndexDrop m s = .next rr → (rr).pending = s.pending := by
  intro r h; unfold execIndexDrop at h; grind [queue_indexDrop, queue_serve]

theorem queue_execProgramInfo (m : MsgSrc) (s : State) :
    ∀ rr, execProgramInfo m s = .next rr → (rr).pending = s.pending := by
  intro r h; unfold execProgramInfo at h; grind [queue_programInfo, queue_serve]

theorem queue_startHashChange (put : Bool) (b : Src) (n : Nat) (s : State) :
    (startHashChange put b n s).pending = s.pending := by
  unfold startHashChange; (repeat' split) <;> simp [queue_failSlot, queue_startChange]

theorem queue_carrierOnline (c : Ctx) (s : State) :
    (carrierOnline c s).2.pending = s.pending := by
  grind [carrierOnline, queue_putGroup, queue_checked, queue_finishTicket]

theorem queue_execFlashCarrierOnline (m : MsgSrc) (s : State) :
    ∀ rr, execFlashCarrierOnline m s = .next rr → (rr).pending = s.pending := by
  intro r h; unfold execFlashCarrierOnline at h; grind [queue_carrierOnline, queue_serve]

theorem queue_execE2eAck (src : Nat) (vc : Nat) (seq : Nat) (nak : Bool) (s : State) :
    ∀ rr, execE2eAck src vc seq nak s = .next rr → (rr).pending = s.pending := by
  intro r h; unfold execE2eAck at h; grind [queue_when, queue_e2eAck]

theorem queue_tick (s : State) :
    (tick s).pending = s.pending := by
  simp [tick]

theorem queue_launchHash (n : Nat) (s : State) :
    (launchHash n s).pending = s.pending := by
  unfold launchHash; (repeat' split) <;> simp [queue_askHash, queue_putSlot, queue_failSlot]

theorem queue_startHashGet (b : Src) (n : Nat) (s : State) :
    (startHashGet b n s).pending = s.pending := by
  unfold startHashGet; (repeat' split) <;> simp [queue_putSlot, queue_launchHash, queue_failSlot, queue_refIndex]

theorem queue_execHashGet (fn : Nat) (ring : Nat) (h : HostView) (s : State) :
    ∀ rr, execHashGet fn ring h s = .next rr → (rr).pending = s.pending := by
  intro r h; unfold execHashGet at h; (repeat' split at h) <;> grind [queue_startHashGet, → queue_admitRow, Option.map_eq_some_iff,
    Option.bind_eq_some_iff]

theorem queue_poolStep (x0 : Nat) (c : MarverCtx) (s : State) :
    (poolStep x0 c s).2.pending = s.pending := by
  unfold poolStep; (repeat' split) <;> simp

theorem queue_execMarverPool (unit : Nat) (errs : List MemErr) (s : State) :
    ∀ rr, execMarverPool unit errs s = .next rr → (rr).pending = s.pending := by
  intro r h; unfold execMarverPool at h; grind [queue_poolStep, queue_marverRow]

theorem queue_execGroupInfo (m : MsgSrc) (s : State) :
    ∀ rr, execGroupInfo m s = .next rr → (rr).pending = s.pending := by
  intro r h; unfold execGroupInfo at h; grind [queue_checked, queue_serve, queue_refuse]

theorem queue_loadRow (s : State) (t : Table) (x : Version) (r : List Byte) :
    (loadRow s t x r).pending = s.pending := by
  unfold loadRow; (repeat' split) <;> simp [queue_sendRow, queue_writeRows]

theorem queue_runLoad (s : State) (h : Nat) (t : Table) (x : Version) (dpa : Nat) (first : Nat) (n : Nat) :
    (runLoad s h t x dpa first n).2.pending = s.pending := by
  simp only [runLoad]; (repeat' split) <;> first
    | grind [queue_journalLoad, queue_loadRow]
    | simp [queue_journalLoad, queue_loadRow, queue_foldl]

theorem queue_postSlot (s : State) (x : Slot) (e : List Byte) :
    (postSlot s x e).pending = s.pending := by
  unfold postSlot; (repeat' split) <;> simp [queue_sendReq, queue_postEntry]

theorem queue_trainTimeout (s : State) (p : Nat) :
    (trainTimeout s p).pending = s.pending := by
  unfold trainTimeout; (repeat' split) <;> simp [queue_endRetrain, queue_recalPortEnd, queue_noteRetrain, queue_setPort]

theorem queue_execPortTrainTimeout (port : Nat) (s : State) :
    ∀ rr, execPortTrainTimeout port s = .next rr → (rr).pending = s.pending := by
  intro r h; unfold execPortTrainTimeout at h; grind [queue_trainTimeout, queue_when, queue_guarded]

theorem queue_execTableDrop (m : MsgSrc) (s : State) :
    ∀ rr, execTableDrop m s = .next rr → (rr).pending = s.pending := by
  intro r h; unfold execTableDrop at h; grind [queue_tableDrop, queue_serve]

theorem queue_setRate (s : State) :
    (setRate s).pending = s.pending := by
  simp [setRate, queue_drawFree]

theorem queue_ppsPulse (s : State) :
    (ppsPulse s).pending = s.pending := by
  grind [ppsPulse, queue_setRate]

theorem queue_execPpsPulse (s : State) :
    ∀ rr, execPpsPulse s = .next rr → (rr).pending = s.pending := by
  intro r h; unfold execPpsPulse at h; grind [queue_when, queue_ppsPulse]

theorem queue_execReleaseSend (group : Nat) (s : State) :
    ∀ rr, execReleaseSend group s = .next rr → (rr).pending = s.pending := by
  intro r h; unfold execReleaseSend at h; grind [queue_when, queue_putLease, queue_sendLease]

theorem queue_classSet (c : Ctx) (s : State) :
    (classSet c s).2.pending = s.pending := by
  simp [classSet, queue_checked]

theorem queue_execEvrClassSet (m : MsgSrc) (s : State) :
    ∀ rr, execEvrClassSet m s = .next rr → (rr).pending = s.pending := by
  intro r h; unfold execEvrClassSet at h; grind [queue_classSet, queue_serve]

theorem queue_execUnknownOpcode (m : MsgSrc) (s : State) :
    ∀ rr, execUnknownOpcode m s = .next rr → (rr).pending = s.pending := by
  intro r h; unfold execUnknownOpcode at h; grind [queue_when, queue_answerUnknown]

theorem queue_burstWrite (s : State) (ma : Bool) (a : Nat) (data : List Byte) :
    (burstWrite s ma a data).pending = s.pending := by
  unfold burstWrite; (repeat' split) <;> simp [queue_storeMa]

theorem queue_burstEnd (s : State) (c : Nat) (j : MoveJob) (b : Burst) (h : HostAnswer) :
    (burstEnd s c j b h).pending = s.pending := by
  simp only [burstEnd]; (repeat' split) <;> first
    | grind [queue_burstWrite, queue_sendBurst, queue_putChan]
    | simp [queue_burstWrite, queue_sendBurst, queue_putChan, queue_foldl]

theorem queue_execMoveBurstDone (chan : Nat) (off : Nat) (h : HostAnswer) (s : State) :
    ∀ rr, execMoveBurstDone chan off h s = .next rr → (rr).pending = s.pending := by
  intro r h; unfold execMoveBurstDone at h; grind [queue_settleChannel, queue_burstEnd, queue_when, queue_guarded]

theorem queue_execRunEntry (s : State) :
    ∀ rr, execRunEntry s = .next rr → (rr).pending = s.pending := by
  intro r h; unfold execRunEntry at h; grind [queue_when, queue_runEntry]

theorem queue_dropSummary (s : State) :
    (dropSummary s).pending = s.pending := by
  grind [dropSummary, queue_recordEvent]

theorem queue_wsInfo (c : Ctx) (s : State) :
    (wsInfo c s).2.pending = s.pending := by
  simp [wsInfo, queue_checked]

theorem queue_takeChange (s : State) (idx : Nat) (x : Index) (mirror : Bool) (c : Copy) (m : ChangeMsg) (txn : Nat) :
    (takeChange s idx x mirror c m txn).pending = s.pending := by
  unfold takeChange; (repeat' split) <;> grind [queue_journalChange, queue_applyChange, queue_sendWhole, queue_putCopy]

theorem queue_dropSlot (s : State) (n : Nat) :
    (dropSlot s n).pending = s.pending := by
  simp [dropSlot]

theorem queue_freeJacks (s : State) (slot : Nat) :
    (freeJacks s slot).pending = s.pending := by
  simp [freeJacks]

theorem queue_releaseSlot (n : Nat) (s : State) :
    (releaseSlot n s).pending = s.pending := by
  unfold releaseSlot; (repeat' split) <;> simp [queue_postSlot, queue_dropSlot, queue_releaseRefs, queue_freeJacks, queue_dropStub
    ]

theorem queue_indexCreate (c : Ctx) (s : State) :
    (indexCreate c s).2.pending = s.pending := by
  unfold indexCreate; (repeat' split) <;> grind [→ queue_buildIndex, queue_checked, queue_refuse]

theorem queue_healthSet (c : Ctx) (s : State) :
    (healthSet c s).2.pending = s.pending := by
  unfold healthSet; extract_lets d k w a t again
  refine queue_checked _ _ _ ?_
  refine queue_foldl _ ?_ _ _
  intro u p; extract_lets x v; split
  · rfl
  · exact (queue_putScore _ _ _ _).trans (queue_score _ _ _ _ _)

theorem queue_joinSnap (s : State) (idx : Nat) (shard : Nat) (sn : Snapshot) :
    (joinSnap s idx shard sn).pending = s.pending := by
  unfold joinSnap; (repeat' split) <;> simp [queue_putIndex]

theorem queue_tellGroup (s : State) (gid : Nat) (vc : Nat) (ws : Nat) (msg : Nat) (body : List Byte) :
    (tellGroup s gid vc ws msg body).pending = s.pending := by
  simp [tellGroup, queue_sendMsg, queue_foldl]

theorem queue_takeSnap (idx : Nat) (mirror : Bool) (s : State) :
    (takeSnap idx mirror s).pending = s.pending := by
  unfold takeSnap; (repeat' split) <;> simp [queue_joinSnap, queue_putCopy, queue_tellGroup]

theorem queue_execStatsSnapshot (index : Nat) (mirror : Bool) (s : State) :
    ∀ rr, execStatsSnapshot index mirror s = .next rr → (rr).pending = s.pending := by
  intro r h; unfold execStatsSnapshot at h; grind [queue_when, queue_guarded, queue_takeSnap]

theorem queue_execCoreFault (jack : Bool) (inst : Nat) (s : State) :
    ∀ rr, execCoreFault jack inst s = .next rr → (rr).pending = s.pending := by
  intro r h; unfold execCoreFault at h; grind [queue_score, queue_when, queue_emit, queue_guarded]

theorem queue_moveOpen (c : Ctx) (s : State) :
    (moveOpen c s).2.pending = s.pending := by
  simp [moveOpen, queue_putRing, queue_checked, queue_putChan]

theorem queue_stripeForm (stream : Nat) (fold : Bool) (s : State) :
    (stripeForm stream fold s).pending = s.pending := by
  unfold stripeForm; (repeat' split) <;> simp [queue_formStripe]

theorem queue_sampleQueues (s : State) (p : Nat) :
    (sampleQueues s p).pending = s.pending := by
  simp [sampleQueues, queue_putPort]

theorem queue_resumeChan (s : State) (n : Nat) :
    (resumeChan s n).pending = s.pending := by
  grind [resumeChan, queue_finishAll, queue_putChan]

theorem queue_moveResume (c : Ctx) (s : State) :
    (moveResume c s).2.pending = s.pending := by
  simp [moveResume, queue_checked, queue_resumeChan]

theorem queue_execMoveResume (m : MsgSrc) (s : State) :
    ∀ rr, execMoveResume m s = .next rr → (rr).pending = s.pending := by
  intro r h; unfold execMoveResume at h; grind [queue_serve, queue_moveResume]

theorem queue_retireBlock (s : State) (g : Nat) (b : Nat) :
    (retireBlock s g b).pending = s.pending := by
  simp [retireBlock, queue_putGroup, queue_emit, queue_emptyBlock, queue_checkSpare]

theorem queue_retireScored (s : State) (g : Nat) (b : Nat) (c : Nat) (t : Nat) :
    (retireScored s g b c t).pending = s.pending := by
  simp [retireScored, queue_score, queue_retireBlock]

theorem queue_flashRead (s : State) (o : FlashOp) (r : FlashOutcome) :
    (flashRead s o r).pending = s.pending := by
  unfold flashRead; extract_lets x t t1
  have h1 : t1.pending = s.pending := by
    simp only [t1]; split
    · exact (queue_score _ _ _ _ _).trans (queue_putGroup _ _ _)
    · exact queue_putGroup _ _ _
  split
  · rw [queue_score, queue_score, queue_retireScored]
    exact (queue_putGroup _ _ _).trans ((queue_loseUnit _ _ _).trans h1)
  · split
    · split
      · rename_i m _
        cases hh : placeUnit t1 o.group o.unit m.data m.gen 4 true with
        | none => exact h1
        | some v => exact (queue_placeUnit _ _ _ _ _ _ _ _ hh).trans h1
      · exact h1
    · exact h1

theorem queue_runFlashOp (s : State) (o : FlashOp) (r : FlashOutcome) :
    (runFlashOp s o r).pending = s.pending := by
  unfold runFlashOp; (repeat' split) <;> simp [queue_putGroup, queue_retireScored, queue_flashRead]

theorem queue_flashOperation (c : Nat) (t : Nat) (r : FlashOutcome) (s : State) :
    (flashOperation c t r s).pending = s.pending := by
  grind [flashOperation, queue_runFlashOp, queue_takeOutTarget, queue_score, queue_guardHold, queue_putFChan]

theorem queue_takeAnnounce (ws : Nat) (key : Nat) (v : Nat) (u : Nat) (coord : Nat) (s : State) :
    (takeAnnounce ws key v u coord s).pending = s.pending := by
  grind [takeAnnounce, queue_takeCtrl, queue_putTable, queue_settleDrains, queue_sendCtrl]

theorem queue_execAnnounce (ws : Nat) (key : Nat) (v : Nat) (u : Nat) (coord : Nat) (s : State) :
    ∀ rr, execAnnounce ws key v u coord s = .next rr → (rr).pending = s.pending := by
  intro r h; unfold execAnnounce at h; grind [queue_when, queue_takeAnnounce]

theorem queue_carrierOffline (c : Ctx) (s : State) :
    (carrierOffline c s).2.pending = s.pending := by
  simp [carrierOffline, queue_putGroup, queue_checked]

theorem queue_sendLinkState (s : State) :
    (sendLinkState s).pending = s.pending := by
  simp [sendLinkState, queue_sendMsg, queue_foldl]

theorem queue_execLinkStateTimer (s : State) :
    ∀ rr, execLinkStateTimer s = .next rr → (rr).pending = s.pending := by
  intro r h; unfold execLinkStateTimer at h; grind [queue_sendLinkState, queue_when]

theorem queue_sessionInfo (c : Ctx) (s : State) :
    (sessionInfo c s).2.pending = s.pending := by
  unfold sessionInfo; (repeat' split) <;> simp [queue_refuse]

theorem queue_indexStats (c : Ctx) (s : State) :
    (indexStats c s).2.pending = s.pending := by
  grind [indexStats, queue_checked, queue_withIndex, queue_refuse]

theorem queue_startRequest (b : Src) (n : Nat) (s : State) :
    (startRequest b n s).pending = s.pending := by
  unfold startRequest; (repeat' split) <;> simp [queue_writeTo, queue_putSlot, queue_failSlot]

theorem queue_execGuardInfo (m : MsgSrc) (s : State) :
    ∀ rr, execGuardInfo m s = .next rr → (rr).pending = s.pending := by
  intro r h; unfold execGuardInfo at h; grind [queue_serve]

theorem queue_serveGather (s : State) (q : SubIn) :
    (serveGather s q).pending = s.pending := by
  unfold serveGather; (repeat' split) <;> simp [queue_replySub]

theorem queue_execQueryEntry (fn : Nat) (ring : Nat) (h : HostView) (s : State) :
    ∀ rr, execQueryEntry fn ring h s = .next rr → (rr).pending = s.pending := by
  intro r h; unfold execQueryEntry at h; (repeat' split at h) <;> grind [queue_startQuery, → queue_admitRow, Option.map_eq_some_iff,
    Option.bind_eq_some_iff]

theorem queue_execUcodeSwitch (unit : Nat) (s : State) :
    ∀ rr, execUcodeSwitch unit s = .next rr → (rr).pending = s.pending := by
  intro r h; unfold execUcodeSwitch at h; grind [queue_when, queue_guarded, queue_ucodeSwitch]

theorem queue_guardHalt (s : State) :
    (guardHalt s).pending = s.pending := by
  simp [guardHalt]

theorem queue_trimOrdPages (s : State) (c : Copy) :
    (trimOrdPages s c).2.pending = s.pending := by
  simp [trimOrdPages, queue_freePages, queue_foldl]

theorem queue_compactChunk (idx : Nat) (mirror : Bool) (x : Index) (c : Copy) (list : Nat) (seq : Nat) (s : State) :
    (compactChunk idx mirror x c list seq s).pending = s.pending := by
  unfold compactChunk; dsimp only; split
  · rfl
  · split
    · rfl
    · split
      · rfl
      · rename_i dst d t hp
        have ht : t.pending = s.pending := by
          split at hp
          · cases hp; rfl
          · rw [Option.map_eq_some_iff] at hp; obtain ⟨a, ha, hp⟩ := hp; cases hp
            exact queue_placeChunk _ _ _ _ _ ha
        cases dst with
        | some a =>
          dsimp only; split
          · refine (queue_freeOldChunks _ _).trans ((queue_putIndex _ _ _).trans ?_)
            exact (queue_putCopy _ _ _ _).trans ((queue_trimOrdPages _ _).trans ((queue_foldl _ (fun _ _ => queue_writeSlot _ _ _ _ _) _ _).trans ((queue_storeMa _ _ _).trans ht)))
          · exact (queue_putCopy _ _ _ _).trans ((queue_trimOrdPages _ _).trans ((queue_foldl _ (fun _ _ => queue_writeSlot _ _ _ _ _) _ _).trans ((queue_storeMa _ _ _).trans ht)))
        | none =>
          dsimp only; split
          · refine (queue_freeOldChunks _ _).trans ((queue_putIndex _ _ _).trans ?_)
            exact (queue_putCopy _ _ _ _).trans ((queue_trimOrdPages _ _).trans ht)
          · exact (queue_putCopy _ _ _ _).trans ((queue_trimOrdPages _ _).trans ht)

theorem queue_compactBucket (x : Index) (c : Copy) (bucket : Nat) (pos : Nat) (s : State) :
    (compactBucket x c bucket pos s).pending = s.pending := by
  simp only [compactBucket]; (repeat' split) <;> first
    | grind [queue_appendEntry, queue_storeMa]
    | simp [queue_appendEntry, queue_storeMa, queue_foldl]

theorem queue_compactRow (idx : Nat) (mirror : Bool) (list : Nat) (seq : Nat) (s : State) :
    (compactRow idx mirror list seq s).pending = s.pending := by
  unfold compactRow; (repeat' split) <;> simp [queue_compactChunk, queue_compactBucket]

theorem queue_execCompact (index : Nat) (mirror : Bool) (list : Nat) (seq : Nat) (s : State) :
    ∀ rr, execCompact index mirror list seq s = .next rr → (rr).pending = s.pending := by
  intro r h; unfold execCompact at h; grind [queue_when, queue_guarded, queue_compactRow]

theorem queue_openFibre (s : State) (p : Nat) :
    (openFibre s p).pending = s.pending := by
  grind [openFibre, queue_putPort, queue_emit, queue_endRetrain, queue_recalPortEnd, queue_noteRetrain, queue_setPort]

theorem queue_chooseImg (s : State) (fwVersion : Nat) :
    (chooseImg s fwVersion).2.pending = s.pending := by
  unfold chooseImg; (repeat' split) <;> grind [queue_chooseSlot, queue_considered]

theorem queue_submitModel (n : Nat) (s : State) :
    (submitModel n s).pending = s.pending := by
  unfold submitModel; (repeat' split) <;> simp [queue_putSlot, queue_putProgram, queue_putGaffer]

theorem queue_execProgramUnload (m : MsgSrc) (s : State) :
    ∀ rr, execProgramUnload m s = .next rr → (rr).pending = s.pending := by
  intro r h; unfold execProgramUnload at h; grind [queue_programUnload, queue_serve]

theorem queue_execUpdateSeqRelease (slot : Nat) (s : State) :
    ∀ rr, execUpdateSeqRelease slot s = .next rr → (rr).pending = s.pending := by
  intro r h; unfold execUpdateSeqRelease at h; grind [queue_when, queue_releaseUpdate]

theorem queue_restart (s : State) :
    (restart s).pending = s.pending := by
  unfold restart; (repeat' split) <;> simp [queue_enterPower, queue_railsOff]

theorem queue_archiveForFlush (s : State) :
    (archiveForFlush s).pending = s.pending := by
  unfold archiveForFlush; (repeat' split) <;> simp

theorem queue_programBuffers (s : State) :
    (programBuffers s).pending = s.pending := by
  simp [programBuffers]

theorem queue_flushDone (s : State) :
    (flushDone s).pending = s.pending := by
  unfold flushDone; (repeat' split) <;> simp [queue_restart, queue_archiveForFlush, queue_takeAllEvents, queue_railsOff,
    queue_programBuffers]

theorem queue_execFlushDone (s : State) :
    ∀ rr, execFlushDone s = .next rr → (rr).pending = s.pending := by
  intro r h; unfold execFlushDone at h; grind [queue_when, queue_flushDone]

theorem queue_drainQueue (s : State) (fn : Nat) (x2 : Nat) :
    (drainQueue s fn x2).pending = s.pending := by
  fun_induction drainQueue <;> simp_all [queue_putFn, queue_postInto]

theorem queue_respReady (p : RegPkt) (s : State) :
    (respReady p s).pending = s.pending := by
  simp [respReady, queue_drainQueue, queue_putFn, queue_ackWrite]

theorem queue_execMembership (m : Membership) (pools : Option (List (List Nat × Bool))) (s : State) :
    ∀ rr, execMembership m pools s = .next rr → (rr).pending = s.pending := by
  intro r h; unfold execMembership at h; grind [queue_takeMembership]

theorem queue_execMoveInfo (m : MsgSrc) (s : State) :
    ∀ rr, execMoveInfo m s = .next rr → (rr).pending = s.pending := by
  intro r h; unfold execMoveInfo at h; grind [queue_checked, queue_serve]

theorem queue_execTopkEntry (fn : Nat) (ring : Nat) (h : HostView) (s : State) :
    ∀ rr, execTopkEntry fn ring h s = .next rr → (rr).pending = s.pending := by
  intro r h; unfold execTopkEntry at h; (repeat' split at h) <;> grind [→ queue_admitRow, queue_startTopk, Option.map_eq_some_iff,
    Option.bind_eq_some_iff]

theorem queue_schedGateLoad (c : Ctx) (s : State) :
    (schedGateLoad c s).2.pending = s.pending := by
  grind [schedGateLoad, queue_checked, queue_putPort, queue_finishTicket]

theorem queue_execEventIntake (s : State) :
    ∀ rr, execEventIntake s = .next rr → (rr).pending = s.pending := by
  intro r h; unfold execEventIntake at h; grind [queue_when, queue_intakeOne]

theorem queue_execTableInfo (m : MsgSrc) (s : State) :
    ∀ rr, execTableInfo m s = .next rr → (rr).pending = s.pending := by
  intro r h; unfold execTableInfo at h; grind [queue_tableInfo, queue_serve]

theorem queue_submitCoarse (e : Nat) (j : GafferJob) (s : State) :
    (submitCoarse e j s).pending = s.pending := by
  grind [submitCoarse, queue_putGaffer]

theorem queue_execCoarseScoring (engine : Nat) (j : Option GafferJob) (err : Option (Nat × Bool)) (s : State) :
    ∀ rr, execCoarseScoring engine j err s = .next rr → (rr).pending = s.pending := by
  intro r h; unfold execCoarseScoring at h; grind [queue_submitCoarse, queue_guarded, queue_gafferRow]

theorem queue_execHashGetSubrequest (ident : Nat) (s : State) :
    ∀ rr, execHashGetSubrequest ident s = .next rr → (rr).pending = s.pending := by
  intro r h; unfold execHashGetSubrequest at h; grind [queue_admitSub, queue_whenReached, queue_serveHash]

theorem queue_finishModel (n : Nat) (s : State) :
    (finishModel n s).pending = s.pending := by
  unfold finishModel; (repeat' split) <;> simp [queue_completeSlot, queue_failSlot]

theorem queue_runSlot (n : Nat) (x : Slot) (s : State) :
    (runSlot n x s).pending = s.pending := by
  unfold runSlot; (repeat' split) <;> simp [queue_finishModel, queue_launchHash, queue_launchQuery, queue_launchGather,
    queue_launchStep, queue_submitModel]

theorem queue_schedule (core : Nat) (s : State) :
    (schedule core s).pending = s.pending := by
  grind [schedule, queue_runSlot]

theorem queue_moveBlock (s : State) (g : Nat) (src : Nat) (dst : Nat) :
    (moveBlock s g src dst).pending = s.pending := by
  simp [moveBlock, queue_putGroup, queue_queueOp, queue_foldl]

theorem queue_wearMove (g : Nat) (s : State) :
    (wearMove g s).pending = s.pending := by
  grind [wearMove, queue_dropActivity, queue_moveBlock, queue_requestGroupActivity]

theorem queue_execWearMove (group : Nat) (s : State) :
    ∀ rr, execWearMove group s = .next rr → (rr).pending = s.pending := by
  intro r h; unfold execWearMove at h; grind [queue_wearMove, queue_when, queue_guarded]

theorem queue_resetSample (s : State) (p : Nat) (cls : Nat) (ws : Nat) :
    (resetSample s p cls ws).pending = s.pending := by
  simp [resetSample, queue_putPort]

theorem queue_allocVersion (s : State) (t : Table) :
    ∀ rr, allocVersion s t = some rr → (rr).2.pending = s.pending := by
  intro r h; unfold allocVersion at h; (repeat' split at h) <;> grind [→ queue_allocWindow, → queue_allocRegions,
    Option.map_eq_some_iff, Option.bind_eq_some_iff]

theorem queue_stageRegions (c : Ctx) (s : State) (h : Nat) (t : Table) :
    (stageRegions c s h t).2.pending = s.pending := by
  unfold stageRegions; extract_lets copy
  refine queue_checked _ _ _ ?_
  split
  · rfl
  · rename_i x u h
    have h1 := queue_allocVersion _ _ _ h
    extract_lets put
    have hp : put.pending = s.pending := (queue_putTable _ _ _).trans h1
    split
    · exact (queue_refVersion _ _ _ _).trans hp
    · exact hp

theorem queue_tableStage (c : Ctx) (s : State) :
    (tableStage c s).2.pending = s.pending := by
  grind [tableStage, queue_withTable, queue_stagePool, queue_stageRegions]

theorem queue_ptpSend (s : State) (port : Nat) (kind : Nat) :
    (ptpSend s port kind).pending = s.pending := by
  simp [ptpSend, queue_linkLocal]

theorem queue_execOwnerBeat (ws : Nat) (ident : Nat) (s : State) :
    ∀ rr, execOwnerBeat ws ident s = .next rr → (rr).pending = s.pending := by
  intro r h; unfold execOwnerBeat at h; grind [queue_when, queue_sendBeat]

theorem queue_execFuncDisableDone (fn : Nat) (s : State) :
    ∀ rr, execFuncDisableDone fn s = .next rr → (rr).pending = s.pending := by
  intro r h; unfold execFuncDisableDone at h; grind [queue_when, queue_guarded, queue_disableDone]

theorem queue_execInputHigh (s : State) :
    ∀ rr, execInputHigh s = .next rr → (rr).pending = s.pending := by
  intro r h; unfold execInputHigh at h; grind [queue_when, queue_emit]

theorem queue_execRingRejection (fn : Nat) (ring : Nat) (s : State) :
    ∀ rr, execRingRejection fn ring s = .next rr → (rr).pending = s.pending := by
  intro r h; unfold execRingRejection at h; grind [queue_guarded, queue_rejectHead]

theorem queue_fwRevert (s : State) :
    (fwRevert s).pending = s.pending := by
  unfold fwRevert; (repeat' split) <;> simp [queue_emitDev, queue_finishTicket]

theorem queue_takeFrontier (ws : Nat) (key : Nat) (shard : Nat) (value : Nat) (src : Nat) (s : State) :
    (takeFrontier ws key shard value src s).pending = s.pending := by
  unfold takeFrontier; (repeat' split) <;> simp [queue_putIndex, queue_takeInbox]

theorem queue_execTrainingPass (engine : Nat) (j : Option GafferJob) (err : Option (Nat × Bool)) (s : State) :
    ∀ rr, execTrainingPass engine j err s = .next rr → (rr).pending = s.pending := by
  intro r h; unfold execTrainingPass at h; grind [queue_submitJob, queue_guarded, queue_gafferRow]

theorem queue_abandonSub (n : Nat) (x : Slot) (o : SubOut) (s : State) :
    (abandonSub n x o s).pending = s.pending := by
  unfold abandonSub; (repeat' split) <;> simp [queue_hashAbandon, queue_gatherAbandon, queue_attnAbandon, queue_updateAbandon,
    queue_changeAbandon, queue_queryAbandon]

theorem queue_timeoutSub (n : Nat) (kind : Nat) (shard : Nat) (s : State) :
    (timeoutSub n kind shard s).pending = s.pending := by
  unfold timeoutSub; (repeat' split) <;> simp [queue_abandonSub]

theorem queue_sweepCopies (s : State) :
    (sweepCopies s).pending = s.pending := by
  unfold sweepCopies; refine queue_foldl _ ?_ _ _; intro a b; (repeat' split) <;> first
    | grind [queue_sendReq]
    | simp [queue_sendReq, queue_foldl]
    | simp_all [queue_sendReq, queue_foldl]

theorem queue_execOrphanSweep (s : State) :
    ∀ rr, execOrphanSweep s = .next rr → (rr).pending = s.pending := by
  intro r h; unfold execOrphanSweep at h; grind [queue_sweepCopies, queue_when]

theorem queue_wsKeyRetire (c : Ctx) (s : State) :
    (wsKeyRetire c s).2.pending = s.pending := by
  simp [wsKeyRetire, queue_checked]

theorem queue_execFrontierMsg (ws : Nat) (key : Nat) (shard : Nat) (frontier : Nat) (src : Nat) (s : State) :
    ∀ rr, execFrontierMsg ws key shard frontier src s = .next rr → (rr).pending = s.pending := by
  intro r h; unfold execFrontierMsg at h; grind [queue_when, queue_takeFrontier]

theorem queue_drainDone (s : State) :
    (drainDone s).pending = s.pending := by
  unfold drainDone; (repeat' split) <;> simp [queue_emitDev, queue_finishAll, queue_sendLease, queue_foldl]

theorem queue_execDrainDone (s : State) :
    ∀ rr, execDrainDone s = .next rr → (rr).pending = s.pending := by
  intro r h; unfold execDrainDone at h; grind [queue_drainDone, queue_when]

theorem queue_execSlotRelease (slot : Nat) (s : State) :
    ∀ rr, execSlotRelease slot s = .next rr → (rr).pending = s.pending := by
  intro r h; unfold execSlotRelease at h; grind [queue_when, queue_releaseSlot]

theorem queue_execSubreqTimeout (slot : Nat) (kind : Nat) (shard : Nat) (s : State) :
    ∀ rr, execSubreqTimeout slot kind shard s = .next rr → (rr).pending = s.pending := by
  intro r h; unfold execSubreqTimeout at h; grind [queue_when, queue_timeoutSub]

theorem queue_tableLoad (c : Ctx) (s : State) :
    (tableLoad c s).2.pending = s.pending := by
  grind [tableLoad, queue_modVersion, queue_runLoad, queue_checked, queue_withTable, queue_refuse]

theorem queue_execTableLoad (m : MsgSrc) (s : State) :
    ∀ rr, execTableLoad m s = .next rr → (rr).pending = s.pending := by
  intro r h; unfold execTableLoad at h; grind [queue_tableLoad, queue_serve]

theorem queue_execFwConfirm (s : State) :
    ∀ rr, execFwConfirm s = .next rr → (rr).pending = s.pending := by
  intro r h; unfold execFwConfirm at h; grind [queue_when, queue_fwConfirm]

theorem queue_ringCreate (c : Ctx) (s : State) :
    (ringCreate c s).2.pending = s.pending := by
  simp [ringCreate, queue_putRing, queue_checked]

theorem queue_execOpenFibre (port : Nat) (s : State) :
    ∀ rr, execOpenFibre port s = .next rr → (rr).pending = s.pending := by
  intro r h; unfold execOpenFibre at h; grind [queue_openFibre, queue_when, queue_guarded]

theorem queue_execFlashTempRead (temps : List Int) (s : State) :
    ∀ rr, execFlashTempRead temps s = .next rr → (rr).pending = s.pending := by
  intro r h; simp [execFlashTempRead] at h; subst h; simp [queue_readTemp, queue_when, queue_foldl]

theorem queue_markStep (x0 : Nat) (c : MarverCtx) (s : State) :
    (markStep x0 c s).2.pending = s.pending := by
  unfold markStep; (repeat' split) <;> simp [queue_markGo]

theorem queue_execFlashSet (m : MsgSrc) (s : State) :
    ∀ rr, execFlashSet m s = .next rr → (rr).pending = s.pending := by
  intro r h; unfold execFlashSet at h; grind [queue_flashSet, queue_serve]

theorem queue_execBankRefresh (bank : Nat) (s : State) :
    ∀ rr, execBankRefresh bank s = .next rr → (rr).pending = s.pending := by
  intro r h; unfold execBankRefresh at h; grind [queue_when, queue_guarded]

theorem queue_execInputRise (vin : Nat) (s : State) :
    ∀ rr, execInputRise vin s = .next rr → (rr).pending = s.pending := by
  intro r h; unfold execInputRise at h; grind [queue_enterPower, queue_when]

theorem queue_journalPins (s : State) (idx : Nat) (x : Index) (pins : List Nat) :
    (journalPins s idx x pins).2.pending = s.pending := by
  grind [journalPins, queue_putIndex, queue_streamWrite]

theorem queue_indexPin (c : Ctx) (s : State) :
    (indexPin c s).2.pending = s.pending := by
  simp [indexPin, queue_checked, queue_journalPins, queue_withIndex]

theorem queue_execRequestEntry (fn : Nat) (ring : Nat) (h : HostView) (s : State) :
    ∀ rr, execRequestEntry fn ring h s = .next rr → (rr).pending = s.pending := by
  intro r h; unfold execRequestEntry at h; (repeat' split at h) <;> grind [queue_startRequest, → queue_admitRow,
    Option.map_eq_some_iff, Option.bind_eq_some_iff]

theorem queue_dropUngiven (m : Membership) (s : State) :
    (dropUngiven m s).pending = s.pending := by
  unfold dropUngiven; refine queue_foldl _ ?_ _ _; intro a b; (repeat' split) <;> first
    | grind [queue_putIndex, queue_freeCopy]
    | simp [queue_putIndex, queue_freeCopy, queue_foldl]
    | simp_all [queue_putIndex, queue_freeCopy, queue_foldl]

theorem queue_takeGrant (g : Group) (epoch : Nat) (expiry : Nat) (seq : Nat) (s : State) :
    (takeGrant g epoch expiry seq s).pending = s.pending := by
  unfold takeGrant; (repeat' split) <;> simp [queue_emitDev, queue_dropUngiven, queue_putLease]

theorem queue_plainWrite (p : RegPkt) (s : State) :
    (plainWrite p s).pending = s.pending := by
  grind [plainWrite, queue_putRing, queue_putFn, queue_ackWrite]

theorem queue_schedSample (c : Ctx) (s : State) :
    (schedSample c s).2.pending = s.pending := by
  unfold schedSample; (repeat' split) <;> simp [queue_checked, queue_resetSample]

theorem queue_execAlarmNRelease (s : State) :
    ∀ rr, execAlarmNRelease s = .next rr → (rr).pending = s.pending := by
  intro r h; unfold execAlarmNRelease at h; grind [queue_when]

theorem queue_execDevDrain (m : MsgSrc) (s : State) :
    ∀ rr, execDevDrain m s = .next rr → (rr).pending = s.pending := by
  intro r h; unfold execDevDrain at h; grind [queue_serve]

theorem queue_summarise (s : State) (f : Fold) :
    (summarise s f).pending = s.pending := by
  unfold summarise; (repeat' split) <;> simp [queue_writeRecord]

theorem queue_connRestored (s : State) (c : Nat) :
    (connRestored s c).pending = s.pending := by
  unfold connRestored; extract_lets t t1
  rw [queue_emit]
  refine queue_foldl _ ?_ _ _
  intro a b; split
  · exact queue_setPort _ _ _ _
  · rfl

theorem queue_stackRetire (c : Ctx) (s : State) :
    (stackRetire c s).2.pending = s.pending := by
  simp [stackRetire, queue_beginStackRetire, queue_checked]

theorem queue_execStackRetire (m : MsgSrc) (s : State) :
    ∀ rr, execStackRetire m s = .next rr → (rr).pending = s.pending := by
  intro r h; unfold execStackRetire at h; grind [queue_stackRetire, queue_serve]

theorem queue_execGroupSnapshot (ws : Nat) (key : Nat) (shard : Nat) (sn : Snapshot) (s : State) :
    ∀ rr, execGroupSnapshot ws key shard sn s = .next rr → (rr).pending = s.pending := by
  intro r h; unfold execGroupSnapshot at h; grind [queue_joinSnap, queue_when]

theorem queue_execSlotsExhausted (s : State) :
    ∀ rr, execSlotsExhausted s = .next rr → (rr).pending = s.pending := by
  intro r h; unfold execSlotsExhausted at h; grind [queue_when, queue_slotsExhausted]

theorem queue_indexTrain (c : Ctx) (s : State) :
    (indexTrain c s).2.pending = s.pending := by
  simp [indexTrain, queue_checked, queue_putIndex, queue_withIndex]

theorem queue_filterStep (x0 : Nat) (c : MarverCtx) (s : State) :
    (filterStep x0 c s).2.pending = s.pending := by
  unfold filterStep; (repeat' split) <;> simp

theorem queue_execMarverFilter (unit : Nat) (errs : List MemErr) (s : State) :
    ∀ rr, execMarverFilter unit errs s = .next rr → (rr).pending = s.pending := by
  intro r h; unfold execMarverFilter at h; grind [queue_filterStep, queue_marverRow]

theorem queue_execCoarseBatchClose (engine : Nat) (index : Nat) (s : State) :
    ∀ rr, execCoarseBatchClose engine index s = .next rr → (rr).pending = s.pending := by
  intro r h; unfold execCoarseBatchClose at h; grind [queue_when, queue_guarded, queue_putGaffer]

theorem queue_execPpsLost (s : State) :
    ∀ rr, execPpsLost s = .next rr → (rr).pending = s.pending := by
  intro r h; unfold execPpsLost at h; grind [queue_when, queue_emitDev]

theorem queue_ucodeLoad (c : Ctx) (s : State) :
    (ucodeLoad c s).2.pending = s.pending := by
  simp [ucodeLoad, queue_checked, queue_submit]

theorem queue_execFuncEnable (m : MsgSrc) (s : State) :
    ∀ rr, execFuncEnable m s = .next rr → (rr).pending = s.pending := by
  intro r h; unfold execFuncEnable at h; grind [queue_funcEnable, queue_serve]

theorem queue_execGrantMsg (group : Nat) (epoch : Nat) (expiry : Nat) (seq : Nat) (s : State) :
    ∀ rr, execGrantMsg group epoch expiry seq s = .next rr → (rr).pending = s.pending := by
  intro r h; unfold execGrantMsg at h; grind [queue_takeGrant, queue_when, queue_takeInbox]

theorem queue_execFibreConnRestored (cane : Nat) (s : State) :
    ∀ rr, execFibreConnRestored cane s = .next rr → (rr).pending = s.pending := by
  intro r h; unfold execFibreConnRestored at h; grind [queue_when, queue_guarded, queue_connRestored]

theorem queue_lossFlush (s : State) (after : Nat) :
    (lossFlush s after).pending = s.pending := by
  simp [lossFlush, queue_emit, queue_startFlush]

theorem queue_execStatusLinkLost (s : State) :
    ∀ rr, execStatusLinkLost s = .next rr → (rr).pending = s.pending := by
  intro r h; unfold execStatusLinkLost at h; grind [queue_lossFlush, queue_when, queue_emit]

theorem queue_execWsInfo (m : MsgSrc) (s : State) :
    ∀ rr, execWsInfo m s = .next rr → (rr).pending = s.pending := by
  intro r h; unfold execWsInfo at h; grind [queue_serve, queue_wsInfo]

theorem queue_execPowerLoss (s : State) :
    ∀ rr, execPowerLoss s = .next rr → (rr).pending = s.pending := by
  intro r h; unfold execPowerLoss at h; grind [queue_lossFlush, queue_when]

theorem queue_sessionCreate (c : Ctx) (s : State) :
    (sessionCreate c s).2.pending = s.pending := by
  unfold sessionCreate; extract_lets d g key gid old run
  refine queue_checked _ _ _ ?_
  simp only [run]; split
  · rfl
  · rename_i h; dsimp only; rw [queue_tellSession]; exact queue_beginSession _ _ _ _ _ _ _ _ _ _ h

theorem queue_execSessionCreate (m : MsgSrc) (s : State) :
    ∀ rr, execSessionCreate m s = .next rr → (rr).pending = s.pending := by
  intro r h; unfold execSessionCreate at h; grind [queue_serve, queue_sessionCreate]

theorem queue_addPoolRow (s : State) (n : Nat) (t : Table) (row : Nat) (rec_ : List Byte) :
    (addPoolRow s n t row rec_).pending = s.pending := by
  simp [addPoolRow, queue_modSlot]

theorem queue_poolArrived (r : PoolRead) (tagOk : Bool) (rec_ : List Byte) (s : State) :
    (poolArrived r tagOk rec_ s).pending = s.pending := by
  grind [poolArrived, queue_finishGather, queue_readPoolRow, queue_addPoolRow, queue_failPool]

theorem queue_execRailCollapse (vin : Nat) (s : State) :
    ∀ rr, execRailCollapse vin s = .next rr → (rr).pending = s.pending := by
  intro r h; unfold execRailCollapse at h; grind [queue_loseBuffers, queue_when, queue_railsOff]

theorem queue_sqBell (p : RegPkt) (s : State) :
    (sqBell p s).pending = s.pending := by
  grind [sqBell, queue_putRing, queue_badDoorbell, queue_ackWrite]

theorem queue_execSqPiDoorbell (p : RegPkt) (s : State) :
    ∀ rr, execSqPiDoorbell p s = .next rr → (rr).pending = s.pending := by
  intro r h; unfold execSqPiDoorbell at h; grind [queue_sqBell, queue_when]

theorem queue_execFabPeers (m : MsgSrc) (s : State) :
    ∀ rr, execFabPeers m s = .next rr → (rr).pending = s.pending := by
  intro r h; unfold execFabPeers at h; grind [queue_serve]

theorem queue_summariseCode (code : Nat) (s : State) :
    (summariseCode code s).pending = s.pending := by
  unfold summariseCode; (repeat' split) <;> simp [queue_summarise]

theorem queue_execLogSummary (code : Nat) (s : State) :
    ∀ rr, execLogSummary code s = .next rr → (rr).pending = s.pending := by
  intro r h; unfold execLogSummary at h; grind [queue_when, queue_summariseCode]

theorem queue_wavelengthFail (s : State) (p : Nat) (w : Nat) :
    (wavelengthFail s p w).pending = s.pending := by
  grind [wavelengthFail, queue_score, queue_checkLanes, queue_putPort, queue_emit]

theorem queue_doProbe (chan : Nat) (probes : List (Option TargetProbe)) (s : State) :
    (doProbe chan probes s).pending = s.pending := by
  grind [doProbe, queue_putGroup, queue_probeChannel, queue_startMount]

theorem queue_execFlashTargetProbe (chan : Nat) (probes : List (Option TargetProbe)) (s : State) :
    ∀ rr, execFlashTargetProbe chan probes s = .next rr → (rr).pending = s.pending := by
  intro r h; unfold execFlashTargetProbe at h; grind [queue_doProbe, queue_when, queue_guarded]

theorem queue_execWsKeyRetire (m : MsgSrc) (s : State) :
    ∀ rr, execWsKeyRetire m s = .next rr → (rr).pending = s.pending := by
  intro r h; unfold execWsKeyRetire at h; grind [queue_wsKeyRetire, queue_serve]

theorem queue_startDescriptor (s : State) (c : Nat) :
    (startDescriptor s c).pending = s.pending := by
  unfold startDescriptor; dsimp only; split
  · rw [queue_completeMove]; exact queue_putRing _ _ _ _
  · rw [queue_putChan]; exact queue_putRing _ _ _ _

theorem queue_execMoveDescriptorStart (chan : Nat) (s : State) :
    ∀ rr, execMoveDescriptorStart chan s = .next rr → (rr).pending = s.pending := by
  intro r h; unfold execMoveDescriptorStart at h; grind [queue_startDescriptor, queue_when, queue_guarded]

theorem queue_execSubreqReply (slot : Nat) (kind : Nat) (shard : Nat) (r : Reply) (s : State) :
    ∀ rr, execSubreqReply slot kind shard r s = .next rr → (rr).pending = s.pending := by
  intro r h; unfold execSubreqReply at h; (repeat' split at h) <;> grind [queue_when, queue_takeSlotReply, Option.map_eq_some_iff,
    Option.bind_eq_some_iff]

theorem queue_dropIndexes (s : State) (ws : Nat) :
    (dropIndexes s ws).pending = s.pending := by
  simp [dropIndexes, queue_settleIndex, queue_putTable, queue_dropIndex, queue_settleTable, queue_foldl]

theorem queue_resetRequest (s : State) :
    (resetRequest s).pending = s.pending := by
  unfold resetRequest; (repeat' split) <;> simp [queue_restart, queue_emitDev, queue_startFlush]

theorem queue_attnCbUnload (c : Ctx) (s : State) :
    (attnCbUnload c s).2.pending = s.pending := by
  grind [attnCbUnload, queue_putBook, queue_refuse]

theorem queue_execAttnCbUnload (m : MsgSrc) (s : State) :
    ∀ rr, execAttnCbUnload m s = .next rr → (rr).pending = s.pending := by
  intro r h; unfold execAttnCbUnload at h; grind [queue_attnCbUnload, queue_serve]

theorem queue_archiveRead (c : Ctx) (s : State) :
    (archiveRead c s).2.pending = s.pending := by
  simp [archiveRead, queue_checked, queue_writeBuf]

theorem queue_takePool (s : State) (txn : Nat) :
    (takePool s txn).pending = s.pending := by
  unfold takePool; (repeat' split) <;> simp [queue_takeMsg]

theorem queue_execPoolResp (txn : Nat) (tagOk : Bool) (rec : List Byte) (s : State) :
    ∀ rr, execPoolResp txn tagOk rec s = .next rr → (rr).pending = s.pending := by
  intro r h; unfold execPoolResp at h; grind [queue_poolArrived, queue_pumpPools, queue_when, queue_takePool]

theorem queue_execHotRowChunk (engine : Nat) (j : Option GafferJob) (err : Option (Nat × Bool)) (s : State) :
    ∀ rr, execHotRowChunk engine j err s = .next rr → (rr).pending = s.pending := by
  intro r h; unfold execHotRowChunk at h; grind [queue_submitJob, queue_guarded, queue_gafferRow]

theorem queue_execEvrInfo (m : MsgSrc) (s : State) :
    ∀ rr, execEvrInfo m s = .next rr → (rr).pending = s.pending := by
  intro r h; unfold execEvrInfo at h; grind [queue_serve]

theorem queue_execFlashCarrierOffline (m : MsgSrc) (s : State) :
    ∀ rr, execFlashCarrierOffline m s = .next rr → (rr).pending = s.pending := by
  intro r h; unfold execFlashCarrierOffline at h; grind [queue_carrierOffline, queue_serve]

theorem queue_execEvrArchiveRead (m : MsgSrc) (s : State) :
    ∀ rr, execEvrArchiveRead m s = .next rr → (rr).pending = s.pending := by
  intro r h; unfold execEvrArchiveRead at h; grind [queue_archiveRead, queue_serve]

theorem queue_execIndexPin (m : MsgSrc) (s : State) :
    ∀ rr, execIndexPin m s = .next rr → (rr).pending = s.pending := by
  intro r h; unfold execIndexPin at h; grind [queue_serve, queue_indexPin]

theorem queue_takeHandoff (c : ReqCopy) (p : Packet) (s : State) :
    (takeHandoff c p s).pending = s.pending := by
  grind [takeHandoff, queue_putReqCopy, queue_sendReq, queue_takeMsg]

theorem queue_execRebuild (obj : Nat) (table : Bool) (mirror : Bool) (source : RebuildSource) (s : State) :
    ∀ rr, execRebuild obj table mirror source s = .next rr → (rr).pending = s.pending := by
  intro r h; unfold execRebuild at h; grind [queue_when, queue_rebuildCopy]

theorem queue_maintCancel (c : Ctx) (s : State) :
    (maintCancel c s).2.pending = s.pending := by
  unfold maintCancel; (repeat' split) <;> simp [queue_checked, queue_stopActivity, queue_refuse]

theorem queue_execMaintCancel (m : MsgSrc) (s : State) :
    ∀ rr, execMaintCancel m s = .next rr → (rr).pending = s.pending := by
  intro r h; unfold execMaintCancel at h; grind [queue_maintCancel, queue_serve]

theorem queue_execDevLayout (m : MsgSrc) (s : State) :
    ∀ rr, execDevLayout m s = .next rr → (rr).pending = s.pending := by
  intro r h; unfold execDevLayout at h; grind [queue_serve]

theorem queue_lightAt (s : State) (p : Nat) :
    (lightAt s p).pending = s.pending := by
  unfold lightAt; dsimp only; split
  · exact queue_putPort _ _ _
  · split
    · exact queue_setPort _ _ _ _
    · rfl

theorem queue_execHealthSet (m : MsgSrc) (s : State) :
    ∀ rr, execHealthSet m s = .next rr → (rr).pending = s.pending := by
  intro r h; unfold execHealthSet at h; grind [queue_healthSet, queue_serve]

theorem queue_execSlotSchedule (core : Nat) (s : State) :
    ∀ rr, execSlotSchedule core s = .next rr → (rr).pending = s.pending := by
  intro r h; unfold execSlotSchedule at h; grind [queue_when, queue_schedule, queue_guarded]

theorem queue_replaceMember (setId : Nat) (index : Nat) (member : Nat) (s : State) :
    (replaceMember setId index member s).pending = s.pending := by
  grind [replaceMember, queue_selfStore]

theorem queue_execStripeMemberTimeout (setId : Nat) (index : Nat) (member : Nat) (s : State) :
    ∀ rr, execStripeMemberTimeout setId index member s = .next rr → (rr).pending = s.pending := by
  intro r h; unfold execStripeMemberTimeout at h; grind [queue_when, queue_replaceMember]

theorem queue_execAttnKey (unit : Nat) (errs : List MemErr) (s : State) :
    ∀ rr, execAttnKey unit errs s = .next rr → (rr).pending = s.pending := by
  intro r h; unfold execAttnKey at h; grind [queue_marverRow, queue_keyStep]

theorem queue_execIndexStats (m : MsgSrc) (s : State) :
    ∀ rr, execIndexStats m s = .next rr → (rr).pending = s.pending := by
  intro r h; unfold execIndexStats at h; grind [queue_indexStats, queue_serve]

theorem queue_execRefRestored (s : State) :
    ∀ rr, execRefRestored s = .next rr → (rr).pending = s.pending := by
  intro r h; unfold execRefRestored at h; grind [queue_when, queue_emitDev]

theorem queue_execAnnealFlush (ws : Nat) (key : Nat) (s : State) :
    ∀ rr, execAnnealFlush ws key s = .next rr → (rr).pending = s.pending := by
  intro r h; unfold execAnnealFlush at h; grind [queue_annealFlush, queue_when]

theorem queue_execHashDelete (fn : Nat) (ring : Nat) (h : HostView) (s : State) :
    ∀ rr, execHashDelete fn ring h s = .next rr → (rr).pending = s.pending := by
  unfold execHashDelete
  exact queue_admitRow _ _ _ _ _ _ _ (fun _ _ _ => queue_startHashChange _ _ _ _)

theorem queue_execMbxRespReady (p : RegPkt) (s : State) :
    ∀ rr, execMbxRespReady p s = .next rr → (rr).pending = s.pending := by
  intro r h; unfold execMbxRespReady at h; grind [queue_when, queue_respReady]

theorem queue_thermalDutyStep (s : State) :
    (thermalDutyStep s).pending = s.pending := by
  grind [thermalDutyStep, queue_emitDev]

theorem queue_execThermalDutyStep (s : State) :
    ∀ rr, execThermalDutyStep s = .next rr → (rr).pending = s.pending := by
  intro r h; unfold execThermalDutyStep at h; grind [queue_when, queue_thermalDutyStep]

theorem queue_wsSetQuota (c : Ctx) (s : State) :
    (wsSetQuota c s).2.pending = s.pending := by
  simp [wsSetQuota, queue_checked, queue_putWs]

theorem queue_execWsSetQuota (m : MsgSrc) (s : State) :
    ∀ rr, execWsSetQuota m s = .next rr → (rr).pending = s.pending := by
  intro r h; unfold execWsSetQuota at h; grind [queue_serve, queue_wsSetQuota]

theorem queue_execMarverMark (unit : Nat) (errs : List MemErr) (s : State) :
    ∀ rr, execMarverMark unit errs s = .next rr → (rr).pending = s.pending := by
  intro r h; unfold execMarverMark at h; grind [queue_markStep, queue_marverRow]

theorem queue_publishLow (idx : Nat) (x : Index) (s : State) :
    (publishLow idx x s).pending = s.pending := by
  simp [publishLow, queue_putIndex, queue_tellGroup]

theorem queue_execReqCancel (m : MsgSrc) (s : State) :
    ∀ rr, execReqCancel m s = .next rr → (rr).pending = s.pending := by
  intro r h; unfold execReqCancel at h; grind [queue_serve, queue_reqCancel]

theorem queue_execMarverDrain (unit : Nat) (errs : List MemErr) (s : State) :
    ∀ rr, execMarverDrain unit errs s = .next rr → (rr).pending = s.pending := by
  intro r h; unfold execMarverDrain at h; grind [queue_marverRow, queue_drainStep]

theorem queue_queueCommand (u : Nat) (c : MarverCmd) (s : State) :
    (queueCommand u c s).pending = s.pending := by
  grind [queueCommand, queue_putUnit]

theorem queue_execMarverCommandStart (unit : Nat) (c : Option MarverCmd) (s : State) :
    ∀ rr, execMarverCommandStart unit c s = .next rr → (rr).pending = s.pending := by
  intro r h; unfold execMarverCommandStart at h; grind [queue_when, queue_queueCommand, queue_guarded, queue_startHead]

theorem queue_execRegisterWrite (p : RegPkt) (s : State) :
    ∀ rr, execRegisterWrite p s = .next rr → (rr).pending = s.pending := by
  intro r h; unfold execRegisterWrite at h; grind [queue_when, queue_plainWrite]

theorem queue_execDevEcho (m : MsgSrc) (s : State) :
    ∀ rr, execDevEcho m s = .next rr → (rr).pending = s.pending := by
  intro r h; unfold execDevEcho at h; grind [queue_serve]

theorem queue_applyImage (s : State) (x : Settings) :
    (applyImage s x).pending = s.pending := by
  simp [applyImage]

theorem queue_execGuardIntervalEnd (s : State) :
    ∀ rr, execGuardIntervalEnd s = .next rr → (rr).pending = s.pending := by
  intro r h; unfold execGuardIntervalEnd at h; grind [queue_guardEnd, queue_when]

theorem queue_cursorWrite (p : RegPkt) (s : State) :
    (cursorWrite p s).pending = s.pending := by
  simp [cursorWrite, queue_ackWrite]

theorem queue_execEvwCursorWrite (p : RegPkt) (s : State) :
    ∀ rr, execEvwCursorWrite p s = .next rr → (rr).pending = s.pending := by
  intro r h; unfold execEvwCursorWrite at h; grind [queue_cursorWrite, queue_when]

theorem queue_enterLocked (s : State) :
    (enterLocked s).pending = s.pending := by
  simp [enterLocked, queue_emitDev]

theorem queue_execRingCreate (m : MsgSrc) (s : State) :
    ∀ rr, execRingCreate m s = .next rr → (rr).pending = s.pending := by
  intro r h; unfold execRingCreate at h; grind [queue_ringCreate, queue_serve]

theorem queue_firstLock (s : State) (m : PtpMsg) :
    (firstLock s m).pending = s.pending := by
  simp [firstLock]

theorem queue_maintStart (c : Ctx) (s : State) :
    (maintStart c s).2.pending = s.pending := by
  simp [maintStart, queue_checked, queue_submit]

theorem queue_ticketInfo (c : Ctx) (s : State) :
    (ticketInfo c s).2.pending = s.pending := by
  unfold ticketInfo; (repeat' split) <;> simp [queue_refuse]

theorem queue_startInsert (b : Src) (n : Nat) (s : State) :
    (startInsert b n s).pending = s.pending := by
  grind [startInsert, queue_failSlot, queue_startChange]

theorem queue_execInsertEntry (fn : Nat) (ring : Nat) (h : HostView) (s : State) :
    ∀ rr, execInsertEntry fn ring h s = .next rr → (rr).pending = s.pending := by
  intro r h; unfold execInsertEntry at h; (repeat' split at h) <;> grind [→ queue_admitRow, queue_startInsert, Option.map_eq_some_iff,
    Option.bind_eq_some_iff]

theorem queue_execTableCreate (m : MsgSrc) (s : State) :
    ∀ rr, execTableCreate m s = .next rr → (rr).pending = s.pending := by
  intro r h; unfold execTableCreate at h; grind [queue_tableCreate, queue_serve]

theorem queue_servoStep (s : State) (o : Int) :
    (servoStep s o).pending = s.pending := by
  grind [servoStep, queue_enterLocked, queue_enterUnlocked]

theorem queue_timeMsg (s : State) (port : Nat) (m : PtpMsg) :
    (timeMsg s port m).pending = s.pending := by
  unfold timeMsg; (repeat' split) <;> simp [queue_takeMaster, queue_firstLock, queue_putPort, queue_servoStep, queue_setRate]

theorem queue_indexExport (c : Ctx) (s : State) :
    (indexExport c s).2.pending = s.pending := by
  simp [indexExport, queue_checked, queue_withIndex]

theorem queue_execMemWrite (p : Packet) (s : State) :
    ∀ rr, execMemWrite p s = .next rr → (rr).pending = s.pending := by
  intro r h; unfold execMemWrite at h; grind [queue_memWrite, queue_when]

theorem queue_wsDestroy (c : Ctx) (s : State) :
    (wsDestroy c s).2.pending = s.pending := by
  simp [wsDestroy, queue_checked, queue_putWs]

theorem queue_execWsDestroy (m : MsgSrc) (s : State) :
    ∀ rr, execWsDestroy m s = .next rr → (rr).pending = s.pending := by
  intro r h; unfold execWsDestroy at h; grind [queue_serve, queue_wsDestroy]

theorem queue_execCommitted (ws : Nat) (key : Nat) (v : Nat) (u : Nat) (s : State) :
    ∀ rr, execCommitted ws key v u s = .next rr → (rr).pending = s.pending := by
  intro r h; unfold execCommitted at h; grind [queue_when, queue_takeCommitted]

theorem queue_execPoolReadTimeout (txn : Nat) (s : State) :
    ∀ rr, execPoolReadTimeout txn s = .next rr → (rr).pending = s.pending := by
  intro r h; unfold execPoolReadTimeout at h; grind [queue_pumpPools, queue_when, queue_failPool]

theorem queue_execRegionMigrate (page : Nat) (s : State) :
    ∀ rr, execRegionMigrate page s = .next rr → (rr).pending = s.pending := by
  intro r h; unfold execRegionMigrate at h; grind [queue_when, queue_moveRegion]

theorem queue_attnCbLoad (c : Ctx) (s : State) :
    (attnCbLoad c s).2.pending = s.pending := by
  simp [attnCbLoad, queue_checked, queue_loadBook]

theorem queue_execIndexTrain (m : MsgSrc) (s : State) :
    ∀ rr, execIndexTrain m s = .next rr → (rr).pending = s.pending := by
  intro r h; unfold execIndexTrain at h; grind [queue_indexTrain, queue_serve]

theorem queue_execDevIdentity (m : MsgSrc) (s : State) :
    ∀ rr, execDevIdentity m s = .next rr → (rr).pending = s.pending := by
  intro r h; unfold execDevIdentity at h; grind [queue_serve]

theorem queue_strapSample (mv : List (List Nat)) (s : State) :
    (strapSample mv s).pending = s.pending := by
  grind [strapSample, queue_stopWith]

theorem queue_execTripRestart (s : State) :
    ∀ rr, execTripRestart s = .next rr → (rr).pending = s.pending := by
  intro r h; unfold execTripRestart at h; grind [queue_when]

theorem queue_resendHeld (s : State) (h : Held) :
    (resendHeld s h).pending = s.pending := by
  unfold resendHeld; (repeat' split) <;> simp [queue_sendPacket, queue_requeue, queue_unreachable, queue_foldl]

theorem queue_execQueueSample (port : Nat) (s : State) :
    ∀ rr, execQueueSample port s = .next rr → (rr).pending = s.pending := by
  intro r h; unfold execQueueSample at h; grind [queue_sampleQueues, queue_when, queue_guarded]

theorem queue_gateChange (s : State) (p : Nat) :
    (gateChange s p).pending = s.pending := by
  simp [gateChange, queue_putPort]

theorem queue_stackHot (s : State) (i : Nat) (temp : Int) :
    (stackHot s i temp).pending = s.pending := by
  grind [stackHot, queue_emit]

theorem queue_thermalSample (hub : Int) (stk : List Int) (cane : List Int) (fh : List Int) (s : State) :
    (thermalSample hub stk cane fh s).pending = s.pending := by
  simp [thermalSample, queue_stackHot, queue_foldl]

theorem queue_programLoad (c : Ctx) (s : State) :
    (programLoad c s).2.pending = s.pending := by
  simp [programLoad, queue_loadProgram, queue_checked]

theorem queue_execTableSwitch (m : MsgSrc) (s : State) :
    ∀ rr, execTableSwitch m s = .next rr → (rr).pending = s.pending := by
  intro r h; unfold execTableSwitch at h; grind [queue_tableSwitch, queue_serve]

theorem queue_execProbeReturn (port : Nat) (s : State) :
    ∀ rr, execProbeReturn port s = .next rr → (rr).pending = s.pending := by
  intro r h; unfold execProbeReturn at h; grind [queue_when, queue_guarded, queue_setPort]

theorem queue_noticeCopy (idx : Nat) (s : State) (p : Bool × Copy) :
    (noticeCopy idx s p).pending = s.pending := by
  unfold noticeCopy; (repeat' split) <;> simp [queue_sendMsg, queue_putCopy]

theorem queue_imageDelete (c : Ctx) (s : State) :
    (imageDelete c s).2.pending = s.pending := by
  grind [imageDelete, queue_checked, queue_eraseSession, queue_putSession, queue_refuse]

theorem queue_execTicketDone (t : TicketRef) (o : DoneInput) (s : State) :
    ∀ rr, execTicketDone t o s = .next rr → (rr).pending = s.pending := by
  intro r h; unfold execTicketDone at h; grind [queue_ticketDone, queue_when]

theorem queue_execTc7Resend (dst : Nat) (vc : Nat) (seq : Nat) (s : State) :
    ∀ rr, execTc7Resend dst vc seq s = .next rr → (rr).pending = s.pending := by
  intro r h; unfold execTc7Resend at h; grind [queue_resendHeld, queue_when]

theorem queue_execJackPass (unit : Nat) (ctx : Nat) (bind : Option JackCtx) (s : State) :
    ∀ rr, execJackPass unit ctx bind s = .next rr → (rr).pending = s.pending := by
  intro r h; unfold execJackPass at h; grind [queue_bindJack, queue_when, queue_guarded, queue_passJack]

theorem queue_execScan4 (unit : Nat) (errs : List MemErr) (s : State) :
    ∀ rr, execScan4 unit errs s = .next rr → (rr).pending = s.pending := by
  intro r h; unfold execScan4 at h; grind [queue_scanStep, queue_marverRow]

theorem queue_serveUpdate_go (s : State) (q : SubIn) (h : Nat) (t : Table) (x : Version) (m : Bool) (p : List Byte)
  (b : Occs × List Byte) :
    (serveUpdate.go s q h t x m p b).pending = s.pending := by
  grind [serveUpdate.go, queue_modVersion, queue_journalRows, queue_replySub, queue_writeRows]

theorem queue_serveUpdate (s : State) (q : SubIn) :
    (serveUpdate s q).pending = s.pending := by
  grind [serveUpdate, queue_serveUpdate_go, queue_replySub]

theorem queue_execCarrierRemoved (group : Nat) (s : State) :
    ∀ rr, execCarrierRemoved group s = .next rr → (rr).pending = s.pending := by
  intro r h; unfold execCarrierRemoved at h; grind [queue_when, queue_guarded, queue_carrierRemoved]

theorem queue_execThermalReport (s : State) :
    ∀ rr, execThermalReport s = .next rr → (rr).pending = s.pending := by
  intro r h; unfold execThermalReport at h; grind [queue_when, queue_thermalReport]

theorem queue_execPtpTime (port : Nat) (msg : PtpMsg) (s : State) :
    ∀ rr, execPtpTime port msg s = .next rr → (rr).pending = s.pending := by
  intro r h; unfold execPtpTime at h; grind [queue_when, queue_guarded, queue_timeMsg]

theorem queue_poisonRewrite (g : Nat) (data : List Byte) (s : State) :
    (poisonRewrite g data s).pending = s.pending := by
  grind [poisonRewrite, queue_submit, queue_dropActivity]

theorem queue_execPpsOutputEdge (s : State) :
    ∀ rr, execPpsOutputEdge s = .next rr → (rr).pending = s.pending := by
  intro r h; unfold execPpsOutputEdge at h; grind [queue_when]

theorem queue_receiveChange (m : ChangeMsg) (s : State) :
    (receiveChange m s).pending = s.pending := by
  unfold receiveChange; (repeat' split) <;> simp [queue_takeChange, queue_assignChange, queue_answerChange, queue_takeMsg]

theorem queue_execGateEntryChange (port : Nat) (s : State) :
    ∀ rr, execGateEntryChange port s = .next rr → (rr).pending = s.pending := by
  intro r h; unfold execGateEntryChange at h; grind [queue_gateChange, queue_when, queue_guarded]

theorem queue_sendProbe (ws : Nat) (ident : Nat) (s : State) :
    (sendProbe ws ident s).pending = s.pending := by
  unfold sendProbe; (repeat' split) <;> simp [queue_sendReq, queue_modStub]

theorem queue_execProbeMsg (ws : Nat) (ident : Nat) (s : State) :
    ∀ rr, execProbeMsg ws ident s = .next rr → (rr).pending = s.pending := by
  intro r h; unfold execProbeMsg at h; grind [queue_sendProbe, queue_when]

theorem queue_indexUnpin (c : Ctx) (s : State) :
    (indexUnpin c s).2.pending = s.pending := by
  grind [indexUnpin, queue_checked, queue_journalPins, queue_putIndex, queue_withIndex]

theorem queue_execImageDelete (m : MsgSrc) (s : State) :
    ∀ rr, execImageDelete m s = .next rr → (rr).pending = s.pending := by
  intro r h; unfold execImageDelete at h; grind [queue_serve, queue_imageDelete]

theorem queue_execStrapSample (mv : List (List Nat)) (s : State) :
    ∀ rr, execStrapSample mv s = .next rr → (rr).pending = s.pending := by
  intro r h; unfold execStrapSample at h; grind [queue_when, queue_guarded, queue_strapSample]

theorem queue_execStripeUnitDurable (setId : Nat) (index : Nat) (member : Nat) (s : State) :
    ∀ rr, execStripeUnitDurable setId index member s = .next rr → (rr).pending = s.pending := by
  intro r h; unfold execStripeUnitDurable at h; grind [queue_markDurable, queue_when]

theorem queue_helloTimeout (s : State) (p : Nat) :
    (helloTimeout s p).pending = s.pending := by
  simp [helloTimeout, queue_retrainPort, queue_putPort]

theorem queue_execFlowIdle (dst : Nat) (vc : Nat) (s : State) :
    ∀ rr, execFlowIdle dst vc s = .next rr → (rr).pending = s.pending := by
  intro r h; unfold execFlowIdle at h; grind [queue_putFlow, queue_when]

theorem queue_execThermalSample (hub : Int) (stk : List Int) (cane : List Int) (fh : List Int) (s : State) :
    ∀ rr, execThermalSample hub stk cane fh s = .next rr → (rr).pending = s.pending := by
  intro r h; unfold execThermalSample at h; grind [queue_when, queue_guarded, queue_thermalSample]

theorem queue_execInsertEncoding (engine : Nat) (j : Option GafferJob) (err : Option (Nat × Bool)) (s : State) :
    ∀ rr, execInsertEncoding engine j err s = .next rr → (rr).pending = s.pending := by
  intro r h; unfold execInsertEncoding at h; grind [queue_submitJob, queue_guarded, queue_gafferRow]

theorem queue_execIndexUnpin (m : MsgSrc) (s : State) :
    ∀ rr, execIndexUnpin m s = .next rr → (rr).pending = s.pending := by
  intro r h; unfold execIndexUnpin at h; grind [queue_indexUnpin, queue_serve]

theorem queue_execFwActivate (m : MsgSrc) (s : State) :
    ∀ rr, execFwActivate m s = .next rr → (rr).pending = s.pending := by
  intro r h; unfold execFwActivate at h; grind [queue_fwActivate, queue_serve]

theorem queue_execPowerDutyRise (s : State) :
    ∀ rr, execPowerDutyRise s = .next rr → (rr).pending = s.pending := by
  intro r h; unfold execPowerDutyRise at h; grind [queue_when]

theorem queue_takeOutput (n : Nat) (s : State) :
    (takeOutput n s).pending = s.pending := by
  unfold takeOutput; (repeat' split) <;> simp [queue_putSlot, queue_putGaffer]

theorem queue_execChangeMsg (c : ChangeMsg) (s : State) :
    ∀ rr, execChangeMsg c s = .next rr → (rr).pending = s.pending := by
  intro r h; unfold execChangeMsg at h; grind [queue_when, queue_receiveChange]

theorem queue_setWork (s : State) (t : TicketRef) (g : Work → Work) :
    (setWork s t g).pending = s.pending := by
  simp [setWork, queue_putFn]

theorem queue_recoveryLoad (p : FwPackage) (s : State) :
    (recoveryLoad p s).pending = s.pending := by
  grind [recoveryLoad, queue_chooseFw, queue_stopWith, queue_writeFwSlot, queue_readBootFlash]

theorem queue_execRecoveryLoad (pkg : FwPackage) (s : State) :
    ∀ rr, execRecoveryLoad pkg s = .next rr → (rr).pending = s.pending := by
  intro r h; unfold execRecoveryLoad at h; grind [queue_when, queue_recoveryLoad]

theorem queue_execMaintStatus (m : MsgSrc) (s : State) :
    ∀ rr, execMaintStatus m s = .next rr → (rr).pending = s.pending := by
  intro r h; unfold execMaintStatus at h; grind [queue_checked, queue_serve]

theorem queue_execFrontierNotice (index : Nat) (s : State) :
    ∀ rr, execFrontierNotice index s = .next rr → (rr).pending = s.pending := by
  intro r h; simp only [execFrontierNotice] at h; (repeat' split at h) <;> first | (simp at h; done) | (simp at h; subst h; simp [queue_when, queue_noticeCopy, queue_foldl])

theorem queue_execSessionInfo (m : MsgSrc) (s : State) :
    ∀ rr, execSessionInfo m s = .next rr → (rr).pending = s.pending := by
  intro r h; unfold execSessionInfo at h; grind [queue_sessionInfo, queue_serve]

theorem queue_execLutLoad (units : List Nat) (s : State) :
    ∀ rr, execLutLoad units s = .next rr → (rr).pending = s.pending := by
  intro r h; unfold execLutLoad at h
  refine (queue_guarded _ _ _ _ h).trans (queue_when _ _ _ ?_)
  intro t; refine queue_foldl _ ?_ _ _
  intro a b; exact queue_unitStep _ _ _ _ _ (fun _ _ _ => rfl)

theorem queue_dropSessions (s : State) (ws : Nat) :
    (dropSessions s ws).pending = s.pending := by
  unfold dropSessions; refine queue_foldl _ ?_ _ _; intro a b; (repeat' split) <;> first
    | grind [queue_tellSession, queue_releaseSession, queue_finishAll, queue_eraseSession]
    | simp [queue_tellSession, queue_releaseSession, queue_finishAll, queue_eraseSession, queue_foldl]
    | simp_all [queue_tellSession, queue_releaseSession, queue_finishAll, queue_eraseSession, queue_foldl]

theorem queue_dropPrograms (s : State) (ws : Nat) :
    (dropPrograms s ws).pending = s.pending := by
  simp [dropPrograms, queue_putBook, queue_settleBook, queue_putProgram, queue_settleProgram, queue_foldl]

theorem queue_disableBound (s : State) (ws : Nat) :
    (disableBound s ws).pending = s.pending := by
  simp [disableBound, queue_disableFn, queue_foldl]

theorem queue_endWorkspace (ws : Nat) (s : State) :
    (endWorkspace ws s).pending = s.pending := by
  grind [endWorkspace, queue_disableBound, queue_dropIndexes, queue_freeWsPages, queue_dropSessions, queue_finishAll, queue_deleteStreams, queue_dropPrograms]

theorem queue_execWsDestroyProceed (ws : Nat) (s : State) :
    ∀ rr, execWsDestroyProceed ws s = .next rr → (rr).pending = s.pending := by
  intro r h; unfold execWsDestroyProceed at h; grind [queue_when, queue_endWorkspace]

theorem queue_execLightReceived (port : Nat) (s : State) :
    ∀ rr, execLightReceived port s = .next rr → (rr).pending = s.pending := by
  intro r h; unfold execLightReceived at h; grind [queue_lightAt, queue_when, queue_guarded]

theorem queue_execIndexExport (m : MsgSrc) (s : State) :
    ∀ rr, execIndexExport m s = .next rr → (rr).pending = s.pending := by
  intro r h; unfold execIndexExport at h; grind [queue_indexExport, queue_serve]

theorem queue_completeChange (index : Nat) (shard : Nat) (epoch : Nat) (acked : Bool) (s : State) :
    (completeChange index shard epoch acked s).pending = s.pending := by
  grind [completeChange, queue_putCopy, queue_answerChange]

theorem queue_execWavelengthFail (port : Nat) (wl : Nat) (s : State) :
    ∀ rr, execWavelengthFail port wl s = .next rr → (rr).pending = s.pending := by
  intro r h; unfold execWavelengthFail at h; grind [queue_when, queue_guarded, queue_wavelengthFail]

theorem queue_bootLoad (flash : Option BootFlash) (s : State) :
    (bootLoad flash s).pending = s.pending := by
  unfold bootLoad; (repeat' split) <;> grind [queue_chooseFw, queue_stopWith, queue_chooseImg, queue_readBootFlash, queue_applyImage]

theorem queue_fabPortInfo (c : Ctx) (s : State) :
    (fabPortInfo c s).2.pending = s.pending := by
  simp [fabPortInfo, queue_checked]

theorem queue_execFabPortInfo (m : MsgSrc) (s : State) :
    ∀ rr, execFabPortInfo m s = .next rr → (rr).pending = s.pending := by
  intro r h; unfold execFabPortInfo at h; grind [queue_serve, queue_fabPortInfo]

theorem queue_execMarverCopy (unit : Nat) (errs : List MemErr) (s : State) :
    ∀ rr, execMarverCopy unit errs s = .next rr → (rr).pending = s.pending := by
  intro r h; unfold execMarverCopy at h; grind [queue_marverRow, queue_copyBurst]

theorem queue_execUpdateSubrequest (ident : Nat) (s : State) :
    ∀ rr, execUpdateSubrequest ident s = .next rr → (rr).pending = s.pending := by
  intro r h; unfold execUpdateSubrequest at h; grind [queue_serveUpdate, queue_admitSub]

theorem queue_execFwStage (m : MsgSrc) (s : State) :
    ∀ rr, execFwStage m s = .next rr → (rr).pending = s.pending := by
  intro r h; unfold execFwStage at h; grind [queue_fwStage, queue_serve]

theorem queue_execRefLost (s : State) :
    ∀ rr, execRefLost s = .next rr → (rr).pending = s.pending := by
  intro r h; unfold execRefLost at h; grind [queue_stopWith, queue_when, queue_emitDev]

theorem queue_execClaimMsg (ws : Nat) (ident : Nat) (copies : List (Nat × ReqCopy)) (s : State) :
    ∀ rr, execClaimMsg ws ident copies s = .next rr → (rr).pending = s.pending := by
  intro r h; unfold execClaimMsg at h; grind [queue_when, queue_makeClaim]

theorem queue_tableSeal (c : Ctx) (s : State) :
    (tableSeal c s).2.pending = s.pending := by
  grind [tableSeal, queue_modVersion, queue_withVersion, queue_refuse]

theorem queue_execTableSeal (m : MsgSrc) (s : State) :
    ∀ rr, execTableSeal m s = .next rr → (rr).pending = s.pending := by
  intro r h; unfold execTableSeal at h; grind [queue_tableSeal, queue_serve]

theorem queue_fecSeen (s : State) (p corrected uncorrectable : Nat) :
    (fecSeen s p corrected uncorrectable).pending = s.pending := by
  unfold fecSeen; grind [queue_score, queue_putPort]

theorem queue_frameArrives (s : State) (p corrected uncorrectable : Nat) (f : List Byte) :
    (frameArrives s p corrected uncorrectable f).pending = s.pending := by
  grind [frameArrives, queue_fecSeen, queue_dataFrame]

theorem queue_execDataFrame (port corrected uncorrectable : Nat) (f : List Byte) (s : State) :
    ∀ rr, execDataFrame port corrected uncorrectable f s = .next rr → (rr).pending = s.pending := by
  intro r h; unfold execDataFrame at h; grind [queue_when, queue_guarded, queue_frameArrives]

theorem queue_execPowerOnResetRelease (s : State) :
    ∀ rr, execPowerOnResetRelease s = .next rr → (rr).pending = s.pending := by
  intro r h; unfold execPowerOnResetRelease at h; grind [queue_when, queue_enterStrap]

theorem queue_execAlarmLatchWrite (s : State) :
    ∀ rr, execAlarmLatchWrite s = .next rr → (rr).pending = s.pending := by
  intro r h; unfold execAlarmLatchWrite at h; grind [queue_when, queue_writeLatch]

theorem queue_lehrAdmit (ident : Nat) (s : State) :
    (lehrAdmit ident s).pending = s.pending := by
  unfold lehrAdmit; (repeat' split) <;> simp [queue_dropActivity, queue_recalBegin]

theorem queue_execLehrAdmit (ident : Nat) (s : State) :
    ∀ rr, execLehrAdmit ident s = .next rr → (rr).pending = s.pending := by
  intro r h; unfold execLehrAdmit at h; grind [queue_when, queue_lehrAdmit]

theorem queue_execEvrClear (m : MsgSrc) (s : State) :
    ∀ rr, execEvrClear m s = .next rr → (rr).pending = s.pending := by
  intro r h; unfold execEvrClear at h; grind [queue_evrClear, queue_serve]

theorem queue_memRead (s : State) (p : Packet) :
    (memRead s p).pending = s.pending := by
  grind [memRead, queue_takeMsg, queue_sendTxn, queue_refuseAccess]

theorem queue_execHelloMsg (port : Nat) (msg : List Byte) (s : State) :
    ∀ rr, execHelloMsg port msg s = .next rr → (rr).pending = s.pending := by
  intro r h; unfold execHelloMsg at h; grind [queue_helloAt, queue_when, queue_guarded]

theorem queue_execSchedGateLoad (m : MsgSrc) (s : State) :
    ∀ rr, execSchedGateLoad m s = .next rr → (rr).pending = s.pending := by
  intro r h; unfold execSchedGateLoad at h; grind [queue_serve, queue_schedGateLoad]

theorem queue_execInputDropBeforeRun (vin : Nat) (s : State) :
    ∀ rr, execInputDropBeforeRun vin s = .next rr → (rr).pending = s.pending := by
  intro r h; unfold execInputDropBeforeRun at h; grind [queue_when, queue_railsOff]

theorem queue_execLowEpochPublish (index : Nat) (s : State) :
    ∀ rr, execLowEpochPublish index s = .next rr → (rr).pending = s.pending := by
  intro r h; unfold execLowEpochPublish at h; grind [queue_when, queue_publishLow]

theorem queue_execTimeInfo (m : MsgSrc) (s : State) :
    ∀ rr, execTimeInfo m s = .next rr → (rr).pending = s.pending := by
  intro r h; unfold execTimeInfo at h; grind [queue_serve]

theorem queue_execChangeComplete (index : Nat) (shard : Nat) (epoch : Nat) (acked : Bool) (s : State) :
    ∀ rr, execChangeComplete index shard epoch acked s = .next rr → (rr).pending = s.pending := by
  intro r h; unfold execChangeComplete at h; grind [queue_when, queue_guarded, queue_completeChange]

theorem queue_execAttnPositionRelease (slot : Nat) (s : State) :
    ∀ rr, execAttnPositionRelease slot s = .next rr → (rr).pending = s.pending := by
  intro r h; unfold execAttnPositionRelease at h; grind [queue_when, queue_launchStep]

theorem queue_execRefineSubrequest (ident : Nat) (s : State) :
    ∀ rr, execRefineSubrequest ident s = .next rr → (rr).pending = s.pending := by
  intro r h; unfold execRefineSubrequest at h; grind [queue_admitSub, queue_whenReached, queue_serveRefine]

theorem queue_execHandoff (c : ReqCopy) (s : State) :
    ∀ rr, execHandoff c s = .next rr → (rr).pending = s.pending := by
  intro r h; unfold execHandoff at h; grind [queue_when, queue_takeHandoff]

theorem queue_execRegionAlloc (m : MsgSrc) (s : State) :
    ∀ rr, execRegionAlloc m s = .next rr → (rr).pending = s.pending := by
  intro r h; unfold execRegionAlloc at h; grind [queue_regionAlloc, queue_serve]

theorem queue_execIndexCreate (m : MsgSrc) (s : State) :
    ∀ rr, execIndexCreate m s = .next rr → (rr).pending = s.pending := by
  intro r h; unfold execIndexCreate at h; grind [queue_indexCreate, queue_serve]

theorem queue_execBootLoad (flash : Option BootFlash) (s : State) :
    ∀ rr, execBootLoad flash s = .next rr → (rr).pending = s.pending := by
  intro r h; unfold execBootLoad at h; grind [queue_when, queue_bootLoad]

theorem queue_execRefinement (engine : Nat) (j : Option GafferJob) (err : Option (Nat × Bool)) (s : State) :
    ∀ rr, execRefinement engine j err s = .next rr → (rr).pending = s.pending := by
  intro r h; unfold execRefinement at h; grind [queue_submitJob, queue_guarded, queue_gafferRow]

theorem queue_guardSet (c : Ctx) (s : State) :
    (guardSet c s).2.pending = s.pending := by
  simp [guardSet, queue_checked]

theorem queue_execResetRequest (s : State) :
    ∀ rr, execResetRequest s = .next rr → (rr).pending = s.pending := by
  intro r h; unfold execResetRequest at h; grind [queue_resetRequest, queue_when]

theorem queue_execProgramLoad (m : MsgSrc) (s : State) :
    ∀ rr, execProgramLoad m s = .next rr → (rr).pending = s.pending := by
  intro r h; unfold execProgramLoad at h; grind [queue_serve, queue_programLoad]

theorem queue_execMaintStart (m : MsgSrc) (s : State) :
    ∀ rr, execMaintStart m s = .next rr → (rr).pending = s.pending := by
  intro r h; unfold execMaintStart at h; grind [queue_maintStart, queue_serve]

theorem queue_execScoreDecay (s : State) :
    ∀ rr, execScoreDecay s = .next rr → (rr).pending = s.pending := by
  intro r h; unfold execScoreDecay at h; grind [queue_when]

theorem queue_execHandoffAck (ws : Nat) (ident : Nat) (epoch : Nat) (heldNone : Bool) (s : State) :
    ∀ rr, execHandoffAck ws ident epoch heldNone s = .next rr → (rr).pending = s.pending := by
  intro r h; unfold execHandoffAck at h; grind [queue_takeHandoffAck, queue_when, queue_takeMsg]

theorem queue_execAttnCbLoad (m : MsgSrc) (s : State) :
    ∀ rr, execAttnCbLoad m s = .next rr → (rr).pending = s.pending := by
  intro r h; unfold execAttnCbLoad at h; grind [queue_attnCbLoad, queue_serve]

theorem queue_moveClose (c : Ctx) (s : State) :
    (moveClose c s).2.pending = s.pending := by
  simp [moveClose, queue_checked, queue_closeChannel]

theorem queue_execTicketInfo (m : MsgSrc) (s : State) :
    ∀ rr, execTicketInfo m s = .next rr → (rr).pending = s.pending := by
  intro r h; unfold execTicketInfo at h; grind [queue_ticketInfo, queue_serve]

theorem queue_execStripeForm (stream : Nat) (fold : Bool) (s : State) :
    ∀ rr, execStripeForm stream fold s = .next rr → (rr).pending = s.pending := by
  intro r h; unfold execStripeForm at h; grind [queue_when, queue_stripeForm]

theorem queue_reclaim (g : Nat) (s : State) :
    (reclaim g s).pending = s.pending := by
  simp [reclaim, queue_putGroup, queue_reclaimRound]

theorem queue_execReclaim (group : Nat) (s : State) :
    ∀ rr, execReclaim group s = .next rr → (rr).pending = s.pending := by
  intro r h; unfold execReclaim at h; grind [queue_reclaim, queue_when, queue_guarded]

theorem queue_linkStateRow (s : State) (src : Nat) (ls : List LinkEntry) :
    (linkStateRow s src ls).pending = s.pending := by
  simp [linkStateRow, queue_takeInbox]

theorem queue_execLinkState (src : Nat) (ls : List LinkEntry) (s : State) :
    ∀ rr, execLinkState src ls s = .next rr → (rr).pending = s.pending := by
  intro r h; unfold execLinkState at h; grind [queue_when, queue_linkStateRow]

theorem queue_execUcodeLoad (m : MsgSrc) (s : State) :
    ∀ rr, execUcodeLoad m s = .next rr → (rr).pending = s.pending := by
  intro r h; unfold execUcodeLoad at h; grind [queue_ucodeLoad, queue_serve]

theorem queue_annealManifest (ws : Nat) (key : Nat) (locator : List Byte) (s : State) :
    (annealManifest ws key locator s).pending = s.pending := by
  unfold annealManifest; (repeat' split) <;> simp [queue_submit, queue_putSession]

theorem queue_execMemRead (p : Packet) (s : State) :
    ∀ rr, execMemRead p s = .next rr → (rr).pending = s.pending := by
  intro r h; unfold execMemRead at h; grind [queue_when, queue_memRead]

theorem queue_execMoveOpen (m : MsgSrc) (s : State) :
    ∀ rr, execMoveOpen m s = .next rr → (rr).pending = s.pending := by
  intro r h; unfold execMoveOpen at h; grind [queue_moveOpen, queue_serve]

theorem queue_execPtpSendTimer (port : Nat) (kind : Nat) (s : State) :
    ∀ rr, execPtpSendTimer port kind s = .next rr → (rr).pending = s.pending := by
  intro r h; unfold execPtpSendTimer at h; grind [queue_ptpSend, queue_when, queue_guarded]

theorem queue_execRenewSend (group : Nat) (s : State) :
    ∀ rr, execRenewSend group s = .next rr → (rr).pending = s.pending := by
  intro r h; unfold execRenewSend at h; grind [queue_sendRenew, queue_when]

theorem queue_execPoisonRewrite (dpa : Nat) (data : List Byte) (s : State) :
    ∀ rr, execPoisonRewrite dpa data s = .next rr → (rr).pending = s.pending := by
  intro r h; unfold execPoisonRewrite at h; grind [queue_when, queue_poisonRewrite]

theorem queue_execHelloTimeout (port : Nat) (s : State) :
    ∀ rr, execHelloTimeout port s = .next rr → (rr).pending = s.pending := by
  intro r h; unfold execHelloTimeout at h; grind [queue_when, queue_guarded, queue_helloTimeout]

theorem queue_execAnnealManifest (ws : Nat) (key : Nat) (locator : List Byte) (s : State) :
    ∀ rr, execAnnealManifest ws key locator s = .next rr → (rr).pending = s.pending := by
  intro r h; unfold execAnnealManifest at h; grind [queue_annealManifest, queue_when]

theorem queue_execGuardSet (m : MsgSrc) (s : State) :
    ∀ rr, execGuardSet m s = .next rr → (rr).pending = s.pending := by
  intro r h; unfold execGuardSet at h; grind [queue_serve, queue_guardSet]

theorem queue_execStopLine (s : State) :
    ∀ rr, execStopLine s = .next rr → (rr).pending = s.pending := by
  intro r h; unfold execStopLine at h; grind [queue_when, queue_sendStopLine]

theorem queue_execFlashOperation (chan : Nat) (target : Nat) (o : FlashOutcome) (s : State) :
    ∀ rr, execFlashOperation chan target o s = .next rr → (rr).pending = s.pending := by
  intro r h; unfold execFlashOperation at h; grind [queue_when, queue_guarded, queue_flashOperation]

theorem queue_execWindowBadAccess (p : RegPkt) (isWrite : Bool) (s : State) :
    ∀ rr, execWindowBadAccess p isWrite s = .next rr → (rr).pending = s.pending := by
  intro r h; unfold execWindowBadAccess at h; grind [queue_when, queue_badAccess]

theorem queue_execAttnPartialSubrequest (ident : Nat) (s : State) :
    ∀ rr, execAttnPartialSubrequest ident s = .next rr → (rr).pending = s.pending := by
  intro r h; unfold execAttnPartialSubrequest at h; grind [queue_admitSub, queue_servePartial]

theorem queue_execFwActivateReverted (s : State) :
    ∀ rr, execFwActivateReverted s = .next rr → (rr).pending = s.pending := by
  intro r h; unfold execFwActivateReverted at h; grind [queue_when, queue_fwRevert]

theorem queue_execMoveClose (m : MsgSrc) (s : State) :
    ∀ rr, execMoveClose m s = .next rr → (rr).pending = s.pending := by
  intro r h; unfold execMoveClose at h; grind [queue_moveClose, queue_serve]

theorem queue_execSlotReply (slot : Nat) (s : State) :
    ∀ rr, execSlotReply slot s = .next rr → (rr).pending = s.pending := by
  intro r h; unfold execSlotReply at h; grind [queue_when, queue_takeOutput]

theorem queue_execWsSettings (m : MsgSrc) (s : State) :
    ∀ rr, execWsSettings m s = .next rr → (rr).pending = s.pending := by
  intro r h; unfold execWsSettings at h; grind [queue_wsSettings, queue_serve]

theorem queue_execTableStage (m : MsgSrc) (s : State) :
    ∀ rr, execTableStage m s = .next rr → (rr).pending = s.pending := by
  intro r h; unfold execTableStage at h; grind [queue_tableStage, queue_serve]

theorem queue_execDevInfo (m : MsgSrc) (s : State) :
    ∀ rr, execDevInfo m s = .next rr → (rr).pending = s.pending := by
  intro r h; unfold execDevInfo at h; grind [queue_serve]

theorem queue_execDropSummary (s : State) :
    ∀ rr, execDropSummary s = .next rr → (rr).pending = s.pending := by
  intro r h; unfold execDropSummary at h; grind [queue_when, queue_dropSummary]

theorem queue_execAttnScoreSubrequest (ident : Nat) (s : State) :
    ∀ rr, execAttnScoreSubrequest ident s = .next rr → (rr).pending = s.pending := by
  intro r h; unfold execAttnScoreSubrequest at h; grind [queue_admitSub, queue_serveScore]

theorem queue_execFlashHealth (m : MsgSrc) (s : State) :
    ∀ rr, execFlashHealth m s = .next rr → (rr).pending = s.pending := by
  intro r h; unfold execFlashHealth at h; grind [queue_checked, queue_serve]

theorem queue_execRemapFrame (port : Nat) (lane : Nat) (wl : Nat) (_first : Nat) (s : State) :
    ∀ rr, execRemapFrame port lane wl _first s = .next rr → (rr).pending = s.pending := by
  intro r h; unfold execRemapFrame at h; grind [queue_when, queue_guarded, queue_remapFrame]

theorem queue_execGatherSubrequest (ident : Nat) (s : State) :
    ∀ rr, execGatherSubrequest ident s = .next rr → (rr).pending = s.pending := by
  intro r h; unfold execGatherSubrequest at h; grind [queue_admitSub, queue_serveGather]

theorem queue_execSchedSample (m : MsgSrc) (s : State) :
    ∀ rr, execSchedSample m s = .next rr → (rr).pending = s.pending := by
  intro r h; unfold execSchedSample at h; grind [queue_serve, queue_schedSample]

theorem queue_execHashPut (fn : Nat) (ring : Nat) (h : HostView) (s : State) :
    ∀ rr, execHashPut fn ring h s = .next rr → (rr).pending = s.pending := by
  unfold execHashPut
  exact queue_admitRow _ _ _ _ _ _ _ (fun _ _ _ => queue_startHashChange _ _ _ _)

end Sys2Proof.Laws
end

