-- ==== Sys2Proof/Laws/Untouched.lean ====
section
/-!
SUPPORT. The operations that store nothing leave memory as it was: one lemma for each, the meanings of the rows among them.
-/

open Sys2Proof Sys2Proof.Machine

namespace Sys2Proof.Laws

theorem mem_foldl {α : Type} (g : State → α → State) (h : ∀ a b, (g a b).mem = a.mem) (l : List α) (s : State) :
    (l.foldl g s).mem = s.mem := by
  induction l generalizing s with
  | nil => rfl
  | cons a t ih => simp [ih, h]

theorem mem_refuse (st : Nat) (s : State) :
    (refuse st s).2.mem = s.mem := by
  simp [refuse]

theorem mem_checked (cs : List (Bool × Nat)) (run : Answer × State) (s : State) (h_run : (run).2.mem = s.mem) :
    (checked cs run s).2.mem = s.mem := by
  unfold checked; (repeat' split) <;> simp [mem_refuse, h_run]

theorem mem_putChan (s : State) (c : Nat) (x : Channel) :
    (putChan s c x).mem = s.mem := by
  simp [putChan]

theorem mem_moveRate (c : Ctx) (s : State) :
    (moveRate c s).2.mem = s.mem := by
  simp [moveRate, mem_checked, mem_putChan]

theorem mem_when (c : Bool) (f : State → State) (s : State) (h_f : ∀ y0, (f y0).mem = y0.mem) :
    (when c f s).mem = s.mem := by
  unfold when; (repeat' split) <;> simp [h_f]

theorem mem_guarded (row : String) (present : Bool) (t : State) :
    ∀ rr, guarded row present t = .next rr → (rr).mem = t.mem := by
  intro r h; unfold guarded at h; grind []

theorem mem_putGroup (s : State) (g : Nat) (x : FlashGroup) :
    (putGroup s g x).mem = s.mem := by
  simp [putGroup]

theorem mem_emitFull (s : State) (code : Nat) (kind : Nat) (inst : Nat) (p0 : Nat) (p1 : Nat) (p2 : Nat) (p3 : Nat) (p4 : Nat) :
    (emitFull s code kind inst p0 p1 p2 p3 p4).mem = s.mem := by
  simp [emitFull]

theorem mem_emit (s : State) (code : Nat) (kind : Nat) (inst : Nat) (p0 : Nat) (p1 : Nat) (p2 : Nat) :
    (emit s code kind inst p0 p1 p2).mem = s.mem := by
  simp [emit, mem_emitFull]

theorem mem_loseUnit (s : State) (g : Nat) (u : Nat) :
    (loseUnit s g u).mem = s.mem := by
  simp [loseUnit, mem_putGroup, mem_emit]

theorem mem_putFChan (s : State) (c : Nat) (x : FlashChan) :
    (putFChan s c x).mem = s.mem := by
  simp [putFChan]

theorem mem_checkSpare (s : State) (g : Nat) :
    (checkSpare s g).mem = s.mem := by
  grind [checkSpare, mem_putGroup, mem_emit]

theorem mem_takeOutTarget (s : State) (c : Nat) (tg : Nat) :
    (takeOutTarget s c tg).mem = s.mem := by
  simp only [takeOutTarget]; (repeat' split) <;> first
    | grind [mem_putGroup, mem_emit, mem_loseUnit, mem_putFChan, mem_checkSpare]
    | simp [mem_putGroup, mem_emit, mem_loseUnit, mem_putFChan, mem_checkSpare, mem_foldl]

theorem mem_submit (s : State) (a : Activity) :
    (submit s a).mem = s.mem := by
  unfold submit; (repeat' split) <;> simp

theorem mem_beginStackRetire (s : State) (stk : Nat) (t : Option TicketRef) :
    (beginStackRetire s stk t).mem = s.mem := by
  simp [beginStackRetire, mem_submit]

theorem mem_putScore (s : State) (kind : Nat) (idx : Nat) (x : Score) :
    (putScore s kind idx x).mem = s.mem := by
  simp [putScore]

theorem mem_addPoints (s : State) (kind : Nat) (idx : Nat) (pts : Nat) (code : Nat) :
    (addPoints s kind idx pts code).mem = s.mem := by
  simp [addPoints, mem_putScore]

theorem mem_checkWatch (s : State) (kind : Nat) (idx : Nat) :
    (checkWatch s kind idx).mem = s.mem := by
  grind [checkWatch, mem_putScore, mem_emitFull]

theorem mem_beginCaneRetire (s : State) (c : Nat) (t : Option TicketRef) :
    (beginCaneRetire s c t).mem = s.mem := by
  simp [beginCaneRetire, mem_submit]

theorem mem_retireGaffer (s : State) (e : Nat) :
    (retireGaffer s e).mem = s.mem := by
  simp [retireGaffer]

theorem mem_putPort (s : State) (p : Nat) (x : Port) :
    (putPort s p x).mem = s.mem := by
  simp [putPort]

theorem mem_holdWavelength (s : State) (idx : Nat) :
    (holdWavelength s idx).mem = s.mem := by
  simp [holdWavelength, mem_putPort]

theorem mem_emitDev (s : State) (code : Nat) (p0 : Nat) (p1 : Nat) (p2 : Nat) :
    (emitDev s code p0 p1 p2).mem = s.mem := by
  simp [emitDev, mem_emitFull]

theorem mem_unreachable (s : State) (dst : Nat) :
    (unreachable s dst).mem = s.mem := by
  unfold unreachable; (repeat' split) <;> simp [mem_emitDev]

theorem mem_movePackets (s : State) (from_ : Nat) (ps : List Packet) :
    (movePackets s from_ ps).mem = s.mem := by
  unfold movePackets; refine mem_foldl _ ?_ _ _; intro a b; (repeat' split) <;> first
    | grind [mem_putPort, mem_unreachable]
    | simp [mem_putPort, mem_unreachable, mem_foldl]
    | simp_all [mem_putPort, mem_unreachable, mem_foldl]

theorem mem_noteLinks (s : State) :
    (noteLinks s).mem = s.mem := by
  simp [noteLinks]

theorem mem_setPort (s : State) (p : Nat) (st : Nat) (emission : Nat) :
    (setPort s p st emission).mem = s.mem := by
  grind [setPort, mem_movePackets, mem_putPort, mem_noteLinks]

theorem mem_scoreFuel (x0 : Nat) (x1 : State) (kind : Nat) (idx : Nat) (pts : Nat) (code : Nat) :
    (scoreFuel x0 x1 kind idx pts code).mem = x1.mem := by
  fun_induction scoreFuel <;> grind [mem_takeOutTarget, mem_beginStackRetire, mem_addPoints, mem_checkWatch, mem_submit, mem_putScore,
    mem_beginCaneRetire, mem_retireGaffer, mem_holdWavelength, mem_setPort, mem_emitFull]

theorem mem_score (s : State) (kind : Nat) (idx : Nat) (pts : Nat) (code : Nat) :
    (score s kind idx pts code).mem = s.mem := by
  simp [score, mem_scoreFuel]

theorem mem_putFn (s : State) (n : Nat) (f : Func) :
    (putFn s n f).mem = s.mem := by
  simp [putFn]

theorem mem_putVec (s : State) (fn : Nat) (v : Nat) (x : Vec) :
    (putVec s fn v x).mem = s.mem := by
  simp [putVec, mem_putFn]

theorem mem_putFlow (s : State) (f : Flow) :
    (putFlow s f).mem = s.mem := by
  simp [putFlow]

theorem mem_enqueue (s : State) (port : Nat) (p : Packet) :
    (enqueue s port p).mem = s.mem := by
  simp [enqueue, mem_putPort]

theorem mem_sendPacket (s : State) (p : Packet) :
    (sendPacket s p).mem = s.mem := by
  grind [sendPacket, mem_putFlow, mem_enqueue, mem_unreachable]

theorem mem_sendTxn (s : State) (dst : Nat) (vc : Nat) (ws : Nat) (msg : Nat) (txn : Nat) (body : List Byte) :
    (sendTxn s dst vc ws msg txn body).mem = s.mem := by
  simp [sendTxn, mem_sendPacket, mem_foldl]

theorem mem_sendMsg (s : State) (dst : Nat) (vc : Nat) (ws : Nat) (msg : Nat) (body : List Byte) :
    (sendMsg s dst vc ws msg body).mem = s.mem := by
  simp [sendMsg, mem_sendTxn]

theorem mem_sendInterrupt (s : State) (fn : Nat) (v : Nat) :
    (sendInterrupt s fn v).mem = s.mem := by
  simp [sendInterrupt, mem_sendMsg, mem_putVec]

theorem mem_interruptDue (s : State) (fn : Nat) (v : Nat) :
    (interruptDue s fn v).mem = s.mem := by
  grind [interruptDue, mem_putVec, mem_sendInterrupt]

theorem mem_addEvent (s : State) (fn : Nat) (v : Nat) :
    (addEvent s fn v).mem = s.mem := by
  grind [addEvent, mem_putVec, mem_interruptDue]

theorem mem_postInto (s : State) (fn : Nat) (slot : Nat) (msg : List Byte) :
    (postInto s fn slot msg).mem = s.mem := by
  simp [postInto, mem_putFn, mem_addEvent]

theorem mem_post (s : State) (owner : Nat) (msg : List Byte) :
    (post s owner msg).mem = s.mem := by
  grind [post, mem_putFn, mem_postInto]

theorem mem_finishTicket (s : State) (t : TicketRef) (status : Nat) (result : List Byte) :
    (finishTicket s t status result).mem = s.mem := by
  unfold finishTicket; (repeat' split) <;> simp [mem_post]

theorem mem_finishAll (s : State) (ts : List TicketRef) (status : Nat) (result : List Byte) :
    (finishAll s ts status result).mem = s.mem := by
  simp [finishAll, mem_finishTicket, mem_foldl]

theorem mem_endRetrain (s : State) (p : Nat) :
    (endRetrain s p).mem = s.mem := by
  simp [endRetrain, mem_putPort, mem_finishAll]

theorem mem_dropActivity (s : State) (ident : Nat) :
    (dropActivity s ident).mem = s.mem := by
  simp [dropActivity]

theorem mem_finishRecal (s : State) (r : Recal) :
    (finishRecal s r).mem = s.mem := by
  simp [finishRecal, mem_finishTicket, mem_emit, mem_dropActivity]

theorem mem_putRecal (s : State) (r : Recal) :
    (putRecal s r).mem = s.mem := by
  simp [putRecal]

theorem mem_recalNext (s : State) (r : Recal) (x2 : Nat) :
    (recalNext s r x2).mem = s.mem := by
  fun_induction recalNext <;> simp_all [mem_finishRecal, mem_putRecal, mem_setPort]

theorem mem_recalPortEnd (s : State) (p : Nat) (up : Bool) :
    (recalPortEnd s p up).mem = s.mem := by
  unfold recalPortEnd; (repeat' split) <;> simp [mem_recalNext]

theorem mem_darken (s : State) (c : Nat) :
    (darken s c).mem = s.mem := by
  unfold darken; refine mem_foldl _ ?_ _ _; intro a b; (repeat' split) <;> first
    | grind [mem_putPort, mem_endRetrain, mem_recalPortEnd, mem_setPort]
    | simp [mem_putPort, mem_endRetrain, mem_recalPortEnd, mem_setPort, mem_foldl]
    | simp_all [mem_putPort, mem_endRetrain, mem_recalPortEnd, mem_setPort, mem_foldl]

theorem mem_feedLostRow (s : State) (f : Nat) :
    (feedLostRow s f).mem = s.mem := by
  grind [feedLostRow, mem_score, mem_emit, mem_darken]

theorem mem_execLaserFeedLost (feed : Nat) (s : State) :
    ∀ rr, execLaserFeedLost feed s = .next rr → (rr).mem = s.mem := by
  intro r h; unfold execLaserFeedLost at h; grind [mem_when, mem_guarded, mem_feedLostRow]

theorem mem_putRing (s : State) (fn : Nat) (r : Nat) (g : Ring) :
    (putRing s fn r g).mem = s.mem := by
  simp [putRing, mem_putFn]

theorem mem_settleRing (s : State) (fn : Nat) (r : Nat) :
    (settleRing s fn r).mem = s.mem := by
  grind [settleRing, mem_putRing, mem_finishAll]

theorem mem_sendMemWrite (s : State) (dst : Nat) (vc : Nat) (ws : Nat) (txn : Nat) (addr : Nat) (data : List Byte) :
    (sendMemWrite s dst vc ws txn addr data).mem = s.mem := by
  simp [sendMemWrite, mem_sendTxn]

theorem mem_settlePause (s : State) (c : Nat) :
    (settlePause s c).mem = s.mem := by
  grind [settlePause, mem_finishAll, mem_putChan]

theorem mem_settleOffline (s : State) (g : Nat) :
    (settleOffline s g).mem = s.mem := by
  grind [settleOffline, mem_putGroup, mem_finishTicket, mem_emit]

theorem mem_freePages (s : State) (base : Nat) :
    (freePages s base).mem = s.mem := by
  simp [freePages]

theorem mem_freeSessionPages (s : State) (x : Session) :
    (freeSessionPages s x).mem = s.mem := by
  unfold freeSessionPages; refine mem_foldl _ ?_ _ _; intro a b; (repeat' split) <;> first
    | grind [mem_freePages]
    | simp [mem_freePages, mem_foldl]
    | simp_all [mem_freePages, mem_foldl]

theorem mem_deleteStreams (s : State) (p : Stream → Bool) :
    (deleteStreams s p).mem = s.mem := by
  simp [deleteStreams]

theorem mem_putSession (s : State) (x : Session) :
    (putSession s x).mem = s.mem := by
  simp [putSession]

theorem mem_putBook (s : State) (h : Nat) (b : CodebookSet) :
    (putBook s h b).mem = s.mem := by
  simp [putBook]

theorem mem_settleBook (s : State) (h : Nat) :
    (settleBook s h).mem = s.mem := by
  unfold settleBook; (repeat' split) <;> simp [mem_finishAll, mem_freePages]

theorem mem_refBook (s : State) (h : Nat) (up : Bool) :
    (refBook s h up).mem = s.mem := by
  unfold refBook; (repeat' split) <;> simp [mem_putBook, mem_settleBook]

theorem mem_releaseSession (s : State) (x : Session) (state : Nat) :
    (releaseSession s x state).mem = s.mem := by
  simp [releaseSession, mem_freeSessionPages, mem_deleteStreams, mem_putSession, mem_refBook]

theorem mem_eraseSession (s : State) (x : Session) :
    (eraseSession s x).mem = s.mem := by
  simp [eraseSession]

theorem mem_settleSession (s : State) (ws : Nat) (key : Nat) :
    (settleSession s ws key).mem = s.mem := by
  unfold settleSession; (repeat' split) <;> simp [mem_releaseSession, mem_finishAll, mem_eraseSession]

theorem mem_putGaffer (s : State) (e : Nat) (g : Gaffer) :
    (putGaffer s e g).mem = s.mem := by
  simp [putGaffer]

theorem mem_setPages (s : State) (src : Nat) (dst : Nat) (n : Nat) (es : List Nat) :
    (setPages s src dst n es).mem = s.mem := by
  simp [setPages, mem_putGaffer, mem_foldl]

theorem mem_settleProgram (s : State) (h : Nat) :
    (settleProgram s h).mem = s.mem := by
  unfold settleProgram; (repeat' split) <;> simp [mem_finishAll, mem_setPages, mem_freePages]

theorem mem_finishUnload (s : State) (k : Ticket) :
    ∀ rr, finishUnload s k = some rr → (rr).2.2.mem = s.mem := by
  intro r h; unfold finishUnload at h; grind [mem_settleProgram]

theorem mem_putIndex (s : State) (i : Nat) (x : Index) :
    (putIndex s i x).mem = s.mem := by
  simp [putIndex]

theorem mem_finishImport (s : State) (k : Ticket) :
    ∀ rr, finishImport s k = some rr → (rr).2.2.mem = s.mem := by
  intro r h; unfold finishImport at h; grind [mem_putIndex]

theorem mem_finishTrain (s : State) (k : Ticket) :
    ∀ rr, finishTrain s k = some rr → (rr).2.2.mem = s.mem := by
  intro r h; unfold finishTrain at h; grind [mem_putIndex]

theorem mem_removeTable (s : State) (h : Nat) :
    (removeTable s h).mem = s.mem := by
  unfold removeTable; (repeat' split) <;> simp [mem_deleteStreams]

theorem mem_putTable (s : State) (h : Nat) (t : Table) :
    (putTable s h t).mem = s.mem := by
  simp [putTable]

theorem mem_freeVersionPages (s : State) (x : Version) :
    (freeVersionPages s x).mem = s.mem := by
  unfold freeVersionPages; refine mem_foldl _ ?_ _ _; intro a b; (repeat' split) <;> first
    | grind [mem_freePages]
    | simp [mem_freePages, mem_foldl]
    | simp_all [mem_freePages, mem_foldl]

theorem mem_freeVersion (s : State) (h : Nat) (v : Nat) :
    (freeVersion s h v).mem = s.mem := by
  unfold freeVersion; (repeat' split) <;> simp [mem_finishAll, mem_putTable, mem_freeVersionPages]

theorem mem_settleTable (s : State) (h : Nat) :
    (settleTable s h).mem = s.mem := by
  simp only [settleTable]; (repeat' split) <;> first
    | grind [mem_finishAll, mem_removeTable, mem_freeVersion]
    | simp [mem_finishAll, mem_removeTable, mem_freeVersion, mem_foldl]

theorem mem_finishTableDrop (s : State) (k : Ticket) :
    ∀ rr, finishTableDrop s k = some rr → (rr).2.2.mem = s.mem := by
  intro r h; unfold finishTableDrop at h; grind [mem_settleTable]

theorem mem_setBootRec (s : State) (g : BootRec → BootRec) :
    (setBootRec s g).mem = s.mem := by
  simp [setBootRec]

theorem mem_finishStage (s : State) (t : TicketRef) (ok : Bool) :
    ∀ rr, finishStage s t ok = some rr → (rr).2.2.mem = s.mem := by
  intro r h; unfold finishStage at h; grind [mem_setBootRec, mem_emitDev, mem_dropActivity, mem_freePages]

theorem mem_modVersion (s : State) (h : Nat) (v : Nat) (f : Version → Version) :
    (modVersion s h v f).mem = s.mem := by
  unfold modVersion; (repeat' split) <;> simp [mem_putTable]

theorem mem_refVersion (s : State) (h : Nat) (v : Nat) (up : Bool) :
    (refVersion s h v up).mem = s.mem := by
  simp [refVersion, mem_modVersion, mem_settleTable]

theorem mem_finishTableLoad (s : State) (k : Ticket) :
    (finishTableLoad s k).mem = s.mem := by
  simp [finishTableLoad, mem_modVersion, mem_settleTable]

theorem mem_finishCbUnload (s : State) (k : Ticket) :
    ∀ rr, finishCbUnload s k = some rr → (rr).2.2.mem = s.mem := by
  intro r h; unfold finishCbUnload at h; grind [mem_settleBook]

theorem mem_takeSub (s : State) (src : Nat) (ws : Nat) (txn : Nat) (vc : Nat) (l : List Byte) :
    (takeSub s src ws txn vc l).mem = s.mem := by
  simp [takeSub]

theorem mem_writeAcked (s : State) (src : Nat) (txn : Nat) :
    (writeAcked s src txn).mem = s.mem := by
  simp [writeAcked]

theorem mem_answerRegRead (s : State) (p : Packet) :
    (answerRegRead s p).mem = s.mem := by
  grind [answerRegRead, mem_sendTxn]

theorem mem_deliver (s : State) (p : Packet) :
    (deliver s p).mem = s.mem := by
  unfold deliver; (repeat' split) <;> simp [mem_takeSub, mem_writeAcked, mem_answerRegRead]

theorem mem_sendWhole (s : State) (dst : Nat) (vc : Nat) (ws : Nat) (msg : Nat) (txn : Nat) (body : List Byte) :
    (sendWhole s dst vc ws msg txn body).mem = s.mem := by
  unfold sendWhole; (repeat' split) <;> simp [mem_deliver, mem_sendTxn]

theorem mem_sendCtrl (s : State) (dev : Nat) (t : Table) (op : Nat) (v : Nat) (u : Nat) (rest : List Byte) :
    (sendCtrl s dev t op v u rest).mem = s.mem := by
  simp [sendCtrl, mem_sendWhole]

theorem mem_settleDrains (s : State) (h : Nat) :
    (settleDrains s h).mem = s.mem := by
  unfold settleDrains; (repeat' split) <;> simp [mem_putTable, mem_sendCtrl, mem_foldl]

theorem mem_sendSess (s : State) (dev : Nat) (txn : Nat) (x : Session) (op : Nat) (rest : List Byte) :
    (sendSess s dev txn x op rest).mem = s.mem := by
  simp [sendSess, mem_sendWhole]

theorem mem_tellSession (s : State) (x : Session) (op : Nat) (rest : List Byte) :
    (tellSession s x op rest).mem = s.mem := by
  simp [tellSession, mem_sendSess, mem_foldl]

theorem mem_activateSession (s : State) (k : Ticket) (from_ : Nat) :
    ∀ rr, activateSession s k from_ = some rr → (rr).2.2.mem = s.mem := by
  intro r h; unfold activateSession at h; grind [mem_putSession, Option.map_eq_some_iff, Option.bind_eq_some_iff]

theorem mem_finishResume (s : State) (k : Ticket) (ok : Bool) :
    ∀ rr, finishResume s k ok = some rr → (rr).2.2.mem = s.mem := by
  intro r h; unfold finishResume at h; grind [mem_tellSession, mem_releaseSession, mem_activateSession, Option.map_eq_some_iff,
    Option.bind_eq_some_iff]

theorem mem_finishDiscard (s : State) (k : Ticket) :
    ∀ rr, finishDiscard s k = some rr → (rr).2.2.mem = s.mem := by
  intro r h; unfold finishDiscard at h; grind [mem_settleTable]

theorem mem_finishRetrain (s : State) (k : Ticket) (t : TicketRef) :
    ∀ rr, finishRetrain s k t = some rr → (rr).2.2.mem = s.mem := by
  intro r h; unfold finishRetrain at h; grind []

theorem mem_drawFree (s : State) (w : Nat) :
    (drawFree s w).2.mem = s.mem := by
  simp [drawFree]

theorem mem_finishClear (s : State) (w : Work) :
    ∀ rr, finishClear s w = some rr → (rr).2.2.mem = s.mem := by
  intro r h; unfold finishClear at h; grind [mem_drawFree]

theorem mem_queueOp (s : State) (g : Nat) (b : Nat) (cls : Nat) (unit : Nat) (data : List Byte) :
    (queueOp s g b cls unit data).mem = s.mem := by
  unfold queueOp; (repeat' split) <;> simp

theorem mem_openNext (s : State) (g : Nat) (reserveOk : Bool) :
    ∀ rr, openNext s g reserveOk = some rr → (rr).mem = s.mem := by
  intro r h; unfold openNext at h; grind [mem_putGroup, mem_queueOp]

theorem mem_withRoom (s : State) (g : Nat) (reserveOk : Bool) :
    ∀ rr, withRoom s g reserveOk = some rr → (rr).mem = s.mem := by
  intro r h; unfold withRoom at h; grind [mem_openNext]

theorem mem_placeUnit (s : State) (g : Nat) (u : Nat) (data : List Byte) (gen : Nat) (cls : Nat) (reserveOk : Bool) :
    ∀ rr, placeUnit s g u data gen cls reserveOk = some rr → (rr).mem = s.mem := by
  intro r h; unfold placeUnit at h; grind [mem_putGroup, mem_queueOp, mem_withRoom]

theorem mem_emptyBlock (s : State) (g : Nat) (b : Nat) :
    (emptyBlock s g b).mem = s.mem := by
  unfold emptyBlock
  refine mem_foldl _ ?_ _ _
  intro a b; split
  · rename_i m _
    cases hh : placeUnit a g b m.data m.gen 4 true with
    | none => rfl
    | some t => exact mem_placeUnit _ _ _ _ _ _ _ _ hh
  · rfl

theorem mem_reclaimRound (s : State) (g : Nat) :
    (reclaimRound s g).mem = s.mem := by
  unfold reclaimRound; (repeat' split) <;> simp [mem_emptyBlock]

theorem mem_reclaimFor (s : State) (g : Nat) (x2 : Nat) :
    (reclaimFor s g x2).mem = s.mem := by
  fun_induction reclaimFor <;> simp_all [mem_reclaimRound]

theorem mem_writeUnit (s : State) (g : Nat) (u : Nat) (data : List Byte) (gen : Nat) (reserveOk : Bool) :
    (writeUnit s g u data gen reserveOk).2.mem = s.mem := by
  grind [writeUnit, mem_putGroup, mem_emit, mem_placeUnit, mem_withRoom, mem_reclaimFor]

theorem mem_rewriteUnits (ws : Nat) (old : Key) (new : Key) (x3 : List (Nat × Nat × MapUnit)) (x4 : State) :
    (rewriteUnits ws old new x3 x4).2.mem = x4.mem := by
  fun_induction rewriteUnits <;> grind [mem_writeUnit]

theorem mem_putKeys (s : State) (ws : Nat) (k : KeySet) :
    (putKeys s ws k).mem = s.mem := by
  simp [putKeys]

theorem mem_finishKeyRetire (s : State) (k : Ticket) :
    ∀ rr, finishKeyRetire s k = some rr → (rr).2.2.mem = s.mem := by
  intro r h; unfold finishKeyRetire at h; grind [mem_rewriteUnits, mem_putKeys]

theorem mem_dropSpills (s : State) :
    (dropSpills s).mem = s.mem := by
  simp [dropSpills]

theorem mem_freeCopy (s : State) (c : Copy) :
    (freeCopy s c).mem = s.mem := by
  simp [freeCopy, mem_freePages, mem_foldl]

theorem mem_putProgram (s : State) (h : Nat) (p : Program) :
    (putProgram s h p).mem = s.mem := by
  simp [putProgram]

theorem mem_refProgram (s : State) (h : Nat) (up : Bool) :
    (refProgram s h up).mem = s.mem := by
  unfold refProgram; (repeat' split) <;> simp [mem_putProgram, mem_settleProgram]

theorem mem_removeIndex (s : State) (idx : Nat) :
    (removeIndex s idx).mem = s.mem := by
  unfold removeIndex; (repeat' split) <;> simp [mem_dropSpills, mem_freeCopy, mem_deleteStreams, mem_freePages, mem_refProgram, mem_foldl]

theorem mem_settleIndex (s : State) (idx : Nat) :
    (settleIndex s idx).mem = s.mem := by
  unfold settleIndex; (repeat' split) <;> simp [mem_removeIndex, mem_finishAll]

theorem mem_finishDrop (s : State) (k : Ticket) :
    ∀ rr, finishDrop s k = some rr → (rr).2.2.mem = s.mem := by
  intro r h; unfold finishDrop at h; grind [mem_settleIndex]

theorem mem_fwConfirm (s : State) :
    (fwConfirm s).mem = s.mem := by
  unfold fwConfirm; (repeat' split) <;> simp [mem_emitDev, mem_finishTicket]

theorem mem_execInputLow (s : State) :
    ∀ rr, execInputLow s = .next rr → (rr).mem = s.mem := by
  intro r h; unfold execInputLow at h; grind [mem_when, mem_emit]

theorem mem_markFailed (s : State) (kind : Nat) (slot : Bool) :
    (markFailed s kind slot).mem = s.mem := by
  simp [markFailed, mem_setBootRec]

theorem mem_considered (s : State) (kind : Nat) :
    (considered s kind).2.mem = s.mem := by
  grind [considered, mem_markFailed]

theorem mem_withTable (c : Ctx) (s : State) (h : Nat) (f : Table → Answer × State) (h_f : ∀ y0, (f y0).2.mem = s.mem) :
    (withTable c s h f).2.mem = s.mem := by
  unfold withTable; (repeat' split) <;> simp [mem_refuse, h_f]

theorem mem_withVersion (c : Ctx) (s : State) (f : Nat → Table → Version → Answer × State) (h_f : ∀ y0 y1 y2,
  (f y0 y1 y2).2.mem = s.mem) :
    (withVersion c s f).2.mem = s.mem := by
  grind [withVersion, mem_withTable, mem_refuse]

theorem mem_tableDiscard (c : Ctx) (s : State) :
    (tableDiscard c s).2.mem = s.mem := by
  grind [tableDiscard, mem_modVersion, mem_withVersion, mem_refuse]

theorem mem_respond (s : State) (owner : Nat) (op : Nat) (tag : Nat) (status : Nat) (ticket : Nat) (result : List Byte) :
    (respond s owner op tag status ticket result).mem = s.mem := by
  simp [respond, mem_post]

theorem mem_addTicket (s : State) (t : TicketRef) (op : Nat) (tag : Nat) (w : Work) :
    (addTicket s t op tag w).mem = s.mem := by
  simp [addTicket, mem_putFn]

theorem mem_give (c : Ctx) (a : Answer) (s : State) :
    (give c a s).mem = s.mem := by
  unfold give; (repeat' split) <;> simp [mem_respond, mem_addTicket]

theorem mem_takeRequest (s : State) (m : MsgSrc) :
    (takeRequest s m).mem = s.mem := by
  unfold takeRequest; (repeat' split) <;> simp [mem_putFn]

theorem mem_serveNow (c : Cmd) (m : MsgSrc) (body : Ctx → State → Answer × State) (s : State) (h_body : ∀ y0 y1,
  (body y0 y1).2.mem = y1.mem) :
    (serveNow c m body s).mem = s.mem := by
  grind [serveNow, mem_give, mem_respond, mem_takeRequest]

theorem mem_serve (c : Cmd) (m : MsgSrc) (body : Ctx → State → Answer × State) (s : State) (h_body : ∀ y0 y1,
  (body y0 y1).2.mem = y1.mem) :
    ∀ rr, serve c m body s = .next rr → (rr).mem = s.mem := by
  intro r h; unfold serve at h; grind [mem_serveNow, mem_when]

theorem mem_execTableDiscard (m : MsgSrc) (s : State) :
    ∀ rr, execTableDiscard m s = .next rr → (rr).mem = s.mem := by
  intro r h; unfold execTableDiscard at h; grind [mem_tableDiscard, mem_serve]

theorem mem_stagePool (c : Ctx) (s : State) (h : Nat) (t : Table) :
    (stagePool c s h t).2.mem = s.mem := by
  simp [stagePool, mem_checked, mem_putTable]

theorem mem_writeFwSlot (s : State) (slot : Bool) (p : FwPackage) :
    (writeFwSlot s slot p).mem = s.mem := by
  simp [writeFwSlot, mem_setBootRec]

theorem mem_putLease (s : State) (g : Group) :
    (putLease s g).mem = s.mem := by
  simp [putLease]

theorem mem_putStream (s : State) (g : Nat) (st : Stream) :
    (putStream s g st).mem = s.mem := by
  simp [putStream, mem_putGroup]

theorem mem_copyUnit (g unit h v : Nat) (st : Stream) (m : MapUnit) (s : State) :
    (copyUnit g unit h v st m s).mem = s.mem := by
  unfold copyUnit; dsimp only; (repeat' split) <;> simp [mem_writeUnit, mem_putGroup, mem_putStream]

theorem mem_streamMove (g stream unit : Nat) (s : State) : (streamMove g stream unit s).mem = s.mem := by
  unfold streamMove; dsimp only; (repeat' split) <;> simp [mem_copyUnit, mem_putGroup, mem_settleOffline]

theorem mem_execStreamMove (group : Nat) (stream : Nat) (unit : Nat) (s : State) :
    ∀ rr, execStreamMove group stream unit s = .next rr → (rr).mem = s.mem := by
  intro r h; unfold execStreamMove at h; grind [mem_when, mem_guarded, mem_streamMove]

theorem mem_putUnit (s : State) (u : Nat) (x : MarverUnit) :
    (putUnit s u x).mem = s.mem := by
  simp [putUnit]

theorem mem_keepResult (c : MarverCtx) (s : State) :
    (keepResult c s).mem = s.mem := by
  unfold keepResult; (repeat' split) <;> simp

theorem mem_endStep (u : Nat) (i : Nat) (c : MarverCtx) (s : State) :
    (endStep u i c s).mem = s.mem := by
  unfold endStep; (repeat' split) <;> simp [mem_keepResult, mem_putUnit]

theorem mem_blockStep (x0 : Nat) (c : MarverCtx) (s : State) :
    (blockStep x0 c s).2.mem = s.mem := by
  simp [blockStep]

theorem mem_startFlush (s : State) (after : Nat) :
    (startFlush s after).mem = s.mem := by
  simp [startFlush]

theorem mem_flashSet (c : Ctx) (s : State) :
    (flashSet c s).2.mem = s.mem := by
  simp [flashSet, mem_checked]

theorem mem_putSlot (s : State) (n : Nat) (x : Slot) :
    (putSlot s n x).mem = s.mem := by
  simp [putSlot]

theorem mem_modSlot (s : State) (n : Nat) (f : Slot → Slot) :
    (modSlot s n f).mem = s.mem := by
  unfold modSlot; (repeat' split) <;> simp [mem_putSlot]

theorem mem_refIndex (s : State) (idx : Nat) (up : Bool) :
    (refIndex s idx up).mem = s.mem := by
  unfold refIndex; (repeat' split) <;> simp [mem_settleIndex, mem_putIndex]

theorem mem_completeSlot (s : State) (n : Nat) (e : List Byte) (arith : Nat) (writes : List (Nat × List Byte)) :
    (completeSlot s n e arith writes).mem = s.mem := by
  unfold completeSlot; (repeat' split) <;> simp [mem_putSlot]

theorem mem_failSlot (s : State) (n : Nat) (status : Nat) (reason : Nat) :
    (failSlot s n status reason).mem = s.mem := by
  unfold failSlot; (repeat' split) <;> simp [mem_completeSlot]

theorem mem_sendChange (s : State) (dev : Nat) (m : ChangeMsg) :
    (sendChange s dev m).mem = s.mem := by
  simp [sendChange, mem_sendWhole]

theorem mem_forwardChange (n : Nat) (s : State) :
    (forwardChange n s).mem = s.mem := by
  grind [forwardChange, mem_putSlot, mem_failSlot, mem_sendChange]

theorem mem_startChange (idx : Nat) (vec : List Nat) (n : Nat) (s : State) :
    (startChange idx vec n s).mem = s.mem := by
  simp [startChange, mem_modSlot, mem_refIndex, mem_forwardChange]

theorem mem_drainStep (x0 : Nat) (c : MarverCtx) (s : State) :
    (drainStep x0 c s).2.mem = s.mem := by
  simp [drainStep]

theorem mem_passCore (s : State) (p : Pool) (slot : Nat) :
    (passCore s p slot).mem = s.mem := by
  simp [passCore]

theorem mem_claimEntry (s : State) (fn : Nat) (r : Nat) (e : List Byte) (p : Pool) (slot : Nat) :
    (claimEntry s fn r e p slot).mem = s.mem := by
  simp [claimEntry, mem_putRing, mem_putSlot, mem_passCore]

theorem mem_admitAs (kind : Nat) (fn : Nat) (r : Nat) (h : HostView) (start : Src → Nat → State → State) (s : State)
  (h_start : ∀ y0 y1 y2, (start y0 y1 y2).mem = y2.mem) :
    (admitAs kind fn r h start s).mem = s.mem := by
  unfold admitAs; (repeat' split) <;> simp [mem_claimEntry, h_start]

theorem mem_admitRow (row : String) (kind : Nat) (fn : Nat) (r : Nat) (h : HostView) (start : Src → Nat → State → State) (s : State)
  (h_start : ∀ y0 y1 y2, (start y0 y1 y2).mem = y2.mem) :
    ∀ rr, admitRow row kind fn r h start s = .next rr → (rr).mem = s.mem := by
  intro r h; unfold admitRow at h; (repeat' split at h) <;> grind [mem_admitAs, → mem_guarded, Option.map_eq_some_iff,
    Option.bind_eq_some_iff]

theorem mem_finishGather (n : Nat) (s : State) :
    (finishGather n s).mem = s.mem := by
  unfold finishGather; (repeat' split) <;> simp [mem_completeSlot, mem_failSlot]

theorem mem_sendSub (s : State) (n : Nat) (key : Nat) (kind : Nat) (shard : Nat) (round : Nat) (bind0 : Nat) (bind1 : Nat) (gid : Nat)
  (body : List Byte) (dev : Nat) (mirror : Bool) (retried : Bool) :
    (sendSub s n key kind shard round bind0 bind1 gid body dev mirror retried).mem = s.mem := by
  unfold sendSub; (repeat' split) <;> simp [mem_sendWhole, mem_putSlot]

theorem mem_askGather (n : Nat) (t : Table) (shard : Nat) (tried : List Nat) (s : State) :
    (askGather n t shard tried s).mem = s.mem := by
  unfold askGather; (repeat' split) <;> simp [mem_failSlot, mem_sendSub]

theorem mem_sendReq (s : State) (dev : Nat) (op : Nat) (ws : Nat) (ident : Nat) (epoch : Nat) (pool : Nat) (rest : List Byte) :
    (sendReq s dev op ws ident epoch pool rest).mem = s.mem := by
  simp [sendReq, mem_sendWhole]

theorem mem_holdPhase (s : State) (n : Nat) :
    (holdPhase s n).mem = s.mem := by
  unfold holdPhase; (repeat' split) <;> simp [mem_sendReq, mem_putSlot]

theorem mem_sendPoolRead (s : State) (ws : Nat) (vc : Nat) (dev : Nat) (addr : Nat) (bytes : Nat) (txn : Nat) :
    ∀ rr, sendPoolRead s ws vc dev addr bytes txn = some rr → (rr).mem = s.mem := by
  intro r h; unfold sendPoolRead at h; grind [mem_sendPacket]

theorem mem_dropPoolReads (s : State) (n : Nat) :
    (dropPoolReads s n).mem = s.mem := by
  simp [dropPoolReads]

theorem mem_failPool (s : State) (n : Nat) (st : Nat) :
    (failPool s n st).mem = s.mem := by
  simp [failPool, mem_failSlot, mem_dropPoolReads]

theorem mem_readPoolRow (s : State) (n : Nat) (row : Nat) (second : Bool) :
    (readPoolRow s n row second).mem = s.mem := by
  unfold readPoolRow; (repeat' split) <;> grind [→ mem_sendPoolRead, mem_failPool]

theorem mem_pumpGather (rows : List Nat) (n : Nat) (x2 : Nat) (x3 : State) :
    (pumpGather rows n x2 x3).mem = x3.mem := by
  fun_induction pumpGather <;> simp_all [mem_readPoolRow, mem_putSlot]

theorem mem_launchGather (n : Nat) (s : State) :
    (launchGather n s).mem = s.mem := by
  simp only [launchGather]; (repeat' split) <;> first
    | grind [mem_finishGather, mem_askGather, mem_holdPhase, mem_putSlot, mem_failSlot, mem_pumpGather]
    | simp [mem_askGather, mem_foldl]

theorem mem_startGather (b : Src) (n : Nat) (s : State) :
    (startGather b n s).mem = s.mem := by
  grind [startGather, mem_refVersion, mem_putSlot, mem_failSlot, mem_launchGather]

theorem mem_execGatherEntry (fn : Nat) (ring : Nat) (h : HostView) (s : State) :
    ∀ rr, execGatherEntry fn ring h s = .next rr → (rr).mem = s.mem := by
  intro r h; unfold execGatherEntry at h; (repeat' split at h) <;> grind [→ mem_admitRow, mem_startGather, Option.map_eq_some_iff,
    Option.bind_eq_some_iff]

theorem mem_finishStep (n : Nat) (s : State) :
    (finishStep n s).mem = s.mem := by
  unfold finishStep; (repeat' split) <;> simp [mem_completeSlot, mem_failSlot]

theorem mem_createStream (s : State) (kind : Nat) (ws : Nat) (owner : Nat) (gid : Nat) :
    ∀ rr, createStream s kind ws owner gid = some rr → (rr).2.2.mem = s.mem := by
  intro r h; unfold createStream at h; grind [mem_putGroup]

theorem mem_appendPiece (s : State) (g : Nat) (st : Stream) (data : List Byte) :
    (appendPiece s g st data).2.2.mem = s.mem := by
  grind [appendPiece, mem_writeUnit, mem_putStream]

theorem mem_streamWrite_go (g : Nat) (id : Nat) (x2 : Nat) (x3 : Nat) (x4 : State) (x5 : List Byte) :
    (streamWrite.go g id x2 x3 x4 x5).2.2.mem = x4.mem := by
  fun_induction streamWrite.go <;> grind [mem_appendPiece]

theorem mem_streamWrite (s : State) (kind : Nat) (ws : Nat) (owner : Nat) (gid : Nat) (data : List Byte) :
    (streamWrite s kind ws owner gid data).2.2.mem = s.mem := by
  unfold streamWrite; (repeat' split) <;> grind [→ mem_createStream, mem_streamWrite_go]

theorem mem_journalEnt (s : State) (x : Session) (e : JournalEnt) :
    (journalEnt s x e).2.mem = s.mem := by
  grind [journalEnt, mem_putSession, mem_streamWrite]

theorem mem_awaitAck (s : State) (n : Nat) (j : Nat) (role : Nat) (dev : Nat) (txn : Nat) :
    (awaitAck s n j role dev txn).mem = s.mem := by
  simp [awaitAck, mem_modSlot]

theorem mem_putReqCopy (s : State) (c : ReqCopy) :
    (putReqCopy s c).mem = s.mem := by
  simp [putReqCopy]

theorem mem_takeMsg (s : State) (p : Packet) :
    (takeMsg s p).mem = s.mem := by
  simp [takeMsg]

theorem mem_takeWrite (c : ReqCopy) (p : Packet) (s : State) :
    (takeWrite c p s).mem = s.mem := by
  grind [takeWrite, mem_putReqCopy, mem_sendReq, mem_takeMsg]

theorem mem_endAnneal (s : State) (x : Session) (st : Nat) (r : List Byte) :
    (endAnneal s x st r).mem = s.mem := by
  unfold endAnneal; (repeat' split) <;> simp [mem_finishTicket]

theorem mem_annealRelease (ws : Nat) (key : Nat) (s : State) :
    (annealRelease ws key s).mem = s.mem := by
  unfold annealRelease; (repeat' split) <;> simp [mem_endAnneal, mem_tellSession, mem_releaseSession]

theorem mem_ctrlAll (s : State) (t : Table) (op : Nat) (v : Nat) (u : Nat) :
    (ctrlAll s t op v u).mem = s.mem := by
  simp [ctrlAll, mem_sendCtrl, mem_foldl]

theorem mem_endRun (s : State) (n : Nat) (h : Nat) (v : Nat) (u : Nat) :
    (endRun s n h v u).mem = s.mem := by
  unfold endRun; (repeat' split) <;> simp [mem_ctrlAll, mem_putTable]

theorem mem_failUpdate (s : State) (n : Nat) (st : Nat) (r : Nat) :
    (failUpdate s n st r).mem = s.mem := by
  unfold failUpdate; (repeat' split) <;> simp [mem_endRun, mem_failSlot]

theorem mem_concludeUpdate (n : Nat) (s : State) :
    (concludeUpdate n s).mem = s.mem := by
  grind [concludeUpdate, mem_modVersion, mem_completeSlot, mem_endRun, mem_failUpdate]

theorem mem_closeSub (s : State) (n : Nat) (o : SubOut) :
    (closeSub s n o).mem = s.mem := by
  simp [closeSub, mem_modSlot]

theorem mem_noteCopy (n : Nat) (o : SubOut) (st : Nat) (s : State) :
    (noteCopy n o st s).mem = s.mem := by
  grind [noteCopy, mem_concludeUpdate, mem_modSlot, mem_closeSub]

theorem mem_finishCaneRetire (s : State) (r : Retire) :
    (finishCaneRetire s r).mem = s.mem := by
  unfold finishCaneRetire; (repeat' split) <;> simp [mem_setBootRec, mem_finishTicket, mem_emit, mem_dropActivity, mem_setPort, mem_foldl]

theorem mem_finishStackRetire (s : State) (r : Retire) :
    (finishStackRetire s r).mem = s.mem := by
  unfold finishStackRetire; (repeat' split) <;> simp [mem_setBootRec, mem_finishTicket, mem_emit, mem_dropActivity]

theorem mem_endActivity (s : State) (a : Activity) :
    ∀ rr, endActivity s a = some rr → (rr).mem = s.mem := by
  intro r h; unfold endActivity at h; grind [mem_finishCaneRetire, mem_finishTicket, mem_finishStackRetire, mem_dropActivity,
    Option.map_eq_some_iff, Option.bind_eq_some_iff]

theorem mem_lehrRoundEnd (ident : Nat) (finished : Bool) (s : State) :
    (lehrRoundEnd ident finished s).mem = s.mem := by
  grind [lehrRoundEnd, mem_endActivity, mem_dropActivity]

theorem mem_journalRows (s : State) (h : Nat) (mirror : Bool) (v : Nat) (u : Nat) (rs : List (List Byte)) :
    (journalRows s h mirror v u rs).2.mem = s.mem := by
  grind [journalRows, mem_putTable, mem_streamWrite]

theorem mem_takeCount (p : Packet) (s : State) :
    (takeCount p s).mem = s.mem := by
  unfold takeCount; (repeat' split) <;> simp [mem_putSession]

theorem mem_takeRelease (p : Packet) (s : State) :
    (takeRelease p s).mem = s.mem := by
  unfold takeRelease; (repeat' split) <;> simp [mem_releaseSession, mem_eraseSession]

theorem mem_ackAppend (s : State) (dev : Nat) (ws : Nat) (txn : Nat) (st : Nat) :
    (ackAppend s dev ws txn st).mem = s.mem := by
  simp [ackAppend, mem_sendWhole]

theorem mem_writeTo (s : State) (pool : Nat) (c : ReqCopy) :
    (writeTo s pool c).mem = s.mem := by
  unfold writeTo; (repeat' split) <;> simp [mem_sendReq]

theorem mem_recordCancel (s : State) (c : ReqCopy) :
    (recordCancel s c).mem = s.mem := by
  simp [recordCancel, mem_writeTo, mem_putReqCopy]

theorem mem_missShard (s : State) (n : Nat) (shard : Nat) :
    (missShard s n shard).mem = s.mem := by
  simp [missShard, mem_modSlot]

theorem mem_askShard (s : State) (n : Nat) (x : Index) (kind : Nat) (shard : Nat) (round : Nat) (b0 : Nat) (b1 : Nat)
  (body : List Byte) (tried : List Nat) :
    (askShard s n x kind shard round b0 b1 body tried).mem = s.mem := by
  unfold askShard; (repeat' split) <;> simp [mem_missShard, mem_sendSub]

theorem mem_askScan (s : State) (n : Nat) (ix : Index) (shard : Nat) (tried : List Nat) :
    (askScan s n ix shard tried).mem = s.mem := by
  unfold askScan; (repeat' split) <;> simp [mem_askShard]

theorem mem_askRefine (s : State) (n : Nat) (ix : Index) (shard : Nat) (tried : List Nat) :
    (askRefine s n ix shard tried).mem = s.mem := by
  grind [askRefine, mem_askShard]

theorem mem_finishQuery (s : State) (n : Nat) (ix : Index) :
    (finishQuery s n ix).mem = s.mem := by
  unfold finishQuery; (repeat' split) <;> simp [mem_completeSlot]

theorem mem_refineOrFinish (s : State) (n : Nat) (ix : Index) :
    (refineOrFinish s n ix).mem = s.mem := by
  simp only [refineOrFinish]; (repeat' split) <;> first
    | grind [mem_askRefine, mem_finishQuery, mem_putSlot]
    | simp [mem_askRefine, mem_finishQuery, mem_putSlot, mem_foldl]

theorem mem_queryAdvance (ix : Index) (n : Nat) (x2 : Nat) (x3 : State) :
    (queryAdvance ix n x2 x3).mem = x3.mem := by
  induction x2 generalizing x3 with
  | zero => rfl
  | succ k ih =>
    unfold queryAdvance; split
    · split
      · rfl
      · split
        · exact mem_finishQuery _ _ _
        · split
          · rw [ih, mem_foldl _ (fun _ _ => mem_askScan _ _ _ _ _)]
            exact mem_putSlot _ _ _
          · exact mem_refineOrFinish _ _ _
    · rfl

theorem mem_launchQuery (n : Nat) (s : State) :
    (launchQuery n s).mem = s.mem := by
  simp only [launchQuery]; (repeat' split) <;> first
    | grind [mem_askScan, mem_holdPhase, mem_putSlot, mem_failSlot, mem_queryAdvance]
    | simp [mem_askScan, mem_putSlot, mem_queryAdvance, mem_foldl]

theorem mem_beginUpdate (n : Nat) (s : State) :
    (beginUpdate n s).mem = s.mem := by
  unfold beginUpdate; (repeat' split) <;> simp [mem_putSlot, mem_ctrlAll, mem_putTable]

theorem mem_releaseUpdate (n : Nat) (s : State) :
    (releaseUpdate n s).mem = s.mem := by
  unfold releaseUpdate; (repeat' split) <;> simp [mem_holdPhase, mem_putSlot, mem_failSlot, mem_beginUpdate]

theorem mem_askPosition (s : State) (n : Nat) (kind : Nat) (p : Nat) (retried : Bool) :
    (askPosition s n kind p retried).mem = s.mem := by
  unfold askPosition; (repeat' split) <;> simp [mem_sendSub]

theorem mem_takeBeat (p : Packet) (s : State) :
    (takeBeat p s).mem = s.mem := by
  unfold takeBeat; (repeat' split) <;> simp [mem_putReqCopy]

theorem mem_modStub (s : State) (ws : Nat) (ident : Nat) (f : ReqStub → ReqStub) :
    (modStub s ws ident f).mem = s.mem := by
  simp [modStub]

theorem mem_noteAccepted (p : Packet) (s : State) :
    (noteAccepted p s).mem = s.mem := by
  grind [noteAccepted, mem_sendReq, mem_modStub]

theorem mem_yieldCopy (s : State) (c : ReqCopy) (epoch : Nat) (pool : Nat) :
    (yieldCopy s c epoch pool).mem = s.mem := by
  simp [yieldCopy, mem_putReqCopy, mem_finishAll]

theorem mem_takeRefused (p : Packet) (s : State) :
    (takeRefused p s).mem = s.mem := by
  grind [takeRefused, mem_yieldCopy, mem_failSlot]

theorem mem_sendHandoff (s : State) (c : ReqCopy) :
    (sendHandoff s c).mem = s.mem := by
  grind [sendHandoff, mem_putReqCopy, mem_sendReq]

theorem mem_beginHandoff (s : State) (c : ReqCopy) (pool : Nat) (tickets : List TicketRef) :
    (beginHandoff s c pool tickets).mem = s.mem := by
  grind [beginHandoff, mem_sendHandoff, mem_putReqCopy]

theorem mem_takeReport (p : Packet) (s : State) :
    (takeReport p s).mem = s.mem := by
  simp [takeReport, mem_modStub]

theorem mem_addClaim (s : State) (ws : Nat) (ident : Nat) (entry : Nat) :
    (addClaim s ws ident entry).mem = s.mem := by
  simp [addClaim]

theorem mem_putRxFlow (s : State) (f : RxFlow) :
    (putRxFlow s f).mem = s.mem := by
  simp [putRxFlow]

theorem mem_joinMessage (s : State) (f : RxFlow) (p : Packet) (gap : Bool) :
    (joinMessage s f p gap).mem = s.mem := by
  grind [joinMessage, mem_putRxFlow, mem_deliver]

theorem mem_sendE2e (s : State) (src : Nat) (vc : Nat) (upTo : Nat) :
    (sendE2e s src vc upTo).mem = s.mem := by
  simp [sendE2e, mem_sendMsg]

theorem mem_receiveHere (s : State) (port : Nat) (p : Packet) :
    (receiveHere s port p).mem = s.mem := by
  grind [receiveHere, mem_putPort, mem_putRxFlow, mem_joinMessage, mem_deliver, mem_sendE2e]

theorem mem_freeCells (s : State) (port : Nat) (p : Packet) :
    (freeCells s port p).mem = s.mem := by
  simp [freeCells, mem_putPort]

theorem mem_relay (s : State) (p : Packet) :
    (relay s p).mem = s.mem := by
  unfold relay; (repeat' split) <;> simp [mem_enqueue, mem_unreachable]

theorem mem_receive (s : State) :
    (receive s).mem = s.mem := by
  unfold receive; (repeat' split) <;> simp [mem_receiveHere, mem_freeCells, mem_relay]

theorem mem_checkpointed (s : State) (c : ReqCopy) :
    (checkpointed s c).mem = s.mem := by
  unfold checkpointed; (repeat' split) <;> simp [mem_sendHandoff, mem_writeTo, mem_putReqCopy, mem_sendReq, mem_finishAll]

theorem mem_phaseDone (done : List Byte) (ws : List (Nat × List Byte)) (accepted : Bool) (c : ReqCopy) (s : State) :
    (phaseDone done ws accepted c s).mem = s.mem := by
  grind [phaseDone, mem_putReqCopy, mem_yieldCopy, mem_checkpointed]

theorem mem_takePhaseDone (p : Packet) (accepted : Bool) (s : State) :
    (takePhaseDone p accepted s).mem = s.mem := by
  grind [takePhaseDone, mem_takeMsg, mem_phaseDone]

theorem mem_execCheckpoint (ws : Nat) (ident : Nat) (accepted : Bool) (c : Option ReqCopy) (s : State) :
    ∀ rr, execCheckpoint ws ident accepted c s = .next rr → (rr).mem = s.mem := by
  intro r h; unfold execCheckpoint at h; grind [mem_when, mem_takeWrite, mem_takePhaseDone]

theorem mem_finishChange (s : State) (n : Nat) (st : Nat) (epoch : Nat) (ordinal : Nat) (marked : Nat) :
    (finishChange s n st epoch ordinal marked).mem = s.mem := by
  unfold finishChange; (repeat' split) <;> simp [mem_completeSlot]

theorem mem_answerChange (s : State) (src : Nat) (ws : Nat) (homeSlot : Nat) (txn : Nat) (st : Nat) (epoch : Nat) (ordinal : Nat)
  (marked : Nat) :
    (answerChange s src ws homeSlot txn st epoch ordinal marked).mem = s.mem := by
  unfold answerChange; (repeat' split) <;> simp [mem_sendWhole, mem_finishChange]

theorem mem_dropLate (s : State) :
    (dropLate s).mem = s.mem := by
  grind [dropLate, mem_takeMsg]

theorem mem_takeReply (s : State) (o : SubOut) :
    (takeReply s o).mem = s.mem := by
  unfold takeReply; (repeat' split) <;> simp [mem_takeMsg]

theorem mem_dropAcks (s : State) (n : Nat) (j : Nat) :
    (dropAcks s n j).mem = s.mem := by
  simp [dropAcks, mem_modSlot]

theorem mem_keepAttn (n : Nat) (o : SubOut) (r : Reply) (next : Nat → State → State) (s : State) (h_next : ∀ y0 y1,
  (next y0 y1).mem = y1.mem) :
    (keepAttn n o r next s).mem = s.mem := by
  grind [keepAttn, mem_modSlot, mem_closeSub]

theorem mem_loseStep (s : State) (n : Nat) (block : Nat) :
    (loseStep s n block).mem = s.mem := by
  unfold loseStep; (repeat' split) <;> simp [mem_completeSlot]

theorem mem_changeReply (n : Nat) (o : SubOut) (r : Reply) (s : State) :
    (changeReply n o r s).mem = s.mem := by
  unfold changeReply; (repeat' split) <;> simp [mem_finishChange, mem_closeSub]

theorem mem_sendShard (n : Nat) (t : Table) (s : State) (shard : Nat) :
    (sendShard n t s shard).mem = s.mem := by
  unfold sendShard; refine mem_foldl _ ?_ _ _; intro a b; (repeat' split) <;> first
    | grind [mem_sendSub]
    | simp [mem_sendSub, mem_foldl]
    | simp_all [mem_sendSub, mem_foldl]

theorem mem_sendShards (n : Nat) (s : State) :
    (sendShards n s).mem = s.mem := by
  unfold sendShards; (repeat' split) <;> simp [mem_putSlot, mem_sendShard, mem_failUpdate, mem_foldl]

theorem mem_countsDone (n : Nat) (s : State) :
    (countsDone n s).mem = s.mem := by
  unfold countsDone; (repeat' split) <;> simp [mem_sendShards, mem_putSlot]

theorem mem_askCounts (n : Nat) (t : Table) (shard : Nat) (tried : List Nat) (s : State) :
    (askCounts n t shard tried s).mem = s.mem := by
  unfold askCounts; (repeat' split) <;> simp [mem_failUpdate, mem_sendSub]

theorem mem_updateAbandon (n : Nat) (o : SubOut) (s : State) :
    (updateAbandon n o s).mem = s.mem := by
  grind [updateAbandon, mem_askCounts, mem_noteCopy, mem_failUpdate, mem_closeSub]

theorem mem_updateReply (n : Nat) (o : SubOut) (r : Reply) (s : State) :
    (updateReply n o r s).mem = s.mem := by
  simp only [updateReply]; (repeat' split) <;> first
    | grind [mem_countsDone, mem_noteCopy, mem_concludeUpdate, mem_modSlot, mem_failUpdate, mem_updateAbandon, mem_closeSub]
    | simp [mem_countsDone, mem_noteCopy, mem_concludeUpdate, mem_modSlot, mem_failUpdate, mem_updateAbandon, mem_closeSub, mem_foldl]

theorem mem_keepList (s : State) (n : Nat) (kind : Nat) (l : DeviceList) :
    (keepList s n kind l).mem = s.mem := by
  simp [keepList, mem_modSlot]

theorem mem_queryAbandon (n : Nat) (o : SubOut) (s : State) :
    (queryAbandon n o s).mem = s.mem := by
  grind [queryAbandon, mem_askScan, mem_askRefine, mem_missShard, mem_queryAdvance, mem_closeSub]

theorem mem_queryReply (n : Nat) (o : SubOut) (r : Reply) (s : State) :
    (queryReply n o r s).mem = s.mem := by
  simp only [queryReply]; (repeat' split) <;> first
    | grind [mem_keepList, mem_queryAdvance, mem_closeSub, mem_queryAbandon]
    | simp [mem_keepList, mem_queryAdvance, mem_closeSub, mem_queryAbandon, mem_foldl]

theorem mem_hashUnanswered (n : Nat) (s : State) :
    (hashUnanswered n s).mem = s.mem := by
  unfold hashUnanswered; (repeat' split) <;> simp [mem_failSlot]

theorem mem_askHash (n : Nat) (ix : Index) (tried : List Nat) (s : State) :
    (askHash n ix tried s).mem = s.mem := by
  grind [askHash, mem_hashUnanswered, mem_putSlot, mem_sendSub]

theorem mem_hashAbandon (n : Nat) (o : SubOut) (poison : Bool) (s : State) :
    (hashAbandon n o poison s).mem = s.mem := by
  grind [hashAbandon, mem_askHash, mem_hashUnanswered, mem_modSlot, mem_closeSub]

theorem mem_hashReply (n : Nat) (o : SubOut) (r : Reply) (s : State) :
    (hashReply n o r s).mem = s.mem := by
  unfold hashReply; (repeat' split) <;> simp [mem_completeSlot, mem_hashAbandon, mem_closeSub]

theorem mem_gatherAbandon (n : Nat) (o : SubOut) (s : State) :
    (gatherAbandon n o s).mem = s.mem := by
  grind [gatherAbandon, mem_askGather, mem_failSlot, mem_closeSub]

theorem mem_gatherReply (n : Nat) (o : SubOut) (r : Reply) (s : State) :
    (gatherReply n o r s).mem = s.mem := by
  simp only [gatherReply]; (repeat' split) <;> first
    | grind [mem_finishGather, mem_failSlot, mem_modSlot, mem_gatherAbandon, mem_closeSub]
    | simp [mem_finishGather, mem_failSlot, mem_modSlot, mem_gatherAbandon, mem_closeSub, mem_foldl]

theorem mem_startHead (u : Nat) (s : State) :
    (startHead u s).mem = s.mem := by
  grind [startHead, mem_putUnit]

theorem mem_portUpRow (s : State) (p : Nat) (txPass : List Bool) (rxPass : List Bool) (delay : Int) :
    (portUpRow s p txPass rxPass delay).mem = s.mem := by
  simp [portUpRow, mem_putPort, mem_endRetrain, mem_noteLinks, mem_recalPortEnd, mem_setPort]

theorem mem_execPortUp (port : Nat) (txPass : List Bool) (rxPass : List Bool) (delay : Int) (s : State) :
    ∀ rr, execPortUp port txPass rxPass delay s = .next rr → (rr).mem = s.mem := by
  intro r h; unfold execPortUp at h; grind [mem_portUpRow, mem_when, mem_guarded]

theorem mem_noteRetrain (s : State) (p : Nat) :
    (noteRetrain s p).mem = s.mem := by
  simp [noteRetrain, mem_score, mem_putPort]

theorem mem_retrainPort (s : State) (p : Nat) :
    (retrainPort s p).mem = s.mem := by
  simp [retrainPort, mem_noteRetrain, mem_setPort]

theorem mem_replayFrames (s : State) (p : Nat) :
    (replayFrames s p).mem = s.mem := by
  grind [replayFrames, mem_retrainPort, mem_putPort]

theorem mem_execFrameReplayTimeout (port : Nat) (s : State) :
    ∀ rr, execFrameReplayTimeout port s = .next rr → (rr).mem = s.mem := by
  intro r h; unfold execFrameReplayTimeout at h; grind [mem_when, mem_guarded, mem_replayFrames]

theorem mem_valueStep (x0 : Nat) (c : MarverCtx) (s : State) :
    (valueStep x0 c s).2.mem = s.mem := by
  grind [valueStep]

theorem mem_debitGuard (s : State) (ws : Nat) (len : Nat) :
    (debitGuard s ws len).mem = s.mem := by
  simp [debitGuard]

theorem mem_sendFrame (s : State) (p : Nat) :
    (sendFrame s p).mem = s.mem := by
  simp [sendFrame, mem_putPort]

theorem mem_sendFrames (p : Nat) (flush : Bool) (x2 : Nat) (x3 : State) :
    (sendFrames p flush x2 x3).mem = x3.mem := by
  fun_induction sendFrames <;> simp_all [mem_sendFrame]

theorem mem_putOnWire (s : State) (p : Nat) (q : Packet) (flush : Bool) :
    (putOnWire s p q flush).mem = s.mem := by
  simp [putOnWire, mem_sendFrames, mem_putPort]

theorem mem_sendHead (s : State) (p : Nat) (q : PQueue) (alarm : Bool) :
    (sendHead s p q alarm).mem = s.mem := by
  unfold sendHead; (repeat' split) <;> simp [mem_putPort, mem_debitGuard, mem_putOnWire]

theorem mem_submitJob (e : Nat) (j : GafferJob) (s : State) :
    (submitJob e j s).mem = s.mem := by
  grind [submitJob, mem_putGaffer]

theorem mem_sramError (e : Nat) (err : Option (Nat × Bool)) (s : State) :
    (sramError e err s).mem = s.mem := by
  unfold sramError; (repeat' split) <;> simp [mem_score, mem_emit, mem_putGaffer]

theorem mem_wakeModel (e : Nat) (s : State) :
    (wakeModel e s).mem = s.mem := by
  grind [wakeModel, mem_putSlot]

theorem mem_runHead (kind : JobKind) (e : Nat) (err : Option (Nat × Bool)) (run : State → GafferJob → List Nat × Nat) (s : State) :
    (runHead kind e err run s).mem = s.mem := by
  grind [runHead, mem_sramError, mem_wakeModel, mem_putGaffer]

theorem mem_gafferRow (kind : JobKind) (e : Nat) (j : Option GafferJob) (err : Option (Nat × Bool)) (ok : State → GafferJob → Bool)
  (put : Nat → GafferJob → State → State) (run : State → GafferJob → List Nat × Nat) (s : State) (h_put : ∀ y0 y1 y2,
  (put y0 y1 y2).mem = y2.mem) :
    (gafferRow kind e j err ok put run s).mem = s.mem := by
  unfold gafferRow; (repeat' split) <;> simp [mem_runHead, h_put]

theorem mem_execSubDistanceTable (engine : Nat) (j : Option GafferJob) (err : Option (Nat × Bool)) (s : State) :
    ∀ rr, execSubDistanceTable engine j err s = .next rr → (rr).mem = s.mem := by
  intro r h; unfold execSubDistanceTable at h; grind [mem_submitJob, mem_guarded, mem_gafferRow]

theorem mem_withIndex (c : Ctx) (s : State) (idx : Nat) (f : Index → Answer × State) (h_f : ∀ y0, (f y0).2.mem = s.mem) :
    (withIndex c s idx f).2.mem = s.mem := by
  unfold withIndex; (repeat' split) <;> simp [mem_refuse, h_f]

theorem mem_indexImport (c : Ctx) (s : State) :
    (indexImport c s).2.mem = s.mem := by
  simp [indexImport, mem_checked, mem_putIndex, mem_withIndex]

theorem mem_execIndexImport (m : MsgSrc) (s : State) :
    ∀ rr, execIndexImport m s = .next rr → (rr).mem = s.mem := by
  intro r h; unfold execIndexImport at h; grind [mem_indexImport, mem_serve]

theorem mem_tableDrop (c : Ctx) (s : State) :
    (tableDrop c s).2.mem = s.mem := by
  unfold tableDrop; (repeat' split) <;> simp [mem_withTable, mem_putTable, mem_refuse]

theorem mem_indexInfo (c : Ctx) (s : State) :
    (indexInfo c s).2.mem = s.mem := by
  unfold indexInfo; (repeat' split) <;> simp [mem_withIndex, mem_refuse]

theorem mem_execIndexInfo (m : MsgSrc) (s : State) :
    ∀ rr, execIndexInfo m s = .next rr → (rr).mem = s.mem := by
  intro r h; unfold execIndexInfo at h; grind [mem_indexInfo, mem_serve]

theorem mem_requeue (s : State) (p : Packet) :
    (requeue s p).mem = s.mem := by
  unfold requeue; (repeat' split) <;> simp [mem_enqueue, mem_unreachable]

theorem mem_takeInbox (s : State) (msg : Nat) (src : Nat) :
    (takeInbox s msg src).mem = s.mem := by
  simp [takeInbox]

theorem mem_e2eAck (s : State) (src : Nat) (vc : Nat) (seq : Nat) (nak : Bool) :
    (e2eAck s src vc seq nak).mem = s.mem := by
  unfold e2eAck; (repeat' split) <;> simp [mem_requeue, mem_takeInbox, mem_foldl]

theorem mem_wsKeyLoad (c : Ctx) (s : State) :
    (wsKeyLoad c s).2.mem = s.mem := by
  simp [wsKeyLoad, mem_checked, mem_putKeys]

theorem mem_execWsKeyLoad (m : MsgSrc) (s : State) :
    ∀ rr, execWsKeyLoad m s = .next rr → (rr).mem = s.mem := by
  intro r h; unfold execWsKeyLoad at h; grind [mem_serve, mem_wsKeyLoad]

theorem mem_programUnload (c : Ctx) (s : State) :
    (programUnload c s).2.mem = s.mem := by
  grind [programUnload, mem_putProgram, mem_refuse]

theorem mem_execHealthInfo (m : MsgSrc) (s : State) :
    ∀ rr, execHealthInfo m s = .next rr → (rr).mem = s.mem := by
  intro r h; unfold execHealthInfo at h; grind [mem_checked, mem_serve]

theorem mem_rearmInput (s : State) (mv : Nat) :
    (rearmInput s mv).mem = s.mem := by
  unfold rearmInput; (repeat' split) <;> simp

theorem mem_enterPower (s : State) :
    (enterPower s).mem = s.mem := by
  simp [enterPower]

theorem mem_takeFrame (f : StatusFrame) (s : State) :
    (takeFrame f s).mem = s.mem := by
  simp [takeFrame]

theorem mem_statusFrame (f : StatusFrame) (s : State) :
    (statusFrame f s).mem = s.mem := by
  grind [statusFrame, mem_rearmInput, mem_enterPower, mem_emit, mem_takeFrame]

theorem mem_execStatusFrame (f : StatusFrame) (s : State) :
    ∀ rr, execStatusFrame f s = .next rr → (rr).mem = s.mem := by
  intro r h; unfold execStatusFrame at h; grind [mem_statusFrame, mem_when]

theorem mem_startDelete (b : Src) (n : Nat) (s : State) :
    (startDelete b n s).mem = s.mem := by
  unfold startDelete; (repeat' split) <;> simp [mem_failSlot, mem_startChange]

theorem mem_sendBeat (ws : Nat) (ident : Nat) (s : State) :
    (sendBeat ws ident s).mem = s.mem := by
  unfold sendBeat; (repeat' split) <;> simp [mem_putReqCopy, mem_sendReq]

theorem mem_takeCtrl (s : State) (src : Nat) (ws : Nat) (op : Nat) (key : Nat) (v : Nat) (u : Nat) :
    (takeCtrl s src ws op key v u).mem = s.mem := by
  unfold takeCtrl; (repeat' split) <;> simp [mem_takeMsg]

theorem mem_drainedAll (n : Nat) (s : State) :
    (drainedAll n s).mem = s.mem := by
  simp only [drainedAll]; (repeat' split) <;> first
    | grind [mem_sendShards, mem_askCounts, mem_putSlot]
    | simp [mem_askCounts, mem_putSlot, mem_foldl]

theorem mem_takeDrained (ws : Nat) (key : Nat) (v : Nat) (u : Nat) (src : Nat) (s : State) :
    (takeDrained ws key v u src s).mem = s.mem := by
  grind [takeDrained, mem_takeCtrl, mem_drainedAll, mem_putTable]

theorem mem_execDrained (ws : Nat) (key : Nat) (v : Nat) (u : Nat) (src : Nat) (s : State) :
    ∀ rr, execDrained ws key v u src s = .next rr → (rr).mem = s.mem := by
  intro r h; unfold execDrained at h; grind [mem_takeDrained, mem_when]

theorem mem_evrClear (c : Ctx) (s : State) :
    (evrClear c s).2.mem = s.mem := by
  grind [evrClear, mem_emit, mem_refuse, mem_emitFull]

theorem mem_reforward (gid : Nat) (s : State) :
    (reforward gid s).mem = s.mem := by
  simp [reforward, mem_forwardChange, mem_foldl]

theorem mem_badDoorbell (s : State) (fn : Nat) (r : Nat) (reg : Nat) (value : Nat) :
    (badDoorbell s fn r reg value).mem = s.mem := by
  grind [badDoorbell, mem_putRing, mem_emitFull]

theorem mem_ackWrite (s : State) (p : RegPkt) :
    (ackWrite s p).mem = s.mem := by
  unfold ackWrite; (repeat' split) <;> simp [mem_sendTxn, mem_takeInbox]

theorem mem_cqBell (p : RegPkt) (s : State) :
    (cqBell p s).mem = s.mem := by
  grind [cqBell, mem_putRing, mem_badDoorbell, mem_ackWrite]

theorem mem_execCqCiWrite (p : RegPkt) (s : State) :
    ∀ rr, execCqCiWrite p s = .next rr → (rr).mem = s.mem := by
  intro r h; unfold execCqCiWrite at h; grind [mem_cqBell, mem_when]

theorem mem_sessionAnneal (c : Ctx) (s : State) :
    (sessionAnneal c s).2.mem = s.mem := by
  grind [sessionAnneal, mem_checked, mem_putSession, mem_refuse]

theorem mem_execSessionAnneal (m : MsgSrc) (s : State) :
    ∀ rr, execSessionAnneal m s = .next rr → (rr).mem = s.mem := by
  intro r h; unfold execSessionAnneal at h; grind [mem_sessionAnneal, mem_serve]

theorem mem_copyStreams (s : State) (x : Index) (idx : Nat) (mirror : Bool) :
    (copyStreams s x idx mirror).mem = s.mem := by
  unfold copyStreams; (repeat' split) <;> grind [→ mem_createStream]

theorem mem_checkLanes (s : State) (p : Nat) :
    (checkLanes s p).mem = s.mem := by
  grind [checkLanes, mem_retrainPort, mem_emit]

theorem mem_fabRetrainNow (s : State) (p : Nat) (mask : Nat) (t : TicketRef) :
    (fabRetrainNow s p mask t).mem = s.mem := by
  unfold fabRetrainNow; (repeat' split) <;> simp [mem_retrainPort, mem_checkLanes, mem_putPort]

theorem mem_fabRetrain (c : Ctx) (s : State) :
    (fabRetrain c s).2.mem = s.mem := by
  simp [fabRetrain, mem_checked, mem_fabRetrainNow]

theorem mem_execFabRetrain (m : MsgSrc) (s : State) :
    ∀ rr, execFabRetrain m s = .next rr → (rr).mem = s.mem := by
  intro r h; unfold execFabRetrain at h; grind [mem_fabRetrain, mem_serve]

theorem mem_putSub (s : State) (x : SubIn) :
    (putSub s x).mem = s.mem := by
  simp [putSub]

theorem mem_replySub (s : State) (x : SubIn) (r : Reply) :
    (replySub s x r).mem = s.mem := by
  simp [replySub, mem_sendWhole]

theorem mem_admitSub (kind : Nat) (ident : Nat) (serve : State → SubIn → State) (s : State) (h_serve : ∀ y0 y1,
  (serve y0 y1).mem = y0.mem) :
    (admitSub kind ident serve s).mem = s.mem := by
  unfold admitSub; (repeat' split) <;> simp [mem_putSub, mem_passCore, mem_replySub, h_serve]

theorem mem_whenReached (serve : State → SubIn → State) (s : State) (q : SubIn) (h_serve : ∀ y0 y1, (serve y0 y1).mem = y0.mem) :
    (whenReached serve s q).mem = s.mem := by
  unfold whenReached; (repeat' split) <;> simp [mem_replySub, h_serve]

theorem mem_serveScan (s : State) (q : SubIn) :
    (serveScan s q).mem = s.mem := by
  grind [serveScan, mem_putSub, mem_replySub]

theorem mem_execScanSubrequest (ident : Nat) (s : State) :
    ∀ rr, execScanSubrequest ident s = .next rr → (rr).mem = s.mem := by
  intro r h; unfold execScanSubrequest at h; grind [mem_admitSub, mem_whenReached, mem_serveScan]

theorem mem_partnerWrite (ws : Nat) (key : Nat) (e : JournalEnt) (s : State) :
    (partnerWrite ws key e s).mem = s.mem := by
  unfold partnerWrite; (repeat' split) <;> simp [mem_ackAppend, mem_takeMsg, mem_journalEnt]

theorem mem_tableInfo (c : Ctx) (s : State) :
    (tableInfo c s).2.mem = s.mem := by
  unfold tableInfo; (repeat' split) <;> simp [mem_withTable, mem_refuse]

theorem mem_takeCommitted (ws : Nat) (key : Nat) (v : Nat) (u : Nat) (s : State) :
    (takeCommitted ws key v u s).mem = s.mem := by
  unfold takeCommitted; (repeat' split) <;> simp [mem_modVersion, mem_takeCtrl, mem_modSlot, mem_launchGather, mem_foldl]

theorem mem_dropIndex (s : State) (idx : Nat) (ts : List TicketRef) :
    (dropIndex s idx ts).mem = s.mem := by
  unfold dropIndex; (repeat' split) <;> simp [mem_putIndex, mem_finishTicket]

theorem mem_execAnnealRelease (ws : Nat) (key : Nat) (s : State) :
    ∀ rr, execAnnealRelease ws key s = .next rr → (rr).mem = s.mem := by
  intro r h; unfold execAnnealRelease at h; grind [mem_annealRelease, mem_when]

theorem mem_sendRow (s : State) (t : Table) (v : Nat) (r : List Byte) :
    (sendRow s t v r).mem = s.mem := by
  simp [sendRow, mem_sendCtrl, mem_foldl]

theorem mem_sendStopLine (s : State) :
    (sendStopLine s).mem = s.mem := by
  simp [sendStopLine]

theorem mem_stopWith (s : State) (code : Nat) :
    (stopWith s code).mem = s.mem := by
  simp [stopWith, mem_setBootRec, mem_sendStopLine]

theorem mem_execRailsTimeout (railsOk : Bool) (s : State) :
    ∀ rr, execRailsTimeout railsOk s = .next rr → (rr).mem = s.mem := by
  intro r h; unfold execRailsTimeout at h; grind [mem_stopWith, mem_when]

theorem mem_recalBegin (s : State) (act : Nat) :
    (recalBegin s act).mem = s.mem := by
  unfold recalBegin; (repeat' split) <;> simp [mem_recalNext]

theorem mem_opticsRecal (c : Ctx) (s : State) :
    (opticsRecal c s).2.mem = s.mem := by
  simp [opticsRecal, mem_checked, mem_submit, mem_recalBegin]

theorem mem_execOpticsRecal (m : MsgSrc) (s : State) :
    ∀ rr, execOpticsRecal m s = .next rr → (rr).mem = s.mem := by
  intro r h; unfold execOpticsRecal at h; grind [mem_serve, mem_opticsRecal]

theorem mem_sendPhase (s : State) (c : ReqCopy) :
    (sendPhase s c).mem = s.mem := by
  simp [sendPhase, mem_putReqCopy, mem_sendReq]

theorem mem_startQuery (b : Src) (n : Nat) (s : State) :
    (startQuery b n s).mem = s.mem := by
  unfold startQuery; (repeat' split) <;> simp [mem_putSlot, mem_failSlot, mem_launchQuery, mem_refIndex]

theorem mem_refSession (s : State) (ws : Nat) (key : Nat) (up : Bool) :
    (refSession s ws key up).mem = s.mem := by
  unfold refSession; (repeat' split) <;> simp [mem_putSession, mem_settleSession]

theorem mem_startTopk (b : Src) (n : Nat) (s : State) :
    (startTopk b n s).mem = s.mem := by
  grind [startTopk, mem_completeSlot, mem_failSlot]

theorem mem_startModel (b : Src) (n : Nat) (s : State) :
    (startModel b n s).mem = s.mem := by
  unfold startModel; (repeat' split) <;> simp [mem_putSlot, mem_failSlot, mem_refProgram]

theorem mem_startUpdate (b : Src) (n : Nat) (s : State) :
    (startUpdate b n s).mem = s.mem := by
  simp only [startUpdate]; (repeat' split) <;> first
    | grind [mem_refVersion, mem_holdPhase, mem_completeSlot, mem_putSlot, mem_failSlot, mem_beginUpdate]
    | simp [mem_refVersion, mem_holdPhase, mem_completeSlot, mem_putSlot, mem_failSlot, mem_beginUpdate, mem_foldl]

theorem mem_sessionDestroy (c : Ctx) (s : State) :
    (sessionDestroy c s).2.mem = s.mem := by
  unfold sessionDestroy; (repeat' split) <;> simp [mem_tellSession, mem_checked, mem_putSession, mem_refuse]

theorem mem_execSessionDestroy (m : MsgSrc) (s : State) :
    ∀ rr, execSessionDestroy m s = .next rr → (rr).mem = s.mem := by
  intro r h; unfold execSessionDestroy at h; grind [mem_sessionDestroy, mem_serve]

theorem mem_takeBinding (p : Packet) (accepted : Bool) (s : State) :
    (takeBinding p accepted s).mem = s.mem := by
  grind [takeBinding, mem_writeTo, mem_putReqCopy, mem_yieldCopy, mem_sendReq, mem_takeMsg]

theorem mem_execBindingRecord (ws : Nat) (ident : Nat) (accepted : Bool) (s : State) :
    ∀ rr, execBindingRecord ws ident accepted s = .next rr → (rr).mem = s.mem := by
  intro r h; unfold execBindingRecord at h; grind [mem_takeBinding, mem_when]

theorem mem_passJack (n : Nat) (s : State) :
    (passJack n s).mem = s.mem := by
  unfold passJack; (repeat' split) <;> simp

theorem mem_doorbell (p : RegPkt) (s : State) :
    (doorbell p s).mem = s.mem := by
  simp [doorbell, mem_putFn, mem_ackWrite]

theorem mem_dropStub (s : State) (n : Nat) :
    (dropStub s n).mem = s.mem := by
  simp [dropStub]

theorem mem_putWs (s : State) (n : Nat) (w : Ws) :
    (putWs s n w).mem = s.mem := by
  simp [putWs]

theorem mem_wsCreate (c : Ctx) (s : State) :
    (wsCreate c s).2.mem = s.mem := by
  simp [wsCreate, mem_checked, mem_putWs]

theorem mem_execWsCreate (m : MsgSrc) (s : State) :
    ∀ rr, execWsCreate m s = .next rr → (rr).mem = s.mem := by
  intro r h; unfold execWsCreate at h; grind [mem_wsCreate, mem_serve]

theorem mem_journalLoad (s : State) (h : Nat) (t : Table) (v : Nat) (rs : List (List Byte)) :
    (journalLoad s h t v rs).2.mem = s.mem := by
  grind [journalLoad, mem_journalRows]

theorem mem_requestGroupActivity (s : State) (code : Nat) (g : Nat) :
    (requestGroupActivity s code g).mem = s.mem := by
  unfold requestGroupActivity; (repeat' split) <;> simp [mem_submit]

theorem mem_flashPatrol (g : Nat) (s : State) :
    (flashPatrol g s).mem = s.mem := by
  grind [flashPatrol, mem_putGroup, mem_queueOp, mem_requestGroupActivity]

theorem mem_execFlashPatrol (group : Nat) (s : State) :
    ∀ rr, execFlashPatrol group s = .next rr → (rr).mem = s.mem := by
  intro r h; unfold execFlashPatrol at h; grind [mem_when, mem_flashPatrol, mem_guarded]

theorem mem_modScheds (s : State) (port : Nat) (f : Sched → Sched) :
    (modScheds s port f).mem = s.mem := by
  simp [modScheds]

theorem mem_classValueSet (s : State) (tgt : Nat) (port : Nat) (cls : Nat) (ws : Nat) (v : Int) :
    (classValueSet s tgt port cls ws v).mem = s.mem := by
  unfold classValueSet; (repeat' split) <;> simp [mem_modScheds]

theorem mem_schedClassSet (c : Ctx) (s : State) :
    (schedClassSet c s).2.mem = s.mem := by
  simp [schedClassSet, mem_classValueSet, mem_checked]

theorem mem_execSchedClassSet (m : MsgSrc) (s : State) :
    ∀ rr, execSchedClassSet m s = .next rr → (rr).mem = s.mem := by
  intro r h; unfold execSchedClassSet at h; grind [mem_schedClassSet, mem_serve]

theorem mem_portSet (s : State) (p : Nat) (pflags : Nat) (lanes : Nat) :
    (portSet s p pflags lanes).mem = s.mem := by
  grind [portSet, mem_checkLanes, mem_putPort, mem_endRetrain, mem_recalPortEnd, mem_setPort]

theorem mem_fabPortSet (c : Ctx) (s : State) :
    (fabPortSet c s).2.mem = s.mem := by
  simp [fabPortSet, mem_portSet, mem_checked]

theorem mem_execFabPortSet (m : MsgSrc) (s : State) :
    ∀ rr, execFabPortSet m s = .next rr → (rr).mem = s.mem := by
  intro r h; unfold execFabPortSet at h; grind [mem_fabPortSet, mem_serve]

theorem mem_bindJack (n : Nat) (b : JackCtx) (s : State) :
    (bindJack n b s).mem = s.mem := by
  unfold bindJack; (repeat' split) <;> simp

theorem mem_takeOver (s : State) (p : Nat) :
    (takeOver s p).mem = s.mem := by
  grind [takeOver, mem_putPort, mem_finishTicket]

theorem mem_execGateTakeOver (port : Nat) (s : State) :
    ∀ rr, execGateTakeOver port s = .next rr → (rr).mem = s.mem := by
  intro r h; unfold execGateTakeOver at h; grind [mem_takeOver, mem_when, mem_guarded]

theorem mem_mountArchive (s : State) (g : Nat) :
    (mountArchive s g).mem = s.mem := by
  unfold mountArchive; (repeat' split) <;> simp [mem_putGroup]

theorem mem_reportFlush (s : State) (g : Nat) :
    (reportFlush s g).mem = s.mem := by
  grind [reportFlush, mem_putGroup, mem_emit]

theorem mem_adoptRoot (s : State) (g : Nat) (y : FlashGroup) (fromOffline : Bool) :
    (adoptRoot s g y fromOffline).mem = s.mem := by
  unfold adoptRoot; (repeat' split) <;> simp [mem_putGroup, mem_reportFlush]

theorem mem_formatGroup (s : State) (g : Nat) (marks : List Nat) :
    (formatGroup s g marks).mem = s.mem := by
  simp [formatGroup, mem_putGroup, mem_emit]

theorem mem_mountGroup (g : Nat) (src : MountSource) (s : State) :
    (mountGroup g src s).mem = s.mem := by
  simp only [mountGroup]; (repeat' split) <;> first
    | grind [mem_putGroup, mem_finishAll, mem_mountArchive, mem_adoptRoot, mem_formatGroup]
    | simp [mem_putGroup, mem_finishAll, mem_mountArchive, mem_adoptRoot, mem_formatGroup, mem_foldl]

theorem mem_execGroupMount (group : Nat) (src : MountSource) (s : State) :
    ∀ rr, execGroupMount group src s = .next rr → (rr).mem = s.mem := by
  intro r h; unfold execGroupMount at h; grind [mem_mountGroup, mem_when, mem_guarded]

theorem mem_endRequest (ws : Nat) (ident : Nat) (e : List Byte) (s : State) :
    (endRequest ws ident e s).mem = s.mem := by
  unfold endRequest; (repeat' split) <;> simp [mem_completeSlot]

theorem mem_execStateLost (ws : Nat) (ident : Nat) (s : State) :
    ∀ rr, execStateLost ws ident s = .next rr → (rr).mem = s.mem := by
  intro r h; unfold execStateLost at h; grind [mem_endRequest, mem_when, mem_takeMsg]

theorem mem_takeMaster (s : State) (port : Nat) (m : PtpMsg) (o : Int) :
    (takeMaster s port m o).mem = s.mem := by
  unfold takeMaster; (repeat' split) <;> simp [mem_emitDev]

theorem mem_chooseSlot (kind : Nat) (version : Bool → Option Nat) (bodyOk : Bool → Bool) (x3 : Nat) (x4 : List Bool) (x5 : State) :
    (chooseSlot kind version bodyOk x3 x4 x5).2.mem = x5.mem := by
  fun_induction chooseSlot <;> grind [mem_setBootRec, mem_markFailed]

theorem mem_chooseFw (s : State) :
    (chooseFw s).2.mem = s.mem := by
  unfold chooseFw; (repeat' split) <;> grind [mem_chooseSlot, mem_considered]

theorem mem_execFlashInfo (m : MsgSrc) (s : State) :
    ∀ rr, execFlashInfo m s = .next rr → (rr).mem = s.mem := by
  intro r h; unfold execFlashInfo at h; grind [mem_checked, mem_serve]

theorem mem_probeOne (c : Nat) (s : State) (ce : Nat × Option TargetProbe) :
    (probeOne c s ce).mem = s.mem := by
  grind [probeOne, mem_emit, mem_putFChan]

theorem mem_probeChannel (s : State) (c : Nat) (probes : List (Option TargetProbe)) :
    (probeChannel s c probes).mem = s.mem := by
  simp [probeChannel, mem_probeOne, mem_putFChan, mem_foldl]

theorem mem_startMount (s : State) (g : Nat) :
    (startMount s g).mem = s.mem := by
  simp [startMount, mem_putGroup]

theorem mem_carrierPresent (g : Nat) (probes : List (List (Option TargetProbe))) (s : State) :
    (carrierPresent g probes s).mem = s.mem := by
  simp [carrierPresent, mem_putGroup, mem_probeChannel, mem_startMount, mem_foldl]

theorem mem_execCarrierPresent (group : Nat) (probes : List (List (Option TargetProbe))) (s : State) :
    ∀ rr, execCarrierPresent group probes s = .next rr → (rr).mem = s.mem := by
  intro r h; unfold execCarrierPresent at h; grind [mem_carrierPresent, mem_when, mem_guarded]

theorem mem_loadReject (st : Nat) (reason : Nat) (opIndex : Nat) (s : State) :
    (loadReject st reason opIndex s).2.2.mem = s.mem := by
  simp [loadReject]

theorem mem_slotsExhausted (s : State) :
    (slotsExhausted s).mem = s.mem := by
  grind [slotsExhausted, mem_emitDev]

theorem mem_serveScore (s : State) (q : SubIn) :
    (serveScore s q).mem = s.mem := by
  grind [serveScore, mem_putSub, mem_replySub]

theorem mem_vecWrite (p : RegPkt) (s : State) :
    (vecWrite p s).mem = s.mem := by
  grind [vecWrite, mem_putVec, mem_ackWrite, mem_sendInterrupt]

theorem mem_execInterruptVectorWrite (p : RegPkt) (s : State) :
    ∀ rr, execInterruptVectorWrite p s = .next rr → (rr).mem = s.mem := by
  intro r h; unfold execInterruptVectorWrite at h; grind [mem_when, mem_vecWrite]

theorem mem_shardLost (s : State) (gid : Nat) (shard : Nat) :
    (shardLost s gid shard).mem = s.mem := by
  unfold shardLost; (repeat' split) <;> simp [mem_emitDev]

theorem mem_putCopy (s : State) (idx : Nat) (mirror : Bool) (c : Copy) :
    (putCopy s idx mirror c).mem = s.mem := by
  unfold putCopy; (repeat' split) <;> simp [mem_putIndex]

theorem mem_remapAll (s : State) (f : Nat → Nat) (p : Nat) (q : Nat) :
    (remapAll s f p q).mem = s.mem := by
  simp [remapAll]

theorem mem_headActs (s : State) (p : Nat) (h : FrameHead) :
    (headActs s p h).mem = s.mem := by
  unfold headActs; (repeat' split) <;> simp [mem_putPort, mem_replayFrames]

theorem mem_settleOldKv (s : State) (ws : Nat) (key : Nat) :
    (settleOldKv s ws key).mem = s.mem := by
  unfold settleOldKv; split
  · rfl
  · dsimp only; rw [mem_foldl _ (fun _ _ => mem_freePages _ _)]; exact mem_putSession _ _

theorem mem_reqHandoff (c : Ctx) (s : State) :
    (reqHandoff c s).2.mem = s.mem := by
  grind [reqHandoff, mem_sendReq, mem_beginHandoff, mem_refuse]

theorem mem_execReqHandoff (m : MsgSrc) (s : State) :
    ∀ rr, execReqHandoff m s = .next rr → (rr).mem = s.mem := by
  intro r h; unfold execReqHandoff at h; grind [mem_serve, mem_reqHandoff]

theorem mem_execOrphanMsg (ws : Nat) (ident : Nat) (epoch : Nat) (pool : Nat) (s : State) :
    ∀ rr, execOrphanMsg ws ident epoch pool s = .next rr → (rr).mem = s.mem := by
  intro r h; unfold execOrphanMsg at h; grind [mem_when, mem_takeMsg, mem_addClaim]

theorem mem_carrierRemoved (g : Nat) (s : State) :
    (carrierRemoved g s).mem = s.mem := by
  grind [carrierRemoved, mem_putGroup, mem_finishTicket, mem_finishAll, mem_emit]

theorem mem_overCap (s : State) :
    (overCap s).mem = s.mem := by
  unfold overCap; dsimp only; split
  · rfl
  · split
    · rw [mem_emit]
    · rfl

theorem mem_underCap (s : State) :
    (underCap s).mem = s.mem := by
  simp [underCap]

theorem mem_powerCapCompare (s : State) :
    (powerCapCompare s).mem = s.mem := by
  unfold powerCapCompare; (repeat' split) <;> simp [mem_overCap, mem_underCap]

theorem mem_execPowerCapCompare (s : State) :
    ∀ rr, execPowerCapCompare s = .next rr → (rr).mem = s.mem := by
  intro r h; unfold execPowerCapCompare at h; grind [mem_when, mem_powerCapCompare]

theorem mem_helloAt (s : State) (p : Nat) (l : List Byte) :
    (helloAt s p l).mem = s.mem := by
  grind [helloAt, mem_putPort, mem_emit, mem_noteLinks, mem_setPort]

theorem mem_execStartWait (s : State) :
    ∀ rr, execStartWait s = .next rr → (rr).mem = s.mem := by
  intro r h; unfold execStartWait at h; grind [mem_when, mem_emitDev]

theorem mem_fenceChanges (idx : Nat) (mirror : Bool) (s : State) :
    (fenceChanges idx mirror s).mem = s.mem := by
  unfold fenceChanges; (repeat' split) <;> simp [mem_putCopy, mem_answerChange, mem_foldl]

theorem mem_fenceRequest (s : State) (n : Nat) (x : Slot) :
    (fenceRequest s n x).mem = s.mem := by
  unfold fenceRequest; (repeat' split) <;> simp [mem_failSlot, mem_failUpdate, mem_finishChange]

theorem mem_sendLease (s : State) (g : Group) (op : Nat) :
    (sendLease s g op).mem = s.mem := by
  simp [sendLease, mem_sendMsg]

theorem mem_fenceGroup (g : Group) (s : State) :
    (fenceGroup g s).mem = s.mem := by
  unfold fenceGroup; extract_lets gid t0 t1 t2 t3
  have h1 : t1.mem = s.mem := by
    simp only [t1, t0]; rw [mem_sendLease, mem_emitDev]; exact mem_putLease _ _
  have h2 : t2.mem = s.mem := by
    simp only [t2]; rw [mem_foldl _ (fun _ _ => by rw [mem_fenceChanges, mem_fenceChanges])]; exact h1
  have h3 : t3.mem = s.mem := by
    refine (mem_foldl _ ?_ _ _).trans h2
    intro a b; split
    · exact mem_fenceRequest _ _ _
    · rfl
  exact (mem_foldl _ (fun _ _ => mem_replySub _ _ _) _ _).trans h3

theorem mem_execLeaseLapse (group : Nat) (s : State) :
    ∀ rr, execLeaseLapse group s = .next rr → (rr).mem = s.mem := by
  intro r h; unfold execLeaseLapse at h; grind [mem_fenceGroup, mem_when]

theorem mem_badAccess (p : RegPkt) (s : State) :
    (badAccess p s).mem = s.mem := by
  grind [badAccess, mem_putFn, mem_ackWrite, mem_emitFull]

theorem mem_execRingInfo (m : MsgSrc) (s : State) :
    ∀ rr, execRingInfo m s = .next rr → (rr).mem = s.mem := by
  intro r h; unfold execRingInfo at h; grind [mem_checked, mem_serve]

theorem mem_latchEvent (s : State) (ev : Event) :
    (latchEvent s ev).mem = s.mem := by
  grind [latchEvent]

theorem mem_markDrop (s : State) :
    (markDrop s).mem = s.mem := by
  simp [markDrop]

theorem mem_foldEvent (s : State) (ev : Event) :
    (foldEvent s ev).mem = s.mem := by
  simp [foldEvent, mem_markDrop]

theorem mem_assertAlarm (s : State) :
    (assertAlarm s).mem = s.mem := by
  simp [assertAlarm]

theorem mem_execReqStatus (m : MsgSrc) (s : State) :
    ∀ rr, execReqStatus m s = .next rr → (rr).mem = s.mem := by
  intro r h; unfold execReqStatus at h; grind [mem_serve, mem_refuse]

theorem mem_answerUnknown (m : MsgSrc) (s : State) :
    (answerUnknown m s).mem = s.mem := by
  simp [answerUnknown, mem_respond, mem_takeRequest]

theorem mem_execFrontierWaitTimeout (ident : Nat) (s : State) :
    ∀ rr, execFrontierWaitTimeout ident s = .next rr → (rr).mem = s.mem := by
  intro r h; unfold execFrontierWaitTimeout at h; grind [mem_when, mem_replySub]

theorem mem_execI3cEntdaa (addr : Nat) (s : State) :
    ∀ rr, execI3cEntdaa addr s = .next rr → (rr).mem = s.mem := by
  intro r h; unfold execI3cEntdaa at h; grind [mem_when, mem_guarded]

theorem mem_execFuncInfo (m : MsgSrc) (s : State) :
    ∀ rr, execFuncInfo m s = .next rr → (rr).mem = s.mem := by
  intro r h; unfold execFuncInfo at h; grind [mem_checked, mem_serve]

theorem mem_execMbxDoorbell (p : RegPkt) (s : State) :
    ∀ rr, execMbxDoorbell p s = .next rr → (rr).mem = s.mem := by
  intro r h; unfold execMbxDoorbell at h; grind [mem_when, mem_doorbell]

theorem mem_enableFn (s : State) (fn : Nat) (ws : Nat) (gw : Nat) :
    (enableFn s fn ws gw).mem = s.mem := by
  simp [enableFn, mem_putFn]

theorem mem_disableDone (s : State) (fn : Nat) :
    (disableDone s fn).mem = s.mem := by
  grind [disableDone, mem_finishAll, mem_enableFn, mem_putFn]

theorem mem_wavelengthRetrain (s : State) (p : Nat) (w : Nat) (rx : Bool) (pass : Bool) :
    (wavelengthRetrain s p w rx pass).mem = s.mem := by
  grind [wavelengthRetrain, mem_score, mem_putPort, mem_emit]

theorem mem_execWavelengthRetrain (port : Nat) (rx : Bool) (wl : Nat) (pass : Bool) (s : State) :
    ∀ rr, execWavelengthRetrain port rx wl pass s = .next rr → (rr).mem = s.mem := by
  intro r h; unfold execWavelengthRetrain at h; grind [mem_wavelengthRetrain, mem_when, mem_guarded]

theorem mem_revertUnit (s : State) (b : Nat × Nat × Option MapUnit) :
    (revertUnit s b).mem = s.mem := by
  grind [revertUnit, mem_putGroup, mem_drawFree]

theorem mem_regionFree (c : Ctx) (s : State) :
    (regionFree c s).2.mem = s.mem := by
  grind [regionFree, mem_checked, mem_putWs, mem_refuse]

theorem mem_execRegionFree (m : MsgSrc) (s : State) :
    ∀ rr, execRegionFree m s = .next rr → (rr).mem = s.mem := by
  intro r h; unfold execRegionFree at h; grind [mem_regionFree, mem_serve]

theorem mem_dropReqCopy (s : State) (ws : Nat) (ident : Nat) :
    (dropReqCopy s ws ident).mem = s.mem := by
  simp [dropReqCopy]

theorem mem_runEntry (s : State) :
    (runEntry s).mem = s.mem := by
  simp [runEntry, mem_setBootRec, mem_emitDev]

theorem mem_keyStep (x0 : Nat) (c : MarverCtx) (s : State) :
    (keyStep x0 c s).2.mem = s.mem := by
  grind [keyStep]

theorem mem_frameBody (s : State) (p : Nat) (body : List Byte) :
    (frameBody s p body).mem = s.mem := by
  simp [frameBody, mem_putPort]

theorem mem_nakFrame (s : State) (p : Nat) :
    (nakFrame s p).mem = s.mem := by
  simp [nakFrame, mem_putPort]

theorem mem_dataFrame (s : State) (p : Nat) (f : List Byte) :
    (dataFrame s p f).mem = s.mem := by
  grind [dataFrame, mem_frameBody, mem_nakFrame, mem_headActs]

theorem mem_sendRenew (s : State) (g : Group) :
    (sendRenew s g).mem = s.mem := by
  simp [sendRenew, mem_sendMsg, mem_putLease, mem_drawFree]

theorem mem_benchFlip (s : State) :
    (benchFlip s).mem = s.mem := by
  simp only [benchFlip]; (repeat' split) <;> (first | grind [mem_sendRenew] | simp [mem_sendRenew, mem_foldl])

theorem mem_execBenchFlip (s : State) :
    ∀ rr, execBenchFlip s = .next rr → (rr).mem = s.mem := by
  intro r h; unfold execBenchFlip at h; grind [mem_when, mem_benchFlip]

theorem mem_storeStripeUnit (s : State) (ws : Nat) (gid : Nat) (setId : Nat) (index : Nat) (data : List Byte) :
    (storeStripeUnit s ws gid setId index data).2.mem = s.mem := by
  grind [storeStripeUnit, mem_streamWrite]

theorem mem_completeStripe (s : State) (setId : Nat) (index : Nat) :
    (completeStripe s setId index).mem = s.mem := by
  grind [completeStripe, mem_putGroup, mem_putStream]

theorem mem_markDurable (s : State) (setId : Nat) (index : Nat) (member : Nat) :
    (markDurable s setId index member).mem = s.mem := by
  simp [markDurable, mem_completeStripe]

theorem mem_selfStore (s : State) (gid : Nat) (ws : Nat) (setId : Nat) (index : Nat) (members : List Nat) (units : List (List Byte)) :
    (selfStore s gid ws setId index members units).mem = s.mem := by
  grind [selfStore, mem_storeStripeUnit, mem_markDurable]

theorem mem_stripeWait (s : State) :
    (stripeWait s).mem = s.mem := by
  grind [stripeWait, mem_emitDev]

theorem mem_formStripe (g : Nat) (st : Stream) (d : List (List Byte)) (s : State) :
    (formStripe g st d s).mem = s.mem := by
  grind [formStripe, mem_selfStore, mem_putStream, mem_stripeWait]

theorem mem_annealStripe (ws : Nat) (key : Nat) (s : State) :
    (annealStripe ws key s).mem = s.mem := by
  unfold annealStripe; (repeat' split) <;> simp [mem_dropActivity, mem_formStripe, mem_putSession]

theorem mem_changeAbandon (n : Nat) (o : SubOut) (s : State) :
    (changeAbandon n o s).mem = s.mem := by
  unfold changeAbandon; (repeat' split) <;> simp [mem_finishChange, mem_closeSub]

theorem mem_journalChange (s : State) (idx : Nat) (x : Index) (mirror : Bool) (e : Nat) (ordinal : Nat) (p : List Byte) (vec : List Nat) :
    (journalChange s idx x mirror e ordinal p vec).2.2.mem = s.mem := by
  simp [journalChange, mem_streamWrite]

theorem mem_funcEnable (c : Ctx) (s : State) :
    (funcEnable c s).2.mem = s.mem := by
  grind [funcEnable, mem_checked, mem_enableFn, mem_putFn, mem_refuse]

theorem mem_takePools (pools : Option (List (List Nat × Bool))) (s : State) :
    (takePools pools s).mem = s.mem := by
  unfold takePools; (repeat' split) <;> simp

theorem mem_resendChanges (before : State) (idx : Nat) (mirror : Bool) (s : State) :
    (resendChanges before idx mirror s).mem = s.mem := by
  unfold resendChanges; (repeat' split) <;> simp [mem_putCopy, mem_sendChange, mem_foldl]

theorem mem_installGroup (s : State) (g : Group) :
    (installGroup s g).mem = s.mem := by
  simp [installGroup]

theorem mem_promote (s : State) (old : Option Group) (m : Membership) :
    (promote s old m).mem = s.mem := by
  simp [promote]

theorem mem_moveSessions (old : Option Group) (m : Membership) (s : State) :
    (moveSessions old m s).mem = s.mem := by
  unfold moveSessions; (repeat' split) <;> simp

theorem mem_markSuspect (m : Membership) (s : State) :
    (markSuspect m s).mem = s.mem := by
  unfold markSuspect; (repeat' split) <;> simp [mem_score, mem_emitDev]

theorem mem_recheckRuns (gid : Nat) (s : State) :
    (recheckRuns gid s).mem = s.mem := by
  unfold recheckRuns
  refine mem_foldl _ ?_ _ _
  intro a b; refine mem_foldl _ ?_ _ _
  intro a b; split
  · split
    · exact (mem_drainedAll _ _).trans (mem_putTable _ _ _)
    · rfl
  · rfl

theorem mem_dropStaged (s : State) (kind : Nat) :
    (dropStaged s kind).mem = s.mem := by
  simp [dropStaged, mem_freePages, mem_foldl]

theorem mem_fwActivate (c : Ctx) (s : State) :
    (fwActivate c s).2.mem = s.mem := by
  simp [fwActivate, mem_checked]

theorem mem_ringDestroy (c : Ctx) (s : State) :
    (ringDestroy c s).2.mem = s.mem := by
  simp [ringDestroy, mem_putRing, mem_checked]

theorem mem_execRingDestroy (m : MsgSrc) (s : State) :
    ∀ rr, execRingDestroy m s = .next rr → (rr).mem = s.mem := by
  intro r h; unfold execRingDestroy at h; grind [mem_ringDestroy, mem_serve]

theorem mem_remapFrame (s : State) (p : Nat) (lane : Nat) (w : Nat) :
    (remapFrame s p lane w).mem = s.mem := by
  grind [remapFrame, mem_checkLanes, mem_putPort]

theorem mem_thermalReport (s : State) :
    (thermalReport s).mem = s.mem := by
  simp [thermalReport, mem_emitFull]

theorem mem_scoreThreshold (s : State) (q : SubIn) :
    (scoreThreshold s q).mem = s.mem := by
  unfold scoreThreshold; (repeat' split) <;> simp [mem_replySub]

theorem mem_serveThreshold (s : State) (q : SubIn) :
    (serveThreshold s q).mem = s.mem := by
  unfold serveThreshold; (repeat' split) <;> simp [mem_replySub]

theorem mem_execThresholdPass (ident : Nat) (s : State) :
    ∀ rr, execThresholdPass ident s = .next rr → (rr).mem = s.mem := by
  intro r h; unfold execThresholdPass at h; grind [mem_scoreThreshold, mem_when, mem_serveThreshold]

theorem mem_execAnnealStripe (ws : Nat) (key : Nat) (s : State) :
    ∀ rr, execAnnealStripe ws key s = .next rr → (rr).mem = s.mem := by
  intro r h; unfold execAnnealStripe at h; grind [mem_annealStripe, mem_when]

theorem mem_movePause (c : Ctx) (s : State) :
    (movePause c s).2.mem = s.mem := by
  grind [movePause, mem_checked, mem_putChan]

theorem mem_execMovePause (m : MsgSrc) (s : State) :
    ∀ rr, execMovePause m s = .next rr → (rr).mem = s.mem := by
  intro r h; unfold execMovePause at h; grind [mem_movePause, mem_serve]

theorem mem_puntyFlip (core : Nat) (s : State) :
    (puntyFlip core s).mem = s.mem := by
  unfold puntyFlip; (repeat' split) <;> simp

theorem mem_execPuntyFlip (core : Nat) (s : State) :
    ∀ rr, execPuntyFlip core s = .next rr → (rr).mem = s.mem := by
  intro r h; unfold execPuntyFlip at h; grind [mem_when, mem_guarded, mem_puntyFlip]

theorem mem_programInfo (c : Ctx) (s : State) :
    (programInfo c s).2.mem = s.mem := by
  grind [programInfo, mem_refuse]

theorem mem_guardHold (s : State) (limit : Nat) (value : Nat) :
    (guardHold s limit value).mem = s.mem := by
  grind [guardHold, mem_emit]

theorem mem_rebuildSet (setId : Nat) (lost : Nat) (units : List (Nat × Nat × List Byte)) (s : State) :
    (rebuildSet setId lost units s).mem = s.mem := by
  simp only [rebuildSet]; (repeat' split) <;> (first | grind [mem_storeStripeUnit] | simp [mem_storeStripeUnit, mem_foldl])

theorem mem_stripeRebuild (setId : Nat) (lost : Nat) (units : List (Nat × Nat × List Byte)) (s : State) :
    (stripeRebuild setId lost units s).mem = s.mem := by
  grind [stripeRebuild, mem_submit, mem_rebuildSet, mem_dropActivity]

theorem mem_execStripeSetRebuild (setId : Nat) (lost : Nat) (units : List (Nat × Nat × List Byte)) (s : State) :
    ∀ rr, execStripeSetRebuild setId lost units s = .next rr → (rr).mem = s.mem := by
  intro r h; unfold execStripeSetRebuild at h; grind [mem_when, mem_stripeRebuild]

theorem mem_loseBuffers (s : State) :
    (loseBuffers s).mem = s.mem := by
  simp [loseBuffers, mem_revertUnit, mem_foldl]

theorem mem_guardEnd (s : State) :
    (guardEnd s).mem = s.mem := by
  unfold guardEnd; (repeat' split) <;> simp

theorem mem_caneRetire (c : Ctx) (s : State) :
    (caneRetire c s).2.mem = s.mem := by
  simp [caneRetire, mem_checked, mem_beginCaneRetire]

theorem mem_execCaneRetire (m : MsgSrc) (s : State) :
    ∀ rr, execCaneRetire m s = .next rr → (rr).mem = s.mem := by
  intro r h; unfold execCaneRetire at h; grind [mem_serve, mem_caneRetire]

theorem mem_execModelProgramJob (engine : Nat) (j : Option GafferJob) (err : Option (Nat × Bool)) (s : State) :
    ∀ rr, execModelProgramJob engine j err s = .next rr → (rr).mem = s.mem := by
  intro r h; unfold execModelProgramJob at h; grind [mem_submitJob, mem_guarded, mem_gafferRow]

theorem mem_pumpPools (s : State) :
    (pumpPools s).mem = s.mem := by
  unfold pumpPools; refine mem_foldl _ ?_ _ _; intro a b; (repeat' split) <;> first
    | grind [mem_pumpGather]
    | simp [mem_pumpGather, mem_foldl]
    | simp_all [mem_pumpGather, mem_foldl]

theorem mem_commitStep (s : State) (x : Slot) :
    (commitStep s x).mem = s.mem := by
  unfold commitStep; (repeat' split) <;> simp [mem_tellSession, mem_putSession]

theorem mem_freeOldChunks (s : State) (idx : Nat) :
    (freeOldChunks s idx).mem = s.mem := by
  unfold freeOldChunks; (repeat' split) <;> simp [mem_putIndex]

theorem mem_releaseRefs (s : State) (x : Slot) :
    (releaseRefs s x).mem = s.mem := by
  grind [releaseRefs, mem_commitStep, mem_refVersion, mem_freeOldChunks, mem_settleOldKv, mem_settleDrains, mem_refSession,
    mem_refIndex, mem_refProgram]

theorem mem_wsSettings (c : Ctx) (s : State) :
    (wsSettings c s).2.mem = s.mem := by
  simp [wsSettings, mem_checked, mem_putWs]

theorem mem_execLehrRoundEnd (ident : Nat) (finished : Bool) (s : State) :
    ∀ rr, execLehrRoundEnd ident finished s = .next rr → (rr).mem = s.mem := by
  intro r h; unfold execLehrRoundEnd at h; grind [mem_lehrRoundEnd, mem_when]

theorem mem_execProbePulse (port : Nat) (s : State) :
    ∀ rr, execProbePulse port s = .next rr → (rr).mem = s.mem := by
  intro r h; unfold execProbePulse at h; grind [mem_when, mem_putPort, mem_guarded]

theorem mem_execMoveRate (m : MsgSrc) (s : State) :
    ∀ rr, execMoveRate m s = .next rr → (rr).mem = s.mem := by
  intro r h; unfold execMoveRate at h; grind [mem_moveRate, mem_serve]

theorem mem_resendHandoff (c : ReqCopy) (s : State) :
    (resendHandoff c s).mem = s.mem := by
  unfold resendHandoff; (repeat' split) <;> simp [mem_sendHandoff, mem_putReqCopy, mem_finishAll]

theorem mem_execHandoffResend (ws : Nat) (ident : Nat) (s : State) :
    ∀ rr, execHandoffResend ws ident s = .next rr → (rr).mem = s.mem := by
  intro r h; unfold execHandoffResend at h; grind [mem_when, mem_resendHandoff]

theorem mem_reqCancel (c : Ctx) (s : State) :
    (reqCancel c s).2.mem = s.mem := by
  grind [reqCancel, mem_recordCancel, mem_sendReq, mem_refuse]

theorem mem_stopActivity (s : State) (a : Activity) :
    (stopActivity s a).mem = s.mem := by
  unfold stopActivity; (repeat' split) <;> simp [mem_finishTicket, mem_dropActivity]

theorem mem_serveHash (s : State) (q : SubIn) :
    (serveHash s q).mem = s.mem := by
  grind [serveHash, mem_replySub]

theorem mem_serveRefine (s : State) (q : SubIn) :
    (serveRefine s q).mem = s.mem := by
  unfold serveRefine; (repeat' split) <;> simp [mem_replySub]

theorem mem_serveIndexSub (s : State) (q : SubIn) :
    (serveIndexSub s q).mem = s.mem := by
  unfold serveIndexSub; (repeat' split) <;> simp [mem_serveScan, mem_serveHash, mem_serveRefine]

theorem mem_execFrontierReached (ident : Nat) (s : State) :
    ∀ rr, execFrontierReached ident s = .next rr → (rr).mem = s.mem := by
  intro r h; unfold execFrontierReached at h; grind [mem_when, mem_whenReached, mem_serveIndexSub]

theorem mem_execSchedInfo (m : MsgSrc) (s : State) :
    ∀ rr, execSchedInfo m s = .next rr → (rr).mem = s.mem := by
  intro r h; unfold execSchedInfo at h; grind [mem_checked, mem_serve]

theorem mem_takeHandoffAck (c : ReqCopy) (epoch : Nat) (heldNone : Bool) (s : State) :
    (takeHandoffAck c epoch heldNone s).mem = s.mem := by
  unfold takeHandoffAck; (repeat' split) <;> simp [mem_putReqCopy, mem_dropReqCopy, mem_finishAll]

theorem mem_connLost (s : State) (c : Nat) :
    (connLost s c).mem = s.mem := by
  simp [connLost, mem_emit, mem_darken]

theorem mem_execFibreConnLost (cane : Nat) (s : State) :
    ∀ rr, execFibreConnLost cane s = .next rr → (rr).mem = s.mem := by
  intro r h; unfold execFibreConnLost at h; grind [mem_when, mem_guarded, mem_connLost]

theorem mem_annealFlush (ws : Nat) (key : Nat) (s : State) :
    (annealFlush ws key s).mem = s.mem := by
  unfold annealFlush; (repeat' split) <;> simp [mem_submit, mem_putSession]

theorem mem_violation (s : State) (limit : Nat) (value : Nat) :
    (violation s limit value).mem = s.mem := by
  simp [violation, mem_emit, mem_assertAlarm]

theorem mem_refuseAccess (s : State) (p : Packet) (n : Nat) :
    (refuseAccess s p n).mem = s.mem := by
  grind [refuseAccess, mem_violation]

theorem mem_noteTooShort (s : State) (p : Nat) :
    (noteTooShort s p).mem = s.mem := by
  grind [noteTooShort, mem_putPort, mem_emit]

theorem mem_packetSelect (s : State) (p : Nat) :
    (packetSelect s p).mem = s.mem := by
  grind [packetSelect, mem_sendFrames, mem_noteTooShort, mem_guardHold, mem_putPort, mem_putOnWire, mem_sendHead]

theorem mem_execPacketSelect (port : Nat) (s : State) :
    ∀ rr, execPacketSelect port s = .next rr → (rr).mem = s.mem := by
  intro r h; unfold execPacketSelect at h; grind [mem_packetSelect, mem_when, mem_guarded]

theorem mem_sendBurst (s : State) (c : Nat) (d : List Byte) (b : Burst) :
    (sendBurst s c d b).mem = s.mem := by
  unfold sendBurst; (repeat' split) <;> simp [mem_sendMemWrite, mem_sendTxn]

theorem mem_execUpdateEntry (fn : Nat) (ring : Nat) (h : HostView) (s : State) :
    ∀ rr, execUpdateEntry fn ring h s = .next rr → (rr).mem = s.mem := by
  intro r h; unfold execUpdateEntry at h; (repeat' split at h) <;> grind [→ mem_admitRow, mem_startUpdate, Option.map_eq_some_iff,
    Option.bind_eq_some_iff]

theorem mem_execRequestCompletion (ws : Nat) (ident : Nat) (s : State) :
    ∀ rr, execRequestCompletion ws ident s = .next rr → (rr).mem = s.mem := by
  intro r h; unfold execRequestCompletion at h; grind [mem_endRequest, mem_when, mem_takeMsg]

theorem mem_scanStep (x0 : Nat) (c : MarverCtx) (s : State) :
    (scanStep x0 c s).2.mem = s.mem := by
  unfold scanStep; (repeat' split) <;> simp

theorem mem_rejectHeld (s : State) (h : Nat) :
    (rejectHeld s h).mem = s.mem := by
  simp [rejectHeld, mem_failSlot, mem_foldl]

theorem mem_sessionRoll (ws : Nat) (key : Nat) (ok : Bool) (s : State) :
    (sessionRoll ws key ok s).mem = s.mem := by
  grind [sessionRoll, mem_endAnneal, mem_rejectHeld, mem_tellSession, mem_freeSessionPages, mem_releaseSession, mem_dropActivity,
    mem_putSession, mem_sendSess]

theorem mem_execSessionRoll (ws : Nat) (key : Nat) (ok : Bool) (s : State) :
    ∀ rr, execSessionRoll ws key ok s = .next rr → (rr).mem = s.mem := by
  intro r h; unfold execSessionRoll at h; grind [mem_when, mem_sessionRoll]

theorem mem_tableSwitch (c : Ctx) (s : State) :
    (tableSwitch c s).2.mem = s.mem := by
  grind [tableSwitch, mem_withVersion, mem_putTable, mem_settleTable, mem_refuse]

theorem mem_makeClaim (ws : Nat) (ident : Nat) (entry : Nat) (self : Nat) (copies : List (Nat × ReqCopy)) (s : State) :
    (makeClaim ws ident entry self copies s).mem = s.mem := by
  grind [makeClaim, mem_writeTo, mem_putReqCopy, mem_sendReq]

theorem mem_closeChannel (s : State) (c : Nat) (tickets : List TicketRef) :
    (closeChannel s c tickets).mem = s.mem := by
  simp [closeChannel, mem_finishAll, mem_putChan]

theorem mem_execModelRun (fn : Nat) (ring : Nat) (h : HostView) (s : State) :
    ∀ rr, execModelRun fn ring h s = .next rr → (rr).mem = s.mem := by
  intro r h; unfold execModelRun at h; (repeat' split at h) <;> grind [→ mem_admitRow, mem_startModel, Option.map_eq_some_iff,
    Option.bind_eq_some_iff]

theorem mem_execSessionJournalWrite (ws : Nat) (key : Nat) (e : JournalEnt) (s : State) :
    ∀ rr, execSessionJournalWrite ws key e s = .next rr → (rr).mem = s.mem := by
  intro r h; unfold execSessionJournalWrite at h; grind [mem_when, mem_partnerWrite]

theorem mem_enterUnlocked (s : State) :
    (enterUnlocked s).mem = s.mem := by
  simp [enterUnlocked, mem_emitDev]

theorem mem_execHoldover (s : State) :
    ∀ rr, execHoldover s = .next rr → (rr).mem = s.mem := by
  intro r h; unfold execHoldover at h; grind [mem_when, mem_enterUnlocked]

theorem mem_execCoalescingTimer (fn : Nat) (vec : Nat) (s : State) :
    ∀ rr, execCoalescingTimer fn vec s = .next rr → (rr).mem = s.mem := by
  intro r h; unfold execCoalescingTimer at h; grind [mem_interruptDue, mem_when, mem_guarded]

theorem mem_tableExport (c : Ctx) (s : State) :
    (tableExport c s).2.mem = s.mem := by
  grind [tableExport, mem_checked, mem_refVersion, mem_withTable, mem_refuse]

theorem mem_execTableExport (m : MsgSrc) (s : State) :
    ∀ rr, execTableExport m s = .next rr → (rr).mem = s.mem := by
  intro r h; unfold execTableExport at h; grind [mem_tableExport, mem_serve]

theorem mem_tableStreams (s : State) (h : Nat) (t : Table) :
    (tableStreams s h t).mem = s.mem := by
  unfold tableStreams; (repeat' split) <;> grind [→ mem_createStream]

theorem mem_tableCreate (c : Ctx) (s : State) :
    (tableCreate c s).2.mem = s.mem := by
  simp [tableCreate, mem_checked, mem_putTable, mem_tableStreams]

theorem mem_readTemp (s : State) (g : Nat) (t : Int) :
    (readTemp s g t).mem = s.mem := by
  grind [readTemp, mem_putGroup]

theorem mem_execDeleteEntry (fn : Nat) (ring : Nat) (h : HostView) (s : State) :
    ∀ rr, execDeleteEntry fn ring h s = .next rr → (rr).mem = s.mem := by
  unfold execDeleteEntry
  exact mem_admitRow _ _ _ _ _ _ _ (fun _ _ _ => mem_startDelete _ _ _)

theorem mem_enterStrap (s : State) :
    (enterStrap s).mem = s.mem := by
  simp [enterStrap]

theorem mem_excludeWaiting (s : State) :
    (excludeWaiting s).mem = s.mem := by
  simp [excludeWaiting]

theorem mem_archiveUnit (s : State) :
    (archiveUnit s).mem = s.mem := by
  unfold archiveUnit; (repeat' split) <;> simp [mem_excludeWaiting]

theorem mem_execArchiveWrite (s : State) :
    ∀ rr, execArchiveWrite s = .next rr → (rr).mem = s.mem := by
  intro r h; unfold execArchiveWrite at h; grind [mem_when, mem_archiveUnit]

theorem mem_linkLocal (s : State) (port : Nat) (msg : Nat) (body : List Byte) :
    (linkLocal s port msg body).mem = s.mem := by
  simp [linkLocal, mem_putPort]

theorem mem_execHelloSendTimer (port : Nat) (s : State) :
    ∀ rr, execHelloSendTimer port s = .next rr → (rr).mem = s.mem := by
  intro r h; unfold execHelloSendTimer at h; grind [mem_linkLocal, mem_when, mem_putPort, mem_guarded]

theorem mem_indexDrop (c : Ctx) (s : State) :
    (indexDrop c s).2.mem = s.mem := by
  unfold indexDrop; (repeat' split) <;> simp [mem_dropIndex, mem_withIndex, mem_refuse]

theorem mem_execIndexDrop (m : MsgSrc) (s : State) :
    ∀ rr, execIndexDrop m s = .next rr → (rr).mem = s.mem := by
  intro r h; unfold execIndexDrop at h; grind [mem_indexDrop, mem_serve]

theorem mem_execProgramInfo (m : MsgSrc) (s : State) :
    ∀ rr, execProgramInfo m s = .next rr → (rr).mem = s.mem := by
  intro r h; unfold execProgramInfo at h; grind [mem_programInfo, mem_serve]

theorem mem_startHashChange (put : Bool) (b : Src) (n : Nat) (s : State) :
    (startHashChange put b n s).mem = s.mem := by
  unfold startHashChange; (repeat' split) <;> simp [mem_failSlot, mem_startChange]

theorem mem_carrierOnline (c : Ctx) (s : State) :
    (carrierOnline c s).2.mem = s.mem := by
  grind [carrierOnline, mem_putGroup, mem_checked, mem_finishTicket]

theorem mem_execFlashCarrierOnline (m : MsgSrc) (s : State) :
    ∀ rr, execFlashCarrierOnline m s = .next rr → (rr).mem = s.mem := by
  intro r h; unfold execFlashCarrierOnline at h; grind [mem_carrierOnline, mem_serve]

theorem mem_execE2eAck (src : Nat) (vc : Nat) (seq : Nat) (nak : Bool) (s : State) :
    ∀ rr, execE2eAck src vc seq nak s = .next rr → (rr).mem = s.mem := by
  intro r h; unfold execE2eAck at h; grind [mem_when, mem_e2eAck]

theorem mem_tick (s : State) :
    (tick s).mem = s.mem := by
  simp [tick]

theorem mem_launchHash (n : Nat) (s : State) :
    (launchHash n s).mem = s.mem := by
  unfold launchHash; (repeat' split) <;> simp [mem_askHash, mem_putSlot, mem_failSlot]

theorem mem_startHashGet (b : Src) (n : Nat) (s : State) :
    (startHashGet b n s).mem = s.mem := by
  unfold startHashGet; (repeat' split) <;> simp [mem_putSlot, mem_launchHash, mem_failSlot, mem_refIndex]

theorem mem_execHashGet (fn : Nat) (ring : Nat) (h : HostView) (s : State) :
    ∀ rr, execHashGet fn ring h s = .next rr → (rr).mem = s.mem := by
  intro r h; unfold execHashGet at h; (repeat' split at h) <;> grind [mem_startHashGet, → mem_admitRow, Option.map_eq_some_iff,
    Option.bind_eq_some_iff]

theorem mem_poolStep (x0 : Nat) (c : MarverCtx) (s : State) :
    (poolStep x0 c s).2.mem = s.mem := by
  unfold poolStep; (repeat' split) <;> simp

theorem mem_execGroupInfo (m : MsgSrc) (s : State) :
    ∀ rr, execGroupInfo m s = .next rr → (rr).mem = s.mem := by
  intro r h; unfold execGroupInfo at h; grind [mem_checked, mem_serve, mem_refuse]

theorem mem_trainTimeout (s : State) (p : Nat) :
    (trainTimeout s p).mem = s.mem := by
  unfold trainTimeout; (repeat' split) <;> simp [mem_endRetrain, mem_recalPortEnd, mem_noteRetrain, mem_setPort]

theorem mem_execPortTrainTimeout (port : Nat) (s : State) :
    ∀ rr, execPortTrainTimeout port s = .next rr → (rr).mem = s.mem := by
  intro r h; unfold execPortTrainTimeout at h; grind [mem_trainTimeout, mem_when, mem_guarded]

theorem mem_execTableDrop (m : MsgSrc) (s : State) :
    ∀ rr, execTableDrop m s = .next rr → (rr).mem = s.mem := by
  intro r h; unfold execTableDrop at h; grind [mem_tableDrop, mem_serve]

theorem mem_setRate (s : State) :
    (setRate s).mem = s.mem := by
  simp [setRate, mem_drawFree]

theorem mem_ppsPulse (s : State) :
    (ppsPulse s).mem = s.mem := by
  grind [ppsPulse, mem_setRate]

theorem mem_execPpsPulse (s : State) :
    ∀ rr, execPpsPulse s = .next rr → (rr).mem = s.mem := by
  intro r h; unfold execPpsPulse at h; grind [mem_when, mem_ppsPulse]

theorem mem_execReleaseSend (group : Nat) (s : State) :
    ∀ rr, execReleaseSend group s = .next rr → (rr).mem = s.mem := by
  intro r h; unfold execReleaseSend at h; grind [mem_when, mem_putLease, mem_sendLease]

theorem mem_classSet (c : Ctx) (s : State) :
    (classSet c s).2.mem = s.mem := by
  simp [classSet, mem_checked]

theorem mem_execEvrClassSet (m : MsgSrc) (s : State) :
    ∀ rr, execEvrClassSet m s = .next rr → (rr).mem = s.mem := by
  intro r h; unfold execEvrClassSet at h; grind [mem_classSet, mem_serve]

theorem mem_execUnknownOpcode (m : MsgSrc) (s : State) :
    ∀ rr, execUnknownOpcode m s = .next rr → (rr).mem = s.mem := by
  intro r h; unfold execUnknownOpcode at h; grind [mem_when, mem_answerUnknown]

theorem mem_execRunEntry (s : State) :
    ∀ rr, execRunEntry s = .next rr → (rr).mem = s.mem := by
  intro r h; unfold execRunEntry at h; grind [mem_when, mem_runEntry]

theorem mem_wsInfo (c : Ctx) (s : State) :
    (wsInfo c s).2.mem = s.mem := by
  simp [wsInfo, mem_checked]

theorem mem_dropSlot (s : State) (n : Nat) :
    (dropSlot s n).mem = s.mem := by
  simp [dropSlot]

theorem mem_freeJacks (s : State) (slot : Nat) :
    (freeJacks s slot).mem = s.mem := by
  simp [freeJacks]

theorem mem_healthSet (c : Ctx) (s : State) :
    (healthSet c s).2.mem = s.mem := by
  unfold healthSet; extract_lets d k w a t again
  refine mem_checked _ _ _ ?_
  refine mem_foldl _ ?_ _ _
  intro u p; extract_lets x v; split
  · rfl
  · exact (mem_putScore _ _ _ _).trans (mem_score _ _ _ _ _)

theorem mem_joinSnap (s : State) (idx : Nat) (shard : Nat) (sn : Snapshot) :
    (joinSnap s idx shard sn).mem = s.mem := by
  unfold joinSnap; (repeat' split) <;> simp [mem_putIndex]

theorem mem_tellGroup (s : State) (gid : Nat) (vc : Nat) (ws : Nat) (msg : Nat) (body : List Byte) :
    (tellGroup s gid vc ws msg body).mem = s.mem := by
  simp [tellGroup, mem_sendMsg, mem_foldl]

theorem mem_takeSnap (idx : Nat) (mirror : Bool) (s : State) :
    (takeSnap idx mirror s).mem = s.mem := by
  unfold takeSnap; (repeat' split) <;> simp [mem_joinSnap, mem_putCopy, mem_tellGroup]

theorem mem_execStatsSnapshot (index : Nat) (mirror : Bool) (s : State) :
    ∀ rr, execStatsSnapshot index mirror s = .next rr → (rr).mem = s.mem := by
  intro r h; unfold execStatsSnapshot at h; grind [mem_when, mem_guarded, mem_takeSnap]

theorem mem_execCoreFault (jack : Bool) (inst : Nat) (s : State) :
    ∀ rr, execCoreFault jack inst s = .next rr → (rr).mem = s.mem := by
  intro r h; unfold execCoreFault at h; grind [mem_score, mem_when, mem_emit, mem_guarded]

theorem mem_moveOpen (c : Ctx) (s : State) :
    (moveOpen c s).2.mem = s.mem := by
  simp [moveOpen, mem_putRing, mem_checked, mem_putChan]

theorem mem_stripeForm (stream : Nat) (fold : Bool) (s : State) :
    (stripeForm stream fold s).mem = s.mem := by
  unfold stripeForm; (repeat' split) <;> simp [mem_formStripe]

theorem mem_sampleQueues (s : State) (p : Nat) :
    (sampleQueues s p).mem = s.mem := by
  simp [sampleQueues, mem_putPort]

theorem mem_resumeChan (s : State) (n : Nat) :
    (resumeChan s n).mem = s.mem := by
  grind [resumeChan, mem_finishAll, mem_putChan]

theorem mem_moveResume (c : Ctx) (s : State) :
    (moveResume c s).2.mem = s.mem := by
  simp [moveResume, mem_checked, mem_resumeChan]

theorem mem_execMoveResume (m : MsgSrc) (s : State) :
    ∀ rr, execMoveResume m s = .next rr → (rr).mem = s.mem := by
  intro r h; unfold execMoveResume at h; grind [mem_serve, mem_moveResume]

theorem mem_retireBlock (s : State) (g : Nat) (b : Nat) :
    (retireBlock s g b).mem = s.mem := by
  simp [retireBlock, mem_putGroup, mem_emit, mem_emptyBlock, mem_checkSpare]

theorem mem_retireScored (s : State) (g : Nat) (b : Nat) (c : Nat) (t : Nat) :
    (retireScored s g b c t).mem = s.mem := by
  simp [retireScored, mem_score, mem_retireBlock]

theorem mem_flashRead (s : State) (o : FlashOp) (r : FlashOutcome) :
    (flashRead s o r).mem = s.mem := by
  unfold flashRead; extract_lets x t t1
  have h1 : t1.mem = s.mem := by
    simp only [t1]; split
    · exact (mem_score _ _ _ _ _).trans (mem_putGroup _ _ _)
    · exact mem_putGroup _ _ _
  split
  · rw [mem_score, mem_score, mem_retireScored]
    exact (mem_putGroup _ _ _).trans ((mem_loseUnit _ _ _).trans h1)
  · split
    · split
      · rename_i m _
        cases hh : placeUnit t1 o.group o.unit m.data m.gen 4 true with
        | none => exact h1
        | some v => exact (mem_placeUnit _ _ _ _ _ _ _ _ hh).trans h1
      · exact h1
    · exact h1

theorem mem_runFlashOp (s : State) (o : FlashOp) (r : FlashOutcome) :
    (runFlashOp s o r).mem = s.mem := by
  unfold runFlashOp; (repeat' split) <;> simp [mem_putGroup, mem_retireScored, mem_flashRead]

theorem mem_flashOperation (c : Nat) (t : Nat) (r : FlashOutcome) (s : State) :
    (flashOperation c t r s).mem = s.mem := by
  grind [flashOperation, mem_runFlashOp, mem_takeOutTarget, mem_score, mem_guardHold, mem_putFChan]

theorem mem_takeAnnounce (ws : Nat) (key : Nat) (v : Nat) (u : Nat) (coord : Nat) (s : State) :
    (takeAnnounce ws key v u coord s).mem = s.mem := by
  grind [takeAnnounce, mem_takeCtrl, mem_putTable, mem_settleDrains, mem_sendCtrl]

theorem mem_execAnnounce (ws : Nat) (key : Nat) (v : Nat) (u : Nat) (coord : Nat) (s : State) :
    ∀ rr, execAnnounce ws key v u coord s = .next rr → (rr).mem = s.mem := by
  intro r h; unfold execAnnounce at h; grind [mem_when, mem_takeAnnounce]

theorem mem_carrierOffline (c : Ctx) (s : State) :
    (carrierOffline c s).2.mem = s.mem := by
  simp [carrierOffline, mem_putGroup, mem_checked]

theorem mem_sendLinkState (s : State) :
    (sendLinkState s).mem = s.mem := by
  simp [sendLinkState, mem_sendMsg, mem_foldl]

theorem mem_execLinkStateTimer (s : State) :
    ∀ rr, execLinkStateTimer s = .next rr → (rr).mem = s.mem := by
  intro r h; unfold execLinkStateTimer at h; grind [mem_sendLinkState, mem_when]

theorem mem_sessionInfo (c : Ctx) (s : State) :
    (sessionInfo c s).2.mem = s.mem := by
  unfold sessionInfo; (repeat' split) <;> simp [mem_refuse]

theorem mem_startRequest (b : Src) (n : Nat) (s : State) :
    (startRequest b n s).mem = s.mem := by
  unfold startRequest; (repeat' split) <;> simp [mem_writeTo, mem_putSlot, mem_failSlot]

theorem mem_execGuardInfo (m : MsgSrc) (s : State) :
    ∀ rr, execGuardInfo m s = .next rr → (rr).mem = s.mem := by
  intro r h; unfold execGuardInfo at h; grind [mem_serve]

theorem mem_serveGather (s : State) (q : SubIn) :
    (serveGather s q).mem = s.mem := by
  unfold serveGather; (repeat' split) <;> simp [mem_replySub]

theorem mem_execQueryEntry (fn : Nat) (ring : Nat) (h : HostView) (s : State) :
    ∀ rr, execQueryEntry fn ring h s = .next rr → (rr).mem = s.mem := by
  intro r h; unfold execQueryEntry at h; (repeat' split at h) <;> grind [mem_startQuery, → mem_admitRow, Option.map_eq_some_iff,
    Option.bind_eq_some_iff]

theorem mem_guardHalt (s : State) :
    (guardHalt s).mem = s.mem := by
  simp [guardHalt]

theorem mem_trimOrdPages (s : State) (c : Copy) :
    (trimOrdPages s c).2.mem = s.mem := by
  simp [trimOrdPages, mem_freePages, mem_foldl]

theorem mem_openFibre (s : State) (p : Nat) :
    (openFibre s p).mem = s.mem := by
  grind [openFibre, mem_putPort, mem_emit, mem_endRetrain, mem_recalPortEnd, mem_noteRetrain, mem_setPort]

theorem mem_chooseImg (s : State) (fwVersion : Nat) :
    (chooseImg s fwVersion).2.mem = s.mem := by
  unfold chooseImg; (repeat' split) <;> grind [mem_chooseSlot, mem_considered]

theorem mem_submitModel (n : Nat) (s : State) :
    (submitModel n s).mem = s.mem := by
  unfold submitModel; (repeat' split) <;> simp [mem_putSlot, mem_putProgram, mem_putGaffer]

theorem mem_execProgramUnload (m : MsgSrc) (s : State) :
    ∀ rr, execProgramUnload m s = .next rr → (rr).mem = s.mem := by
  intro r h; unfold execProgramUnload at h; grind [mem_programUnload, mem_serve]

theorem mem_execUpdateSeqRelease (slot : Nat) (s : State) :
    ∀ rr, execUpdateSeqRelease slot s = .next rr → (rr).mem = s.mem := by
  intro r h; unfold execUpdateSeqRelease at h; grind [mem_when, mem_releaseUpdate]

theorem mem_archiveForFlush (s : State) :
    (archiveForFlush s).mem = s.mem := by
  unfold archiveForFlush; (repeat' split) <;> simp

theorem mem_programBuffers (s : State) :
    (programBuffers s).mem = s.mem := by
  simp [programBuffers]

theorem mem_drainQueue (s : State) (fn : Nat) (x2 : Nat) :
    (drainQueue s fn x2).mem = s.mem := by
  fun_induction drainQueue <;> simp_all [mem_putFn, mem_postInto]

theorem mem_respReady (p : RegPkt) (s : State) :
    (respReady p s).mem = s.mem := by
  simp [respReady, mem_drainQueue, mem_putFn, mem_ackWrite]

theorem mem_execMoveInfo (m : MsgSrc) (s : State) :
    ∀ rr, execMoveInfo m s = .next rr → (rr).mem = s.mem := by
  intro r h; unfold execMoveInfo at h; grind [mem_checked, mem_serve]

theorem mem_execTopkEntry (fn : Nat) (ring : Nat) (h : HostView) (s : State) :
    ∀ rr, execTopkEntry fn ring h s = .next rr → (rr).mem = s.mem := by
  intro r h; unfold execTopkEntry at h; (repeat' split at h) <;> grind [→ mem_admitRow, mem_startTopk, Option.map_eq_some_iff,
    Option.bind_eq_some_iff]

theorem mem_schedGateLoad (c : Ctx) (s : State) :
    (schedGateLoad c s).2.mem = s.mem := by
  grind [schedGateLoad, mem_checked, mem_putPort, mem_finishTicket]

theorem mem_execTableInfo (m : MsgSrc) (s : State) :
    ∀ rr, execTableInfo m s = .next rr → (rr).mem = s.mem := by
  intro r h; unfold execTableInfo at h; grind [mem_tableInfo, mem_serve]

theorem mem_submitCoarse (e : Nat) (j : GafferJob) (s : State) :
    (submitCoarse e j s).mem = s.mem := by
  grind [submitCoarse, mem_putGaffer]

theorem mem_execCoarseScoring (engine : Nat) (j : Option GafferJob) (err : Option (Nat × Bool)) (s : State) :
    ∀ rr, execCoarseScoring engine j err s = .next rr → (rr).mem = s.mem := by
  intro r h; unfold execCoarseScoring at h; grind [mem_submitCoarse, mem_guarded, mem_gafferRow]

theorem mem_execHashGetSubrequest (ident : Nat) (s : State) :
    ∀ rr, execHashGetSubrequest ident s = .next rr → (rr).mem = s.mem := by
  intro r h; unfold execHashGetSubrequest at h; grind [mem_admitSub, mem_whenReached, mem_serveHash]

theorem mem_finishModel (n : Nat) (s : State) :
    (finishModel n s).mem = s.mem := by
  unfold finishModel; (repeat' split) <;> simp [mem_completeSlot, mem_failSlot]

theorem mem_moveBlock (s : State) (g : Nat) (src : Nat) (dst : Nat) :
    (moveBlock s g src dst).mem = s.mem := by
  simp [moveBlock, mem_putGroup, mem_queueOp, mem_foldl]

theorem mem_wearMove (g : Nat) (s : State) :
    (wearMove g s).mem = s.mem := by
  grind [wearMove, mem_dropActivity, mem_moveBlock, mem_requestGroupActivity]

theorem mem_execWearMove (group : Nat) (s : State) :
    ∀ rr, execWearMove group s = .next rr → (rr).mem = s.mem := by
  intro r h; unfold execWearMove at h; grind [mem_wearMove, mem_when, mem_guarded]

theorem mem_resetSample (s : State) (p : Nat) (cls : Nat) (ws : Nat) :
    (resetSample s p cls ws).mem = s.mem := by
  simp [resetSample, mem_putPort]

theorem mem_ptpSend (s : State) (port : Nat) (kind : Nat) :
    (ptpSend s port kind).mem = s.mem := by
  simp [ptpSend, mem_linkLocal]

theorem mem_execOwnerBeat (ws : Nat) (ident : Nat) (s : State) :
    ∀ rr, execOwnerBeat ws ident s = .next rr → (rr).mem = s.mem := by
  intro r h; unfold execOwnerBeat at h; grind [mem_when, mem_sendBeat]

theorem mem_execFuncDisableDone (fn : Nat) (s : State) :
    ∀ rr, execFuncDisableDone fn s = .next rr → (rr).mem = s.mem := by
  intro r h; unfold execFuncDisableDone at h; grind [mem_when, mem_guarded, mem_disableDone]

theorem mem_execInputHigh (s : State) :
    ∀ rr, execInputHigh s = .next rr → (rr).mem = s.mem := by
  intro r h; unfold execInputHigh at h; grind [mem_when, mem_emit]

theorem mem_fwRevert (s : State) :
    (fwRevert s).mem = s.mem := by
  unfold fwRevert; (repeat' split) <;> simp [mem_emitDev, mem_finishTicket]

theorem mem_takeFrontier (ws : Nat) (key : Nat) (shard : Nat) (value : Nat) (src : Nat) (s : State) :
    (takeFrontier ws key shard value src s).mem = s.mem := by
  unfold takeFrontier; (repeat' split) <;> simp [mem_putIndex, mem_takeInbox]

theorem mem_execTrainingPass (engine : Nat) (j : Option GafferJob) (err : Option (Nat × Bool)) (s : State) :
    ∀ rr, execTrainingPass engine j err s = .next rr → (rr).mem = s.mem := by
  intro r h; unfold execTrainingPass at h; grind [mem_submitJob, mem_guarded, mem_gafferRow]

theorem mem_sweepCopies (s : State) :
    (sweepCopies s).mem = s.mem := by
  unfold sweepCopies; refine mem_foldl _ ?_ _ _; intro a b; (repeat' split) <;> first
    | grind [mem_sendReq]
    | simp [mem_sendReq, mem_foldl]
    | simp_all [mem_sendReq, mem_foldl]

theorem mem_execOrphanSweep (s : State) :
    ∀ rr, execOrphanSweep s = .next rr → (rr).mem = s.mem := by
  intro r h; unfold execOrphanSweep at h; grind [mem_sweepCopies, mem_when]

theorem mem_wsKeyRetire (c : Ctx) (s : State) :
    (wsKeyRetire c s).2.mem = s.mem := by
  simp [wsKeyRetire, mem_checked]

theorem mem_execFrontierMsg (ws : Nat) (key : Nat) (shard : Nat) (frontier : Nat) (src : Nat) (s : State) :
    ∀ rr, execFrontierMsg ws key shard frontier src s = .next rr → (rr).mem = s.mem := by
  intro r h; unfold execFrontierMsg at h; grind [mem_when, mem_takeFrontier]

theorem mem_drainDone (s : State) :
    (drainDone s).mem = s.mem := by
  unfold drainDone; (repeat' split) <;> simp [mem_emitDev, mem_finishAll, mem_sendLease, mem_foldl]

theorem mem_execDrainDone (s : State) :
    ∀ rr, execDrainDone s = .next rr → (rr).mem = s.mem := by
  intro r h; unfold execDrainDone at h; grind [mem_drainDone, mem_when]

theorem mem_execFwConfirm (s : State) :
    ∀ rr, execFwConfirm s = .next rr → (rr).mem = s.mem := by
  intro r h; unfold execFwConfirm at h; grind [mem_when, mem_fwConfirm]

theorem mem_ringCreate (c : Ctx) (s : State) :
    (ringCreate c s).2.mem = s.mem := by
  simp [ringCreate, mem_putRing, mem_checked]

theorem mem_execOpenFibre (port : Nat) (s : State) :
    ∀ rr, execOpenFibre port s = .next rr → (rr).mem = s.mem := by
  intro r h; unfold execOpenFibre at h; grind [mem_openFibre, mem_when, mem_guarded]

theorem mem_execFlashTempRead (temps : List Int) (s : State) :
    ∀ rr, execFlashTempRead temps s = .next rr → (rr).mem = s.mem := by
  intro r h; simp [execFlashTempRead] at h; subst h; simp [mem_readTemp, mem_when, mem_foldl]

theorem mem_execFlashSet (m : MsgSrc) (s : State) :
    ∀ rr, execFlashSet m s = .next rr → (rr).mem = s.mem := by
  intro r h; unfold execFlashSet at h; grind [mem_flashSet, mem_serve]

theorem mem_execBankRefresh (bank : Nat) (s : State) :
    ∀ rr, execBankRefresh bank s = .next rr → (rr).mem = s.mem := by
  intro r h; unfold execBankRefresh at h; grind [mem_when, mem_guarded]

theorem mem_execInputRise (vin : Nat) (s : State) :
    ∀ rr, execInputRise vin s = .next rr → (rr).mem = s.mem := by
  intro r h; unfold execInputRise at h; grind [mem_enterPower, mem_when]

theorem mem_journalPins (s : State) (idx : Nat) (x : Index) (pins : List Nat) :
    (journalPins s idx x pins).2.mem = s.mem := by
  grind [journalPins, mem_putIndex, mem_streamWrite]

theorem mem_indexPin (c : Ctx) (s : State) :
    (indexPin c s).2.mem = s.mem := by
  simp [indexPin, mem_checked, mem_journalPins, mem_withIndex]

theorem mem_execRequestEntry (fn : Nat) (ring : Nat) (h : HostView) (s : State) :
    ∀ rr, execRequestEntry fn ring h s = .next rr → (rr).mem = s.mem := by
  intro r h; unfold execRequestEntry at h; (repeat' split at h) <;> grind [mem_startRequest, → mem_admitRow, Option.map_eq_some_iff,
    Option.bind_eq_some_iff]

theorem mem_dropUngiven (m : Membership) (s : State) :
    (dropUngiven m s).mem = s.mem := by
  unfold dropUngiven; refine mem_foldl _ ?_ _ _; intro a b; (repeat' split) <;> first
    | grind [mem_putIndex, mem_freeCopy]
    | simp [mem_putIndex, mem_freeCopy, mem_foldl]
    | simp_all [mem_putIndex, mem_freeCopy, mem_foldl]

theorem mem_takeGrant (g : Group) (epoch : Nat) (expiry : Nat) (seq : Nat) (s : State) :
    (takeGrant g epoch expiry seq s).mem = s.mem := by
  unfold takeGrant; (repeat' split) <;> simp [mem_emitDev, mem_dropUngiven, mem_putLease]

theorem mem_plainWrite (p : RegPkt) (s : State) :
    (plainWrite p s).mem = s.mem := by
  grind [plainWrite, mem_putRing, mem_putFn, mem_ackWrite]

theorem mem_schedSample (c : Ctx) (s : State) :
    (schedSample c s).2.mem = s.mem := by
  unfold schedSample; (repeat' split) <;> simp [mem_checked, mem_resetSample]

theorem mem_execAlarmNRelease (s : State) :
    ∀ rr, execAlarmNRelease s = .next rr → (rr).mem = s.mem := by
  intro r h; unfold execAlarmNRelease at h; grind [mem_when]

theorem mem_execDevDrain (m : MsgSrc) (s : State) :
    ∀ rr, execDevDrain m s = .next rr → (rr).mem = s.mem := by
  intro r h; unfold execDevDrain at h; grind [mem_serve]

theorem mem_connRestored (s : State) (c : Nat) :
    (connRestored s c).mem = s.mem := by
  unfold connRestored; extract_lets t t1
  rw [mem_emit]
  refine mem_foldl _ ?_ _ _
  intro a b; split
  · exact mem_setPort _ _ _ _
  · rfl

theorem mem_stackRetire (c : Ctx) (s : State) :
    (stackRetire c s).2.mem = s.mem := by
  simp [stackRetire, mem_beginStackRetire, mem_checked]

theorem mem_execStackRetire (m : MsgSrc) (s : State) :
    ∀ rr, execStackRetire m s = .next rr → (rr).mem = s.mem := by
  intro r h; unfold execStackRetire at h; grind [mem_stackRetire, mem_serve]

theorem mem_execGroupSnapshot (ws : Nat) (key : Nat) (shard : Nat) (sn : Snapshot) (s : State) :
    ∀ rr, execGroupSnapshot ws key shard sn s = .next rr → (rr).mem = s.mem := by
  intro r h; unfold execGroupSnapshot at h; grind [mem_joinSnap, mem_when]

theorem mem_execSlotsExhausted (s : State) :
    ∀ rr, execSlotsExhausted s = .next rr → (rr).mem = s.mem := by
  intro r h; unfold execSlotsExhausted at h; grind [mem_when, mem_slotsExhausted]

theorem mem_indexTrain (c : Ctx) (s : State) :
    (indexTrain c s).2.mem = s.mem := by
  simp [indexTrain, mem_checked, mem_putIndex, mem_withIndex]

theorem mem_filterStep (x0 : Nat) (c : MarverCtx) (s : State) :
    (filterStep x0 c s).2.mem = s.mem := by
  unfold filterStep; (repeat' split) <;> simp

theorem mem_execCoarseBatchClose (engine : Nat) (index : Nat) (s : State) :
    ∀ rr, execCoarseBatchClose engine index s = .next rr → (rr).mem = s.mem := by
  intro r h; unfold execCoarseBatchClose at h; grind [mem_when, mem_guarded, mem_putGaffer]

theorem mem_execPpsLost (s : State) :
    ∀ rr, execPpsLost s = .next rr → (rr).mem = s.mem := by
  intro r h; unfold execPpsLost at h; grind [mem_when, mem_emitDev]

theorem mem_ucodeLoad (c : Ctx) (s : State) :
    (ucodeLoad c s).2.mem = s.mem := by
  simp [ucodeLoad, mem_checked, mem_submit]

theorem mem_execFuncEnable (m : MsgSrc) (s : State) :
    ∀ rr, execFuncEnable m s = .next rr → (rr).mem = s.mem := by
  intro r h; unfold execFuncEnable at h; grind [mem_funcEnable, mem_serve]

theorem mem_execGrantMsg (group : Nat) (epoch : Nat) (expiry : Nat) (seq : Nat) (s : State) :
    ∀ rr, execGrantMsg group epoch expiry seq s = .next rr → (rr).mem = s.mem := by
  intro r h; unfold execGrantMsg at h; grind [mem_takeGrant, mem_when, mem_takeInbox]

theorem mem_execFibreConnRestored (cane : Nat) (s : State) :
    ∀ rr, execFibreConnRestored cane s = .next rr → (rr).mem = s.mem := by
  intro r h; unfold execFibreConnRestored at h; grind [mem_when, mem_guarded, mem_connRestored]

theorem mem_lossFlush (s : State) (after : Nat) :
    (lossFlush s after).mem = s.mem := by
  simp [lossFlush, mem_emit, mem_startFlush]

theorem mem_execStatusLinkLost (s : State) :
    ∀ rr, execStatusLinkLost s = .next rr → (rr).mem = s.mem := by
  intro r h; unfold execStatusLinkLost at h; grind [mem_lossFlush, mem_when, mem_emit]

theorem mem_execWsInfo (m : MsgSrc) (s : State) :
    ∀ rr, execWsInfo m s = .next rr → (rr).mem = s.mem := by
  intro r h; unfold execWsInfo at h; grind [mem_serve, mem_wsInfo]

theorem mem_execPowerLoss (s : State) :
    ∀ rr, execPowerLoss s = .next rr → (rr).mem = s.mem := by
  intro r h; unfold execPowerLoss at h; grind [mem_lossFlush, mem_when]

theorem mem_addPoolRow (s : State) (n : Nat) (t : Table) (row : Nat) (rec_ : List Byte) :
    (addPoolRow s n t row rec_).mem = s.mem := by
  simp [addPoolRow, mem_modSlot]

theorem mem_poolArrived (r : PoolRead) (tagOk : Bool) (rec_ : List Byte) (s : State) :
    (poolArrived r tagOk rec_ s).mem = s.mem := by
  grind [poolArrived, mem_finishGather, mem_readPoolRow, mem_addPoolRow, mem_failPool]

theorem mem_sqBell (p : RegPkt) (s : State) :
    (sqBell p s).mem = s.mem := by
  grind [sqBell, mem_putRing, mem_badDoorbell, mem_ackWrite]

theorem mem_execSqPiDoorbell (p : RegPkt) (s : State) :
    ∀ rr, execSqPiDoorbell p s = .next rr → (rr).mem = s.mem := by
  intro r h; unfold execSqPiDoorbell at h; grind [mem_sqBell, mem_when]

theorem mem_execFabPeers (m : MsgSrc) (s : State) :
    ∀ rr, execFabPeers m s = .next rr → (rr).mem = s.mem := by
  intro r h; unfold execFabPeers at h; grind [mem_serve]

theorem mem_wavelengthFail (s : State) (p : Nat) (w : Nat) :
    (wavelengthFail s p w).mem = s.mem := by
  grind [wavelengthFail, mem_score, mem_checkLanes, mem_putPort, mem_emit]

theorem mem_doProbe (chan : Nat) (probes : List (Option TargetProbe)) (s : State) :
    (doProbe chan probes s).mem = s.mem := by
  grind [doProbe, mem_putGroup, mem_probeChannel, mem_startMount]

theorem mem_execFlashTargetProbe (chan : Nat) (probes : List (Option TargetProbe)) (s : State) :
    ∀ rr, execFlashTargetProbe chan probes s = .next rr → (rr).mem = s.mem := by
  intro r h; unfold execFlashTargetProbe at h; grind [mem_doProbe, mem_when, mem_guarded]

theorem mem_execWsKeyRetire (m : MsgSrc) (s : State) :
    ∀ rr, execWsKeyRetire m s = .next rr → (rr).mem = s.mem := by
  intro r h; unfold execWsKeyRetire at h; grind [mem_wsKeyRetire, mem_serve]

theorem mem_dropIndexes (s : State) (ws : Nat) :
    (dropIndexes s ws).mem = s.mem := by
  simp [dropIndexes, mem_settleIndex, mem_putTable, mem_dropIndex, mem_settleTable, mem_foldl]

theorem mem_attnCbUnload (c : Ctx) (s : State) :
    (attnCbUnload c s).2.mem = s.mem := by
  grind [attnCbUnload, mem_putBook, mem_refuse]

theorem mem_execAttnCbUnload (m : MsgSrc) (s : State) :
    ∀ rr, execAttnCbUnload m s = .next rr → (rr).mem = s.mem := by
  intro r h; unfold execAttnCbUnload at h; grind [mem_attnCbUnload, mem_serve]

theorem mem_takePool (s : State) (txn : Nat) :
    (takePool s txn).mem = s.mem := by
  unfold takePool; (repeat' split) <;> simp [mem_takeMsg]

theorem mem_execPoolResp (txn : Nat) (tagOk : Bool) (rec : List Byte) (s : State) :
    ∀ rr, execPoolResp txn tagOk rec s = .next rr → (rr).mem = s.mem := by
  intro r h; unfold execPoolResp at h; grind [mem_poolArrived, mem_pumpPools, mem_when, mem_takePool]

theorem mem_execHotRowChunk (engine : Nat) (j : Option GafferJob) (err : Option (Nat × Bool)) (s : State) :
    ∀ rr, execHotRowChunk engine j err s = .next rr → (rr).mem = s.mem := by
  intro r h; unfold execHotRowChunk at h; grind [mem_submitJob, mem_guarded, mem_gafferRow]

theorem mem_execEvrInfo (m : MsgSrc) (s : State) :
    ∀ rr, execEvrInfo m s = .next rr → (rr).mem = s.mem := by
  intro r h; unfold execEvrInfo at h; grind [mem_serve]

theorem mem_execFlashCarrierOffline (m : MsgSrc) (s : State) :
    ∀ rr, execFlashCarrierOffline m s = .next rr → (rr).mem = s.mem := by
  intro r h; unfold execFlashCarrierOffline at h; grind [mem_carrierOffline, mem_serve]

theorem mem_execIndexPin (m : MsgSrc) (s : State) :
    ∀ rr, execIndexPin m s = .next rr → (rr).mem = s.mem := by
  intro r h; unfold execIndexPin at h; grind [mem_serve, mem_indexPin]

theorem mem_takeHandoff (c : ReqCopy) (p : Packet) (s : State) :
    (takeHandoff c p s).mem = s.mem := by
  grind [takeHandoff, mem_putReqCopy, mem_sendReq, mem_takeMsg]

theorem mem_maintCancel (c : Ctx) (s : State) :
    (maintCancel c s).2.mem = s.mem := by
  unfold maintCancel; (repeat' split) <;> simp [mem_checked, mem_stopActivity, mem_refuse]

theorem mem_execMaintCancel (m : MsgSrc) (s : State) :
    ∀ rr, execMaintCancel m s = .next rr → (rr).mem = s.mem := by
  intro r h; unfold execMaintCancel at h; grind [mem_maintCancel, mem_serve]

theorem mem_execDevLayout (m : MsgSrc) (s : State) :
    ∀ rr, execDevLayout m s = .next rr → (rr).mem = s.mem := by
  intro r h; unfold execDevLayout at h; grind [mem_serve]

theorem mem_lightAt (s : State) (p : Nat) :
    (lightAt s p).mem = s.mem := by
  unfold lightAt; dsimp only; split
  · exact mem_putPort _ _ _
  · split
    · exact mem_setPort _ _ _ _
    · rfl

theorem mem_execHealthSet (m : MsgSrc) (s : State) :
    ∀ rr, execHealthSet m s = .next rr → (rr).mem = s.mem := by
  intro r h; unfold execHealthSet at h; grind [mem_healthSet, mem_serve]

theorem mem_replaceMember (setId : Nat) (index : Nat) (member : Nat) (s : State) :
    (replaceMember setId index member s).mem = s.mem := by
  grind [replaceMember, mem_selfStore]

theorem mem_execStripeMemberTimeout (setId : Nat) (index : Nat) (member : Nat) (s : State) :
    ∀ rr, execStripeMemberTimeout setId index member s = .next rr → (rr).mem = s.mem := by
  intro r h; unfold execStripeMemberTimeout at h; grind [mem_when, mem_replaceMember]

theorem mem_execRefRestored (s : State) :
    ∀ rr, execRefRestored s = .next rr → (rr).mem = s.mem := by
  intro r h; unfold execRefRestored at h; grind [mem_when, mem_emitDev]

theorem mem_execAnnealFlush (ws : Nat) (key : Nat) (s : State) :
    ∀ rr, execAnnealFlush ws key s = .next rr → (rr).mem = s.mem := by
  intro r h; unfold execAnnealFlush at h; grind [mem_annealFlush, mem_when]

theorem mem_execHashDelete (fn : Nat) (ring : Nat) (h : HostView) (s : State) :
    ∀ rr, execHashDelete fn ring h s = .next rr → (rr).mem = s.mem := by
  intro r h; unfold execHashDelete at h; (repeat' split at h) <;> grind [→ mem_admitRow, mem_startHashChange, Option.map_eq_some_iff,
    Option.bind_eq_some_iff]

theorem mem_execMbxRespReady (p : RegPkt) (s : State) :
    ∀ rr, execMbxRespReady p s = .next rr → (rr).mem = s.mem := by
  intro r h; unfold execMbxRespReady at h; grind [mem_when, mem_respReady]

theorem mem_thermalDutyStep (s : State) :
    (thermalDutyStep s).mem = s.mem := by
  grind [thermalDutyStep, mem_emitDev]

theorem mem_execThermalDutyStep (s : State) :
    ∀ rr, execThermalDutyStep s = .next rr → (rr).mem = s.mem := by
  intro r h; unfold execThermalDutyStep at h; grind [mem_when, mem_thermalDutyStep]

theorem mem_wsSetQuota (c : Ctx) (s : State) :
    (wsSetQuota c s).2.mem = s.mem := by
  simp [wsSetQuota, mem_checked, mem_putWs]

theorem mem_execWsSetQuota (m : MsgSrc) (s : State) :
    ∀ rr, execWsSetQuota m s = .next rr → (rr).mem = s.mem := by
  intro r h; unfold execWsSetQuota at h; grind [mem_serve, mem_wsSetQuota]

theorem mem_publishLow (idx : Nat) (x : Index) (s : State) :
    (publishLow idx x s).mem = s.mem := by
  simp [publishLow, mem_putIndex, mem_tellGroup]

theorem mem_execReqCancel (m : MsgSrc) (s : State) :
    ∀ rr, execReqCancel m s = .next rr → (rr).mem = s.mem := by
  intro r h; unfold execReqCancel at h; grind [mem_serve, mem_reqCancel]

theorem mem_queueCommand (u : Nat) (c : MarverCmd) (s : State) :
    (queueCommand u c s).mem = s.mem := by
  grind [queueCommand, mem_putUnit]

theorem mem_execMarverCommandStart (unit : Nat) (c : Option MarverCmd) (s : State) :
    ∀ rr, execMarverCommandStart unit c s = .next rr → (rr).mem = s.mem := by
  intro r h; unfold execMarverCommandStart at h; grind [mem_when, mem_queueCommand, mem_guarded, mem_startHead]

theorem mem_execRegisterWrite (p : RegPkt) (s : State) :
    ∀ rr, execRegisterWrite p s = .next rr → (rr).mem = s.mem := by
  intro r h; unfold execRegisterWrite at h; grind [mem_when, mem_plainWrite]

theorem mem_execDevEcho (m : MsgSrc) (s : State) :
    ∀ rr, execDevEcho m s = .next rr → (rr).mem = s.mem := by
  intro r h; unfold execDevEcho at h; grind [mem_serve]

theorem mem_execGuardIntervalEnd (s : State) :
    ∀ rr, execGuardIntervalEnd s = .next rr → (rr).mem = s.mem := by
  intro r h; unfold execGuardIntervalEnd at h; grind [mem_guardEnd, mem_when]

theorem mem_cursorWrite (p : RegPkt) (s : State) :
    (cursorWrite p s).mem = s.mem := by
  simp [cursorWrite, mem_ackWrite]

theorem mem_execEvwCursorWrite (p : RegPkt) (s : State) :
    ∀ rr, execEvwCursorWrite p s = .next rr → (rr).mem = s.mem := by
  intro r h; unfold execEvwCursorWrite at h; grind [mem_cursorWrite, mem_when]

theorem mem_enterLocked (s : State) :
    (enterLocked s).mem = s.mem := by
  simp [enterLocked, mem_emitDev]

theorem mem_execRingCreate (m : MsgSrc) (s : State) :
    ∀ rr, execRingCreate m s = .next rr → (rr).mem = s.mem := by
  intro r h; unfold execRingCreate at h; grind [mem_ringCreate, mem_serve]

theorem mem_firstLock (s : State) (m : PtpMsg) :
    (firstLock s m).mem = s.mem := by
  simp [firstLock]

theorem mem_maintStart (c : Ctx) (s : State) :
    (maintStart c s).2.mem = s.mem := by
  simp [maintStart, mem_checked, mem_submit]

theorem mem_ticketInfo (c : Ctx) (s : State) :
    (ticketInfo c s).2.mem = s.mem := by
  unfold ticketInfo; (repeat' split) <;> simp [mem_refuse]

theorem mem_startInsert (b : Src) (n : Nat) (s : State) :
    (startInsert b n s).mem = s.mem := by
  grind [startInsert, mem_failSlot, mem_startChange]

theorem mem_execInsertEntry (fn : Nat) (ring : Nat) (h : HostView) (s : State) :
    ∀ rr, execInsertEntry fn ring h s = .next rr → (rr).mem = s.mem := by
  intro r h; unfold execInsertEntry at h; (repeat' split at h) <;> grind [→ mem_admitRow, mem_startInsert, Option.map_eq_some_iff,
    Option.bind_eq_some_iff]

theorem mem_execTableCreate (m : MsgSrc) (s : State) :
    ∀ rr, execTableCreate m s = .next rr → (rr).mem = s.mem := by
  intro r h; unfold execTableCreate at h; grind [mem_tableCreate, mem_serve]

theorem mem_servoStep (s : State) (o : Int) :
    (servoStep s o).mem = s.mem := by
  grind [servoStep, mem_enterLocked, mem_enterUnlocked]

theorem mem_timeMsg (s : State) (port : Nat) (m : PtpMsg) :
    (timeMsg s port m).mem = s.mem := by
  unfold timeMsg; (repeat' split) <;> simp [mem_takeMaster, mem_firstLock, mem_putPort, mem_servoStep, mem_setRate]

theorem mem_indexExport (c : Ctx) (s : State) :
    (indexExport c s).2.mem = s.mem := by
  simp [indexExport, mem_checked, mem_withIndex]

theorem mem_wsDestroy (c : Ctx) (s : State) :
    (wsDestroy c s).2.mem = s.mem := by
  simp [wsDestroy, mem_checked, mem_putWs]

theorem mem_execWsDestroy (m : MsgSrc) (s : State) :
    ∀ rr, execWsDestroy m s = .next rr → (rr).mem = s.mem := by
  intro r h; unfold execWsDestroy at h; grind [mem_serve, mem_wsDestroy]

theorem mem_execCommitted (ws : Nat) (key : Nat) (v : Nat) (u : Nat) (s : State) :
    ∀ rr, execCommitted ws key v u s = .next rr → (rr).mem = s.mem := by
  intro r h; unfold execCommitted at h; grind [mem_when, mem_takeCommitted]

theorem mem_execPoolReadTimeout (txn : Nat) (s : State) :
    ∀ rr, execPoolReadTimeout txn s = .next rr → (rr).mem = s.mem := by
  intro r h; unfold execPoolReadTimeout at h; grind [mem_pumpPools, mem_when, mem_failPool]

theorem mem_execIndexTrain (m : MsgSrc) (s : State) :
    ∀ rr, execIndexTrain m s = .next rr → (rr).mem = s.mem := by
  intro r h; unfold execIndexTrain at h; grind [mem_indexTrain, mem_serve]

theorem mem_execDevIdentity (m : MsgSrc) (s : State) :
    ∀ rr, execDevIdentity m s = .next rr → (rr).mem = s.mem := by
  intro r h; unfold execDevIdentity at h; grind [mem_serve]

theorem mem_strapSample (mv : List (List Nat)) (s : State) :
    (strapSample mv s).mem = s.mem := by
  grind [strapSample, mem_stopWith]

theorem mem_execTripRestart (s : State) :
    ∀ rr, execTripRestart s = .next rr → (rr).mem = s.mem := by
  intro r h; unfold execTripRestart at h; grind [mem_when]

theorem mem_resendHeld (s : State) (h : Held) :
    (resendHeld s h).mem = s.mem := by
  unfold resendHeld; (repeat' split) <;> simp [mem_sendPacket, mem_requeue, mem_unreachable, mem_foldl]

theorem mem_execQueueSample (port : Nat) (s : State) :
    ∀ rr, execQueueSample port s = .next rr → (rr).mem = s.mem := by
  intro r h; unfold execQueueSample at h; grind [mem_sampleQueues, mem_when, mem_guarded]

theorem mem_gateChange (s : State) (p : Nat) :
    (gateChange s p).mem = s.mem := by
  simp [gateChange, mem_putPort]

theorem mem_stackHot (s : State) (i : Nat) (temp : Int) :
    (stackHot s i temp).mem = s.mem := by
  grind [stackHot, mem_emit]

theorem mem_thermalSample (hub : Int) (stk : List Int) (cane : List Int) (fh : List Int) (s : State) :
    (thermalSample hub stk cane fh s).mem = s.mem := by
  simp [thermalSample, mem_stackHot, mem_foldl]

theorem mem_execTableSwitch (m : MsgSrc) (s : State) :
    ∀ rr, execTableSwitch m s = .next rr → (rr).mem = s.mem := by
  intro r h; unfold execTableSwitch at h; grind [mem_tableSwitch, mem_serve]

theorem mem_execProbeReturn (port : Nat) (s : State) :
    ∀ rr, execProbeReturn port s = .next rr → (rr).mem = s.mem := by
  intro r h; unfold execProbeReturn at h; grind [mem_when, mem_guarded, mem_setPort]

theorem mem_noticeCopy (idx : Nat) (s : State) (p : Bool × Copy) :
    (noticeCopy idx s p).mem = s.mem := by
  unfold noticeCopy; (repeat' split) <;> simp [mem_sendMsg, mem_putCopy]

theorem mem_imageDelete (c : Ctx) (s : State) :
    (imageDelete c s).2.mem = s.mem := by
  grind [imageDelete, mem_checked, mem_eraseSession, mem_putSession, mem_refuse]

theorem mem_execTc7Resend (dst : Nat) (vc : Nat) (seq : Nat) (s : State) :
    ∀ rr, execTc7Resend dst vc seq s = .next rr → (rr).mem = s.mem := by
  intro r h; unfold execTc7Resend at h; grind [mem_resendHeld, mem_when]

theorem mem_execJackPass (unit : Nat) (ctx : Nat) (bind : Option JackCtx) (s : State) :
    ∀ rr, execJackPass unit ctx bind s = .next rr → (rr).mem = s.mem := by
  intro r h; unfold execJackPass at h; grind [mem_bindJack, mem_when, mem_guarded, mem_passJack]

theorem mem_execCarrierRemoved (group : Nat) (s : State) :
    ∀ rr, execCarrierRemoved group s = .next rr → (rr).mem = s.mem := by
  intro r h; unfold execCarrierRemoved at h; grind [mem_when, mem_guarded, mem_carrierRemoved]

theorem mem_execThermalReport (s : State) :
    ∀ rr, execThermalReport s = .next rr → (rr).mem = s.mem := by
  intro r h; unfold execThermalReport at h; grind [mem_when, mem_thermalReport]

theorem mem_execPtpTime (port : Nat) (msg : PtpMsg) (s : State) :
    ∀ rr, execPtpTime port msg s = .next rr → (rr).mem = s.mem := by
  intro r h; unfold execPtpTime at h; grind [mem_when, mem_guarded, mem_timeMsg]

theorem mem_execPpsOutputEdge (s : State) :
    ∀ rr, execPpsOutputEdge s = .next rr → (rr).mem = s.mem := by
  intro r h; unfold execPpsOutputEdge at h; grind [mem_when]

theorem mem_execGateEntryChange (port : Nat) (s : State) :
    ∀ rr, execGateEntryChange port s = .next rr → (rr).mem = s.mem := by
  intro r h; unfold execGateEntryChange at h; grind [mem_gateChange, mem_when, mem_guarded]

theorem mem_sendProbe (ws : Nat) (ident : Nat) (s : State) :
    (sendProbe ws ident s).mem = s.mem := by
  unfold sendProbe; (repeat' split) <;> simp [mem_sendReq, mem_modStub]

theorem mem_execProbeMsg (ws : Nat) (ident : Nat) (s : State) :
    ∀ rr, execProbeMsg ws ident s = .next rr → (rr).mem = s.mem := by
  intro r h; unfold execProbeMsg at h; grind [mem_sendProbe, mem_when]

theorem mem_indexUnpin (c : Ctx) (s : State) :
    (indexUnpin c s).2.mem = s.mem := by
  grind [indexUnpin, mem_checked, mem_journalPins, mem_putIndex, mem_withIndex]

theorem mem_execImageDelete (m : MsgSrc) (s : State) :
    ∀ rr, execImageDelete m s = .next rr → (rr).mem = s.mem := by
  intro r h; unfold execImageDelete at h; grind [mem_serve, mem_imageDelete]

theorem mem_execStrapSample (mv : List (List Nat)) (s : State) :
    ∀ rr, execStrapSample mv s = .next rr → (rr).mem = s.mem := by
  intro r h; unfold execStrapSample at h; grind [mem_when, mem_guarded, mem_strapSample]

theorem mem_execStripeUnitDurable (setId : Nat) (index : Nat) (member : Nat) (s : State) :
    ∀ rr, execStripeUnitDurable setId index member s = .next rr → (rr).mem = s.mem := by
  intro r h; unfold execStripeUnitDurable at h; grind [mem_markDurable, mem_when]

theorem mem_helloTimeout (s : State) (p : Nat) :
    (helloTimeout s p).mem = s.mem := by
  simp [helloTimeout, mem_retrainPort, mem_putPort]

theorem mem_execFlowIdle (dst : Nat) (vc : Nat) (s : State) :
    ∀ rr, execFlowIdle dst vc s = .next rr → (rr).mem = s.mem := by
  intro r h; unfold execFlowIdle at h; grind [mem_putFlow, mem_when]

theorem mem_execThermalSample (hub : Int) (stk : List Int) (cane : List Int) (fh : List Int) (s : State) :
    ∀ rr, execThermalSample hub stk cane fh s = .next rr → (rr).mem = s.mem := by
  intro r h; unfold execThermalSample at h; grind [mem_when, mem_guarded, mem_thermalSample]

theorem mem_execInsertEncoding (engine : Nat) (j : Option GafferJob) (err : Option (Nat × Bool)) (s : State) :
    ∀ rr, execInsertEncoding engine j err s = .next rr → (rr).mem = s.mem := by
  intro r h; unfold execInsertEncoding at h; grind [mem_submitJob, mem_guarded, mem_gafferRow]

theorem mem_execIndexUnpin (m : MsgSrc) (s : State) :
    ∀ rr, execIndexUnpin m s = .next rr → (rr).mem = s.mem := by
  intro r h; unfold execIndexUnpin at h; grind [mem_indexUnpin, mem_serve]

theorem mem_execFwActivate (m : MsgSrc) (s : State) :
    ∀ rr, execFwActivate m s = .next rr → (rr).mem = s.mem := by
  intro r h; unfold execFwActivate at h; grind [mem_fwActivate, mem_serve]

theorem mem_execPowerDutyRise (s : State) :
    ∀ rr, execPowerDutyRise s = .next rr → (rr).mem = s.mem := by
  intro r h; unfold execPowerDutyRise at h; grind [mem_when]

theorem mem_takeOutput (n : Nat) (s : State) :
    (takeOutput n s).mem = s.mem := by
  unfold takeOutput; (repeat' split) <;> simp [mem_putSlot, mem_putGaffer]

theorem mem_setWork (s : State) (t : TicketRef) (g : Work → Work) :
    (setWork s t g).mem = s.mem := by
  simp [setWork, mem_putFn]

theorem mem_execMaintStatus (m : MsgSrc) (s : State) :
    ∀ rr, execMaintStatus m s = .next rr → (rr).mem = s.mem := by
  intro r h; unfold execMaintStatus at h; grind [mem_checked, mem_serve]

theorem mem_execFrontierNotice (index : Nat) (s : State) :
    ∀ rr, execFrontierNotice index s = .next rr → (rr).mem = s.mem := by
  intro r h; simp only [execFrontierNotice] at h; (repeat' split at h) <;> first | (simp at h; done) | (simp at h; subst h; simp [mem_when, mem_noticeCopy, mem_foldl])

theorem mem_execSessionInfo (m : MsgSrc) (s : State) :
    ∀ rr, execSessionInfo m s = .next rr → (rr).mem = s.mem := by
  intro r h; unfold execSessionInfo at h; grind [mem_sessionInfo, mem_serve]

theorem mem_dropSessions (s : State) (ws : Nat) :
    (dropSessions s ws).mem = s.mem := by
  unfold dropSessions; refine mem_foldl _ ?_ _ _; intro a b; (repeat' split) <;> first
    | grind [mem_tellSession, mem_releaseSession, mem_finishAll, mem_eraseSession]
    | simp [mem_tellSession, mem_releaseSession, mem_finishAll, mem_eraseSession, mem_foldl]
    | simp_all [mem_tellSession, mem_releaseSession, mem_finishAll, mem_eraseSession, mem_foldl]

theorem mem_dropPrograms (s : State) (ws : Nat) :
    (dropPrograms s ws).mem = s.mem := by
  simp [dropPrograms, mem_putBook, mem_settleBook, mem_putProgram, mem_settleProgram, mem_foldl]

theorem mem_execLightReceived (port : Nat) (s : State) :
    ∀ rr, execLightReceived port s = .next rr → (rr).mem = s.mem := by
  intro r h; unfold execLightReceived at h; grind [mem_lightAt, mem_when, mem_guarded]

theorem mem_execIndexExport (m : MsgSrc) (s : State) :
    ∀ rr, execIndexExport m s = .next rr → (rr).mem = s.mem := by
  intro r h; unfold execIndexExport at h; grind [mem_indexExport, mem_serve]

theorem mem_completeChange (index : Nat) (shard : Nat) (epoch : Nat) (acked : Bool) (s : State) :
    (completeChange index shard epoch acked s).mem = s.mem := by
  grind [completeChange, mem_putCopy, mem_answerChange]

theorem mem_execWavelengthFail (port : Nat) (wl : Nat) (s : State) :
    ∀ rr, execWavelengthFail port wl s = .next rr → (rr).mem = s.mem := by
  intro r h; unfold execWavelengthFail at h; grind [mem_when, mem_guarded, mem_wavelengthFail]

theorem mem_fabPortInfo (c : Ctx) (s : State) :
    (fabPortInfo c s).2.mem = s.mem := by
  simp [fabPortInfo, mem_checked]

theorem mem_execFabPortInfo (m : MsgSrc) (s : State) :
    ∀ rr, execFabPortInfo m s = .next rr → (rr).mem = s.mem := by
  intro r h; unfold execFabPortInfo at h; grind [mem_serve, mem_fabPortInfo]

theorem mem_execRefLost (s : State) :
    ∀ rr, execRefLost s = .next rr → (rr).mem = s.mem := by
  intro r h; unfold execRefLost at h; grind [mem_stopWith, mem_when, mem_emitDev]

theorem mem_execClaimMsg (ws : Nat) (ident : Nat) (copies : List (Nat × ReqCopy)) (s : State) :
    ∀ rr, execClaimMsg ws ident copies s = .next rr → (rr).mem = s.mem := by
  intro r h; unfold execClaimMsg at h; grind [mem_when, mem_makeClaim]

theorem mem_tableSeal (c : Ctx) (s : State) :
    (tableSeal c s).2.mem = s.mem := by
  grind [tableSeal, mem_modVersion, mem_withVersion, mem_refuse]

theorem mem_execTableSeal (m : MsgSrc) (s : State) :
    ∀ rr, execTableSeal m s = .next rr → (rr).mem = s.mem := by
  intro r h; unfold execTableSeal at h; grind [mem_tableSeal, mem_serve]

theorem mem_fecSeen (s : State) (p corrected uncorrectable : Nat) :
    (fecSeen s p corrected uncorrectable).mem = s.mem := by
  unfold fecSeen; grind [mem_score, mem_putPort]

theorem mem_frameArrives (s : State) (p corrected uncorrectable : Nat) (f : List Byte) :
    (frameArrives s p corrected uncorrectable f).mem = s.mem := by
  grind [frameArrives, mem_fecSeen, mem_dataFrame]

theorem mem_execDataFrame (port corrected uncorrectable : Nat) (f : List Byte) (s : State) :
    ∀ rr, execDataFrame port corrected uncorrectable f s = .next rr → (rr).mem = s.mem := by
  intro r h; unfold execDataFrame at h; grind [mem_when, mem_guarded, mem_frameArrives]

theorem mem_execPowerOnResetRelease (s : State) :
    ∀ rr, execPowerOnResetRelease s = .next rr → (rr).mem = s.mem := by
  intro r h; unfold execPowerOnResetRelease at h; grind [mem_when, mem_enterStrap]

theorem mem_lehrAdmit (ident : Nat) (s : State) :
    (lehrAdmit ident s).mem = s.mem := by
  unfold lehrAdmit; (repeat' split) <;> simp [mem_dropActivity, mem_recalBegin]

theorem mem_execLehrAdmit (ident : Nat) (s : State) :
    ∀ rr, execLehrAdmit ident s = .next rr → (rr).mem = s.mem := by
  intro r h; unfold execLehrAdmit at h; grind [mem_when, mem_lehrAdmit]

theorem mem_execEvrClear (m : MsgSrc) (s : State) :
    ∀ rr, execEvrClear m s = .next rr → (rr).mem = s.mem := by
  intro r h; unfold execEvrClear at h; grind [mem_evrClear, mem_serve]

theorem mem_memRead (s : State) (p : Packet) :
    (memRead s p).mem = s.mem := by
  grind [memRead, mem_takeMsg, mem_sendTxn, mem_refuseAccess]

theorem mem_execHelloMsg (port : Nat) (msg : List Byte) (s : State) :
    ∀ rr, execHelloMsg port msg s = .next rr → (rr).mem = s.mem := by
  intro r h; unfold execHelloMsg at h; grind [mem_helloAt, mem_when, mem_guarded]

theorem mem_execSchedGateLoad (m : MsgSrc) (s : State) :
    ∀ rr, execSchedGateLoad m s = .next rr → (rr).mem = s.mem := by
  intro r h; unfold execSchedGateLoad at h; grind [mem_serve, mem_schedGateLoad]

theorem mem_execLowEpochPublish (index : Nat) (s : State) :
    ∀ rr, execLowEpochPublish index s = .next rr → (rr).mem = s.mem := by
  intro r h; unfold execLowEpochPublish at h; grind [mem_when, mem_publishLow]

theorem mem_execTimeInfo (m : MsgSrc) (s : State) :
    ∀ rr, execTimeInfo m s = .next rr → (rr).mem = s.mem := by
  intro r h; unfold execTimeInfo at h; grind [mem_serve]

theorem mem_execChangeComplete (index : Nat) (shard : Nat) (epoch : Nat) (acked : Bool) (s : State) :
    ∀ rr, execChangeComplete index shard epoch acked s = .next rr → (rr).mem = s.mem := by
  intro r h; unfold execChangeComplete at h; grind [mem_when, mem_guarded, mem_completeChange]

theorem mem_execRefineSubrequest (ident : Nat) (s : State) :
    ∀ rr, execRefineSubrequest ident s = .next rr → (rr).mem = s.mem := by
  intro r h; unfold execRefineSubrequest at h; grind [mem_admitSub, mem_whenReached, mem_serveRefine]

theorem mem_execHandoff (c : ReqCopy) (s : State) :
    ∀ rr, execHandoff c s = .next rr → (rr).mem = s.mem := by
  intro r h; unfold execHandoff at h; grind [mem_when, mem_takeHandoff]

theorem mem_execRefinement (engine : Nat) (j : Option GafferJob) (err : Option (Nat × Bool)) (s : State) :
    ∀ rr, execRefinement engine j err s = .next rr → (rr).mem = s.mem := by
  intro r h; unfold execRefinement at h; grind [mem_submitJob, mem_guarded, mem_gafferRow]

theorem mem_guardSet (c : Ctx) (s : State) :
    (guardSet c s).2.mem = s.mem := by
  simp [guardSet, mem_checked]

theorem mem_execMaintStart (m : MsgSrc) (s : State) :
    ∀ rr, execMaintStart m s = .next rr → (rr).mem = s.mem := by
  intro r h; unfold execMaintStart at h; grind [mem_maintStart, mem_serve]

theorem mem_execScoreDecay (s : State) :
    ∀ rr, execScoreDecay s = .next rr → (rr).mem = s.mem := by
  intro r h; unfold execScoreDecay at h; grind [mem_when]

theorem mem_execHandoffAck (ws : Nat) (ident : Nat) (epoch : Nat) (heldNone : Bool) (s : State) :
    ∀ rr, execHandoffAck ws ident epoch heldNone s = .next rr → (rr).mem = s.mem := by
  intro r h; unfold execHandoffAck at h; grind [mem_takeHandoffAck, mem_when, mem_takeMsg]

theorem mem_moveClose (c : Ctx) (s : State) :
    (moveClose c s).2.mem = s.mem := by
  simp [moveClose, mem_checked, mem_closeChannel]

theorem mem_execTicketInfo (m : MsgSrc) (s : State) :
    ∀ rr, execTicketInfo m s = .next rr → (rr).mem = s.mem := by
  intro r h; unfold execTicketInfo at h; grind [mem_ticketInfo, mem_serve]

theorem mem_execStripeForm (stream : Nat) (fold : Bool) (s : State) :
    ∀ rr, execStripeForm stream fold s = .next rr → (rr).mem = s.mem := by
  intro r h; unfold execStripeForm at h; grind [mem_when, mem_stripeForm]

theorem mem_reclaim (g : Nat) (s : State) :
    (reclaim g s).mem = s.mem := by
  simp [reclaim, mem_putGroup, mem_reclaimRound]

theorem mem_execReclaim (group : Nat) (s : State) :
    ∀ rr, execReclaim group s = .next rr → (rr).mem = s.mem := by
  intro r h; unfold execReclaim at h; grind [mem_reclaim, mem_when, mem_guarded]

theorem mem_linkStateRow (s : State) (src : Nat) (ls : List LinkEntry) :
    (linkStateRow s src ls).mem = s.mem := by
  simp [linkStateRow, mem_takeInbox]

theorem mem_execLinkState (src : Nat) (ls : List LinkEntry) (s : State) :
    ∀ rr, execLinkState src ls s = .next rr → (rr).mem = s.mem := by
  intro r h; unfold execLinkState at h; grind [mem_when, mem_linkStateRow]

theorem mem_execUcodeLoad (m : MsgSrc) (s : State) :
    ∀ rr, execUcodeLoad m s = .next rr → (rr).mem = s.mem := by
  intro r h; unfold execUcodeLoad at h; grind [mem_ucodeLoad, mem_serve]

theorem mem_annealManifest (ws : Nat) (key : Nat) (locator : List Byte) (s : State) :
    (annealManifest ws key locator s).mem = s.mem := by
  unfold annealManifest; (repeat' split) <;> simp [mem_submit, mem_putSession]

theorem mem_execMemRead (p : Packet) (s : State) :
    ∀ rr, execMemRead p s = .next rr → (rr).mem = s.mem := by
  intro r h; unfold execMemRead at h; grind [mem_when, mem_memRead]

theorem mem_execMoveOpen (m : MsgSrc) (s : State) :
    ∀ rr, execMoveOpen m s = .next rr → (rr).mem = s.mem := by
  intro r h; unfold execMoveOpen at h; grind [mem_moveOpen, mem_serve]

theorem mem_execPtpSendTimer (port : Nat) (kind : Nat) (s : State) :
    ∀ rr, execPtpSendTimer port kind s = .next rr → (rr).mem = s.mem := by
  intro r h; unfold execPtpSendTimer at h; grind [mem_ptpSend, mem_when, mem_guarded]

theorem mem_execRenewSend (group : Nat) (s : State) :
    ∀ rr, execRenewSend group s = .next rr → (rr).mem = s.mem := by
  intro r h; unfold execRenewSend at h; grind [mem_sendRenew, mem_when]

theorem mem_execHelloTimeout (port : Nat) (s : State) :
    ∀ rr, execHelloTimeout port s = .next rr → (rr).mem = s.mem := by
  intro r h; unfold execHelloTimeout at h; grind [mem_when, mem_guarded, mem_helloTimeout]

theorem mem_execAnnealManifest (ws : Nat) (key : Nat) (locator : List Byte) (s : State) :
    ∀ rr, execAnnealManifest ws key locator s = .next rr → (rr).mem = s.mem := by
  intro r h; unfold execAnnealManifest at h; grind [mem_annealManifest, mem_when]

theorem mem_execGuardSet (m : MsgSrc) (s : State) :
    ∀ rr, execGuardSet m s = .next rr → (rr).mem = s.mem := by
  intro r h; unfold execGuardSet at h; grind [mem_serve, mem_guardSet]

theorem mem_execStopLine (s : State) :
    ∀ rr, execStopLine s = .next rr → (rr).mem = s.mem := by
  intro r h; unfold execStopLine at h; grind [mem_when, mem_sendStopLine]

theorem mem_execFlashOperation (chan : Nat) (target : Nat) (o : FlashOutcome) (s : State) :
    ∀ rr, execFlashOperation chan target o s = .next rr → (rr).mem = s.mem := by
  intro r h; unfold execFlashOperation at h; grind [mem_when, mem_guarded, mem_flashOperation]

theorem mem_execWindowBadAccess (p : RegPkt) (isWrite : Bool) (s : State) :
    ∀ rr, execWindowBadAccess p isWrite s = .next rr → (rr).mem = s.mem := by
  intro r h; unfold execWindowBadAccess at h; grind [mem_when, mem_badAccess]

theorem mem_execFwActivateReverted (s : State) :
    ∀ rr, execFwActivateReverted s = .next rr → (rr).mem = s.mem := by
  intro r h; unfold execFwActivateReverted at h; grind [mem_when, mem_fwRevert]

theorem mem_execMoveClose (m : MsgSrc) (s : State) :
    ∀ rr, execMoveClose m s = .next rr → (rr).mem = s.mem := by
  intro r h; unfold execMoveClose at h; grind [mem_moveClose, mem_serve]

theorem mem_execSlotReply (slot : Nat) (s : State) :
    ∀ rr, execSlotReply slot s = .next rr → (rr).mem = s.mem := by
  intro r h; unfold execSlotReply at h; grind [mem_when, mem_takeOutput]

theorem mem_execWsSettings (m : MsgSrc) (s : State) :
    ∀ rr, execWsSettings m s = .next rr → (rr).mem = s.mem := by
  intro r h; unfold execWsSettings at h; grind [mem_wsSettings, mem_serve]

theorem mem_execDevInfo (m : MsgSrc) (s : State) :
    ∀ rr, execDevInfo m s = .next rr → (rr).mem = s.mem := by
  intro r h; unfold execDevInfo at h; grind [mem_serve]

theorem mem_execAttnScoreSubrequest (ident : Nat) (s : State) :
    ∀ rr, execAttnScoreSubrequest ident s = .next rr → (rr).mem = s.mem := by
  intro r h; unfold execAttnScoreSubrequest at h; grind [mem_admitSub, mem_serveScore]

theorem mem_execFlashHealth (m : MsgSrc) (s : State) :
    ∀ rr, execFlashHealth m s = .next rr → (rr).mem = s.mem := by
  intro r h; unfold execFlashHealth at h; grind [mem_checked, mem_serve]

theorem mem_execRemapFrame (port : Nat) (lane : Nat) (wl : Nat) (_first : Nat) (s : State) :
    ∀ rr, execRemapFrame port lane wl _first s = .next rr → (rr).mem = s.mem := by
  intro r h; unfold execRemapFrame at h; grind [mem_when, mem_guarded, mem_remapFrame]

theorem mem_execGatherSubrequest (ident : Nat) (s : State) :
    ∀ rr, execGatherSubrequest ident s = .next rr → (rr).mem = s.mem := by
  intro r h; unfold execGatherSubrequest at h; grind [mem_admitSub, mem_serveGather]

theorem mem_execSchedSample (m : MsgSrc) (s : State) :
    ∀ rr, execSchedSample m s = .next rr → (rr).mem = s.mem := by
  intro r h; unfold execSchedSample at h; grind [mem_serve, mem_schedSample]

theorem mem_execHashPut (fn : Nat) (ring : Nat) (h : HostView) (s : State) :
    ∀ rr, execHashPut fn ring h s = .next rr → (rr).mem = s.mem := by
  intro r h; unfold execHashPut at h; (repeat' split at h) <;> grind [→ mem_admitRow, mem_startHashChange, Option.map_eq_some_iff,
    Option.bind_eq_some_iff]

end Sys2Proof.Laws
end

