-- ==== Sys2Proof/Laws/Canonical.lean ====
section
/-!
SUPPORT. The operations that store keep memory in its canonical form: one lemma for each, the meanings of the rows among them.
-/

open Sys2Proof Sys2Proof.Machine

namespace Sys2Proof.Laws

theorem wf_foldl {α : Type} (g : State → α → State)
    (h : ∀ a b, Memory.wf a.mem = true → Memory.wf (g a b).mem = true) (l : List α) (s : State)
    (hs : Memory.wf s.mem = true) : Memory.wf (l.foldl g s).mem = true := by
  induction l generalizing s with
  | nil => exact hs
  | cons a t ih => exact ih _ (h _ _ hs)

theorem wf_foldlM {α : Type} (g : Mem → α → Mem) (h : ∀ a b, Memory.wf a = true → Memory.wf (g a b) = true)
    (l : List α) (s : Mem) (hs : Memory.wf s = true) : Memory.wf (l.foldl g s) = true := by
  induction l generalizing s with
  | nil => exact hs
  | cons a t ih => exact ih _ (h _ _ hs)

theorem wf_checked (cs : List (Bool × Nat)) (run : Answer × State) (s : State) (hr : Memory.wf run.2.mem = true)
    (hs : Memory.wf s.mem = true) : Memory.wf (checked cs run s).2.mem = true := by
  unfold checked; split
  · exact hs
  · exact hr

theorem wf_foldl_snd {α β : Type} (g : β × State → α → β × State)
    (h : ∀ a b, Memory.wf a.2.mem = true → Memory.wf (g a b).2.mem = true) (l : List α) (s : β × State)
    (hs : Memory.wf s.2.mem = true) : Memory.wf (l.foldl g s).2.mem = true := by
  induction l generalizing s with
  | nil => exact hs
  | cons a t ih => exact ih _ (h _ _ hs)

theorem wf_when (c : Bool) (f : State → State) (s : State) (h_f : ∀ y0, Memory.wf y0.mem = true → Memory.wf (f y0).mem = true)
  (hs : Memory.wf s.mem = true) :
    Memory.wf (when c f s).mem = true := by
  unfold when; (repeat' split) <;> simp [
    h_f, hs]

theorem wf_writeBuf (s : State) (fn : Nat) (ws : Nat) (a : Nat) (data : List Byte) (txn : Nat) (hs : Memory.wf s.mem = true) :
    Memory.wf (writeBuf s fn ws a data txn).mem = true := by
  unfold writeBuf; (repeat' split) <;> simp [mem_sendMemWrite, 
    wf_store, hs]

theorem wf_postEntry (s : State) (fn : Nat) (r : Nat) (e : List Byte) (noInterrupt : Bool) (hs : Memory.wf s.mem = true) :
    Memory.wf (postEntry s fn r e noInterrupt).mem = true := by
  unfold postEntry; (repeat' split) <;> simp [mem_putRing, mem_settleRing, wf_writeBuf, mem_addEvent, 
    hs]

theorem wf_completeMove (s : State) (c : Nat) (j : MoveJob) (status : Nat) (cause : Nat) (reason : Nat) (bad : Bool) (halted : Bool)
  (hs : Memory.wf s.mem = true) :
    Memory.wf (completeMove s c j status cause reason bad halted).mem = true := by
  simp [completeMove, wf_postEntry, mem_putChan, 
    hs]

theorem wf_drainChannel (s : State) (c : Nat) (hs : Memory.wf s.mem = true) :
    Memory.wf (drainChannel s c).mem = true := by
  grind [drainChannel, mem_putRing, mem_finishAll, wf_completeMove, mem_putChan, wf_same, wf_cells, wf_writeByte, wf_writeBytes,
    wf_clearPoison, wf_setPoison, wf_store, wf_storeMaCells]

theorem wf_settleJob (s : State) (c : Nat) (hs : Memory.wf s.mem = true) :
    Memory.wf (settleJob s c).mem = true := by
  grind [settleJob, wf_completeMove, mem_putChan, wf_same, wf_cells, wf_writeByte, wf_writeBytes, wf_clearPoison, wf_setPoison, wf_store,
    wf_storeMaCells]

theorem wf_settleChannel (s : State) (c : Nat) (hs : Memory.wf s.mem = true) :
    Memory.wf (settleChannel s c).mem = true := by
  simp [settleChannel, wf_drainChannel, wf_settleJob, mem_settlePause, 
    hs]

theorem wf_settleWork (s : State) (t : TicketRef) (k : Ticket) (hs : Memory.wf s.mem = true) :
    Memory.wf (settleWork s t k).mem = true := by
  unfold settleWork; (repeat' split) <;> simp [wf_settleChannel, mem_settleRing, mem_settleOffline, mem_settleSession, 
    hs]

theorem wf_copyRegion (s : State) (src : Nat) (dst : Nat) (pages : Nat) (hs : Memory.wf s.mem = true) :
    Memory.wf (copyRegion s src dst pages).mem = true := by
  unfold copyRegion; (repeat' split) <;> simp_all [wf_storeMa, wf_foldlM, 
    wf_setPoison]

theorem wf_copyRegions (s : State) (src : List (Nat × Nat × Nat)) (dst : List (Nat × Nat × Nat)) (hs : Memory.wf s.mem = true) :
    Memory.wf (copyRegions s src dst).mem = true := by
  unfold copyRegions; refine wf_foldl _ ?_ _ _ hs; intro a b ha; (repeat' split) <;> first
    | grind [wf_copyRegion, wf_same, wf_cells, wf_writeByte, wf_writeBytes, wf_clearPoison, wf_setPoison, wf_store, wf_storeMaCells]
    | simp [wf_copyRegion, mem_foldl, wf_foldl, wf_foldlM, wf_same, wf_cells, wf_writeByte, wf_writeBytes, wf_clearPoison, wf_setPoison,
        wf_store, wf_storeMaCells, hs]
    | simp_all [wf_copyRegion, mem_foldl, wf_foldl, wf_foldlM, wf_same, wf_cells, wf_writeByte, wf_writeBytes, wf_clearPoison,
        wf_setPoison, wf_store, wf_storeMaCells]

theorem wf_finishTableStage (s : State) (k : Ticket) (hs : Memory.wf s.mem = true) :
    ∀ rr, finishTableStage s k = some rr → Memory.wf (rr).2.2.mem = true := by
  intro r h; unfold finishTableStage at h; grind [mem_refVersion, wf_copyRegions, mem_putTable, wf_same, wf_cells, wf_writeByte,
    wf_writeBytes, wf_clearPoison, wf_setPoison, wf_store, wf_storeMaCells]

theorem wf_finishExport (s : State) (k : Ticket) (hs : Memory.wf s.mem = true) :
    ∀ rr, finishExport s k = some rr → Memory.wf (rr).2.2.mem = true := by
  intro r h; unfold finishExport at h; grind [wf_same, wf_cells, wf_writeByte, wf_writeBytes, wf_clearPoison, wf_setPoison, wf_store,
    wf_storeMaCells]

theorem wf_finishTableExport (s : State) (k : Ticket) (o : DoneInput) (hs : Memory.wf s.mem = true) :
    ∀ rr, finishTableExport s k o = some rr → Memory.wf (rr).2.2.mem = true := by
  intro r h; unfold finishTableExport at h; grind [mem_refVersion, wf_same, wf_cells, wf_writeByte, wf_writeBytes, wf_clearPoison,
    wf_setPoison, wf_store, wf_storeMaCells]

theorem wf_ticketOutcome (s : State) (t : TicketRef) (k : Ticket) (o : DoneInput) (hs : Memory.wf s.mem = true) :
    ∀ rr, ticketOutcome s t k o = some rr → Memory.wf (rr).2.2.mem = true := by
  intro r h; unfold ticketOutcome at h; split at h
  · cases h; dsimp only; split
    · rw [mem_finishTableLoad]; exact hs
    · exact hs
  · extract_lets a at h
    generalize k.work.op = c at h
    split at h <;> first
      | exact wf_finishExport _ _ hs _ h
      | exact wf_finishTableExport _ _ _ hs _ h
      | (rw [mem_finishKeyRetire _ _ _ h]; exact hs)
      | (rw [mem_finishDrop _ _ _ h]; exact hs)
      | (rw [mem_finishTrain _ _ _ h]; exact hs)
      | (rw [mem_finishImport _ _ _ h]; exact hs)
      | (rw [mem_finishUnload _ _ _ h]; exact hs)
      | (rw [mem_finishTableDrop _ _ _ h]; exact hs)
      | (rw [mem_finishDiscard _ _ _ h]; exact hs)
      | (rw [mem_finishCbUnload _ _ _ h]; exact hs)
      | (rw [mem_finishClear _ _ _ h]; exact hs)
      | (rw [mem_activateSession _ _ _ _ h]; exact hs)
      | (rw [mem_finishResume _ _ _ _ h]; exact hs)
      | (rw [mem_finishRetrain _ _ _ _ h]; exact hs)
      | (rw [mem_finishStage _ _ _ _ h]; exact hs)
      | (rw [Option.map_eq_some_iff] at h; obtain ⟨b, hb, h⟩ := h; cases h
         dsimp only; rw [mem_settleDrains]; exact wf_finishTableStage _ _ hs _ hb)
      | exact absurd h (by simp)

theorem wf_ticketDone (t : TicketRef) (o : DoneInput) (s : State) (hs : Memory.wf s.mem = true) :
    Memory.wf (ticketDone t o s).mem = true := by
  unfold ticketDone; (repeat' split) <;> grind [wf_settleWork, mem_finishTicket, → wf_ticketOutcome, wf_same, wf_cells, wf_writeByte,
    wf_writeBytes, wf_clearPoison, wf_setPoison, wf_store, wf_storeMaCells]

theorem wf_withTable (c : Ctx) (s : State) (h : Nat) (f : Table → Answer × State) (h_f : ∀ y0, Memory.wf s.mem = true → Memory.wf
  (f y0).2.mem = true) (hs : Memory.wf s.mem = true) :
    Memory.wf (withTable c s h f).2.mem = true := by
  unfold withTable; (repeat' split) <;> simp [mem_refuse, 
    h_f, hs]

theorem wf_withVersion (c : Ctx) (s : State) (f : Nat → Table → Version → Answer × State)
  (h_f : ∀ y0 y1 y2, Memory.wf s.mem = true → Memory.wf (f y0 y1 y2).2.mem = true) (hs : Memory.wf s.mem = true) :
    Memory.wf (withVersion c s f).2.mem = true := by
  grind [withVersion, mem_withTable, wf_withTable, mem_refuse, wf_same, wf_cells, wf_writeByte, wf_writeBytes, wf_clearPoison,
    wf_setPoison, wf_store, wf_storeMaCells]

theorem wf_serveNow (c : Cmd) (m : MsgSrc) (body : Ctx → State → Answer × State) (s : State)
  (h_body : ∀ y0 y1, Memory.wf y1.mem = true → Memory.wf (body y0 y1).2.mem = true) (hs : Memory.wf s.mem = true) :
    Memory.wf (serveNow c m body s).mem = true := by
  grind [serveNow, mem_give, mem_respond, mem_takeRequest, wf_same, wf_cells, wf_writeByte, wf_writeBytes, wf_clearPoison, wf_setPoison,
    wf_store, wf_storeMaCells]

theorem wf_serve (c : Cmd) (m : MsgSrc) (body : Ctx → State → Answer × State) (s : State)
  (h_body : ∀ y0 y1, Memory.wf y1.mem = true → Memory.wf (body y0 y1).2.mem = true) (hs : Memory.wf s.mem = true) :
    ∀ rr, serve c m body s = .next rr → Memory.wf (rr).mem = true := by
  intro r h; unfold serve at h; grind [mem_serveNow, wf_serveNow, mem_when, wf_when, wf_same, wf_cells, wf_writeByte, wf_writeBytes,
    wf_clearPoison, wf_setPoison, wf_store, wf_storeMaCells]

theorem wf_remapChains (s : State) (lo : Nat) (size : Nat) (to_ : Nat) (hs : Memory.wf s.mem = true) :
    Memory.wf (remapChains s lo size to_).mem = true := by
  unfold remapChains
  refine wf_foldl _ ?_ _ _ hs
  intro a b ha; split
  · refine wf_foldl _ ?_ _ _ ha
    intro a b ha; refine wf_foldl _ ?_ _ _ ha
    intro a b ha; dsimp only; split
    · exact wf_storeMa _ _ _ ha
    · exact ha
  · exact ha

theorem wf_meetError (s : State) (e : MemErr) (hs : Memory.wf s.mem = true) :
    Memory.wf (meetError s e).mem = true := by
  grind [meetError, mem_score, mem_emit, wf_same, wf_cells, wf_writeByte, wf_writeBytes, wf_clearPoison, wf_setPoison, wf_store,
    wf_storeMaCells]

theorem wf_meetErrs (s : State) (u : Nat) (errs : List MemErr) (hs : Memory.wf s.mem = true) :
    Memory.wf (meetErrs s u errs).mem = true := by
  unfold meetErrs; refine wf_foldl _ ?_ _ _ hs; intro a b ha; (repeat' split) <;> first
    | grind [wf_meetError, wf_same, wf_cells, wf_writeByte, wf_writeBytes, wf_clearPoison, wf_setPoison, wf_store, wf_storeMaCells]
    | simp [wf_meetError, mem_foldl, wf_foldl, wf_foldlM, wf_same, wf_cells, wf_writeByte, wf_writeBytes, wf_clearPoison, wf_setPoison,
        wf_store, wf_storeMaCells, hs]
    | simp_all [wf_meetError, mem_foldl, wf_foldl, wf_foldlM, wf_same, wf_cells, wf_writeByte, wf_writeBytes, wf_clearPoison,
        wf_setPoison, wf_store, wf_storeMaCells]

theorem wf_scrubStep (u : Nat) (errs : List MemErr) (a : Activity) (s : State) (hs : Memory.wf s.mem = true) :
    Memory.wf (scrubStep u errs a s).mem = true := by
  grind [scrubStep, mem_putUnit, mem_dropActivity, wf_meetErrs, wf_same, wf_cells, wf_writeByte, wf_writeBytes, wf_clearPoison,
    wf_setPoison, wf_store, wf_storeMaCells]

theorem wf_execMarverScrub (unit : Nat) (errs : List MemErr) (s : State) (hs : Memory.wf s.mem = true) :
    ∀ rr, execMarverScrub unit errs s = .next rr → Memory.wf (rr).mem = true := by
  intro r h; unfold execMarverScrub at h; grind [wf_scrubStep, mem_submit, mem_when, wf_when, mem_guarded, wf_same, wf_cells,
    wf_writeByte, wf_writeBytes, wf_clearPoison, wf_setPoison, wf_store, wf_storeMaCells]

theorem wf_unitStep (op : MarverOp) (step : Nat → MarverCtx → State → MarverCtx × State) (u : Nat) (errs : List MemErr) (s : State)
  (h_step : ∀ y0 y1 y2, Memory.wf y2.mem = true → Memory.wf (step y0 y1 y2).2.mem = true) (hs : Memory.wf s.mem = true) :
    Memory.wf (unitStep op step u errs s).mem = true := by
  unfold unitStep; (repeat' split) <;> simp [mem_endStep, wf_meetErrs, 
    h_step, hs]

theorem wf_marverRow (name : String) (op : MarverOp) (step : Nat → MarverCtx → State → MarverCtx × State) (u : Nat)
  (errs : List MemErr) (s : State) (h_step : ∀ y0 y1 y2,
  Memory.wf y2.mem = true → Memory.wf (step y0 y1 y2).2.mem = true) (hs : Memory.wf s.mem = true) :
    ∀ rr, marverRow name op step u errs s = .next rr → Memory.wf (rr).mem = true := by
  intro r h; unfold marverRow at h; grind [wf_unitStep, mem_when, wf_when, mem_guarded, wf_same, wf_cells, wf_writeByte, wf_writeBytes,
    wf_clearPoison, wf_setPoison, wf_store, wf_storeMaCells]

theorem wf_execBlockScore (unit : Nat) (errs : List MemErr) (s : State) (hs : Memory.wf s.mem = true) :
    ∀ rr, execBlockScore unit errs s = .next rr → Memory.wf (rr).mem = true := by
  intro r h; unfold execBlockScore at h; grind [wf_marverRow, mem_blockStep, wf_same, wf_cells, wf_writeByte, wf_writeBytes,
    wf_clearPoison, wf_setPoison, wf_store, wf_storeMaCells]

theorem wf_railsOff (s : State) (after : Nat) (_hs : Memory.wf s.mem = true) :
    Memory.wf (railsOff s after).mem = true := by
  exact wf_reset

theorem wf_thermalTrip (kind : Nat) (inst : Nat) (s : State) (hs : Memory.wf s.mem = true) :
    Memory.wf (thermalTrip kind inst s).mem = true := by
  unfold thermalTrip; (repeat' split) <;> simp [mem_emitDev, wf_railsOff, mem_startFlush, 
    hs]

theorem wf_execThermalTrip (kind : Nat) (inst : Nat) (s : State) (hs : Memory.wf s.mem = true) :
    ∀ rr, execThermalTrip kind inst s = .next rr → Memory.wf (rr).mem = true := by
  intro r h; unfold execThermalTrip at h; grind [mem_when, wf_when, wf_thermalTrip, wf_same, wf_cells, wf_writeByte, wf_writeBytes,
    wf_clearPoison, wf_setPoison, wf_store, wf_storeMaCells]

theorem wf_admitAs (kind : Nat) (fn : Nat) (r : Nat) (h : HostView) (start : Src → Nat → State → State) (s : State)
  (h_start : ∀ y0 y1 y2, Memory.wf y2.mem = true → Memory.wf (start y0 y1 y2).mem = true) (hs : Memory.wf s.mem = true) :
    Memory.wf (admitAs kind fn r h start s).mem = true := by
  unfold admitAs; (repeat' split) <;> simp [mem_claimEntry, 
    h_start, hs]

theorem wf_admitRow (row : String) (kind : Nat) (fn : Nat) (r : Nat) (h : HostView) (start : Src → Nat → State → State) (s : State)
  (h_start : ∀ y0 y1 y2, Memory.wf y2.mem = true → Memory.wf (start y0 y1 y2).mem = true) (hs : Memory.wf s.mem = true) :
    ∀ rr, admitRow row kind fn r h start s = .next rr → Memory.wf (rr).mem = true := by
  intro r h; unfold admitRow at h; (repeat' split at h) <;> grind [mem_admitAs, wf_admitAs, → mem_guarded, wf_same, wf_cells,
    wf_writeByte, wf_writeBytes, wf_clearPoison, wf_setPoison, wf_store, wf_storeMaCells, Option.map_eq_some_iff, Option.bind_eq_some_iff]

theorem wf_writeTokens (s : State) (x : Session) (y : Block) (at_ : Nat) (ts : List Token) (hs : Memory.wf s.mem = true) :
    Memory.wf (writeTokens s x y at_ ts).mem = true := by
  unfold writeTokens
  refine wf_storeMa _ _ _ (wf_foldl _ ?_ _ _ hs)
  intro a b ha
  exact wf_storeMa _ _ _ (wf_storeMa _ _ _ (wf_storeMa _ _ _ ha))

theorem wf_allocMarver (s : State) (ws : Nat) (unit : Nat) (n : Nat) (hs : Memory.wf s.mem = true) :
    ∀ rr, allocMarver s ws unit n = some rr → Memory.wf (rr).2.mem = true := by
  intro r h; unfold allocMarver at h; grind [wf_takePages, wf_same, wf_cells, wf_writeByte, wf_writeBytes, wf_clearPoison, wf_setPoison,
    wf_store, wf_storeMaCells]

theorem wf_cutPage (s : State) (x : Session) (unit : Nat) (size : Nat) (hs : Memory.wf s.mem = true) :
    ∀ rr, cutPage s x unit size = some rr → Memory.wf (rr).2.2.2.mem = true := by
  intro r h; unfold cutPage at h; grind [wf_allocMarver, wf_same, wf_cells, wf_writeByte, wf_writeBytes, wf_clearPoison, wf_setPoison,
    wf_store, wf_storeMaCells, Option.map_eq_some_iff, Option.bind_eq_some_iff]

theorem wf_takeCode (s : State) (x : Session) (unit : Nat) (hs : Memory.wf s.mem = true) :
    ∀ rr, takeCode s x unit = some rr → Memory.wf (rr).2.2.mem = true := by
  intro r h; unfold takeCode at h; split at h
  · cases h; exact hs
  · rw [Option.map_eq_some_iff] at h; obtain ⟨a, ha, h⟩ := h; cases h; exact wf_cutPage _ _ _ _ hs _ ha

theorem wf_takeKv (s : State) (x : Session) (unit : Nat) (hs : Memory.wf s.mem = true) :
    ∀ rr, takeKv s x unit = some rr → Memory.wf (rr).2.2.mem = true := by
  intro r h; unfold takeKv at h; split at h
  · cases h; exact hs
  · rw [Option.map_eq_some_iff] at h; obtain ⟨a, ha, h⟩ := h; cases h; exact wf_cutPage _ _ _ _ hs _ ha

theorem wf_takeStaging (s : State) (x : Session) (unit : Nat) (hs : Memory.wf s.mem = true) :
    ∀ rr, takeStaging s x unit = some rr → Memory.wf (rr).2.mem = true := by
  intro r h; unfold takeStaging at h; split at h
  · cases h; exact hs
  · split at h
    · cases h
    · rw [Option.map_eq_some_iff] at h; obtain ⟨a, ha, h⟩ := h; cases h; exact wf_allocMarver _ _ _ _ hs _ ha

theorem wf_openBlock (s : State) (x : Session) (layer : Nat) (head : Nat) (b : Nat) (hs : Memory.wf s.mem = true) :
    ∀ rr, openBlock s x layer head b = some rr → Memory.wf (rr).2.2.mem = true := by
  intro r h; unfold openBlock at h; (repeat' split at h) <;> grind [→ wf_takeCode, → wf_takeKv, → wf_takeStaging, wf_storeMa, wf_same,
    wf_cells, wf_writeByte, wf_writeBytes, wf_clearPoison, wf_setPoison, wf_store, wf_storeMaCells, Option.map_eq_some_iff,
    Option.bind_eq_some_iff]

theorem wf_holdAppend (s : State) (ws : Nat) (key : Nat) (layer : Nat) (head : Nat) (block : Nat) (at_ : Nat) (ts : List Token)
  (hs : Memory.wf s.mem = true) :
    Memory.wf (holdAppend s ws key layer head block at_ ts).2.2.mem = true := by
  unfold holdAppend; (repeat' split) <;> grind [mem_putSession, wf_writeTokens, → wf_openBlock, mem_journalEnt, wf_same, wf_cells,
    wf_writeByte, wf_writeBytes, wf_clearPoison, wf_setPoison, wf_store, wf_storeMaCells]

theorem wf_appendPart (n : Nat) (j : Nat) (s : State) (hs : Memory.wf s.mem = true) :
    Memory.wf (appendPart n j s).2.mem = true := by
  simp only [appendPart]; (repeat' split) <;> first
    | grind [wf_holdAppend, mem_awaitAck, mem_putSession, mem_sendSess, wf_same, wf_cells, wf_writeByte, wf_writeBytes, wf_clearPoison,
        wf_setPoison, wf_store, wf_storeMaCells]
    | simp [wf_holdAppend, mem_awaitAck, mem_putSession, mem_sendSess, mem_foldl, wf_foldl, wf_foldlM, wf_same, wf_cells, wf_writeByte,
        wf_writeBytes, wf_clearPoison, wf_setPoison, wf_store, wf_storeMaCells, hs]

theorem wf_appendAll (n : Nat) (x1 : List Nat) (x2 : State) (hs : Memory.wf x2.mem = true) :
    Memory.wf (appendAll n x1 x2).2.mem = true := by
  fun_induction appendAll <;> grind [wf_appendPart, wf_same, wf_cells, wf_writeByte, wf_writeBytes, wf_clearPoison, wf_setPoison,
    wf_store, wf_storeMaCells]

theorem wf_appendOrFinish (n : Nat) (s : State) (hs : Memory.wf s.mem = true) :
    Memory.wf (appendOrFinish n s).mem = true := by
  grind [appendOrFinish, mem_finishStep, mem_failSlot, mem_modSlot, wf_appendAll, wf_same, wf_cells, wf_writeByte, wf_writeBytes,
    wf_clearPoison, wf_setPoison, wf_store, wf_storeMaCells]

theorem wf_writeRows (s : State) (t : Table) (x : Version) (mirror : Bool) (rs : List (List Byte)) (hs : Memory.wf s.mem = true) :
    Memory.wf (writeRows s t x mirror rs).mem = true := by
  unfold writeRows; refine wf_foldl _ ?_ _ _ hs; intro a b ha; (repeat' split) <;> first
    | grind [wf_storeMa, wf_same, wf_cells, wf_writeByte, wf_writeBytes, wf_clearPoison, wf_setPoison, wf_store, wf_storeMaCells]
    | simp [wf_storeMa, mem_foldl, wf_foldl, wf_foldlM, wf_same, wf_cells, wf_writeByte, wf_writeBytes, wf_clearPoison, wf_setPoison,
        wf_store, wf_storeMaCells, hs]
    | simp_all [wf_storeMa, mem_foldl, wf_foldl, wf_foldlM, wf_same, wf_cells, wf_writeByte, wf_writeBytes, wf_clearPoison, wf_setPoison,
        wf_store, wf_storeMaCells]

theorem wf_loadRemote (s : State) (ws : Nat) (l : List Byte) (hs : Memory.wf s.mem = true) :
    Memory.wf (loadRemote s ws l).mem = true := by
  grind [loadRemote, mem_journalRows, wf_writeRows, wf_same, wf_cells, wf_writeByte, wf_writeBytes, wf_clearPoison, wf_setPoison,
    wf_store, wf_storeMaCells]

theorem wf_takeLoads (s : State) (hs : Memory.wf s.mem = true) :
    Memory.wf (takeLoads s).mem = true := by
  unfold takeLoads; refine wf_foldl _ ?_ _ _ hs; intro a b ha; (repeat' split) <;> first
    | grind [wf_loadRemote, wf_same, wf_cells, wf_writeByte, wf_writeBytes, wf_clearPoison, wf_setPoison, wf_store, wf_storeMaCells]
    | simp [wf_loadRemote, mem_foldl, wf_foldl, wf_foldlM, wf_same, wf_cells, wf_writeByte, wf_writeBytes, wf_clearPoison, wf_setPoison,
        wf_store, wf_storeMaCells, hs]
    | simp_all [wf_loadRemote, mem_foldl, wf_foldl, wf_foldlM, wf_same, wf_cells, wf_writeByte, wf_writeBytes, wf_clearPoison,
        wf_setPoison, wf_store, wf_storeMaCells]

theorem wf_allocWindow (s : State) (ws : Nat) (kind : Nat) (n : Nat) (hs : Memory.wf s.mem = true) :
    ∀ rr, allocWindow s ws kind n = some rr → Memory.wf (rr).2.mem = true := by
  intro r h; unfold allocWindow at h; grind [wf_takePages, wf_same, wf_cells, wf_writeByte, wf_writeBytes, wf_clearPoison, wf_setPoison,
    wf_store, wf_storeMaCells]

theorem wf_takeCreate (p : Packet) (s : State) (hs : Memory.wf s.mem = true) :
    Memory.wf (takeCreate p s).mem = true := by
  unfold takeCreate; (repeat' split) <;> grind [→ wf_allocWindow, mem_putSession, mem_refBook, wf_same, wf_cells, wf_writeByte,
    wf_writeBytes, wf_clearPoison, wf_setPoison, wf_store, wf_storeMaCells]

theorem wf_takeAppend (p : Packet) (s : State) (hs : Memory.wf s.mem = true) :
    Memory.wf (takeAppend p s).mem = true := by
  grind [takeAppend, wf_holdAppend, mem_ackAppend, mem_sendSess, wf_same, wf_cells, wf_writeByte, wf_writeBytes, wf_clearPoison,
    wf_setPoison, wf_store, wf_storeMaCells]

theorem wf_takeSessions (s : State) (hs : Memory.wf s.mem = true) :
    Memory.wf (takeSessions s).mem = true := by
  unfold takeSessions; refine wf_foldl _ ?_ _ _ hs; intro a b ha; (repeat' split) <;> first
    | grind [mem_takeCount, mem_takeRelease, wf_takeCreate, wf_takeAppend, wf_same, wf_cells, wf_writeByte, wf_writeBytes,
        wf_clearPoison, wf_setPoison, wf_store, wf_storeMaCells]
    | simp [mem_takeCount, mem_takeRelease, wf_takeCreate, wf_takeAppend, mem_foldl, wf_foldl, wf_foldlM, wf_same, wf_cells,
        wf_writeByte, wf_writeBytes, wf_clearPoison, wf_setPoison, wf_store, wf_storeMaCells, hs]
    | simp_all [mem_takeCount, mem_takeRelease, wf_takeCreate, wf_takeAppend, mem_foldl, wf_foldl, wf_foldlM, wf_same, wf_cells,
        wf_writeByte, wf_writeBytes, wf_clearPoison, wf_setPoison, wf_store, wf_storeMaCells]

theorem wf_selectStage (n : Nat) (s : State) (hs : Memory.wf s.mem = true) :
    Memory.wf (selectStage n s).mem = true := by
  unfold selectStage; split
  · exact hs
  · split
    · rw [mem_failSlot]; exact hs
    · rename_i x _ _ q _
      extract_lets H sel ties scored t u
      have hu : Memory.wf u.mem = true := by
        simp only [u, t]
        rw [mem_foldl _ (fun _ _ => mem_askPosition _ _ _ _ _), mem_putSlot]; exact hs
      split
      · split
        · exact wf_appendOrFinish _ _ hu
        · exact hu
      · exact hu

theorem wf_beginStep (n : Nat) (T : Nat) (commits : Bool) (s : State) (hs : Memory.wf s.mem = true) :
    Memory.wf (beginStep n T commits s).mem = true := by
  unfold beginStep; (repeat' split) <;> simp [mem_askPosition, mem_holdPhase, mem_putSlot, mem_failSlot, wf_selectStage, mem_foldl,
    hs]

theorem wf_launchStep (n : Nat) (s : State) (hs : Memory.wf s.mem = true) :
    Memory.wf (launchStep n s).mem = true := by
  grind [launchStep, wf_beginStep, mem_failSlot, wf_same, wf_cells, wf_writeByte, wf_writeBytes, wf_clearPoison, wf_setPoison, wf_store,
    wf_storeMaCells]

theorem wf_goPhase (n : Nat) (s : State) (hs : Memory.wf s.mem = true) :
    Memory.wf (goPhase n s).mem = true := by
  grind [goPhase, mem_putSlot, mem_launchQuery, mem_releaseUpdate, mem_launchGather, wf_launchStep, wf_same, wf_cells, wf_writeByte,
    wf_writeBytes, wf_clearPoison, wf_setPoison, wf_store, wf_storeMaCells]

theorem wf_takeGo (p : Packet) (s : State) (hs : Memory.wf s.mem = true) :
    Memory.wf (takeGo p s).mem = true := by
  grind [takeGo, mem_putReqCopy, wf_goPhase, wf_same, wf_cells, wf_writeByte, wf_writeBytes, wf_clearPoison, wf_setPoison, wf_store,
    wf_storeMaCells]

theorem wf_takeReqMsg (p : Packet) (s : State) (hs : Memory.wf s.mem = true) :
    Memory.wf (takeReqMsg p s).mem = true := by
  grind [takeReqMsg, mem_recordCancel, wf_takeGo, mem_takeBeat, mem_noteAccepted, mem_takeRefused, mem_beginHandoff, mem_takeReport,
    mem_addClaim, wf_same, wf_cells, wf_writeByte, wf_writeBytes, wf_clearPoison, wf_setPoison, wf_store, wf_storeMaCells]

theorem wf_takeRequests (s : State) (hs : Memory.wf s.mem = true) :
    Memory.wf (takeRequests s).mem = true := by
  unfold takeRequests; refine wf_foldl _ ?_ _ _ hs; intro a b ha; (repeat' split) <;> first
    | grind [wf_takeReqMsg, wf_same, wf_cells, wf_writeByte, wf_writeBytes, wf_clearPoison, wf_setPoison, wf_store, wf_storeMaCells]
    | simp [wf_takeReqMsg, mem_foldl, wf_foldl, wf_foldlM, wf_same, wf_cells, wf_writeByte, wf_writeBytes, wf_clearPoison, wf_setPoison,
        wf_store, wf_storeMaCells, hs]
    | simp_all [wf_takeReqMsg, mem_foldl, wf_foldl, wf_foldlM, wf_same, wf_cells, wf_writeByte, wf_writeBytes, wf_clearPoison,
        wf_setPoison, wf_store, wf_storeMaCells]

theorem wf_execPacketReceive (s : State) (hs : Memory.wf s.mem = true) :
    ∀ rr, execPacketReceive s = .next rr → Memory.wf (rr).mem = true := by
  intro r h; unfold execPacketReceive at h; grind [wf_takeLoads, mem_when, wf_when, wf_takeSessions, wf_takeRequests, mem_receive,
    wf_same, wf_cells, wf_writeByte, wf_writeBytes, wf_clearPoison, wf_setPoison, wf_store, wf_storeMaCells]

theorem wf_attnAbandon (n : Nat) (o : SubOut) (s : State) (hs : Memory.wf s.mem = true) :
    Memory.wf (attnAbandon n o s).mem = true := by
  grind [attnAbandon, mem_askPosition, mem_failSlot, mem_dropAcks, wf_appendPart, mem_closeSub, wf_same, wf_cells, wf_writeByte,
    wf_writeBytes, wf_clearPoison, wf_setPoison, wf_store, wf_storeMaCells]

theorem wf_keepAttn (n : Nat) (o : SubOut) (r : Reply) (next : Nat → State → State) (s : State)
  (h_next : ∀ y0 y1, Memory.wf y1.mem = true → Memory.wf (next y0 y1).mem = true) (hs : Memory.wf s.mem = true) :
    Memory.wf (keepAttn n o r next s).mem = true := by
  grind [keepAttn, mem_modSlot, mem_closeSub, wf_same, wf_cells, wf_writeByte, wf_writeBytes, wf_clearPoison, wf_setPoison, wf_store,
    wf_storeMaCells]

theorem wf_attnReply (n : Nat) (o : SubOut) (r : Reply) (s : State) (hs : Memory.wf s.mem = true) :
    Memory.wf (attnReply n o r s).mem = true := by
  simp only [attnReply]; (repeat' split) <;> first
    | grind [mem_finishStep, wf_appendOrFinish, mem_failSlot, wf_attnAbandon, wf_selectStage, mem_keepAttn, wf_keepAttn, mem_loseStep,
        mem_closeSub, wf_same, wf_cells, wf_writeByte, wf_writeBytes, wf_clearPoison, wf_setPoison, wf_store, wf_storeMaCells]
    | simp [mem_finishStep, wf_appendOrFinish, mem_failSlot, wf_attnAbandon, wf_selectStage, mem_keepAttn, wf_keepAttn, mem_loseStep,
        mem_closeSub, mem_foldl, wf_foldl, wf_foldlM, wf_same, wf_cells, wf_writeByte, wf_writeBytes, wf_clearPoison, wf_setPoison,
        wf_store, wf_storeMaCells, hs]

theorem wf_giveReply (n : Nat) (x : Slot) (o : SubOut) (r : Reply) (s : State) (hs : Memory.wf s.mem = true) :
    Memory.wf (giveReply n x o r s).mem = true := by
  unfold giveReply; (repeat' split) <;> simp [wf_attnReply, mem_changeReply, mem_updateReply, mem_queryReply, mem_hashReply,
    mem_gatherReply, 
    hs]

theorem wf_takeSlotReply (n : Nat) (kind : Nat) (shard : Nat) (r : Reply) (s : State) (hs : Memory.wf s.mem = true) :
    Memory.wf (takeSlotReply n kind shard r s).mem = true := by
  unfold takeSlotReply; (repeat' split) <;> simp [mem_dropLate, mem_takeReply, wf_giveReply, 
    hs]

theorem wf_growCopy_go (s : State) (x : Index) (c : Copy) (u : Nat) (x4 : List Nat) (hs : Memory.wf s.mem = true) :
    ∀ rr, growCopy.go s x c u x4 = some rr → Memory.wf (rr).2.mem = true := by
  fun_induction growCopy.go <;> grind [→ wf_allocMarver, wf_same, wf_cells, wf_writeByte, wf_writeBytes, wf_clearPoison, wf_setPoison,
    wf_store, wf_storeMaCells, Option.map_eq_some_iff, Option.bind_eq_some_iff]

theorem wf_growCopy (s : State) (x : Index) (c : Copy) (u : Nat) (hs : Memory.wf s.mem = true) :
    ∀ rr, growCopy s x c u = some rr → Memory.wf (rr).2.mem = true := by
  intro r h; unfold growCopy at h; grind [wf_growCopy_go, wf_same, wf_cells, wf_writeByte, wf_writeBytes, wf_clearPoison, wf_setPoison,
    wf_store, wf_storeMaCells]

theorem wf_ensureSpill (s : State) (x : Index) (u : Nat) (hs : Memory.wf s.mem = true) :
    Memory.wf (ensureSpill s x u).mem = true := by
  unfold ensureSpill; (repeat' split) <;> grind [→ wf_allocMarver, wf_same, wf_cells, wf_writeByte, wf_writeBytes, wf_clearPoison,
    wf_setPoison, wf_store, wf_storeMaCells]

theorem wf_takeOnUnit (s : State) (x : Index) (c : Copy) (u : Nat) (hs : Memory.wf s.mem = true) :
    ∀ rr, takeOnUnit s x c u = some rr → Memory.wf (rr).2.2.mem = true := by
  intro r h; unfold takeOnUnit at h; (repeat' split at h) <;> grind [→ wf_growCopy, wf_ensureSpill, wf_same, wf_cells, wf_writeByte,
    wf_writeBytes, wf_clearPoison, wf_setPoison, wf_store, wf_storeMaCells, Option.map_eq_some_iff, Option.bind_eq_some_iff]

theorem wf_placeChunk (s : State) (x : Index) (c : Copy) (chunks : List Nat) (hs : Memory.wf s.mem = true) :
    ∀ rr, placeChunk s x c chunks = some rr → Memory.wf (rr).2.2.mem = true := by
  intro r h; unfold placeChunk at h; grind [wf_takeOnUnit, wf_same, wf_cells, wf_writeByte, wf_writeBytes, wf_clearPoison, wf_setPoison,
    wf_store, wf_storeMaCells, Option.map_eq_some_iff, Option.bind_eq_some_iff]

theorem wf_nextSlot (s : State) (idx : Nat) (x : Index) (c : Copy) (list : Nat) (hs : Memory.wf s.mem = true) :
    ∀ rr, nextSlot s idx x c list = some rr → Memory.wf (rr).2.2.2.mem = true := by
  intro r h; unfold nextSlot at h; dsimp only at h; split at h
  · split at h
    · cases h; exact hs
    · rw [Option.map_eq_some_iff] at h; obtain ⟨a, ha, h⟩ := h; cases h
      exact wf_storeMa _ _ _ (wf_placeChunk _ _ _ _ hs _ ha)
  · rw [Option.map_eq_some_iff] at h; obtain ⟨a, ha, h⟩ := h; cases h
    exact wf_storeMa _ _ _ (wf_placeChunk _ _ _ _ hs _ ha)

theorem wf_writeSlot (s : State) (x : Index) (ma : Nat) (i : Nat) (it : Item) (hs : Memory.wf s.mem = true) :
    Memory.wf (writeSlot s x ma i it).mem = true := by
  grind [writeSlot, wf_storeMa, wf_same, wf_cells, wf_writeByte, wf_writeBytes, wf_clearPoison, wf_setPoison, wf_store, wf_storeMaCells]

theorem wf_storeVector (s : State) (idx : Nat) (x : Index) (mirror : Bool) (c : Copy) (seq : Nat) (vec : List Nat)
  (hs : Memory.wf s.mem = true) :
    Memory.wf (storeVector s idx x mirror c seq vec).2.2.2.mem = true := by
  unfold storeVector; (repeat' split) <;> simp [mem_streamWrite, 
    wf_store, hs]

theorem wf_ordPageFor (s : State) (x : Index) (c : Copy) (seq : Nat) (hs : Memory.wf s.mem = true) :
    ∀ rr, ordPageFor s x c seq = some rr → Memory.wf (rr).2.mem = true := by
  intro r h; unfold ordPageFor at h; split at h
  · cases h; exact hs
  · split at h
    · cases h
    · rw [Option.map_eq_some_iff] at h; obtain ⟨a, ha, h⟩ := h; cases h; exact wf_allocWindow _ _ _ _ hs _ ha

theorem wf_appendItem (s : State) (idx : Nat) (x : Index) (mirror : Bool) (c : Copy) (e : Nat) (ordinal : Nat) (ident : Nat)
  (attrs : List Byte) (vec : List Nat) (hs : Memory.wf s.mem = true) :
    Memory.wf (appendItem s idx x mirror c e ordinal ident attrs vec).2.2.mem = true := by
  unfold appendItem; (repeat' split) <;> grind [→ wf_nextSlot, wf_writeSlot, wf_storeVector, → wf_ordPageFor, wf_same, wf_cells,
    wf_writeByte, wf_writeBytes, wf_clearPoison, wf_setPoison, wf_store, wf_storeMaCells]

theorem wf_execAttnValue (unit : Nat) (errs : List MemErr) (s : State) (hs : Memory.wf s.mem = true) :
    ∀ rr, execAttnValue unit errs s = .next rr → Memory.wf (rr).mem = true := by
  intro r h; unfold execAttnValue at h; grind [mem_valueStep, wf_marverRow, wf_same, wf_cells, wf_writeByte, wf_writeBytes,
    wf_clearPoison, wf_setPoison, wf_store, wf_storeMaCells]

theorem wf_gafferRow (kind : JobKind) (e : Nat) (j : Option GafferJob) (err : Option (Nat × Bool)) (ok : State → GafferJob → Bool)
  (put : Nat → GafferJob → State → State) (run : State → GafferJob → List Nat × Nat) (s : State) (h_put : ∀ y0 y1 y2,
  Memory.wf y2.mem = true → Memory.wf (put y0 y1 y2).mem = true) (hs : Memory.wf s.mem = true) :
    Memory.wf (gafferRow kind e j err ok put run s).mem = true := by
  unfold gafferRow; (repeat' split) <;> simp [mem_runHead, 
    h_put, hs]

theorem wf_withIndex (c : Ctx) (s : State) (idx : Nat) (f : Index → Answer × State) (h_f : ∀ y0, Memory.wf s.mem = true → Memory.wf
  (f y0).2.mem = true) (hs : Memory.wf s.mem = true) :
    Memory.wf (withIndex c s idx f).2.mem = true := by
  unfold withIndex; (repeat' split) <;> simp [mem_refuse, 
    h_f, hs]

theorem wf_placeBuckets (x : Index) (us : List Nat) (x2 : Nat) (x3 : Nat) (x4 : Copy) (x5 : State) (hs : Memory.wf x5.mem = true) :
    ∀ rr, placeBuckets x us x2 x3 x4 x5 = some rr → Memory.wf (rr).2.mem = true := by
  fun_induction placeBuckets <;> grind [→ wf_takeOnUnit, wf_storeMa, wf_same, wf_cells, wf_writeByte, wf_writeBytes, wf_clearPoison,
    wf_setPoison, wf_store, wf_storeMaCells, Option.map_eq_some_iff, Option.bind_eq_some_iff]

theorem wf_startCopy (s : State) (x : Index) (shard : Nat) (hs : Memory.wf s.mem = true) :
    ∀ rr, startCopy s x shard = some rr → Memory.wf (rr).2.mem = true := by
  intro r h; unfold startCopy at h; grind [wf_placeBuckets, wf_same, wf_cells, wf_writeByte, wf_writeBytes, wf_clearPoison, wf_setPoison,
    wf_store, wf_storeMaCells]

theorem wf_buildIndex (s : State) (ws : Nat) (p : List Byte) (hs : Memory.wf s.mem = true) :
    ∀ rr, buildIndex s ws p = some rr → Memory.wf (rr).2.mem = true := by
  intro r h; unfold buildIndex at h; extract_lets x idx pages room at h; split at h
  · cases h
  · simp only [Option.bind_eq_some_iff, Option.map_eq_some_iff] at h
    obtain ⟨a, ha, b, hb, c, hc, h⟩ := h; subst h
    have h1 := wf_allocWindow _ _ _ _ hs _ ha
    have h2 := wf_startCopy _ _ _ h1 _ hb
    have h3 : Memory.wf c.2.mem = true := by
      split at hc
      · simp only [Option.map_eq_some_iff] at hc; obtain ⟨d, hd, hc⟩ := hc; subst hc
        exact wf_startCopy _ _ _ h2 _ hd
      · cases hc; exact h2
    dsimp only
    (repeat' split) <;> simp only [mem_copyStreams, mem_refProgram, mem_putIndex, h3]

theorem wf_admitSub (kind : Nat) (ident : Nat) (serve : State → SubIn → State) (s : State)
  (h_serve : ∀ y0 y1, Memory.wf y0.mem = true → Memory.wf (serve y0 y1).mem = true) (hs : Memory.wf s.mem = true) :
    Memory.wf (admitSub kind ident serve s).mem = true := by
  unfold admitSub; (repeat' split) <;> simp [mem_putSub, mem_passCore, mem_replySub, 
    h_serve, hs]

theorem wf_whenReached (serve : State → SubIn → State) (s : State) (q : SubIn) (h_serve : ∀ y0 y1, Memory.wf y0.mem = true → Memory.wf
  (serve y0 y1).mem = true) (hs : Memory.wf s.mem = true) :
    Memory.wf (whenReached serve s q).mem = true := by
  unfold whenReached; (repeat' split) <;> simp [mem_replySub, 
    h_serve, hs]

theorem wf_keepVector (s : State) (idx : Nat) (x : Index) (mirror : Bool) (c : Copy) (seq : Nat) (v : List Byte)
  (hs : Memory.wf s.mem = true) :
    ∀ rr, keepVector s idx x mirror c seq v = some rr → Memory.wf (rr).2.2.mem = true := by
  intro r h; unfold keepVector at h; grind [mem_streamWrite, wf_same, wf_cells, wf_writeByte, wf_writeBytes, wf_clearPoison,
    wf_setPoison, wf_store, wf_storeMaCells]

theorem wf_startStep (b : Src) (n : Nat) (s : State) (hs : Memory.wf s.mem = true) :
    Memory.wf (startStep b n s).mem = true := by
  grind [startStep, mem_putSlot, mem_failSlot, mem_refSession, wf_launchStep, wf_same, wf_cells, wf_writeByte, wf_writeBytes,
    wf_clearPoison, wf_setPoison, wf_store, wf_storeMaCells]

theorem wf_startPhase (p : Packet) (h : HostView) (s : State) (hs : Memory.wf s.mem = true) :
    Memory.wf (startPhase p h s).mem = true := by
  grind [startPhase, mem_startQuery, wf_startStep, mem_startGather, mem_startTopk, mem_putSlot, mem_startModel, mem_passCore,
    mem_startUpdate, mem_takeMsg, wf_same, wf_cells, wf_writeByte, wf_writeBytes, wf_clearPoison, wf_setPoison, wf_store, wf_storeMaCells]

theorem wf_dispatchPhase (ws : Nat) (ident : Nat) (h : HostView) (s : State) (hs : Memory.wf s.mem = true) :
    Memory.wf (dispatchPhase ws ident h s).mem = true := by
  unfold dispatchPhase; (repeat' split) <;> simp [mem_sendPhase, wf_startPhase, mem_phaseDone, 
    hs]

theorem wf_execPhaseDispatch (ws : Nat) (ident : Nat) (h : HostView) (s : State) (hs : Memory.wf s.mem = true) :
    ∀ rr, execPhaseDispatch ws ident h s = .next rr → Memory.wf (rr).mem = true := by
  intro r h; unfold execPhaseDispatch at h; grind [mem_when, wf_when, wf_dispatchPhase, wf_same, wf_cells, wf_writeByte, wf_writeBytes,
    wf_clearPoison, wf_setPoison, wf_store, wf_storeMaCells]

theorem wf_stackDiscovery (steps : List Nat) (s : State) (hs : Memory.wf s.mem = true) :
    Memory.wf (stackDiscovery steps s).mem = true := by
  unfold stackDiscovery; extract_lets t ok want n u
  have ht : Memory.wf t.mem = true := by
    simp only [t]
    rw [mem_foldl _ (fun _ _ => by rw [mem_score, mem_emit])]; exact hs
  split
  · rw [mem_stopWith]; exact ht
  · split
    · rw [mem_emitDev]; rfl
    · rfl

theorem wf_execStackDiscovery (steps : List Nat) (s : State) (hs : Memory.wf s.mem = true) :
    ∀ rr, execStackDiscovery steps s = .next rr → Memory.wf (rr).mem = true := by
  intro r h; unfold execStackDiscovery at h; grind [mem_when, wf_when, wf_stackDiscovery, mem_guarded, wf_same, wf_cells, wf_writeByte,
    wf_writeBytes, wf_clearPoison, wf_setPoison, wf_store, wf_storeMaCells]

theorem wf_beginSession (s : State) (ws : Nat) (key : Nat) (state : Nat) (gid : Nat) (partner : Nat) (g : List Byte)
  (tokens : List Nat) (t : TicketRef) (hs : Memory.wf s.mem = true) :
    ∀ rr, beginSession s ws key state gid partner g tokens t = .ok rr → Memory.wf (rr).2.mem = true := by
  intro r h; unfold beginSession at h; (repeat' split at h) <;> grind [→ wf_allocWindow, → mem_createStream, mem_putSession,
    mem_refBook, wf_same, wf_cells, wf_writeByte, wf_writeBytes, wf_clearPoison, wf_setPoison, wf_store, wf_storeMaCells,
    Option.map_eq_some_iff, Option.bind_eq_some_iff]

theorem wf_writeRebuilt (s : State) (x : Session) (e : JournalEnt) (hs : Memory.wf s.mem = true) :
    ∀ rr, writeRebuilt s x e = some rr → Memory.wf (rr).2.mem = true := by
  intro r h; unfold writeRebuilt at h; (repeat' split at h) <;> grind [→ wf_takeKv, → wf_openBlock, wf_storeMa, wf_same, wf_cells,
    wf_writeByte, wf_writeBytes, wf_clearPoison, wf_setPoison, wf_store, wf_storeMaCells, Option.map_eq_some_iff, Option.bind_eq_some_iff]

theorem wf_placeImageBlock (s : State) (ws : Nat) (key : Nat) (e : JournalEnt) (hs : Memory.wf s.mem = true) :
    ∀ rr, placeImageBlock s ws key e = .ok rr → Memory.wf (rr).mem = true := by
  intro r h; unfold placeImageBlock at h; split at h
  · cases h; exact hs
  · rename_i x0 _
    extract_lets x p placed at h
    have hp : ∀ t, placed = some t → Memory.wf t.mem = true := by
      intro t ht; simp only [placed] at ht; split at ht
      · rw [Option.map_eq_some_iff] at ht; obtain ⟨b, hb, ht⟩ := ht; cases ht
        rw [mem_putSession]
        exact wf_writeRebuilt _ _ _ (by rw [mem_putSession]; exact hs) _ hb
      · cases ht; rw [mem_putSession]; exact hs
    cases ht : placed with
    | none => rw [ht] at h; cases h
    | some t =>
      rw [ht] at h; dsimp only at h
      split at h
      · split at h
        · split at h
          · cases h; rw [mem_journalEnt]; exact hp t ht
          · cases h
        · cases h; exact hp _ ht
      · cases h; exact hp _ ht

theorem wf_placeImage (ws : Nat) (key : Nat) (x2 : List JournalEnt) (x3 : State) (hs : Memory.wf x3.mem = true) :
    ∀ rr, placeImage ws key x2 x3 = .ok rr → Memory.wf (rr).mem = true := by
  fun_induction placeImage <;> grind [wf_placeImageBlock, wf_same, wf_cells, wf_writeByte, wf_writeBytes, wf_clearPoison, wf_setPoison,
    wf_store, wf_storeMaCells, Option.map_eq_some_iff, Option.bind_eq_some_iff]

theorem wf_sessionResume (c : Ctx) (s : State) (hs : Memory.wf s.mem = true) :
    Memory.wf (sessionResume c s).2.mem = true := by
  unfold sessionResume; extract_lets d key gid book
  split
  · split
    · exact hs
    · split
      · exact hs
      · rename_i i _
        extract_lets g digestOk run
        refine wf_checked _ _ _ ?_ hs
        simp only [run]; split
        · exact hs
        · rename_i y t ht
          have h1 := wf_beginSession _ _ _ _ _ _ _ _ _ hs _ ht
          split
          · exact hs
          · rename_i u hu
            have h2 := wf_placeImage _ _ _ _ h1 _ hu
            split
            · dsimp only; split
              · rw [mem_tellSession]; exact h2
              · exact h2
            · exact hs
  · exact hs

theorem wf_execSessionResume (m : MsgSrc) (s : State) (hs : Memory.wf s.mem = true) :
    ∀ rr, execSessionResume m s = .next rr → Memory.wf (rr).mem = true := by
  intro r h; unfold execSessionResume at h; grind [mem_serve, wf_serve, wf_sessionResume, wf_same, wf_cells, wf_writeByte, wf_writeBytes,
    wf_clearPoison, wf_setPoison, wf_store, wf_storeMaCells]

theorem wf_releaseRegion (s : State) (ws : Nat) (r : Region) (hs : Memory.wf s.mem = true) :
    Memory.wf (releaseRegion s ws r).mem = true := by
  unfold releaseRegion; (repeat' split) <;> simp [wf_clearPages, mem_putWs, mem_finishTicket, mem_freePages, 
    hs]

theorem wf_execRegionRelease (ws : Nat) (base : Nat) (s : State) (hs : Memory.wf s.mem = true) :
    ∀ rr, execRegionRelease ws base s = .next rr → Memory.wf (rr).mem = true := by
  intro r h; unfold execRegionRelease at h; grind [mem_when, wf_when, wf_releaseRegion, wf_same, wf_cells, wf_writeByte, wf_writeBytes,
    wf_clearPoison, wf_setPoison, wf_store, wf_storeMaCells]

theorem wf_execAttnStep (fn : Nat) (ring : Nat) (h : HostView) (s : State) (hs : Memory.wf s.mem = true) :
    ∀ rr, execAttnStep fn ring h s = .next rr → Memory.wf (rr).mem = true := by
  intro r h; unfold execAttnStep at h; (repeat' split at h) <;> grind [wf_startStep, → mem_admitRow, → wf_admitRow, wf_same, wf_cells,
    wf_writeByte, wf_writeBytes, wf_clearPoison, wf_setPoison, wf_store, wf_storeMaCells, Option.map_eq_some_iff, Option.bind_eq_some_iff]

theorem wf_placeProgram (ws : Nat) (want : Nat) (l : List Byte) (s : State) (hs : Memory.wf s.mem = true) :
    Memory.wf (placeProgram ws want l s).2.2.mem = true := by
  unfold placeProgram; extract_lets emin emax k pages es wpages okSize room win; split
  · rename_i at_ t h
    rw [mem_putProgram, mem_setPages]
    simp only [win] at h
    split at h
    · cases h; exact hs
    · rw [Option.map_eq_some_iff] at h; obtain ⟨r, hr, h⟩ := h; cases h
      exact wf_allocWindow _ _ _ _ hs _ hr
  · rw [mem_loadReject]; exact hs

theorem wf_loadProgram (ws : Nat) (bytes : Nat) (want : Nat) (l : List Byte) (s : State) (hs : Memory.wf s.mem = true) :
    Memory.wf (loadProgram ws bytes want l s).2.2.mem = true := by
  grind [loadProgram, mem_putProgram, mem_loadReject, wf_placeProgram, wf_same, wf_cells, wf_writeByte, wf_writeBytes, wf_clearPoison,
    wf_setPoison, wf_store, wf_storeMaCells]

theorem wf_stageBlock (s : State) (x : Session) (y : Block) (hs : Memory.wf s.mem = true) :
    Memory.wf (stageBlock s x y).mem = true := by
  unfold stageBlock; (repeat' split) <;> simp [wf_storeMa, 
    hs]

theorem wf_servePartial (s : State) (q : SubIn) (hs : Memory.wf s.mem = true) :
    Memory.wf (servePartial s q).mem = true := by
  unfold servePartial; split
  · rw [mem_replySub]; exact hs
  · extract_lets H d r R mine lost
    split
    · rw [mem_replySub]; exact hs
    · split
      · exact hs
      · rw [mem_replySub]
        refine wf_foldl _ ?_ _ _ hs
        intro a b ha; split
        · exact wf_stageBlock _ _ _ ha
        · exact ha

theorem wf_reserveAttn (s : State) (handle : Nat) (hs : Memory.wf s.mem = true) :
    Memory.wf (reserveAttn s handle).mem = true := by
  unfold reserveAttn; refine wf_foldl _ ?_ _ _ hs; intro a b ha; (repeat' split) <;> first
    | grind [wf_servePartial, mem_serveScore, wf_same, wf_cells, wf_writeByte, wf_writeBytes, wf_clearPoison, wf_setPoison, wf_store,
        wf_storeMaCells]
    | simp [wf_servePartial, mem_serveScore, mem_foldl, wf_foldl, wf_foldlM, wf_same, wf_cells, wf_writeByte, wf_writeBytes,
        wf_clearPoison, wf_setPoison, wf_store, wf_storeMaCells, hs]
    | simp_all [wf_servePartial, mem_serveScore, mem_foldl, wf_foldl, wf_foldlM, wf_same, wf_cells, wf_writeByte, wf_writeBytes,
        wf_clearPoison, wf_setPoison, wf_store, wf_storeMaCells]

theorem wf_rebuildBlock (ws : Nat) (key : Nat) (layer : Nat) (head : Nat) (block : Nat) (src : Option JournalEnt) (s : State)
  (hs : Memory.wf s.mem = true) :
    Memory.wf (rebuildBlock ws key layer head block src s).mem = true := by
  unfold rebuildBlock; (repeat' split) <;> grind [mem_putSession, wf_reserveAttn, → wf_writeRebuilt, wf_same, wf_cells, wf_writeByte,
    wf_writeBytes, wf_clearPoison, wf_setPoison, wf_store, wf_storeMaCells]

theorem wf_execBlockRebuild (ws : Nat) (key : Nat) (layer : Nat) (head : Nat) (block : Nat) (src : Option JournalEnt) (s : State)
  (hs : Memory.wf s.mem = true) :
    ∀ rr, execBlockRebuild ws key layer head block src s = .next rr → Memory.wf (rr).mem = true := by
  intro r h; unfold execBlockRebuild at h; grind [wf_rebuildBlock, mem_when, wf_when, wf_same, wf_cells, wf_writeByte, wf_writeBytes,
    wf_clearPoison, wf_setPoison, wf_store, wf_storeMaCells]

theorem wf_copyGranules (src : Nat) (dst : Nat) (n : Nat) (s : State) (hs : Memory.wf s.mem = true) :
    Memory.wf (copyGranules src dst n s).mem = true := by
  unfold copyGranules; (repeat' split) <;> simp_all [wf_storeMa, wf_foldlM, 
    wf_setPoison]

theorem wf_appendEntry (s : State) (ma : Nat) (key : Nat) (value : Nat) (ins : Nat) (del : Nat) (hs : Memory.wf s.mem = true) :
    Memory.wf (appendEntry s ma key value ins del).mem = true := by
  simp [appendEntry, wf_storeMa, 
    hs]

theorem wf_bucketRoom (s : State) (x : Index) (c : Copy) (b : Nat) (hs : Memory.wf s.mem = true) :
    ∀ rr, bucketRoom s x c b = some rr → Memory.wf (rr).2.2.mem = true := by
  intro r h; unfold bucketRoom at h; dsimp only at h; split at h
  · cases h
  · split at h
    · cases h; exact hs
    · split at h
      · cases h
      · rw [Option.map_eq_some_iff] at h; obtain ⟨a, ha, h⟩ := h; cases h
        exact wf_storeMa _ _ _ (wf_storeMa _ _ _ (wf_takeOnUnit _ _ _ _ hs _ ha))

theorem wf_placeItem (idx : Nat) (x : Index) (mirror : Bool) (it : RebuildItem) (c : Copy) (s : State) (hs : Memory.wf s.mem = true) :
    ∀ rr, placeItem idx x mirror it c s = some rr → Memory.wf (rr).2.mem = true := by
  intro r h; unfold placeItem at h; split at h
  · simp only [Option.map_eq_some_iff] at h; obtain ⟨a, ha, h⟩ := h; subst h
    exact wf_appendEntry _ _ _ _ _ _ (wf_bucketRoom _ _ _ _ hs _ ha)
  · simp only [Option.bind_eq_some_iff, Option.map_eq_some_iff] at h
    obtain ⟨a, ha, b, hb, c, hc, h⟩ := h; subst h
    exact wf_writeSlot _ _ _ _ _ (wf_keepVector _ _ _ _ _ _ _
      (wf_nextSlot _ _ _ _ _ (wf_ordPageFor _ _ _ _ hs _ ha) _ hb) _ hc)

theorem wf_placeItems (idx : Nat) (x : Index) (mirror : Bool) (x3 : List RebuildItem) (x4 : Copy) (x5 : State)
  (hs : Memory.wf x5.mem = true) :
    ∀ rr, placeItems idx x mirror x3 x4 x5 = some rr → Memory.wf (rr).2.mem = true := by
  induction x3 generalizing x4 x5 with
  | nil => intro r h; cases h; exact hs
  | cons it t ih =>
    intro r h; unfold placeItems at h; simp only [Option.bind_eq_some_iff] at h; obtain ⟨a, ha, h⟩ := h
    exact ih _ _ (wf_placeItem _ _ _ _ _ _ hs _ ha) _ h

theorem wf_fillIndex (idx : Nat) (mirror : Bool) (src : RebuildSource) (x : Index) (c : Copy) (s : State) (hs : Memory.wf s.mem = true) :
    ∀ rr, fillIndex idx mirror src x c s = some rr → Memory.wf (rr).mem = true := by
  intro r h; unfold fillIndex at h; (repeat' split at h) <;> grind [→ wf_placeItems, mem_putCopy, wf_same, wf_cells, wf_writeByte,
    wf_writeBytes, wf_clearPoison, wf_setPoison, wf_store, wf_storeMaCells, Option.map_eq_some_iff, Option.bind_eq_some_iff]

theorem wf_fillTable (h : Nat) (mirror : Bool) (src : RebuildSource) (t : Table) (s : State) (hs : Memory.wf s.mem = true) :
    Memory.wf (fillTable h mirror src t s).mem = true := by
  unfold fillTable; extract_lets written counted
  have h1 : Memory.wf written.mem = true := by
    refine wf_foldl _ ?_ _ _ hs
    intro a b ha; split
    · exact wf_storeMa _ _ _ ha
    · exact ha
  have h2 : Memory.wf counted.mem = true := by
    simp only [counted]; rw [mem_foldl _ (fun _ _ => mem_modVersion _ _ _ _)]; exact h1
  split
  · rw [mem_putTable]; exact h2
  · exact h2

theorem wf_takeSource (obj : Nat) (table : Bool) (mirror : Bool) (src : RebuildSource) (gid : Nat) (shard : Nat) (s : State)
  (hs : Memory.wf s.mem = true) :
    Memory.wf (takeSource obj table mirror src gid shard s).mem = true := by
  unfold takeSource; split
  · rw [mem_shardLost]; exact hs
  · split
    · split
      · exact wf_fillTable _ _ _ _ _ hs
      · exact hs
    · split
      · rename_i x c _
        cases hh : fillIndex obj mirror src x c s with
        | none => exact hs
        | some t => exact wf_fillIndex _ _ _ _ _ _ hs _ hh
      · exact hs

theorem wf_rebuildCopy (obj : Nat) (table : Bool) (mirror : Bool) (src : RebuildSource) (s : State) (hs : Memory.wf s.mem = true) :
    Memory.wf (rebuildCopy obj table mirror src s).mem = true := by
  unfold rebuildCopy; (repeat' split) <;> simp [mem_submit, mem_dropActivity, wf_takeSource, 
    hs]

theorem wf_spillOne (ws : Nat) (key : Nat) (s : State) (hs : Memory.wf s.mem = true) :
    Memory.wf (spillOne ws key s).mem = true := by
  grind [spillOne, mem_settleOldKv, mem_putSession, wf_storeMa, mem_streamWrite, wf_same, wf_cells, wf_writeByte, wf_writeBytes,
    wf_clearPoison, wf_setPoison, wf_store, wf_storeMaCells]

theorem wf_execKvSpill (ws : Nat) (key : Nat) (s : State) (hs : Memory.wf s.mem = true) :
    ∀ rr, execKvSpill ws key s = .next rr → Memory.wf (rr).mem = true := by
  intro r h; unfold execKvSpill at h; grind [mem_when, wf_when, wf_spillOne, wf_same, wf_cells, wf_writeByte, wf_writeBytes,
    wf_clearPoison, wf_setPoison, wf_store, wf_storeMaCells]

theorem wf_ucodeSwitch (u : Nat) (s : State) (hs : Memory.wf s.mem = true) :
    Memory.wf (ucodeSwitch u s).mem = true := by
  grind [ucodeSwitch, mem_putUnit, mem_emitDev, mem_finishTicket, mem_dropActivity, wf_same, wf_cells, wf_writeByte, wf_writeBytes,
    wf_clearPoison, wf_setPoison, wf_store, wf_storeMaCells]

theorem wf_moveRegion (page : Nat) (ok : Nat → Bool) (s : State) (hs : Memory.wf s.mem = true) :
    Memory.wf (moveRegion page ok s).mem = true := by
  unfold moveRegion; split
  · exact hs
  · split
    · exact hs
    · rename_i q t h
      rw [Option.bind_eq_some_iff] at h; obtain ⟨u, hu, h⟩ := h
      have h1 := wf_allocMarver _ _ _ _ hs _ h
      extract_lets
      refine wf_clearPages _ _ _ ?_
      rw [mem_freePages]; refine wf_remapChains _ _ _ _ ?_
      refine Eq.trans (congrArg _ (mem_remapAll _ _ _ _)) ?_
      refine wf_foldlM _ (fun _ _ hh => wf_setPoison _ _ hh) _ _ ?_
      exact wf_storeMa _ _ _ h1

theorem wf_bankMove (page : Nat) (unit : Nat) (s : State) (hs : Memory.wf s.mem = true) :
    Memory.wf (bankMove page unit s).mem = true := by
  grind [bankMove, mem_dropActivity, wf_moveRegion, wf_same, wf_cells, wf_writeByte, wf_writeBytes, wf_clearPoison, wf_setPoison,
    wf_store, wf_storeMaCells]

theorem wf_forward (s : State) (r : Rec) (hs : Memory.wf s.mem = true) :
    Memory.wf (forward s r).mem = true := by
  simp only [forward]; (repeat' split) <;> first
    | grind [mem_sendPacket, wf_same, wf_cells, wf_writeByte, wf_writeBytes, wf_clearPoison, wf_setPoison, wf_store, wf_storeMaCells]
    | simp [mem_sendPacket, mem_foldl, 
        hs]

theorem wf_writeRecord (s : State) (ev : Event) (rep : Nat) (hs : Memory.wf s.mem = true) :
    Memory.wf (writeRecord s ev rep).mem = true := by
  grind [writeRecord, mem_assertAlarm, wf_forward, wf_same, wf_cells, wf_writeByte, wf_writeBytes, wf_clearPoison, wf_setPoison,
    wf_store, wf_storeMaCells]

theorem wf_recordEvent (s : State) (ev : Event) (hs : Memory.wf s.mem = true) :
    Memory.wf (recordEvent s ev).mem = true := by
  unfold recordEvent; extract_lets u; generalize classOf ev.code = c; split
  · split
    · exact hs
    · split
      · exact wf_writeRecord _ _ _ hs
      · rw [mem_markDrop]; exact hs
  · split
    · exact wf_writeRecord _ _ _ hs
    · rw [mem_foldEvent]; exact hs
  · split
    · exact wf_writeRecord _ _ _ hs
    · rw [mem_latchEvent]; exact hs

theorem wf_intakeOne (s : State) (hs : Memory.wf s.mem = true) :
    Memory.wf (intakeOne s).mem = true := by
  unfold intakeOne; (repeat' split) <;> simp [wf_recordEvent, 
    hs]

theorem wf_freeWsPages (s : State) (ws : Nat) (hs : Memory.wf s.mem = true) :
    Memory.wf (freeWsPages s ws).mem = true := by
  unfold freeWsPages; (repeat' split) <;> simp_all [wf_clearPages, mem_finishAll, mem_freePages, wf_foldl
    ]

theorem wf_markEntry (s : State) (ma : Nat) (i : Nat) (epoch : Nat) (hs : Memory.wf s.mem = true) :
    Memory.wf (markEntry s ma i epoch).mem = true := by
  grind [markEntry, wf_storeMa, wf_same, wf_cells, wf_writeByte, wf_writeBytes, wf_clearPoison, wf_setPoison, wf_store, wf_storeMaCells]

theorem wf_markSlot (s : State) (x : Index) (ma : Nat) (i : Nat) (epoch : Nat) (hs : Memory.wf s.mem = true) :
    Memory.wf (markSlot s x ma i epoch).mem = true := by
  grind [markSlot, wf_storeMa, wf_same, wf_cells, wf_writeByte, wf_writeBytes, wf_clearPoison, wf_setPoison, wf_store, wf_storeMaCells]

theorem wf_markOne (x : Index) (epoch : Nat) (ma : Nat) (i : Nat) (c : MarverCtx) (s : State) (hs : Memory.wf s.mem = true) :
    Memory.wf (markOne x epoch ma i c s).2.mem = true := by
  grind [markOne, wf_markEntry, wf_markSlot, wf_same, wf_cells, wf_writeByte, wf_writeBytes, wf_clearPoison, wf_setPoison, wf_store,
    wf_storeMaCells]

theorem wf_markGo (x : Index) (x1 : Nat) (x2 : MarverCtx) (x3 : State) (hs : Memory.wf x3.mem = true) :
    Memory.wf (markGo x x1 x2 x3).2.mem = true := by
  fun_induction markGo <;> grind [wf_markOne, wf_same, wf_cells, wf_writeByte, wf_writeBytes, wf_clearPoison, wf_setPoison, wf_store,
    wf_storeMaCells]

theorem wf_hostSlot (u : Nat) (a : HostAccess) (s : State) (hs : Memory.wf s.mem = true) :
    Memory.wf (hostSlot u a s).mem = true := by
  unfold hostSlot; extract_lets t t1
  have h1 : Memory.wf t.mem = true := wf_foldl _ (fun _ _ hh => wf_meetError _ _ hh) _ _ hs
  rw [mem_putUnit]
  refine wf_foldlM _ ?_ _ _ h1
  intro m w hm; split
  · exact hm
  · exact wf_store _ _ _ hm

theorem wf_execHostSlot (unit : Nat) (a : HostAccess) (s : State) (hs : Memory.wf s.mem = true) :
    ∀ rr, execHostSlot unit a s = .next rr → Memory.wf (rr).mem = true := by
  intro r h; unfold execHostSlot at h; grind [wf_hostSlot, mem_when, wf_when, mem_guarded, wf_same, wf_cells, wf_writeByte,
    wf_writeBytes, wf_clearPoison, wf_setPoison, wf_store, wf_storeMaCells]

theorem wf_appendEntryStep (ma : Nat) (x : Index) (c : MarverCtx) (s : State) (hs : Memory.wf s.mem = true) :
    Memory.wf (appendEntryStep ma x c s).2.mem = true := by
  grind [appendEntryStep, wf_appendEntry, wf_writeSlot, wf_same, wf_cells, wf_writeByte, wf_writeBytes, wf_clearPoison, wf_setPoison,
    wf_store, wf_storeMaCells]

theorem wf_markAll (s : State) (x : Index) (e : Nat) (l : List Locator) (hs : Memory.wf s.mem = true) :
    Memory.wf (markAll s x e l).mem = true := by
  unfold markAll; refine wf_foldl _ ?_ _ _ hs; intro a b ha; (repeat' split) <;> first
    | grind [wf_markSlot, wf_same, wf_cells, wf_writeByte, wf_writeBytes, wf_clearPoison, wf_setPoison, wf_store, wf_storeMaCells]
    | simp [wf_markSlot, mem_foldl, wf_foldl, wf_foldlM, wf_same, wf_cells, wf_writeByte, wf_writeBytes, wf_clearPoison, wf_setPoison,
        wf_store, wf_storeMaCells, hs]
    | simp_all [wf_markSlot, mem_foldl, wf_foldl, wf_foldlM, wf_same, wf_cells, wf_writeByte, wf_writeBytes, wf_clearPoison,
        wf_setPoison, wf_store, wf_storeMaCells]

theorem wf_applyDelete (s : State) (x : Index) (c : Copy) (e : Nat) (p : List Byte) (hs : Memory.wf s.mem = true) :
    Memory.wf (applyDelete s x c e p).2.2.2.mem = true := by
  unfold applyDelete; (repeat' split) <;> grind [wf_markAll, wf_same, wf_cells, wf_writeByte, wf_writeBytes, wf_clearPoison,
    wf_setPoison, wf_store, wf_storeMaCells]

theorem wf_applyHash (s : State) (x : Index) (c : Copy) (e : Nat) (put : Bool) (p : List Byte) (hs : Memory.wf s.mem = true) :
    Memory.wf (applyHash s x c e put p).2.2.2.mem = true := by
  unfold applyHash; extract_lets key b old mark
  have hm : ∀ t : State, Memory.wf t.mem = true → Memory.wf (mark t).mem = true :=
    fun t ht => wf_foldl _ (fun _ _ hh => wf_markEntry _ _ _ _ hh) _ _ ht
  split
  · exact hm s hs
  · split
    · exact hs
    · split
      · exact hs
      · rename_i h
        exact wf_appendEntry _ _ _ _ _ _ (hm _ (wf_bucketRoom _ _ _ _ hs _ h))

theorem wf_applyInsert (s : State) (idx : Nat) (x : Index) (mirror : Bool) (c : Copy) (e : Nat) (ordinal : Nat) (p : List Byte)
  (vec : List Nat) (hs : Memory.wf s.mem = true) :
    Memory.wf (applyInsert s idx x mirror c e ordinal p vec).2.2.2.mem = true := by
  unfold applyInsert; (repeat' split) <;> grind [wf_appendItem, wf_markAll, wf_same, wf_cells, wf_writeByte, wf_writeBytes,
    wf_clearPoison, wf_setPoison, wf_store, wf_storeMaCells]

theorem wf_applyChange (s : State) (idx : Nat) (x : Index) (mirror : Bool) (c : Copy) (kind : Nat) (e : Nat) (ordinal : Nat)
  (p : List Byte) (vec : List Nat) (hs : Memory.wf s.mem = true) :
    Memory.wf (applyChange s idx x mirror c kind e ordinal p vec).2.2.2.mem = true := by
  unfold applyChange; (repeat' split) <;> grind [wf_applyDelete, wf_applyHash, wf_applyInsert, wf_same, wf_cells, wf_writeByte,
    wf_writeBytes, wf_clearPoison, wf_setPoison, wf_store, wf_storeMaCells]

theorem wf_assignChange (s : State) (idx : Nat) (x : Index) (mirror : Bool) (c : Copy) (m : ChangeMsg) (txn : Nat)
  (hs : Memory.wf s.mem = true) :
    Memory.wf (assignChange s idx x mirror c m txn).mem = true := by
  unfold assignChange; (repeat' split) <;> grind [mem_journalChange, wf_applyChange, mem_putCopy, mem_answerChange, mem_sendChange,
    wf_same, wf_cells, wf_writeByte, wf_writeBytes, wf_clearPoison, wf_setPoison, wf_store, wf_storeMaCells]

theorem wf_allocRegions (ws : Nat) (units : List Nat) (x2 : List (Nat × Nat)) (x3 : State) (hs : Memory.wf x3.mem = true) :
    ∀ rr, allocRegions ws units x2 x3 = some rr → Memory.wf (rr).2.mem = true := by
  induction x2 generalizing x3 with
  | nil => intro r h; cases h; exact hs
  | cons p t ih =>
    obtain ⟨u, n⟩ := p
    intro r h; unfold allocRegions at h; simp only [Option.bind_eq_some_iff, Option.map_eq_some_iff] at h
    obtain ⟨a, ha, b, hb, h⟩ := h; subst h
    exact ih _ (wf_allocMarver _ _ _ _ hs _ ha) b hb

theorem wf_targetRegions (h : Nat) (shard : Nat) (mirror : Bool) (x3 : List Nat) (x4 : State) (hs : Memory.wf x4.mem = true) :
    ∀ rr, targetRegions h shard mirror x3 x4 = some rr → Memory.wf (rr).mem = true := by
  induction x3 generalizing x4 with
  | nil => intro r h; cases h; exact hs
  | cons v vs ih =>
    intro r h; unfold targetRegions at h; split at h
    · cases h; exact hs
    · split at h
      · exact ih _ hs _ h
      · extract_lets freed at h
        have hf : Memory.wf freed.mem = true := by
          simp only [freed]; rw [mem_foldl _ (fun _ _ => mem_freePages _ _)]; exact hs
        rw [Option.bind_eq_some_iff] at h; obtain ⟨a, ha, h⟩ := h
        exact ih _ (by rw [mem_modVersion]; exact wf_allocRegions _ _ _ _ hf _ ha) _ h

theorem wf_targetTable (h : Nat) (shard : Nat) (s : State) (hs : Memory.wf s.mem = true) :
    Memory.wf (targetTable h shard s).2.mem = true := by
  simp only [targetTable]; (repeat' split) <;> first
    | grind [wf_targetRegions, mem_putTable, wf_same, wf_cells, wf_writeByte, wf_writeBytes, wf_clearPoison, wf_setPoison, wf_store,
        wf_storeMaCells]
    | simp [wf_targetRegions, mem_putTable, mem_foldl, wf_foldl, wf_foldlM, wf_same, wf_cells, wf_writeByte, wf_writeBytes,
        wf_clearPoison, wf_setPoison, wf_store, wf_storeMaCells, hs]

theorem wf_targetIndex (idx : Nat) (shard : Nat) (s : State) (hs : Memory.wf s.mem = true) :
    Memory.wf (targetIndex idx shard s).2.mem = true := by
  unfold targetIndex; (repeat' split) <;> grind [mem_copyStreams, mem_putIndex, mem_freeCopy, → wf_startCopy, wf_same, wf_cells,
    wf_writeByte, wf_writeBytes, wf_clearPoison, wf_setPoison, wf_store, wf_storeMaCells]

theorem wf_takeTargets (gid : Nat) (shards : List Nat) (s : State) (hs : Memory.wf s.mem = true) :
    Memory.wf (takeTargets gid shards s).2.mem = true := by
  unfold takeTargets; extract_lets ix tb
  refine wf_foldl_snd _ ?_ _ _ hs
  intro a k ha
  refine wf_foldl_snd _ ?_ _ _ (wf_foldl_snd _ ?_ _ _ ha)
  · intro q h hq; exact wf_targetTable _ _ _ hq
  · intro q i hq; exact wf_targetIndex _ _ _ hq

theorem wf_announceGroup (m : Membership) (s : State) (hs : Memory.wf s.mem = true) :
    Memory.wf (announceGroup m s).mem = true := by
  simp [announceGroup, mem_resendChanges, mem_sendMsg, mem_installGroup, mem_promote, mem_moveSessions, wf_takeTargets,
    mem_markSuspect, mem_recheckRuns, mem_reforward, mem_foldl, 
    hs]

theorem wf_takeMembership (m : Membership) (pools : Option (List (List Nat × Bool))) (s : State) (hs : Memory.wf s.mem = true) :
    Memory.wf (takeMembership m pools s).mem = true := by
  grind [takeMembership, mem_sendMsg, mem_takePools, wf_announceGroup, mem_takeInbox, wf_same, wf_cells, wf_writeByte, wf_writeBytes,
    wf_clearPoison, wf_setPoison, wf_store, wf_storeMaCells]

theorem wf_readBootFlash (flash : Option BootFlash) (s : State) (hs : Memory.wf s.mem = true) :
    Memory.wf (readBootFlash flash s).mem = true := by
  grind [readBootFlash, mem_emitDev, wf_same, wf_cells, wf_writeByte, wf_writeBytes, wf_clearPoison, wf_setPoison, wf_store,
    wf_storeMaCells]

theorem wf_fwStage (c : Ctx) (s : State) (hs : Memory.wf s.mem = true) :
    Memory.wf (fwStage c s).2.mem = true := by
  unfold fwStage; extract_lets d kind l a room run
  have hr : Memory.wf run.2.mem = true := by
    simp only [run, room]; split
    · exact hs
    · rename_i p t h
      have h1 := wf_allocWindow _ _ _ _ (by rw [mem_dropStaged]; exact hs) _ h
      refine Eq.trans (congrArg _ (mem_submit _ _)) ?_
      exact wf_store _ _ _ h1
  exact wf_checked _ _ _ hr hs

theorem wf_execEntryTrip (cause : Nat) (s : State) (hs : Memory.wf s.mem = true) :
    ∀ rr, execEntryTrip cause s = .next rr → Memory.wf (rr).mem = true := by
  intro r h; unfold execEntryTrip at h; grind [mem_loseBuffers, mem_when, wf_when, mem_guarded, wf_railsOff, wf_same, wf_cells,
    wf_writeByte, wf_writeBytes, wf_clearPoison, wf_setPoison, wf_store, wf_storeMaCells]

theorem wf_writeLatch (s : State) (hs : Memory.wf s.mem = true) :
    Memory.wf (writeLatch s).mem = true := by
  unfold writeLatch; (repeat' split) <;> simp [wf_writeRecord, 
    hs]

theorem wf_rejectHead (fn : Nat) (r : Nat) (s : State) (hs : Memory.wf s.mem = true) :
    Memory.wf (rejectHead fn r s).mem = true := by
  grind [rejectHead, mem_putRing, wf_postEntry, wf_same, wf_cells, wf_writeByte, wf_writeBytes, wf_clearPoison, wf_setPoison, wf_store,
    wf_storeMaCells]

theorem wf_loadBook (ws : Nat) (layers : Nat) (heads : Nat) (dim : Nat) (l : List Byte) (s : State) (hs : Memory.wf s.mem = true) :
    Memory.wf (loadBook ws layers heads dim l s).2.2.mem = true := by
  unfold loadBook; split
  · exact hs
  · split
    · dsimp only; rw [mem_putBook]; exact hs
    · extract_lets n; split
      · exact hs
      · rename_i p t h; split at h
        · rw [mem_putBook]; exact wf_store _ _ _ (wf_allocWindow _ _ _ _ hs _ h)
        · exact absurd h (by simp)

theorem wf_writeBack (ma : Nat) (c : MarverCtx) (s : State) (hs : Memory.wf s.mem = true) :
    Memory.wf (writeBack ma c s).2.mem = true := by
  simp [writeBack, wf_storeMa, 
    hs]

theorem wf_gradStep (x0 : Nat) (c : MarverCtx) (s : State) (hs : Memory.wf s.mem = true) :
    Memory.wf (gradStep x0 c s).2.mem = true := by
  grind [gradStep, wf_writeBack, wf_same, wf_cells, wf_writeByte, wf_writeBytes, wf_clearPoison, wf_setPoison, wf_store, wf_storeMaCells]

theorem wf_execGradRmw (unit : Nat) (errs : List MemErr) (s : State) (hs : Memory.wf s.mem = true) :
    ∀ rr, execGradRmw unit errs s = .next rr → Memory.wf (rr).mem = true := by
  intro r h; unfold execGradRmw at h; grind [wf_marverRow, wf_gradStep, wf_same, wf_cells, wf_writeByte, wf_writeBytes, wf_clearPoison,
    wf_setPoison, wf_store, wf_storeMaCells]

theorem wf_memWrite (s : State) (p : Packet) (hs : Memory.wf s.mem = true) :
    Memory.wf (memWrite s p).mem = true := by
  grind [memWrite, mem_takeMsg, mem_sendTxn, mem_refuseAccess, wf_same, wf_cells, wf_writeByte, wf_writeBytes, wf_clearPoison,
    wf_setPoison, wf_store, wf_storeMaCells]

theorem wf_grantResult (s : State) (hs : Memory.wf s.mem = true) :
    Memory.wf (grantResult s).mem = true := by
  unfold grantResult; (repeat' split) <;> simp [wf_writeBuf, 
    hs]

theorem wf_grantChannel (s : State) (c : Nat) (hs : Memory.wf s.mem = true) :
    Memory.wf (grantChannel s c).mem = true := by
  grind [grantChannel, wf_settleChannel, mem_violation, mem_sendBurst, mem_putChan, wf_same, wf_cells, wf_writeByte, wf_writeBytes,
    wf_clearPoison, wf_setPoison, wf_store, wf_storeMaCells]

theorem wf_moveGrant (s : State) (hs : Memory.wf s.mem = true) :
    Memory.wf (moveGrant s).mem = true := by
  unfold moveGrant; (repeat' split) <;> simp [wf_grantResult, wf_grantChannel, 
    hs]

theorem wf_execMoveBurstIssue (s : State) (hs : Memory.wf s.mem = true) :
    ∀ rr, execMoveBurstIssue s = .next rr → Memory.wf (rr).mem = true := by
  intro r h; unfold execMoveBurstIssue at h; grind [wf_moveGrant, mem_when, wf_when, wf_same, wf_cells, wf_writeByte, wf_writeBytes,
    wf_clearPoison, wf_setPoison, wf_store, wf_storeMaCells]

theorem wf_copyBurst (k : Nat) (c : MarverCtx) (s : State) (hs : Memory.wf s.mem = true) :
    Memory.wf (copyBurst k c s).2.mem = true := by
  simp [copyBurst, wf_copyGranules, 
    hs]

theorem wf_busStep (u : Nat) (c : MarverCtx) (s : State) (hs : Memory.wf s.mem = true) :
    Memory.wf (busStep u c s).2.mem = true := by
  grind [busStep, wf_bankMove, wf_copyBurst, wf_same, wf_cells, wf_writeByte, wf_writeBytes, wf_clearPoison, wf_setPoison, wf_store,
    wf_storeMaCells]

theorem wf_grantDieBus (die : Nat) (base : Bool) (errs : List MemErr) (s : State) (hs : Memory.wf s.mem = true) :
    Memory.wf (grantDieBus die base errs s).mem = true := by
  grind [grantDieBus, wf_busStep, mem_endStep, wf_meetErrs, wf_same, wf_cells, wf_writeByte, wf_writeBytes, wf_clearPoison, wf_setPoison,
    wf_store, wf_storeMaCells]

theorem wf_execDiebusXfer (die : Nat) (base : Bool) (errs : List MemErr) (s : State) (hs : Memory.wf s.mem = true) :
    ∀ rr, execDiebusXfer die base errs s = .next rr → Memory.wf (rr).mem = true := by
  intro r h; unfold execDiebusXfer at h; grind [mem_when, wf_when, wf_grantDieBus, mem_guarded, wf_same, wf_cells, wf_writeByte,
    wf_writeBytes, wf_clearPoison, wf_setPoison, wf_store, wf_storeMaCells]

theorem wf_execScan8 (unit : Nat) (errs : List MemErr) (s : State) (hs : Memory.wf s.mem = true) :
    ∀ rr, execScan8 unit errs s = .next rr → Memory.wf (rr).mem = true := by
  intro r h; unfold execScan8 at h; grind [mem_scanStep, wf_marverRow, wf_same, wf_cells, wf_writeByte, wf_writeBytes, wf_clearPoison,
    wf_setPoison, wf_store, wf_storeMaCells]

theorem wf_windDown (s : State) (fn : Nat) (hs : Memory.wf s.mem = true) :
    Memory.wf (windDown s fn).mem = true := by
  unfold windDown; refine wf_foldl _ ?_ _ _ hs; intro a b ha; (repeat' split) <;> first
    | grind [mem_putRing, wf_drainChannel, mem_settleRing, mem_closeChannel, wf_same, wf_cells, wf_writeByte, wf_writeBytes,
        wf_clearPoison, wf_setPoison, wf_store, wf_storeMaCells]
    | simp [mem_putRing, wf_drainChannel, mem_settleRing, mem_closeChannel, mem_foldl, wf_foldl, wf_foldlM, wf_same, wf_cells,
        wf_writeByte, wf_writeBytes, wf_clearPoison, wf_setPoison, wf_store, wf_storeMaCells, hs]
    | simp_all [mem_putRing, wf_drainChannel, mem_settleRing, mem_closeChannel, mem_foldl, wf_foldl, wf_foldlM, wf_same, wf_cells,
        wf_writeByte, wf_writeBytes, wf_clearPoison, wf_setPoison, wf_store, wf_storeMaCells]

theorem wf_disableFn (s : State) (fn : Nat) (tickets : List TicketRef) (hs : Memory.wf s.mem = true) :
    Memory.wf (disableFn s fn tickets).mem = true := by
  simp [disableFn, mem_putFn, wf_windDown, 
    hs]

theorem wf_funcDisable (c : Ctx) (s : State) (hs : Memory.wf s.mem = true) :
    Memory.wf (funcDisable c s).2.mem = true := by
  unfold funcDisable
  refine wf_checked _ _ _ ?_ hs
  split
  · exact wf_disableFn _ _ _ hs
  · split <;> (dsimp only; (try rw [mem_putFn]); split <;>
      first | exact hs | (rw [mem_finishAll, mem_putFn]; exact hs))

theorem wf_execFuncDisable (m : MsgSrc) (s : State) (hs : Memory.wf s.mem = true) :
    ∀ rr, execFuncDisable m s = .next rr → Memory.wf (rr).mem = true := by
  intro r h; unfold execFuncDisable at h; grind [wf_funcDisable, mem_serve, wf_serve, wf_same, wf_cells, wf_writeByte, wf_writeBytes,
    wf_clearPoison, wf_setPoison, wf_store, wf_storeMaCells]

theorem wf_regionAlloc (c : Ctx) (s : State) (hs : Memory.wf s.mem = true) :
    Memory.wf (regionAlloc c s).2.mem = true := by
  unfold regionAlloc; extract_lets n w got run
  have hr : Memory.wf run.2.mem = true := by
    simp only [run, got]; split
    · rename_i p t h; dsimp only; rw [mem_putWs]; exact wf_allocWindow _ _ _ _ hs _ h
    · exact hs
  exact wf_checked _ _ _ hr hs

theorem wf_appendStep (x0 : Nat) (c : MarverCtx) (s : State) (hs : Memory.wf s.mem = true) :
    Memory.wf (appendStep x0 c s).2.mem = true := by
  grind [appendStep, wf_appendEntryStep, wf_storeMa, wf_same, wf_cells, wf_writeByte, wf_writeBytes, wf_clearPoison, wf_setPoison,
    wf_store, wf_storeMaCells]

theorem wf_execMarverAppend (unit : Nat) (errs : List MemErr) (s : State) (hs : Memory.wf s.mem = true) :
    ∀ rr, execMarverAppend unit errs s = .next rr → Memory.wf (rr).mem = true := by
  intro r h; unfold execMarverAppend at h; grind [wf_marverRow, wf_appendStep, wf_same, wf_cells, wf_writeByte, wf_writeBytes,
    wf_clearPoison, wf_setPoison, wf_store, wf_storeMaCells]

theorem wf_takeAllEvents (x0 : Nat) (x1 : State) (hs : Memory.wf x1.mem = true) :
    Memory.wf (takeAllEvents x0 x1).mem = true := by
  fun_induction takeAllEvents <;> simp_all [wf_intakeOne
    ]

theorem wf_execMarverPool (unit : Nat) (errs : List MemErr) (s : State) (hs : Memory.wf s.mem = true) :
    ∀ rr, execMarverPool unit errs s = .next rr → Memory.wf (rr).mem = true := by
  intro r h; unfold execMarverPool at h; grind [mem_poolStep, wf_marverRow, wf_same, wf_cells, wf_writeByte, wf_writeBytes,
    wf_clearPoison, wf_setPoison, wf_store, wf_storeMaCells]

theorem wf_loadRow (s : State) (t : Table) (x : Version) (r : List Byte) (hs : Memory.wf s.mem = true) :
    Memory.wf (loadRow s t x r).mem = true := by
  unfold loadRow; (repeat' split) <;> simp [mem_sendRow, wf_writeRows, 
    hs]

theorem wf_runLoad (s : State) (h : Nat) (t : Table) (x : Version) (dpa : Nat) (first : Nat) (n : Nat) (hs : Memory.wf s.mem = true) :
    Memory.wf (runLoad s h t x dpa first n).2.mem = true := by
  unfold runLoad; extract_lets g j; split
  · exact hs
  · refine wf_foldl _ (fun _ _ hh => wf_loadRow _ _ _ _ hh) _ _ ?_
    simp only [j]; rw [mem_journalLoad]; exact hs

theorem wf_postSlot (s : State) (x : Slot) (e : List Byte) (hs : Memory.wf s.mem = true) :
    Memory.wf (postSlot s x e).mem = true := by
  unfold postSlot; (repeat' split) <;> simp [mem_sendReq, wf_postEntry, 
    hs]

theorem wf_burstWrite (s : State) (ma : Bool) (a : Nat) (data : List Byte) (hs : Memory.wf s.mem = true) :
    Memory.wf (burstWrite s ma a data).mem = true := by
  unfold burstWrite; (repeat' split) <;> simp [wf_storeMa, 
    wf_store, hs]

theorem wf_burstEnd (s : State) (c : Nat) (j : MoveJob) (b : Burst) (h : HostAnswer) (hs : Memory.wf s.mem = true) :
    Memory.wf (burstEnd s c j b h).mem = true := by
  simp only [burstEnd]; (repeat' split) <;> first
    | grind [wf_burstWrite, mem_sendBurst, mem_putChan, wf_same, wf_cells, wf_writeByte, wf_writeBytes, wf_clearPoison, wf_setPoison,
        wf_store, wf_storeMaCells]
    | simp [wf_burstWrite, mem_sendBurst, mem_putChan, mem_foldl, wf_foldl, wf_foldlM, wf_same, wf_cells, wf_writeByte, wf_writeBytes,
        wf_clearPoison, wf_setPoison, wf_store, wf_storeMaCells, hs]

theorem wf_execMoveBurstDone (chan : Nat) (off : Nat) (h : HostAnswer) (s : State) (hs : Memory.wf s.mem = true) :
    ∀ rr, execMoveBurstDone chan off h s = .next rr → Memory.wf (rr).mem = true := by
  intro r h; unfold execMoveBurstDone at h; grind [wf_settleChannel, wf_burstEnd, mem_when, wf_when, mem_guarded, wf_same, wf_cells,
    wf_writeByte, wf_writeBytes, wf_clearPoison, wf_setPoison, wf_store, wf_storeMaCells]

theorem wf_dropSummary (s : State) (hs : Memory.wf s.mem = true) :
    Memory.wf (dropSummary s).mem = true := by
  grind [dropSummary, wf_recordEvent, wf_same, wf_cells, wf_writeByte, wf_writeBytes, wf_clearPoison, wf_setPoison, wf_store,
    wf_storeMaCells]

theorem wf_takeChange (s : State) (idx : Nat) (x : Index) (mirror : Bool) (c : Copy) (m : ChangeMsg) (txn : Nat)
  (hs : Memory.wf s.mem = true) :
    Memory.wf (takeChange s idx x mirror c m txn).mem = true := by
  unfold takeChange; (repeat' split) <;> grind [mem_journalChange, wf_applyChange, mem_sendWhole, mem_putCopy, wf_same, wf_cells,
    wf_writeByte, wf_writeBytes, wf_clearPoison, wf_setPoison, wf_store, wf_storeMaCells]

theorem wf_releaseSlot (n : Nat) (s : State) (hs : Memory.wf s.mem = true) :
    Memory.wf (releaseSlot n s).mem = true := by
  unfold releaseSlot; (repeat' split) <;> simp [wf_postSlot, mem_dropSlot, mem_releaseRefs, mem_freeJacks, mem_dropStub, 
    hs]

theorem wf_indexCreate (c : Ctx) (s : State) (hs : Memory.wf s.mem = true) :
    Memory.wf (indexCreate c s).2.mem = true := by
  unfold indexCreate
  refine wf_checked _ _ _ ?_ hs
  split
  · rename_i h; exact wf_buildIndex _ _ _ hs _ h
  · exact hs

theorem wf_indexStats (c : Ctx) (s : State) (hs : Memory.wf s.mem = true) :
    Memory.wf (indexStats c s).2.mem = true := by
  unfold indexStats; extract_lets d
  refine wf_withIndex _ _ _ _ ?_ hs
  intro x hx; split
  · exact wf_checked _ _ _ (wf_store _ _ _ hx) hx
  · exact hx

theorem wf_execUcodeSwitch (unit : Nat) (s : State) (hs : Memory.wf s.mem = true) :
    ∀ rr, execUcodeSwitch unit s = .next rr → Memory.wf (rr).mem = true := by
  intro r h; unfold execUcodeSwitch at h; grind [mem_when, wf_when, mem_guarded, wf_ucodeSwitch, wf_same, wf_cells, wf_writeByte,
    wf_writeBytes, wf_clearPoison, wf_setPoison, wf_store, wf_storeMaCells]

theorem wf_compactChunk (idx : Nat) (mirror : Bool) (x : Index) (c : Copy) (list : Nat) (seq : Nat) (s : State)
  (hs : Memory.wf s.mem = true) :
    Memory.wf (compactChunk idx mirror x c list seq s).mem = true := by
  unfold compactChunk; dsimp only; split
  · exact hs
  · split
    · exact hs
    · split
      · exact hs
      · rename_i dst d t hp
        have ht : Memory.wf t.mem = true := by
          split at hp
          · cases hp; exact hs
          · rw [Option.map_eq_some_iff] at hp; obtain ⟨a, ha, hp⟩ := hp; cases hp
            exact wf_placeChunk _ _ _ _ hs _ ha
        cases dst with
        | some a =>
          dsimp only; split
          · rw [mem_freeOldChunks, mem_putIndex, mem_putCopy, mem_trimOrdPages]
            exact wf_foldl _ (fun _ _ hh => wf_writeSlot _ _ _ _ _ hh) _ _ (wf_storeMa _ _ _ ht)
          · rw [mem_putCopy, mem_trimOrdPages]
            exact wf_foldl _ (fun _ _ hh => wf_writeSlot _ _ _ _ _ hh) _ _ (wf_storeMa _ _ _ ht)
        | none =>
          dsimp only; split
          · rw [mem_freeOldChunks, mem_putIndex, mem_putCopy, mem_trimOrdPages]
            exact ht
          · rw [mem_putCopy, mem_trimOrdPages]
            exact ht

theorem wf_compactBucket (x : Index) (c : Copy) (bucket : Nat) (pos : Nat) (s : State) (hs : Memory.wf s.mem = true) :
    Memory.wf (compactBucket x c bucket pos s).mem = true := by
  unfold compactBucket; split
  · exact hs
  · extract_lets h items kept; split
    · exact hs
    · exact wf_foldl _ (fun _ _ hh => wf_appendEntry _ _ _ _ _ _ hh) _ _
        (wf_storeMa _ _ _ hs)

theorem wf_compactRow (idx : Nat) (mirror : Bool) (list : Nat) (seq : Nat) (s : State) (hs : Memory.wf s.mem = true) :
    Memory.wf (compactRow idx mirror list seq s).mem = true := by
  unfold compactRow; (repeat' split) <;> simp [wf_compactChunk, wf_compactBucket, 
    hs]

theorem wf_execCompact (index : Nat) (mirror : Bool) (list : Nat) (seq : Nat) (s : State) (hs : Memory.wf s.mem = true) :
    ∀ rr, execCompact index mirror list seq s = .next rr → Memory.wf (rr).mem = true := by
  intro r h; unfold execCompact at h; grind [mem_when, wf_when, mem_guarded, wf_compactRow, wf_same, wf_cells, wf_writeByte,
    wf_writeBytes, wf_clearPoison, wf_setPoison, wf_store, wf_storeMaCells]

theorem wf_restart (s : State) (hs : Memory.wf s.mem = true) :
    Memory.wf (restart s).mem = true := by
  unfold restart; (repeat' split) <;> simp [mem_enterPower, wf_railsOff, 
    hs]

theorem wf_flushDone (s : State) (hs : Memory.wf s.mem = true) :
    Memory.wf (flushDone s).mem = true := by
  unfold flushDone; (repeat' split) <;> simp [wf_restart, mem_archiveForFlush, wf_takeAllEvents, wf_railsOff, mem_programBuffers,
    
    hs]

theorem wf_execFlushDone (s : State) (hs : Memory.wf s.mem = true) :
    ∀ rr, execFlushDone s = .next rr → Memory.wf (rr).mem = true := by
  intro r h; unfold execFlushDone at h; grind [mem_when, wf_when, wf_flushDone, wf_same, wf_cells, wf_writeByte, wf_writeBytes,
    wf_clearPoison, wf_setPoison, wf_store, wf_storeMaCells]

theorem wf_execMembership (m : Membership) (pools : Option (List (List Nat × Bool))) (s : State) (hs : Memory.wf s.mem = true) :
    ∀ rr, execMembership m pools s = .next rr → Memory.wf (rr).mem = true := by
  intro r h; unfold execMembership at h; grind [wf_takeMembership, wf_same, wf_cells, wf_writeByte, wf_writeBytes, wf_clearPoison,
    wf_setPoison, wf_store, wf_storeMaCells]

theorem wf_execEventIntake (s : State) (hs : Memory.wf s.mem = true) :
    ∀ rr, execEventIntake s = .next rr → Memory.wf (rr).mem = true := by
  intro r h; unfold execEventIntake at h; grind [mem_when, wf_when, wf_intakeOne, wf_same, wf_cells, wf_writeByte, wf_writeBytes,
    wf_clearPoison, wf_setPoison, wf_store, wf_storeMaCells]

theorem wf_runSlot (n : Nat) (x : Slot) (s : State) (hs : Memory.wf s.mem = true) :
    Memory.wf (runSlot n x s).mem = true := by
  unfold runSlot; (repeat' split) <;> simp [mem_finishModel, mem_launchHash, mem_launchQuery, mem_launchGather, wf_launchStep,
    mem_submitModel, 
    hs]

theorem wf_schedule (core : Nat) (s : State) (hs : Memory.wf s.mem = true) :
    Memory.wf (schedule core s).mem = true := by
  grind [schedule, wf_runSlot, wf_same, wf_cells, wf_writeByte, wf_writeBytes, wf_clearPoison, wf_setPoison, wf_store, wf_storeMaCells]

theorem wf_allocVersion (s : State) (t : Table) (hs : Memory.wf s.mem = true) :
    ∀ rr, allocVersion s t = some rr → Memory.wf (rr).2.mem = true := by
  intro r h; unfold allocVersion at h; (repeat' split at h) <;> grind [→ wf_allocWindow, → wf_allocRegions, wf_same, wf_cells,
    wf_writeByte, wf_writeBytes, wf_clearPoison, wf_setPoison, wf_store, wf_storeMaCells, Option.map_eq_some_iff, Option.bind_eq_some_iff]

theorem wf_stageRegions (c : Ctx) (s : State) (h : Nat) (t : Table) (hs : Memory.wf s.mem = true) :
    Memory.wf (stageRegions c s h t).2.mem = true := by
  unfold stageRegions; extract_lets copy
  refine wf_checked _ _ _ ?_ hs
  split
  · exact hs
  · rename_i x u h
    have h1 := wf_allocVersion _ _ hs _ h
    extract_lets put
    have hp : Memory.wf put.mem = true := by simp only [put]; rw [mem_putTable]; exact h1
    split
    · dsimp only; rw [mem_refVersion]; exact hp
    · exact hp

theorem wf_tableStage (c : Ctx) (s : State) (hs : Memory.wf s.mem = true) :
    Memory.wf (tableStage c s).2.mem = true := by
  grind [tableStage, mem_withTable, wf_withTable, mem_stagePool, wf_stageRegions, wf_same, wf_cells, wf_writeByte, wf_writeBytes,
    wf_clearPoison, wf_setPoison, wf_store, wf_storeMaCells]

theorem wf_execRingRejection (fn : Nat) (ring : Nat) (s : State) (hs : Memory.wf s.mem = true) :
    ∀ rr, execRingRejection fn ring s = .next rr → Memory.wf (rr).mem = true := by
  intro r h; unfold execRingRejection at h; grind [mem_guarded, wf_rejectHead, wf_same, wf_cells, wf_writeByte, wf_writeBytes,
    wf_clearPoison, wf_setPoison, wf_store, wf_storeMaCells]

theorem wf_abandonSub (n : Nat) (x : Slot) (o : SubOut) (s : State) (hs : Memory.wf s.mem = true) :
    Memory.wf (abandonSub n x o s).mem = true := by
  unfold abandonSub; (repeat' split) <;> simp [mem_hashAbandon, mem_gatherAbandon, wf_attnAbandon, mem_updateAbandon,
    mem_changeAbandon, mem_queryAbandon, 
    hs]

theorem wf_timeoutSub (n : Nat) (kind : Nat) (shard : Nat) (s : State) (hs : Memory.wf s.mem = true) :
    Memory.wf (timeoutSub n kind shard s).mem = true := by
  unfold timeoutSub; (repeat' split) <;> simp [wf_abandonSub, 
    hs]

theorem wf_execSlotRelease (slot : Nat) (s : State) (hs : Memory.wf s.mem = true) :
    ∀ rr, execSlotRelease slot s = .next rr → Memory.wf (rr).mem = true := by
  intro r h; unfold execSlotRelease at h; grind [mem_when, wf_when, wf_releaseSlot, wf_same, wf_cells, wf_writeByte, wf_writeBytes,
    wf_clearPoison, wf_setPoison, wf_store, wf_storeMaCells]

theorem wf_execSubreqTimeout (slot : Nat) (kind : Nat) (shard : Nat) (s : State) (hs : Memory.wf s.mem = true) :
    ∀ rr, execSubreqTimeout slot kind shard s = .next rr → Memory.wf (rr).mem = true := by
  intro r h; unfold execSubreqTimeout at h; grind [mem_when, wf_when, wf_timeoutSub, wf_same, wf_cells, wf_writeByte, wf_writeBytes,
    wf_clearPoison, wf_setPoison, wf_store, wf_storeMaCells]

theorem wf_tableLoad (c : Ctx) (s : State) (hs : Memory.wf s.mem = true) :
    Memory.wf (tableLoad c s).2.mem = true := by
  unfold tableLoad; extract_lets d h
  refine wf_withTable _ _ _ _ ?_ hs
  intro t ht; split
  · exact ht
  · refine wf_checked _ _ _ ?_ ht
    dsimp only; rw [mem_modVersion]; exact wf_runLoad _ _ _ _ _ _ _ ht

theorem wf_execTableLoad (m : MsgSrc) (s : State) (hs : Memory.wf s.mem = true) :
    ∀ rr, execTableLoad m s = .next rr → Memory.wf (rr).mem = true := by
  intro r h; unfold execTableLoad at h; grind [wf_tableLoad, mem_serve, wf_serve, wf_same, wf_cells, wf_writeByte, wf_writeBytes,
    wf_clearPoison, wf_setPoison, wf_store, wf_storeMaCells]

theorem wf_markStep (x0 : Nat) (c : MarverCtx) (s : State) (hs : Memory.wf s.mem = true) :
    Memory.wf (markStep x0 c s).2.mem = true := by
  unfold markStep; (repeat' split) <;> simp [wf_markGo, 
    hs]

theorem wf_summarise (s : State) (f : Fold) (hs : Memory.wf s.mem = true) :
    Memory.wf (summarise s f).mem = true := by
  unfold summarise; (repeat' split) <;> simp [wf_writeRecord, 
    hs]

theorem wf_execMarverFilter (unit : Nat) (errs : List MemErr) (s : State) (hs : Memory.wf s.mem = true) :
    ∀ rr, execMarverFilter unit errs s = .next rr → Memory.wf (rr).mem = true := by
  intro r h; unfold execMarverFilter at h; grind [mem_filterStep, wf_marverRow, wf_same, wf_cells, wf_writeByte, wf_writeBytes,
    wf_clearPoison, wf_setPoison, wf_store, wf_storeMaCells]

theorem wf_sessionCreate (c : Ctx) (s : State) (hs : Memory.wf s.mem = true) :
    Memory.wf (sessionCreate c s).2.mem = true := by
  unfold sessionCreate; extract_lets d g key gid old run
  refine wf_checked _ _ _ ?_ hs
  simp only [run]; split
  · exact hs
  · rename_i h; dsimp only; rw [mem_tellSession]; exact wf_beginSession _ _ _ _ _ _ _ _ _ hs _ h

theorem wf_execSessionCreate (m : MsgSrc) (s : State) (hs : Memory.wf s.mem = true) :
    ∀ rr, execSessionCreate m s = .next rr → Memory.wf (rr).mem = true := by
  intro r h; unfold execSessionCreate at h; grind [mem_serve, wf_serve, wf_sessionCreate, wf_same, wf_cells, wf_writeByte, wf_writeBytes,
    wf_clearPoison, wf_setPoison, wf_store, wf_storeMaCells]

theorem wf_execRailCollapse (vin : Nat) (s : State) (hs : Memory.wf s.mem = true) :
    ∀ rr, execRailCollapse vin s = .next rr → Memory.wf (rr).mem = true := by
  intro r h; unfold execRailCollapse at h; grind [mem_loseBuffers, mem_when, wf_when, wf_railsOff, wf_same, wf_cells, wf_writeByte,
    wf_writeBytes, wf_clearPoison, wf_setPoison, wf_store, wf_storeMaCells]

theorem wf_summariseCode (code : Nat) (s : State) (hs : Memory.wf s.mem = true) :
    Memory.wf (summariseCode code s).mem = true := by
  unfold summariseCode; (repeat' split) <;> simp [wf_summarise, 
    hs]

theorem wf_execLogSummary (code : Nat) (s : State) (hs : Memory.wf s.mem = true) :
    ∀ rr, execLogSummary code s = .next rr → Memory.wf (rr).mem = true := by
  intro r h; unfold execLogSummary at h; grind [mem_when, wf_when, wf_summariseCode, wf_same, wf_cells, wf_writeByte, wf_writeBytes,
    wf_clearPoison, wf_setPoison, wf_store, wf_storeMaCells]

theorem wf_startDescriptor (s : State) (c : Nat) (hs : Memory.wf s.mem = true) :
    Memory.wf (startDescriptor s c).mem = true := by
  grind [startDescriptor, mem_putRing, wf_completeMove, mem_putChan, wf_same, wf_cells, wf_writeByte, wf_writeBytes, wf_clearPoison,
    wf_setPoison, wf_store, wf_storeMaCells]

theorem wf_execMoveDescriptorStart (chan : Nat) (s : State) (hs : Memory.wf s.mem = true) :
    ∀ rr, execMoveDescriptorStart chan s = .next rr → Memory.wf (rr).mem = true := by
  intro r h; unfold execMoveDescriptorStart at h; grind [wf_startDescriptor, mem_when, wf_when, mem_guarded, wf_same, wf_cells,
    wf_writeByte, wf_writeBytes, wf_clearPoison, wf_setPoison, wf_store, wf_storeMaCells]

theorem wf_execSubreqReply (slot : Nat) (kind : Nat) (shard : Nat) (r : Reply) (s : State) (hs : Memory.wf s.mem = true) :
    ∀ rr, execSubreqReply slot kind shard r s = .next rr → Memory.wf (rr).mem = true := by
  intro r h; unfold execSubreqReply at h; (repeat' split at h) <;> grind [mem_when, wf_when, wf_takeSlotReply, wf_same, wf_cells,
    wf_writeByte, wf_writeBytes, wf_clearPoison, wf_setPoison, wf_store, wf_storeMaCells, Option.map_eq_some_iff, Option.bind_eq_some_iff]

theorem wf_resetRequest (s : State) (hs : Memory.wf s.mem = true) :
    Memory.wf (resetRequest s).mem = true := by
  unfold resetRequest; (repeat' split) <;> simp [wf_restart, mem_emitDev, mem_startFlush, 
    hs]

theorem wf_archiveRead (c : Ctx) (s : State) (hs : Memory.wf s.mem = true) :
    Memory.wf (archiveRead c s).2.mem = true := by
  unfold archiveRead; extract_lets pos count dst recs t
  exact wf_checked _ _ _ (wf_writeBuf _ _ _ _ _ _ hs) hs

theorem wf_execEvrArchiveRead (m : MsgSrc) (s : State) (hs : Memory.wf s.mem = true) :
    ∀ rr, execEvrArchiveRead m s = .next rr → Memory.wf (rr).mem = true := by
  intro r h; unfold execEvrArchiveRead at h; grind [wf_archiveRead, mem_serve, wf_serve, wf_same, wf_cells, wf_writeByte, wf_writeBytes,
    wf_clearPoison, wf_setPoison, wf_store, wf_storeMaCells]

theorem wf_execRebuild (obj : Nat) (table : Bool) (mirror : Bool) (source : RebuildSource) (s : State) (hs : Memory.wf s.mem = true) :
    ∀ rr, execRebuild obj table mirror source s = .next rr → Memory.wf (rr).mem = true := by
  intro r h; unfold execRebuild at h; grind [mem_when, wf_when, wf_rebuildCopy, wf_same, wf_cells, wf_writeByte, wf_writeBytes,
    wf_clearPoison, wf_setPoison, wf_store, wf_storeMaCells]

theorem wf_execSlotSchedule (core : Nat) (s : State) (hs : Memory.wf s.mem = true) :
    ∀ rr, execSlotSchedule core s = .next rr → Memory.wf (rr).mem = true := by
  intro r h; unfold execSlotSchedule at h; grind [mem_when, wf_when, wf_schedule, mem_guarded, wf_same, wf_cells, wf_writeByte,
    wf_writeBytes, wf_clearPoison, wf_setPoison, wf_store, wf_storeMaCells]

theorem wf_execAttnKey (unit : Nat) (errs : List MemErr) (s : State) (hs : Memory.wf s.mem = true) :
    ∀ rr, execAttnKey unit errs s = .next rr → Memory.wf (rr).mem = true := by
  intro r h; unfold execAttnKey at h; grind [wf_marverRow, mem_keyStep, wf_same, wf_cells, wf_writeByte, wf_writeBytes, wf_clearPoison,
    wf_setPoison, wf_store, wf_storeMaCells]

theorem wf_execIndexStats (m : MsgSrc) (s : State) (hs : Memory.wf s.mem = true) :
    ∀ rr, execIndexStats m s = .next rr → Memory.wf (rr).mem = true := by
  intro r h; unfold execIndexStats at h; grind [wf_indexStats, mem_serve, wf_serve, wf_same, wf_cells, wf_writeByte, wf_writeBytes,
    wf_clearPoison, wf_setPoison, wf_store, wf_storeMaCells]

theorem wf_execMarverMark (unit : Nat) (errs : List MemErr) (s : State) (hs : Memory.wf s.mem = true) :
    ∀ rr, execMarverMark unit errs s = .next rr → Memory.wf (rr).mem = true := by
  intro r h; unfold execMarverMark at h; grind [wf_markStep, wf_marverRow, wf_same, wf_cells, wf_writeByte, wf_writeBytes,
    wf_clearPoison, wf_setPoison, wf_store, wf_storeMaCells]

theorem wf_execMarverDrain (unit : Nat) (errs : List MemErr) (s : State) (hs : Memory.wf s.mem = true) :
    ∀ rr, execMarverDrain unit errs s = .next rr → Memory.wf (rr).mem = true := by
  intro r h; unfold execMarverDrain at h; grind [wf_marverRow, mem_drainStep, wf_same, wf_cells, wf_writeByte, wf_writeBytes,
    wf_clearPoison, wf_setPoison, wf_store, wf_storeMaCells]

theorem wf_applyImage (s : State) (x : Settings) (hs : Memory.wf s.mem = true) :
    Memory.wf (applyImage s x).mem = true := by
  grind [applyImage, wf_same, wf_cells, wf_writeByte, wf_writeBytes, wf_clearPoison, wf_setPoison, wf_store, wf_storeMaCells]

theorem wf_execMemWrite (p : Packet) (s : State) (hs : Memory.wf s.mem = true) :
    ∀ rr, execMemWrite p s = .next rr → Memory.wf (rr).mem = true := by
  intro r h; unfold execMemWrite at h; grind [wf_memWrite, mem_when, wf_when, wf_same, wf_cells, wf_writeByte, wf_writeBytes,
    wf_clearPoison, wf_setPoison, wf_store, wf_storeMaCells]

theorem wf_execRegionMigrate (page : Nat) (s : State) (hs : Memory.wf s.mem = true) :
    ∀ rr, execRegionMigrate page s = .next rr → Memory.wf (rr).mem = true := by
  intro r h; unfold execRegionMigrate at h; grind [mem_when, wf_when, wf_moveRegion, wf_same, wf_cells, wf_writeByte, wf_writeBytes,
    wf_clearPoison, wf_setPoison, wf_store, wf_storeMaCells]

theorem wf_attnCbLoad (c : Ctx) (s : State) (hs : Memory.wf s.mem = true) :
    Memory.wf (attnCbLoad c s).2.mem = true := by
  unfold attnCbLoad; extract_lets d a n L H dim r
  exact wf_checked _ _ _ (wf_loadBook _ _ _ _ _ _ hs) hs

theorem wf_programLoad (c : Ctx) (s : State) (hs : Memory.wf s.mem = true) :
    Memory.wf (programLoad c s).2.mem = true := by
  unfold programLoad; extract_lets d dpa n r
  exact wf_checked _ _ _ (wf_loadProgram _ _ _ _ _ hs) hs

theorem wf_execTicketDone (t : TicketRef) (o : DoneInput) (s : State) (hs : Memory.wf s.mem = true) :
    ∀ rr, execTicketDone t o s = .next rr → Memory.wf (rr).mem = true := by
  intro r h; unfold execTicketDone at h; grind [wf_ticketDone, mem_when, wf_when, wf_same, wf_cells, wf_writeByte, wf_writeBytes,
    wf_clearPoison, wf_setPoison, wf_store, wf_storeMaCells]

theorem wf_execScan4 (unit : Nat) (errs : List MemErr) (s : State) (hs : Memory.wf s.mem = true) :
    ∀ rr, execScan4 unit errs s = .next rr → Memory.wf (rr).mem = true := by
  intro r h; unfold execScan4 at h; grind [mem_scanStep, wf_marverRow, wf_same, wf_cells, wf_writeByte, wf_writeBytes, wf_clearPoison,
    wf_setPoison, wf_store, wf_storeMaCells]

theorem wf_serveUpdate_go (s : State) (q : SubIn) (h : Nat) (t : Table) (x : Version) (m : Bool) (p : List Byte)
  (b : Occs × List Byte) (hs : Memory.wf s.mem = true) :
    Memory.wf (serveUpdate.go s q h t x m p b).mem = true := by
  grind [serveUpdate.go, mem_modVersion, mem_journalRows, mem_replySub, wf_writeRows, wf_same, wf_cells, wf_writeByte, wf_writeBytes,
    wf_clearPoison, wf_setPoison, wf_store, wf_storeMaCells]

theorem wf_serveUpdate (s : State) (q : SubIn) (hs : Memory.wf s.mem = true) :
    Memory.wf (serveUpdate s q).mem = true := by
  grind [serveUpdate, wf_serveUpdate_go, mem_replySub, wf_same, wf_cells, wf_writeByte, wf_writeBytes, wf_clearPoison, wf_setPoison,
    wf_store, wf_storeMaCells]

theorem wf_poisonRewrite (g : Nat) (data : List Byte) (s : State) (hs : Memory.wf s.mem = true) :
    Memory.wf (poisonRewrite g data s).mem = true := by
  grind [poisonRewrite, mem_submit, mem_dropActivity, wf_same, wf_cells, wf_writeByte, wf_writeBytes, wf_clearPoison, wf_setPoison,
    wf_store, wf_storeMaCells]

theorem wf_receiveChange (m : ChangeMsg) (s : State) (hs : Memory.wf s.mem = true) :
    Memory.wf (receiveChange m s).mem = true := by
  unfold receiveChange; (repeat' split) <;> grind [wf_takeChange, wf_assignChange, mem_answerChange, mem_takeMsg, wf_same, wf_cells,
    wf_writeByte, wf_writeBytes, wf_clearPoison, wf_setPoison, wf_store, wf_storeMaCells]

theorem wf_execChangeMsg (c : ChangeMsg) (s : State) (hs : Memory.wf s.mem = true) :
    ∀ rr, execChangeMsg c s = .next rr → Memory.wf (rr).mem = true := by
  intro r h; unfold execChangeMsg at h; (repeat' split at h) <;> grind [mem_when, wf_when, wf_receiveChange, wf_same, wf_cells,
    wf_writeByte, wf_writeBytes, wf_clearPoison, wf_setPoison, wf_store, wf_storeMaCells, Option.map_eq_some_iff, Option.bind_eq_some_iff]

theorem wf_recoveryLoad (p : FwPackage) (s : State) (hs : Memory.wf s.mem = true) :
    Memory.wf (recoveryLoad p s).mem = true := by
  grind [recoveryLoad, mem_chooseFw, mem_stopWith, mem_writeFwSlot, wf_readBootFlash, wf_same, wf_cells, wf_writeByte, wf_writeBytes,
    wf_clearPoison, wf_setPoison, wf_store, wf_storeMaCells]

theorem wf_execRecoveryLoad (pkg : FwPackage) (s : State) (hs : Memory.wf s.mem = true) :
    ∀ rr, execRecoveryLoad pkg s = .next rr → Memory.wf (rr).mem = true := by
  intro r h; unfold execRecoveryLoad at h; grind [mem_when, wf_when, wf_recoveryLoad, wf_same, wf_cells, wf_writeByte, wf_writeBytes,
    wf_clearPoison, wf_setPoison, wf_store, wf_storeMaCells]

theorem wf_execLutLoad (units : List Nat) (s : State) (hs : Memory.wf s.mem = true) :
    ∀ rr, execLutLoad units s = .next rr → Memory.wf (rr).mem = true := by
  intro r h; unfold execLutLoad at h
  rw [mem_guarded _ _ _ _ h]
  refine wf_when _ _ _ ?_ hs
  intro t ht; refine wf_foldl _ ?_ _ _ ht
  intro a b ha; exact wf_unitStep _ _ _ _ _ (fun _ _ _ hh => hh) ha

theorem wf_disableBound (s : State) (ws : Nat) (hs : Memory.wf s.mem = true) :
    Memory.wf (disableBound s ws).mem = true := by
  unfold disableBound; exact wf_foldl _ (fun a b ha => wf_disableFn _ _ _ ha) _ _ hs

theorem wf_endWorkspace (ws : Nat) (s : State) (hs : Memory.wf s.mem = true) :
    Memory.wf (endWorkspace ws s).mem = true := by
  grind [endWorkspace, wf_disableBound, mem_dropIndexes, wf_freeWsPages, mem_dropSessions, mem_finishAll, mem_deleteStreams, mem_dropPrograms, wf_same,
    wf_cells, wf_writeByte, wf_writeBytes, wf_clearPoison, wf_setPoison, wf_store, wf_storeMaCells]

theorem wf_execWsDestroyProceed (ws : Nat) (s : State) (hs : Memory.wf s.mem = true) :
    ∀ rr, execWsDestroyProceed ws s = .next rr → Memory.wf (rr).mem = true := by
  intro r h; unfold execWsDestroyProceed at h; grind [mem_when, wf_when, wf_endWorkspace, wf_same, wf_cells, wf_writeByte, wf_writeBytes,
    wf_clearPoison, wf_setPoison, wf_store, wf_storeMaCells]

theorem wf_bootLoad (flash : Option BootFlash) (s : State) (hs : Memory.wf s.mem = true) :
    Memory.wf (bootLoad flash s).mem = true := by
  unfold bootLoad; (repeat' split) <;> grind [mem_chooseFw, mem_stopWith, mem_chooseImg, wf_readBootFlash, wf_applyImage, wf_same,
    wf_cells, wf_writeByte, wf_writeBytes, wf_clearPoison, wf_setPoison, wf_store, wf_storeMaCells]

theorem wf_execMarverCopy (unit : Nat) (errs : List MemErr) (s : State) (hs : Memory.wf s.mem = true) :
    ∀ rr, execMarverCopy unit errs s = .next rr → Memory.wf (rr).mem = true := by
  intro r h; unfold execMarverCopy at h; grind [wf_marverRow, wf_copyBurst, wf_same, wf_cells, wf_writeByte, wf_writeBytes,
    wf_clearPoison, wf_setPoison, wf_store, wf_storeMaCells]

theorem wf_execUpdateSubrequest (ident : Nat) (s : State) (hs : Memory.wf s.mem = true) :
    ∀ rr, execUpdateSubrequest ident s = .next rr → Memory.wf (rr).mem = true := by
  intro r h; unfold execUpdateSubrequest at h; grind [wf_serveUpdate, mem_admitSub, wf_admitSub, wf_same, wf_cells, wf_writeByte,
    wf_writeBytes, wf_clearPoison, wf_setPoison, wf_store, wf_storeMaCells]

theorem wf_execFwStage (m : MsgSrc) (s : State) (hs : Memory.wf s.mem = true) :
    ∀ rr, execFwStage m s = .next rr → Memory.wf (rr).mem = true := by
  intro r h; unfold execFwStage at h; grind [wf_fwStage, mem_serve, wf_serve, wf_same, wf_cells, wf_writeByte, wf_writeBytes,
    wf_clearPoison, wf_setPoison, wf_store, wf_storeMaCells]

theorem wf_execAlarmLatchWrite (s : State) (hs : Memory.wf s.mem = true) :
    ∀ rr, execAlarmLatchWrite s = .next rr → Memory.wf (rr).mem = true := by
  intro r h; unfold execAlarmLatchWrite at h; grind [mem_when, wf_when, wf_writeLatch, wf_same, wf_cells, wf_writeByte, wf_writeBytes,
    wf_clearPoison, wf_setPoison, wf_store, wf_storeMaCells]

theorem wf_execInputDropBeforeRun (vin : Nat) (s : State) (hs : Memory.wf s.mem = true) :
    ∀ rr, execInputDropBeforeRun vin s = .next rr → Memory.wf (rr).mem = true := by
  intro r h; unfold execInputDropBeforeRun at h; grind [mem_when, wf_when, wf_railsOff, wf_same, wf_cells, wf_writeByte, wf_writeBytes,
    wf_clearPoison, wf_setPoison, wf_store, wf_storeMaCells]

theorem wf_execAttnPositionRelease (slot : Nat) (s : State) (hs : Memory.wf s.mem = true) :
    ∀ rr, execAttnPositionRelease slot s = .next rr → Memory.wf (rr).mem = true := by
  intro r h; unfold execAttnPositionRelease at h; grind [mem_when, wf_when, wf_launchStep, wf_same, wf_cells, wf_writeByte,
    wf_writeBytes, wf_clearPoison, wf_setPoison, wf_store, wf_storeMaCells]

theorem wf_execRegionAlloc (m : MsgSrc) (s : State) (hs : Memory.wf s.mem = true) :
    ∀ rr, execRegionAlloc m s = .next rr → Memory.wf (rr).mem = true := by
  intro r h; unfold execRegionAlloc at h; grind [wf_regionAlloc, mem_serve, wf_serve, wf_same, wf_cells, wf_writeByte, wf_writeBytes,
    wf_clearPoison, wf_setPoison, wf_store, wf_storeMaCells]

theorem wf_execIndexCreate (m : MsgSrc) (s : State) (hs : Memory.wf s.mem = true) :
    ∀ rr, execIndexCreate m s = .next rr → Memory.wf (rr).mem = true := by
  intro r h; unfold execIndexCreate at h; grind [wf_indexCreate, mem_serve, wf_serve, wf_same, wf_cells, wf_writeByte, wf_writeBytes,
    wf_clearPoison, wf_setPoison, wf_store, wf_storeMaCells]

theorem wf_execBootLoad (flash : Option BootFlash) (s : State) (hs : Memory.wf s.mem = true) :
    ∀ rr, execBootLoad flash s = .next rr → Memory.wf (rr).mem = true := by
  intro r h; unfold execBootLoad at h; grind [mem_when, wf_when, wf_bootLoad, wf_same, wf_cells, wf_writeByte, wf_writeBytes,
    wf_clearPoison, wf_setPoison, wf_store, wf_storeMaCells]

theorem wf_execResetRequest (s : State) (hs : Memory.wf s.mem = true) :
    ∀ rr, execResetRequest s = .next rr → Memory.wf (rr).mem = true := by
  intro r h; unfold execResetRequest at h; grind [wf_resetRequest, mem_when, wf_when, wf_same, wf_cells, wf_writeByte, wf_writeBytes,
    wf_clearPoison, wf_setPoison, wf_store, wf_storeMaCells]

theorem wf_execProgramLoad (m : MsgSrc) (s : State) (hs : Memory.wf s.mem = true) :
    ∀ rr, execProgramLoad m s = .next rr → Memory.wf (rr).mem = true := by
  intro r h; unfold execProgramLoad at h; grind [mem_serve, wf_serve, wf_programLoad, wf_same, wf_cells, wf_writeByte, wf_writeBytes,
    wf_clearPoison, wf_setPoison, wf_store, wf_storeMaCells]

theorem wf_execAttnCbLoad (m : MsgSrc) (s : State) (hs : Memory.wf s.mem = true) :
    ∀ rr, execAttnCbLoad m s = .next rr → Memory.wf (rr).mem = true := by
  intro r h; unfold execAttnCbLoad at h; grind [wf_attnCbLoad, mem_serve, wf_serve, wf_same, wf_cells, wf_writeByte, wf_writeBytes,
    wf_clearPoison, wf_setPoison, wf_store, wf_storeMaCells]

theorem wf_execPoisonRewrite (dpa : Nat) (data : List Byte) (s : State) (hs : Memory.wf s.mem = true) :
    ∀ rr, execPoisonRewrite dpa data s = .next rr → Memory.wf (rr).mem = true := by
  intro r h; unfold execPoisonRewrite at h; grind [mem_when, wf_when, wf_poisonRewrite, wf_same, wf_cells, wf_writeByte, wf_writeBytes,
    wf_clearPoison, wf_setPoison, wf_store, wf_storeMaCells]

theorem wf_execAttnPartialSubrequest (ident : Nat) (s : State) (hs : Memory.wf s.mem = true) :
    ∀ rr, execAttnPartialSubrequest ident s = .next rr → Memory.wf (rr).mem = true := by
  intro r h; unfold execAttnPartialSubrequest at h; grind [mem_admitSub, wf_admitSub, wf_servePartial, wf_same, wf_cells, wf_writeByte,
    wf_writeBytes, wf_clearPoison, wf_setPoison, wf_store, wf_storeMaCells]

theorem wf_execTableStage (m : MsgSrc) (s : State) (hs : Memory.wf s.mem = true) :
    ∀ rr, execTableStage m s = .next rr → Memory.wf (rr).mem = true := by
  intro r h; unfold execTableStage at h; grind [wf_tableStage, mem_serve, wf_serve, wf_same, wf_cells, wf_writeByte, wf_writeBytes,
    wf_clearPoison, wf_setPoison, wf_store, wf_storeMaCells]

theorem wf_execDropSummary (s : State) (hs : Memory.wf s.mem = true) :
    ∀ rr, execDropSummary s = .next rr → Memory.wf (rr).mem = true := by
  intro r h; unfold execDropSummary at h; grind [mem_when, wf_when, wf_dropSummary, wf_same, wf_cells, wf_writeByte, wf_writeBytes,
    wf_clearPoison, wf_setPoison, wf_store, wf_storeMaCells]

end Sys2Proof.Laws
end

