-- ==== Sys2Proof/Laws/Owners.lean ====
section
/-!
SUPPORT. The owner map: where a run of pages fits, and the run that holds a page.
-/

open Sys2Proof Sys2Proof.Machine Sys2Proof.Safety

namespace Sys2Proof.Laws

/-- A first fit lies in its range and touches no run. -/
theorem firstFit_spec (l : List OwnRun) (lo hi n p : Nat) (hl : OwnersApart l) (h : firstFit l lo hi n = some p) :
   lo ≤ p ∧ p + n ≤ hi ∧ ∀ r ∈ l, r.base + r.pages ≤ p ∨ p + n ≤ r.base := by
  induction l generalizing lo with
  | nil => simp [firstFit] at h; simp; omega
  | cons r t ih =>
    simp only [OwnersApart, List.pairwise_cons] at hl
    simp only [firstFit] at h
    split at h
    · have := ih lo hl.2 h; simp; grind
    · split at h
      · simp at h; subst h; simp
        grind
      · have := ih _ hl.2 h; simp; grind

/-- What an insertion holds. -/
theorem insertRun_mem (r q : OwnRun) (l : List OwnRun) : q ∈ insertRun r l ↔ q = r ∨ q ∈ l := by
  induction l with
  | nil => simp [insertRun]
  | cons a t ih => simp only [insertRun]; grind

/-- A run put into the owner map where it touches none leaves the runs apart. -/
theorem insertRun_apart (r : OwnRun) (l : List OwnRun) (h : OwnersApart l) (hn : 1 ≤ r.pages)
    (hd : ∀ q ∈ l, q.base + q.pages ≤ r.base ∨ r.base + r.pages ≤ q.base) :
    OwnersApart (insertRun r l) := by
  induction l with
  | nil => simp [insertRun, OwnersApart]
  | cons a t ih =>
    simp only [OwnersApart, List.pairwise_cons] at h
    simp only [insertRun]
    split
    · simp only [OwnersApart, List.pairwise_cons]; grind
    · simp only [OwnersApart, List.pairwise_cons]
      refine ⟨?_, ih h.2 (by grind)⟩
      intro q hq; rw [insertRun_mem] at hq; grind

/-- With the runs apart, the run that holds a page is the one found. -/
theorem find_apart (l : List OwnRun) (h : OwnersApart l) (r : OwnRun) (q : Nat) :
    (l.find? fun r => decide (r.base ≤ q) && decide (q < r.base + r.pages)) = some r ↔ r ∈ l ∧ r.base ≤ q ∧ q < r.base + r.pages := by
  induction l with
  | nil => simp
  | cons a t ih =>
    simp only [OwnersApart, List.pairwise_cons] at h
    simp only [List.find?_cons]
    have := ih h.2
    split <;> grind

end Sys2Proof.Laws
end

