-- ==== Sys2Proof/Laws/State.lean ====
section
/-!
SUPPORT. Updates of State: what each leaves as it was, field by field, and what is read back after it.
-/

open Sys2Proof Sys2Proof.Machine

namespace Sys2Proof.Laws

@[simp] theorem putSlot_fuse (s : State) (n : Nat) (x : Slot) : (putSlot s n x).fuse = s.fuse := rfl
@[simp] theorem putSlot_boot (s : State) (n : Nat) (x : Slot) : (putSlot s n x).boot = s.boot := rfl
@[simp] theorem putSlot_clk (s : State) (n : Nat) (x : Slot) : (putSlot s n x).clk = s.clk := rfl
@[simp] theorem putSlot_mem (s : State) (n : Nat) (x : Slot) : (putSlot s n x).mem = s.mem := rfl
@[simp] theorem putSlot_guard (s : State) (n : Nat) (x : Slot) : (putSlot s n x).guard = s.guard := rfl
@[simp] theorem putSlot_wss (s : State) (n : Nat) (x : Slot) : (putSlot s n x).wss = s.wss := rfl
@[simp] theorem putSlot_fns (s : State) (n : Nat) (x : Slot) : (putSlot s n x).fns = s.fns := rfl
@[simp] theorem putSlot_mbxPtr (s : State) (n : Nat) (x : Slot) : (putSlot s n x).mbxPtr = s.mbxPtr := rfl
@[simp] theorem putSlot_evr (s : State) (n : Nat) (x : Slot) : (putSlot s n x).evr = s.evr := rfl
@[simp] theorem putSlot_fab (s : State) (n : Nat) (x : Slot) : (putSlot s n x).fab = s.fab := rfl
@[simp] theorem putSlot_marver (s : State) (n : Nat) (x : Slot) : (putSlot s n x).marver = s.marver := rfl
@[simp] theorem putSlot_indexes (s : State) (n : Nat) (x : Slot) : (putSlot s n x).indexes = s.indexes := rfl
@[simp] theorem putSlot_cbSets (s : State) (n : Nat) (x : Slot) : (putSlot s n x).cbSets = s.cbSets := rfl
@[simp] theorem putSlot_nextHandle (s : State) (n : Nat) (x : Slot) : (putSlot s n x).nextHandle = s.nextHandle := rfl
@[simp] theorem putSlot_sessions (s : State) (n : Nat) (x : Slot) : (putSlot s n x).sessions = s.sessions := rfl
@[simp] theorem putSlot_requests (s : State) (n : Nat) (x : Slot) : (putSlot s n x).requests = s.requests := rfl
@[simp] theorem putSlot_tables (s : State) (n : Nat) (x : Slot) : (putSlot s n x).tables = s.tables := rfl
@[simp] theorem putSlot_poolReads (s : State) (n : Nat) (x : Slot) : (putSlot s n x).poolReads = s.poolReads := rfl
@[simp] theorem putSlot_move (s : State) (n : Nat) (x : Slot) : (putSlot s n x).move = s.move := rfl
@[simp] theorem putSlot_flash (s : State) (n : Nat) (x : Slot) : (putSlot s n x).flash = s.flash := rfl
@[simp] theorem putSlot_rack (s : State) (n : Nat) (x : Slot) : (putSlot s n x).rack = s.rack := rfl
@[simp] theorem putSlot_live (s : State) (n : Nat) (x : Slot) : (putSlot s n x).live = s.live := rfl
@[simp] theorem putSlot_power (s : State) (n : Nat) (x : Slot) : (putSlot s n x).power = s.power := rfl
@[simp] theorem putSlot_svc (s : State) (n : Nat) (x : Slot) : (putSlot s n x).svc = s.svc := rfl
@[simp] theorem putSlot_therm (s : State) (n : Nat) (x : Slot) : (putSlot s n x).therm = s.therm := rfl
@[simp] theorem putSlot_free (s : State) (n : Nat) (x : Slot) : (putSlot s n x).free = s.free := rfl
@[simp] theorem putSlot_pending (s : State) (n : Nat) (x : Slot) : (putSlot s n x).pending = s.pending := rfl

@[simp] theorem putBook_fuse (s : State) (h : Nat) (b : CodebookSet) : (putBook s h b).fuse = s.fuse := rfl
@[simp] theorem putBook_boot (s : State) (h : Nat) (b : CodebookSet) : (putBook s h b).boot = s.boot := rfl
@[simp] theorem putBook_clk (s : State) (h : Nat) (b : CodebookSet) : (putBook s h b).clk = s.clk := rfl
@[simp] theorem putBook_mem (s : State) (h : Nat) (b : CodebookSet) : (putBook s h b).mem = s.mem := rfl
@[simp] theorem putBook_guard (s : State) (h : Nat) (b : CodebookSet) : (putBook s h b).guard = s.guard := rfl
@[simp] theorem putBook_wss (s : State) (h : Nat) (b : CodebookSet) : (putBook s h b).wss = s.wss := rfl
@[simp] theorem putBook_fns (s : State) (h : Nat) (b : CodebookSet) : (putBook s h b).fns = s.fns := rfl
@[simp] theorem putBook_mbxPtr (s : State) (h : Nat) (b : CodebookSet) : (putBook s h b).mbxPtr = s.mbxPtr := rfl
@[simp] theorem putBook_evr (s : State) (h : Nat) (b : CodebookSet) : (putBook s h b).evr = s.evr := rfl
@[simp] theorem putBook_fab (s : State) (h : Nat) (b : CodebookSet) : (putBook s h b).fab = s.fab := rfl
@[simp] theorem putBook_marver (s : State) (h : Nat) (b : CodebookSet) : (putBook s h b).marver = s.marver := rfl
@[simp] theorem putBook_hub (s : State) (h : Nat) (b : CodebookSet) : (putBook s h b).hub = s.hub := rfl
@[simp] theorem putBook_indexes (s : State) (h : Nat) (b : CodebookSet) : (putBook s h b).indexes = s.indexes := rfl
@[simp] theorem putBook_nextHandle (s : State) (h : Nat) (b : CodebookSet) : (putBook s h b).nextHandle = s.nextHandle := rfl
@[simp] theorem putBook_sessions (s : State) (h : Nat) (b : CodebookSet) : (putBook s h b).sessions = s.sessions := rfl
@[simp] theorem putBook_requests (s : State) (h : Nat) (b : CodebookSet) : (putBook s h b).requests = s.requests := rfl
@[simp] theorem putBook_tables (s : State) (h : Nat) (b : CodebookSet) : (putBook s h b).tables = s.tables := rfl
@[simp] theorem putBook_poolReads (s : State) (h : Nat) (b : CodebookSet) : (putBook s h b).poolReads = s.poolReads := rfl
@[simp] theorem putBook_move (s : State) (h : Nat) (b : CodebookSet) : (putBook s h b).move = s.move := rfl
@[simp] theorem putBook_flash (s : State) (h : Nat) (b : CodebookSet) : (putBook s h b).flash = s.flash := rfl
@[simp] theorem putBook_rack (s : State) (h : Nat) (b : CodebookSet) : (putBook s h b).rack = s.rack := rfl
@[simp] theorem putBook_live (s : State) (h : Nat) (b : CodebookSet) : (putBook s h b).live = s.live := rfl
@[simp] theorem putBook_power (s : State) (h : Nat) (b : CodebookSet) : (putBook s h b).power = s.power := rfl
@[simp] theorem putBook_svc (s : State) (h : Nat) (b : CodebookSet) : (putBook s h b).svc = s.svc := rfl
@[simp] theorem putBook_therm (s : State) (h : Nat) (b : CodebookSet) : (putBook s h b).therm = s.therm := rfl
@[simp] theorem putBook_free (s : State) (h : Nat) (b : CodebookSet) : (putBook s h b).free = s.free := rfl
@[simp] theorem putBook_pending (s : State) (h : Nat) (b : CodebookSet) : (putBook s h b).pending = s.pending := rfl

@[simp] theorem setBootRec_fuse (s : State) (g : BootRec → BootRec) : (setBootRec s g).fuse = s.fuse := rfl
@[simp] theorem setBootRec_clk (s : State) (g : BootRec → BootRec) : (setBootRec s g).clk = s.clk := rfl
@[simp] theorem setBootRec_mem (s : State) (g : BootRec → BootRec) : (setBootRec s g).mem = s.mem := rfl
@[simp] theorem setBootRec_guard (s : State) (g : BootRec → BootRec) : (setBootRec s g).guard = s.guard := rfl
@[simp] theorem setBootRec_wss (s : State) (g : BootRec → BootRec) : (setBootRec s g).wss = s.wss := rfl
@[simp] theorem setBootRec_fns (s : State) (g : BootRec → BootRec) : (setBootRec s g).fns = s.fns := rfl
@[simp] theorem setBootRec_mbxPtr (s : State) (g : BootRec → BootRec) : (setBootRec s g).mbxPtr = s.mbxPtr := rfl
@[simp] theorem setBootRec_evr (s : State) (g : BootRec → BootRec) : (setBootRec s g).evr = s.evr := rfl
@[simp] theorem setBootRec_fab (s : State) (g : BootRec → BootRec) : (setBootRec s g).fab = s.fab := rfl
@[simp] theorem setBootRec_marver (s : State) (g : BootRec → BootRec) : (setBootRec s g).marver = s.marver := rfl
@[simp] theorem setBootRec_hub (s : State) (g : BootRec → BootRec) : (setBootRec s g).hub = s.hub := rfl
@[simp] theorem setBootRec_indexes (s : State) (g : BootRec → BootRec) : (setBootRec s g).indexes = s.indexes := rfl
@[simp] theorem setBootRec_cbSets (s : State) (g : BootRec → BootRec) : (setBootRec s g).cbSets = s.cbSets := rfl
@[simp] theorem setBootRec_nextHandle (s : State) (g : BootRec → BootRec) : (setBootRec s g).nextHandle = s.nextHandle := rfl
@[simp] theorem setBootRec_sessions (s : State) (g : BootRec → BootRec) : (setBootRec s g).sessions = s.sessions := rfl
@[simp] theorem setBootRec_requests (s : State) (g : BootRec → BootRec) : (setBootRec s g).requests = s.requests := rfl
@[simp] theorem setBootRec_tables (s : State) (g : BootRec → BootRec) : (setBootRec s g).tables = s.tables := rfl
@[simp] theorem setBootRec_poolReads (s : State) (g : BootRec → BootRec) : (setBootRec s g).poolReads = s.poolReads := rfl
@[simp] theorem setBootRec_move (s : State) (g : BootRec → BootRec) : (setBootRec s g).move = s.move := rfl
@[simp] theorem setBootRec_flash (s : State) (g : BootRec → BootRec) : (setBootRec s g).flash = s.flash := rfl
@[simp] theorem setBootRec_rack (s : State) (g : BootRec → BootRec) : (setBootRec s g).rack = s.rack := rfl
@[simp] theorem setBootRec_live (s : State) (g : BootRec → BootRec) : (setBootRec s g).live = s.live := rfl
@[simp] theorem setBootRec_power (s : State) (g : BootRec → BootRec) : (setBootRec s g).power = s.power := rfl
@[simp] theorem setBootRec_svc (s : State) (g : BootRec → BootRec) : (setBootRec s g).svc = s.svc := rfl
@[simp] theorem setBootRec_therm (s : State) (g : BootRec → BootRec) : (setBootRec s g).therm = s.therm := rfl
@[simp] theorem setBootRec_free (s : State) (g : BootRec → BootRec) : (setBootRec s g).free = s.free := rfl
@[simp] theorem setBootRec_pending (s : State) (g : BootRec → BootRec) : (setBootRec s g).pending = s.pending := rfl

@[simp] theorem putGroup_fuse (s : State) (g : Nat) (x : FlashGroup) : (putGroup s g x).fuse = s.fuse := rfl
@[simp] theorem putGroup_boot (s : State) (g : Nat) (x : FlashGroup) : (putGroup s g x).boot = s.boot := rfl
@[simp] theorem putGroup_clk (s : State) (g : Nat) (x : FlashGroup) : (putGroup s g x).clk = s.clk := rfl
@[simp] theorem putGroup_mem (s : State) (g : Nat) (x : FlashGroup) : (putGroup s g x).mem = s.mem := rfl
@[simp] theorem putGroup_guard (s : State) (g : Nat) (x : FlashGroup) : (putGroup s g x).guard = s.guard := rfl
@[simp] theorem putGroup_wss (s : State) (g : Nat) (x : FlashGroup) : (putGroup s g x).wss = s.wss := rfl
@[simp] theorem putGroup_fns (s : State) (g : Nat) (x : FlashGroup) : (putGroup s g x).fns = s.fns := rfl
@[simp] theorem putGroup_mbxPtr (s : State) (g : Nat) (x : FlashGroup) : (putGroup s g x).mbxPtr = s.mbxPtr := rfl
@[simp] theorem putGroup_evr (s : State) (g : Nat) (x : FlashGroup) : (putGroup s g x).evr = s.evr := rfl
@[simp] theorem putGroup_fab (s : State) (g : Nat) (x : FlashGroup) : (putGroup s g x).fab = s.fab := rfl
@[simp] theorem putGroup_marver (s : State) (g : Nat) (x : FlashGroup) : (putGroup s g x).marver = s.marver := rfl
@[simp] theorem putGroup_hub (s : State) (g : Nat) (x : FlashGroup) : (putGroup s g x).hub = s.hub := rfl
@[simp] theorem putGroup_indexes (s : State) (g : Nat) (x : FlashGroup) : (putGroup s g x).indexes = s.indexes := rfl
@[simp] theorem putGroup_cbSets (s : State) (g : Nat) (x : FlashGroup) : (putGroup s g x).cbSets = s.cbSets := rfl
@[simp] theorem putGroup_nextHandle (s : State) (g : Nat) (x : FlashGroup) : (putGroup s g x).nextHandle = s.nextHandle := rfl
@[simp] theorem putGroup_sessions (s : State) (g : Nat) (x : FlashGroup) : (putGroup s g x).sessions = s.sessions := rfl
@[simp] theorem putGroup_requests (s : State) (g : Nat) (x : FlashGroup) : (putGroup s g x).requests = s.requests := rfl
@[simp] theorem putGroup_tables (s : State) (g : Nat) (x : FlashGroup) : (putGroup s g x).tables = s.tables := rfl
@[simp] theorem putGroup_poolReads (s : State) (g : Nat) (x : FlashGroup) : (putGroup s g x).poolReads = s.poolReads := rfl
@[simp] theorem putGroup_move (s : State) (g : Nat) (x : FlashGroup) : (putGroup s g x).move = s.move := rfl
@[simp] theorem putGroup_rack (s : State) (g : Nat) (x : FlashGroup) : (putGroup s g x).rack = s.rack := rfl
@[simp] theorem putGroup_live (s : State) (g : Nat) (x : FlashGroup) : (putGroup s g x).live = s.live := rfl
@[simp] theorem putGroup_power (s : State) (g : Nat) (x : FlashGroup) : (putGroup s g x).power = s.power := rfl
@[simp] theorem putGroup_svc (s : State) (g : Nat) (x : FlashGroup) : (putGroup s g x).svc = s.svc := rfl
@[simp] theorem putGroup_therm (s : State) (g : Nat) (x : FlashGroup) : (putGroup s g x).therm = s.therm := rfl
@[simp] theorem putGroup_free (s : State) (g : Nat) (x : FlashGroup) : (putGroup s g x).free = s.free := rfl
@[simp] theorem putGroup_pending (s : State) (g : Nat) (x : FlashGroup) : (putGroup s g x).pending = s.pending := rfl

@[simp] theorem putFChan_fuse (s : State) (c : Nat) (x : FlashChan) : (putFChan s c x).fuse = s.fuse := rfl
@[simp] theorem putFChan_boot (s : State) (c : Nat) (x : FlashChan) : (putFChan s c x).boot = s.boot := rfl
@[simp] theorem putFChan_clk (s : State) (c : Nat) (x : FlashChan) : (putFChan s c x).clk = s.clk := rfl
@[simp] theorem putFChan_mem (s : State) (c : Nat) (x : FlashChan) : (putFChan s c x).mem = s.mem := rfl
@[simp] theorem putFChan_guard (s : State) (c : Nat) (x : FlashChan) : (putFChan s c x).guard = s.guard := rfl
@[simp] theorem putFChan_wss (s : State) (c : Nat) (x : FlashChan) : (putFChan s c x).wss = s.wss := rfl
@[simp] theorem putFChan_fns (s : State) (c : Nat) (x : FlashChan) : (putFChan s c x).fns = s.fns := rfl
@[simp] theorem putFChan_mbxPtr (s : State) (c : Nat) (x : FlashChan) : (putFChan s c x).mbxPtr = s.mbxPtr := rfl
@[simp] theorem putFChan_evr (s : State) (c : Nat) (x : FlashChan) : (putFChan s c x).evr = s.evr := rfl
@[simp] theorem putFChan_fab (s : State) (c : Nat) (x : FlashChan) : (putFChan s c x).fab = s.fab := rfl
@[simp] theorem putFChan_marver (s : State) (c : Nat) (x : FlashChan) : (putFChan s c x).marver = s.marver := rfl
@[simp] theorem putFChan_hub (s : State) (c : Nat) (x : FlashChan) : (putFChan s c x).hub = s.hub := rfl
@[simp] theorem putFChan_indexes (s : State) (c : Nat) (x : FlashChan) : (putFChan s c x).indexes = s.indexes := rfl
@[simp] theorem putFChan_cbSets (s : State) (c : Nat) (x : FlashChan) : (putFChan s c x).cbSets = s.cbSets := rfl
@[simp] theorem putFChan_nextHandle (s : State) (c : Nat) (x : FlashChan) : (putFChan s c x).nextHandle = s.nextHandle := rfl
@[simp] theorem putFChan_sessions (s : State) (c : Nat) (x : FlashChan) : (putFChan s c x).sessions = s.sessions := rfl
@[simp] theorem putFChan_requests (s : State) (c : Nat) (x : FlashChan) : (putFChan s c x).requests = s.requests := rfl
@[simp] theorem putFChan_tables (s : State) (c : Nat) (x : FlashChan) : (putFChan s c x).tables = s.tables := rfl
@[simp] theorem putFChan_poolReads (s : State) (c : Nat) (x : FlashChan) : (putFChan s c x).poolReads = s.poolReads := rfl
@[simp] theorem putFChan_move (s : State) (c : Nat) (x : FlashChan) : (putFChan s c x).move = s.move := rfl
@[simp] theorem putFChan_rack (s : State) (c : Nat) (x : FlashChan) : (putFChan s c x).rack = s.rack := rfl
@[simp] theorem putFChan_live (s : State) (c : Nat) (x : FlashChan) : (putFChan s c x).live = s.live := rfl
@[simp] theorem putFChan_power (s : State) (c : Nat) (x : FlashChan) : (putFChan s c x).power = s.power := rfl
@[simp] theorem putFChan_svc (s : State) (c : Nat) (x : FlashChan) : (putFChan s c x).svc = s.svc := rfl
@[simp] theorem putFChan_therm (s : State) (c : Nat) (x : FlashChan) : (putFChan s c x).therm = s.therm := rfl
@[simp] theorem putFChan_free (s : State) (c : Nat) (x : FlashChan) : (putFChan s c x).free = s.free := rfl
@[simp] theorem putFChan_pending (s : State) (c : Nat) (x : FlashChan) : (putFChan s c x).pending = s.pending := rfl

@[simp] theorem putIndex_fuse (s : State) (i : Nat) (x : Index) : (putIndex s i x).fuse = s.fuse := rfl
@[simp] theorem putIndex_boot (s : State) (i : Nat) (x : Index) : (putIndex s i x).boot = s.boot := rfl
@[simp] theorem putIndex_clk (s : State) (i : Nat) (x : Index) : (putIndex s i x).clk = s.clk := rfl
@[simp] theorem putIndex_mem (s : State) (i : Nat) (x : Index) : (putIndex s i x).mem = s.mem := rfl
@[simp] theorem putIndex_guard (s : State) (i : Nat) (x : Index) : (putIndex s i x).guard = s.guard := rfl
@[simp] theorem putIndex_wss (s : State) (i : Nat) (x : Index) : (putIndex s i x).wss = s.wss := rfl
@[simp] theorem putIndex_fns (s : State) (i : Nat) (x : Index) : (putIndex s i x).fns = s.fns := rfl
@[simp] theorem putIndex_mbxPtr (s : State) (i : Nat) (x : Index) : (putIndex s i x).mbxPtr = s.mbxPtr := rfl
@[simp] theorem putIndex_evr (s : State) (i : Nat) (x : Index) : (putIndex s i x).evr = s.evr := rfl
@[simp] theorem putIndex_fab (s : State) (i : Nat) (x : Index) : (putIndex s i x).fab = s.fab := rfl
@[simp] theorem putIndex_marver (s : State) (i : Nat) (x : Index) : (putIndex s i x).marver = s.marver := rfl
@[simp] theorem putIndex_hub (s : State) (i : Nat) (x : Index) : (putIndex s i x).hub = s.hub := rfl
@[simp] theorem putIndex_cbSets (s : State) (i : Nat) (x : Index) : (putIndex s i x).cbSets = s.cbSets := rfl
@[simp] theorem putIndex_nextHandle (s : State) (i : Nat) (x : Index) : (putIndex s i x).nextHandle = s.nextHandle := rfl
@[simp] theorem putIndex_sessions (s : State) (i : Nat) (x : Index) : (putIndex s i x).sessions = s.sessions := rfl
@[simp] theorem putIndex_requests (s : State) (i : Nat) (x : Index) : (putIndex s i x).requests = s.requests := rfl
@[simp] theorem putIndex_tables (s : State) (i : Nat) (x : Index) : (putIndex s i x).tables = s.tables := rfl
@[simp] theorem putIndex_poolReads (s : State) (i : Nat) (x : Index) : (putIndex s i x).poolReads = s.poolReads := rfl
@[simp] theorem putIndex_move (s : State) (i : Nat) (x : Index) : (putIndex s i x).move = s.move := rfl
@[simp] theorem putIndex_flash (s : State) (i : Nat) (x : Index) : (putIndex s i x).flash = s.flash := rfl
@[simp] theorem putIndex_rack (s : State) (i : Nat) (x : Index) : (putIndex s i x).rack = s.rack := rfl
@[simp] theorem putIndex_live (s : State) (i : Nat) (x : Index) : (putIndex s i x).live = s.live := rfl
@[simp] theorem putIndex_power (s : State) (i : Nat) (x : Index) : (putIndex s i x).power = s.power := rfl
@[simp] theorem putIndex_svc (s : State) (i : Nat) (x : Index) : (putIndex s i x).svc = s.svc := rfl
@[simp] theorem putIndex_therm (s : State) (i : Nat) (x : Index) : (putIndex s i x).therm = s.therm := rfl
@[simp] theorem putIndex_free (s : State) (i : Nat) (x : Index) : (putIndex s i x).free = s.free := rfl
@[simp] theorem putIndex_pending (s : State) (i : Nat) (x : Index) : (putIndex s i x).pending = s.pending := rfl

@[simp] theorem putUnit_fuse (s : State) (u : Nat) (x : MarverUnit) : (putUnit s u x).fuse = s.fuse := rfl
@[simp] theorem putUnit_boot (s : State) (u : Nat) (x : MarverUnit) : (putUnit s u x).boot = s.boot := rfl
@[simp] theorem putUnit_clk (s : State) (u : Nat) (x : MarverUnit) : (putUnit s u x).clk = s.clk := rfl
@[simp] theorem putUnit_mem (s : State) (u : Nat) (x : MarverUnit) : (putUnit s u x).mem = s.mem := rfl
@[simp] theorem putUnit_guard (s : State) (u : Nat) (x : MarverUnit) : (putUnit s u x).guard = s.guard := rfl
@[simp] theorem putUnit_wss (s : State) (u : Nat) (x : MarverUnit) : (putUnit s u x).wss = s.wss := rfl
@[simp] theorem putUnit_fns (s : State) (u : Nat) (x : MarverUnit) : (putUnit s u x).fns = s.fns := rfl
@[simp] theorem putUnit_mbxPtr (s : State) (u : Nat) (x : MarverUnit) : (putUnit s u x).mbxPtr = s.mbxPtr := rfl
@[simp] theorem putUnit_evr (s : State) (u : Nat) (x : MarverUnit) : (putUnit s u x).evr = s.evr := rfl
@[simp] theorem putUnit_fab (s : State) (u : Nat) (x : MarverUnit) : (putUnit s u x).fab = s.fab := rfl
@[simp] theorem putUnit_hub (s : State) (u : Nat) (x : MarverUnit) : (putUnit s u x).hub = s.hub := rfl
@[simp] theorem putUnit_indexes (s : State) (u : Nat) (x : MarverUnit) : (putUnit s u x).indexes = s.indexes := rfl
@[simp] theorem putUnit_cbSets (s : State) (u : Nat) (x : MarverUnit) : (putUnit s u x).cbSets = s.cbSets := rfl
@[simp] theorem putUnit_nextHandle (s : State) (u : Nat) (x : MarverUnit) : (putUnit s u x).nextHandle = s.nextHandle := rfl
@[simp] theorem putUnit_sessions (s : State) (u : Nat) (x : MarverUnit) : (putUnit s u x).sessions = s.sessions := rfl
@[simp] theorem putUnit_requests (s : State) (u : Nat) (x : MarverUnit) : (putUnit s u x).requests = s.requests := rfl
@[simp] theorem putUnit_tables (s : State) (u : Nat) (x : MarverUnit) : (putUnit s u x).tables = s.tables := rfl
@[simp] theorem putUnit_poolReads (s : State) (u : Nat) (x : MarverUnit) : (putUnit s u x).poolReads = s.poolReads := rfl
@[simp] theorem putUnit_move (s : State) (u : Nat) (x : MarverUnit) : (putUnit s u x).move = s.move := rfl
@[simp] theorem putUnit_flash (s : State) (u : Nat) (x : MarverUnit) : (putUnit s u x).flash = s.flash := rfl
@[simp] theorem putUnit_rack (s : State) (u : Nat) (x : MarverUnit) : (putUnit s u x).rack = s.rack := rfl
@[simp] theorem putUnit_live (s : State) (u : Nat) (x : MarverUnit) : (putUnit s u x).live = s.live := rfl
@[simp] theorem putUnit_power (s : State) (u : Nat) (x : MarverUnit) : (putUnit s u x).power = s.power := rfl
@[simp] theorem putUnit_svc (s : State) (u : Nat) (x : MarverUnit) : (putUnit s u x).svc = s.svc := rfl
@[simp] theorem putUnit_therm (s : State) (u : Nat) (x : MarverUnit) : (putUnit s u x).therm = s.therm := rfl
@[simp] theorem putUnit_free (s : State) (u : Nat) (x : MarverUnit) : (putUnit s u x).free = s.free := rfl
@[simp] theorem putUnit_pending (s : State) (u : Nat) (x : MarverUnit) : (putUnit s u x).pending = s.pending := rfl

@[simp] theorem putRecal_fuse (s : State) (r : Recal) : (putRecal s r).fuse = s.fuse := rfl
@[simp] theorem putRecal_boot (s : State) (r : Recal) : (putRecal s r).boot = s.boot := rfl
@[simp] theorem putRecal_clk (s : State) (r : Recal) : (putRecal s r).clk = s.clk := rfl
@[simp] theorem putRecal_mem (s : State) (r : Recal) : (putRecal s r).mem = s.mem := rfl
@[simp] theorem putRecal_guard (s : State) (r : Recal) : (putRecal s r).guard = s.guard := rfl
@[simp] theorem putRecal_wss (s : State) (r : Recal) : (putRecal s r).wss = s.wss := rfl
@[simp] theorem putRecal_fns (s : State) (r : Recal) : (putRecal s r).fns = s.fns := rfl
@[simp] theorem putRecal_mbxPtr (s : State) (r : Recal) : (putRecal s r).mbxPtr = s.mbxPtr := rfl
@[simp] theorem putRecal_evr (s : State) (r : Recal) : (putRecal s r).evr = s.evr := rfl
@[simp] theorem putRecal_fab (s : State) (r : Recal) : (putRecal s r).fab = s.fab := rfl
@[simp] theorem putRecal_marver (s : State) (r : Recal) : (putRecal s r).marver = s.marver := rfl
@[simp] theorem putRecal_hub (s : State) (r : Recal) : (putRecal s r).hub = s.hub := rfl
@[simp] theorem putRecal_indexes (s : State) (r : Recal) : (putRecal s r).indexes = s.indexes := rfl
@[simp] theorem putRecal_cbSets (s : State) (r : Recal) : (putRecal s r).cbSets = s.cbSets := rfl
@[simp] theorem putRecal_nextHandle (s : State) (r : Recal) : (putRecal s r).nextHandle = s.nextHandle := rfl
@[simp] theorem putRecal_sessions (s : State) (r : Recal) : (putRecal s r).sessions = s.sessions := rfl
@[simp] theorem putRecal_requests (s : State) (r : Recal) : (putRecal s r).requests = s.requests := rfl
@[simp] theorem putRecal_tables (s : State) (r : Recal) : (putRecal s r).tables = s.tables := rfl
@[simp] theorem putRecal_poolReads (s : State) (r : Recal) : (putRecal s r).poolReads = s.poolReads := rfl
@[simp] theorem putRecal_move (s : State) (r : Recal) : (putRecal s r).move = s.move := rfl
@[simp] theorem putRecal_flash (s : State) (r : Recal) : (putRecal s r).flash = s.flash := rfl
@[simp] theorem putRecal_rack (s : State) (r : Recal) : (putRecal s r).rack = s.rack := rfl
@[simp] theorem putRecal_power (s : State) (r : Recal) : (putRecal s r).power = s.power := rfl
@[simp] theorem putRecal_svc (s : State) (r : Recal) : (putRecal s r).svc = s.svc := rfl
@[simp] theorem putRecal_therm (s : State) (r : Recal) : (putRecal s r).therm = s.therm := rfl
@[simp] theorem putRecal_free (s : State) (r : Recal) : (putRecal s r).free = s.free := rfl
@[simp] theorem putRecal_pending (s : State) (r : Recal) : (putRecal s r).pending = s.pending := rfl

@[simp] theorem putLease_fuse (s : State) (g : Group) : (putLease s g).fuse = s.fuse := rfl
@[simp] theorem putLease_boot (s : State) (g : Group) : (putLease s g).boot = s.boot := rfl
@[simp] theorem putLease_clk (s : State) (g : Group) : (putLease s g).clk = s.clk := rfl
@[simp] theorem putLease_mem (s : State) (g : Group) : (putLease s g).mem = s.mem := rfl
@[simp] theorem putLease_guard (s : State) (g : Group) : (putLease s g).guard = s.guard := rfl
@[simp] theorem putLease_wss (s : State) (g : Group) : (putLease s g).wss = s.wss := rfl
@[simp] theorem putLease_fns (s : State) (g : Group) : (putLease s g).fns = s.fns := rfl
@[simp] theorem putLease_mbxPtr (s : State) (g : Group) : (putLease s g).mbxPtr = s.mbxPtr := rfl
@[simp] theorem putLease_evr (s : State) (g : Group) : (putLease s g).evr = s.evr := rfl
@[simp] theorem putLease_fab (s : State) (g : Group) : (putLease s g).fab = s.fab := rfl
@[simp] theorem putLease_marver (s : State) (g : Group) : (putLease s g).marver = s.marver := rfl
@[simp] theorem putLease_hub (s : State) (g : Group) : (putLease s g).hub = s.hub := rfl
@[simp] theorem putLease_indexes (s : State) (g : Group) : (putLease s g).indexes = s.indexes := rfl
@[simp] theorem putLease_cbSets (s : State) (g : Group) : (putLease s g).cbSets = s.cbSets := rfl
@[simp] theorem putLease_nextHandle (s : State) (g : Group) : (putLease s g).nextHandle = s.nextHandle := rfl
@[simp] theorem putLease_sessions (s : State) (g : Group) : (putLease s g).sessions = s.sessions := rfl
@[simp] theorem putLease_requests (s : State) (g : Group) : (putLease s g).requests = s.requests := rfl
@[simp] theorem putLease_tables (s : State) (g : Group) : (putLease s g).tables = s.tables := rfl
@[simp] theorem putLease_poolReads (s : State) (g : Group) : (putLease s g).poolReads = s.poolReads := rfl
@[simp] theorem putLease_move (s : State) (g : Group) : (putLease s g).move = s.move := rfl
@[simp] theorem putLease_flash (s : State) (g : Group) : (putLease s g).flash = s.flash := rfl
@[simp] theorem putLease_live (s : State) (g : Group) : (putLease s g).live = s.live := rfl
@[simp] theorem putLease_power (s : State) (g : Group) : (putLease s g).power = s.power := rfl
@[simp] theorem putLease_svc (s : State) (g : Group) : (putLease s g).svc = s.svc := rfl
@[simp] theorem putLease_therm (s : State) (g : Group) : (putLease s g).therm = s.therm := rfl
@[simp] theorem putLease_free (s : State) (g : Group) : (putLease s g).free = s.free := rfl
@[simp] theorem putLease_pending (s : State) (g : Group) : (putLease s g).pending = s.pending := rfl

@[simp] theorem putPort_fuse (s : State) (p : Nat) (x : Port) : (putPort s p x).fuse = s.fuse := rfl
@[simp] theorem putPort_boot (s : State) (p : Nat) (x : Port) : (putPort s p x).boot = s.boot := rfl
@[simp] theorem putPort_clk (s : State) (p : Nat) (x : Port) : (putPort s p x).clk = s.clk := rfl
@[simp] theorem putPort_mem (s : State) (p : Nat) (x : Port) : (putPort s p x).mem = s.mem := rfl
@[simp] theorem putPort_guard (s : State) (p : Nat) (x : Port) : (putPort s p x).guard = s.guard := rfl
@[simp] theorem putPort_wss (s : State) (p : Nat) (x : Port) : (putPort s p x).wss = s.wss := rfl
@[simp] theorem putPort_fns (s : State) (p : Nat) (x : Port) : (putPort s p x).fns = s.fns := rfl
@[simp] theorem putPort_mbxPtr (s : State) (p : Nat) (x : Port) : (putPort s p x).mbxPtr = s.mbxPtr := rfl
@[simp] theorem putPort_evr (s : State) (p : Nat) (x : Port) : (putPort s p x).evr = s.evr := rfl
@[simp] theorem putPort_marver (s : State) (p : Nat) (x : Port) : (putPort s p x).marver = s.marver := rfl
@[simp] theorem putPort_hub (s : State) (p : Nat) (x : Port) : (putPort s p x).hub = s.hub := rfl
@[simp] theorem putPort_indexes (s : State) (p : Nat) (x : Port) : (putPort s p x).indexes = s.indexes := rfl
@[simp] theorem putPort_cbSets (s : State) (p : Nat) (x : Port) : (putPort s p x).cbSets = s.cbSets := rfl
@[simp] theorem putPort_nextHandle (s : State) (p : Nat) (x : Port) : (putPort s p x).nextHandle = s.nextHandle := rfl
@[simp] theorem putPort_sessions (s : State) (p : Nat) (x : Port) : (putPort s p x).sessions = s.sessions := rfl
@[simp] theorem putPort_requests (s : State) (p : Nat) (x : Port) : (putPort s p x).requests = s.requests := rfl
@[simp] theorem putPort_tables (s : State) (p : Nat) (x : Port) : (putPort s p x).tables = s.tables := rfl
@[simp] theorem putPort_poolReads (s : State) (p : Nat) (x : Port) : (putPort s p x).poolReads = s.poolReads := rfl
@[simp] theorem putPort_move (s : State) (p : Nat) (x : Port) : (putPort s p x).move = s.move := rfl
@[simp] theorem putPort_flash (s : State) (p : Nat) (x : Port) : (putPort s p x).flash = s.flash := rfl
@[simp] theorem putPort_rack (s : State) (p : Nat) (x : Port) : (putPort s p x).rack = s.rack := rfl
@[simp] theorem putPort_live (s : State) (p : Nat) (x : Port) : (putPort s p x).live = s.live := rfl
@[simp] theorem putPort_power (s : State) (p : Nat) (x : Port) : (putPort s p x).power = s.power := rfl
@[simp] theorem putPort_svc (s : State) (p : Nat) (x : Port) : (putPort s p x).svc = s.svc := rfl
@[simp] theorem putPort_therm (s : State) (p : Nat) (x : Port) : (putPort s p x).therm = s.therm := rfl
@[simp] theorem putPort_free (s : State) (p : Nat) (x : Port) : (putPort s p x).free = s.free := rfl
@[simp] theorem putPort_pending (s : State) (p : Nat) (x : Port) : (putPort s p x).pending = s.pending := rfl

@[simp] theorem putFlow_fuse (s : State) (f : Flow) : (putFlow s f).fuse = s.fuse := rfl
@[simp] theorem putFlow_boot (s : State) (f : Flow) : (putFlow s f).boot = s.boot := rfl
@[simp] theorem putFlow_clk (s : State) (f : Flow) : (putFlow s f).clk = s.clk := rfl
@[simp] theorem putFlow_mem (s : State) (f : Flow) : (putFlow s f).mem = s.mem := rfl
@[simp] theorem putFlow_guard (s : State) (f : Flow) : (putFlow s f).guard = s.guard := rfl
@[simp] theorem putFlow_wss (s : State) (f : Flow) : (putFlow s f).wss = s.wss := rfl
@[simp] theorem putFlow_fns (s : State) (f : Flow) : (putFlow s f).fns = s.fns := rfl
@[simp] theorem putFlow_mbxPtr (s : State) (f : Flow) : (putFlow s f).mbxPtr = s.mbxPtr := rfl
@[simp] theorem putFlow_evr (s : State) (f : Flow) : (putFlow s f).evr = s.evr := rfl
@[simp] theorem putFlow_marver (s : State) (f : Flow) : (putFlow s f).marver = s.marver := rfl
@[simp] theorem putFlow_hub (s : State) (f : Flow) : (putFlow s f).hub = s.hub := rfl
@[simp] theorem putFlow_indexes (s : State) (f : Flow) : (putFlow s f).indexes = s.indexes := rfl
@[simp] theorem putFlow_cbSets (s : State) (f : Flow) : (putFlow s f).cbSets = s.cbSets := rfl
@[simp] theorem putFlow_nextHandle (s : State) (f : Flow) : (putFlow s f).nextHandle = s.nextHandle := rfl
@[simp] theorem putFlow_sessions (s : State) (f : Flow) : (putFlow s f).sessions = s.sessions := rfl
@[simp] theorem putFlow_requests (s : State) (f : Flow) : (putFlow s f).requests = s.requests := rfl
@[simp] theorem putFlow_tables (s : State) (f : Flow) : (putFlow s f).tables = s.tables := rfl
@[simp] theorem putFlow_poolReads (s : State) (f : Flow) : (putFlow s f).poolReads = s.poolReads := rfl
@[simp] theorem putFlow_move (s : State) (f : Flow) : (putFlow s f).move = s.move := rfl
@[simp] theorem putFlow_flash (s : State) (f : Flow) : (putFlow s f).flash = s.flash := rfl
@[simp] theorem putFlow_rack (s : State) (f : Flow) : (putFlow s f).rack = s.rack := rfl
@[simp] theorem putFlow_live (s : State) (f : Flow) : (putFlow s f).live = s.live := rfl
@[simp] theorem putFlow_power (s : State) (f : Flow) : (putFlow s f).power = s.power := rfl
@[simp] theorem putFlow_svc (s : State) (f : Flow) : (putFlow s f).svc = s.svc := rfl
@[simp] theorem putFlow_therm (s : State) (f : Flow) : (putFlow s f).therm = s.therm := rfl
@[simp] theorem putFlow_free (s : State) (f : Flow) : (putFlow s f).free = s.free := rfl
@[simp] theorem putFlow_pending (s : State) (f : Flow) : (putFlow s f).pending = s.pending := rfl

@[simp] theorem putFn_fuse (s : State) (n : Nat) (f : Func) : (putFn s n f).fuse = s.fuse := rfl
@[simp] theorem putFn_boot (s : State) (n : Nat) (f : Func) : (putFn s n f).boot = s.boot := rfl
@[simp] theorem putFn_clk (s : State) (n : Nat) (f : Func) : (putFn s n f).clk = s.clk := rfl
@[simp] theorem putFn_mem (s : State) (n : Nat) (f : Func) : (putFn s n f).mem = s.mem := rfl
@[simp] theorem putFn_guard (s : State) (n : Nat) (f : Func) : (putFn s n f).guard = s.guard := rfl
@[simp] theorem putFn_wss (s : State) (n : Nat) (f : Func) : (putFn s n f).wss = s.wss := rfl
@[simp] theorem putFn_mbxPtr (s : State) (n : Nat) (f : Func) : (putFn s n f).mbxPtr = s.mbxPtr := rfl
@[simp] theorem putFn_evr (s : State) (n : Nat) (f : Func) : (putFn s n f).evr = s.evr := rfl
@[simp] theorem putFn_fab (s : State) (n : Nat) (f : Func) : (putFn s n f).fab = s.fab := rfl
@[simp] theorem putFn_marver (s : State) (n : Nat) (f : Func) : (putFn s n f).marver = s.marver := rfl
@[simp] theorem putFn_hub (s : State) (n : Nat) (f : Func) : (putFn s n f).hub = s.hub := rfl
@[simp] theorem putFn_indexes (s : State) (n : Nat) (f : Func) : (putFn s n f).indexes = s.indexes := rfl
@[simp] theorem putFn_cbSets (s : State) (n : Nat) (f : Func) : (putFn s n f).cbSets = s.cbSets := rfl
@[simp] theorem putFn_nextHandle (s : State) (n : Nat) (f : Func) : (putFn s n f).nextHandle = s.nextHandle := rfl
@[simp] theorem putFn_sessions (s : State) (n : Nat) (f : Func) : (putFn s n f).sessions = s.sessions := rfl
@[simp] theorem putFn_requests (s : State) (n : Nat) (f : Func) : (putFn s n f).requests = s.requests := rfl
@[simp] theorem putFn_tables (s : State) (n : Nat) (f : Func) : (putFn s n f).tables = s.tables := rfl
@[simp] theorem putFn_poolReads (s : State) (n : Nat) (f : Func) : (putFn s n f).poolReads = s.poolReads := rfl
@[simp] theorem putFn_move (s : State) (n : Nat) (f : Func) : (putFn s n f).move = s.move := rfl
@[simp] theorem putFn_flash (s : State) (n : Nat) (f : Func) : (putFn s n f).flash = s.flash := rfl
@[simp] theorem putFn_rack (s : State) (n : Nat) (f : Func) : (putFn s n f).rack = s.rack := rfl
@[simp] theorem putFn_live (s : State) (n : Nat) (f : Func) : (putFn s n f).live = s.live := rfl
@[simp] theorem putFn_power (s : State) (n : Nat) (f : Func) : (putFn s n f).power = s.power := rfl
@[simp] theorem putFn_svc (s : State) (n : Nat) (f : Func) : (putFn s n f).svc = s.svc := rfl
@[simp] theorem putFn_therm (s : State) (n : Nat) (f : Func) : (putFn s n f).therm = s.therm := rfl
@[simp] theorem putFn_free (s : State) (n : Nat) (f : Func) : (putFn s n f).free = s.free := rfl
@[simp] theorem putFn_pending (s : State) (n : Nat) (f : Func) : (putFn s n f).pending = s.pending := rfl

@[simp] theorem putWs_fuse (s : State) (n : Nat) (w : Ws) : (putWs s n w).fuse = s.fuse := rfl
@[simp] theorem putWs_boot (s : State) (n : Nat) (w : Ws) : (putWs s n w).boot = s.boot := rfl
@[simp] theorem putWs_clk (s : State) (n : Nat) (w : Ws) : (putWs s n w).clk = s.clk := rfl
@[simp] theorem putWs_mem (s : State) (n : Nat) (w : Ws) : (putWs s n w).mem = s.mem := rfl
@[simp] theorem putWs_guard (s : State) (n : Nat) (w : Ws) : (putWs s n w).guard = s.guard := rfl
@[simp] theorem putWs_fns (s : State) (n : Nat) (w : Ws) : (putWs s n w).fns = s.fns := rfl
@[simp] theorem putWs_mbxPtr (s : State) (n : Nat) (w : Ws) : (putWs s n w).mbxPtr = s.mbxPtr := rfl
@[simp] theorem putWs_evr (s : State) (n : Nat) (w : Ws) : (putWs s n w).evr = s.evr := rfl
@[simp] theorem putWs_fab (s : State) (n : Nat) (w : Ws) : (putWs s n w).fab = s.fab := rfl
@[simp] theorem putWs_marver (s : State) (n : Nat) (w : Ws) : (putWs s n w).marver = s.marver := rfl
@[simp] theorem putWs_hub (s : State) (n : Nat) (w : Ws) : (putWs s n w).hub = s.hub := rfl
@[simp] theorem putWs_indexes (s : State) (n : Nat) (w : Ws) : (putWs s n w).indexes = s.indexes := rfl
@[simp] theorem putWs_cbSets (s : State) (n : Nat) (w : Ws) : (putWs s n w).cbSets = s.cbSets := rfl
@[simp] theorem putWs_nextHandle (s : State) (n : Nat) (w : Ws) : (putWs s n w).nextHandle = s.nextHandle := rfl
@[simp] theorem putWs_sessions (s : State) (n : Nat) (w : Ws) : (putWs s n w).sessions = s.sessions := rfl
@[simp] theorem putWs_requests (s : State) (n : Nat) (w : Ws) : (putWs s n w).requests = s.requests := rfl
@[simp] theorem putWs_tables (s : State) (n : Nat) (w : Ws) : (putWs s n w).tables = s.tables := rfl
@[simp] theorem putWs_poolReads (s : State) (n : Nat) (w : Ws) : (putWs s n w).poolReads = s.poolReads := rfl
@[simp] theorem putWs_move (s : State) (n : Nat) (w : Ws) : (putWs s n w).move = s.move := rfl
@[simp] theorem putWs_flash (s : State) (n : Nat) (w : Ws) : (putWs s n w).flash = s.flash := rfl
@[simp] theorem putWs_rack (s : State) (n : Nat) (w : Ws) : (putWs s n w).rack = s.rack := rfl
@[simp] theorem putWs_live (s : State) (n : Nat) (w : Ws) : (putWs s n w).live = s.live := rfl
@[simp] theorem putWs_power (s : State) (n : Nat) (w : Ws) : (putWs s n w).power = s.power := rfl
@[simp] theorem putWs_svc (s : State) (n : Nat) (w : Ws) : (putWs s n w).svc = s.svc := rfl
@[simp] theorem putWs_therm (s : State) (n : Nat) (w : Ws) : (putWs s n w).therm = s.therm := rfl
@[simp] theorem putWs_free (s : State) (n : Nat) (w : Ws) : (putWs s n w).free = s.free := rfl
@[simp] theorem putWs_pending (s : State) (n : Nat) (w : Ws) : (putWs s n w).pending = s.pending := rfl

@[simp] theorem putRxFlow_fuse (s : State) (f : RxFlow) : (putRxFlow s f).fuse = s.fuse := rfl
@[simp] theorem putRxFlow_boot (s : State) (f : RxFlow) : (putRxFlow s f).boot = s.boot := rfl
@[simp] theorem putRxFlow_clk (s : State) (f : RxFlow) : (putRxFlow s f).clk = s.clk := rfl
@[simp] theorem putRxFlow_mem (s : State) (f : RxFlow) : (putRxFlow s f).mem = s.mem := rfl
@[simp] theorem putRxFlow_guard (s : State) (f : RxFlow) : (putRxFlow s f).guard = s.guard := rfl
@[simp] theorem putRxFlow_wss (s : State) (f : RxFlow) : (putRxFlow s f).wss = s.wss := rfl
@[simp] theorem putRxFlow_fns (s : State) (f : RxFlow) : (putRxFlow s f).fns = s.fns := rfl
@[simp] theorem putRxFlow_mbxPtr (s : State) (f : RxFlow) : (putRxFlow s f).mbxPtr = s.mbxPtr := rfl
@[simp] theorem putRxFlow_evr (s : State) (f : RxFlow) : (putRxFlow s f).evr = s.evr := rfl
@[simp] theorem putRxFlow_marver (s : State) (f : RxFlow) : (putRxFlow s f).marver = s.marver := rfl
@[simp] theorem putRxFlow_hub (s : State) (f : RxFlow) : (putRxFlow s f).hub = s.hub := rfl
@[simp] theorem putRxFlow_indexes (s : State) (f : RxFlow) : (putRxFlow s f).indexes = s.indexes := rfl
@[simp] theorem putRxFlow_cbSets (s : State) (f : RxFlow) : (putRxFlow s f).cbSets = s.cbSets := rfl
@[simp] theorem putRxFlow_nextHandle (s : State) (f : RxFlow) : (putRxFlow s f).nextHandle = s.nextHandle := rfl
@[simp] theorem putRxFlow_sessions (s : State) (f : RxFlow) : (putRxFlow s f).sessions = s.sessions := rfl
@[simp] theorem putRxFlow_requests (s : State) (f : RxFlow) : (putRxFlow s f).requests = s.requests := rfl
@[simp] theorem putRxFlow_tables (s : State) (f : RxFlow) : (putRxFlow s f).tables = s.tables := rfl
@[simp] theorem putRxFlow_poolReads (s : State) (f : RxFlow) : (putRxFlow s f).poolReads = s.poolReads := rfl
@[simp] theorem putRxFlow_move (s : State) (f : RxFlow) : (putRxFlow s f).move = s.move := rfl
@[simp] theorem putRxFlow_flash (s : State) (f : RxFlow) : (putRxFlow s f).flash = s.flash := rfl
@[simp] theorem putRxFlow_rack (s : State) (f : RxFlow) : (putRxFlow s f).rack = s.rack := rfl
@[simp] theorem putRxFlow_live (s : State) (f : RxFlow) : (putRxFlow s f).live = s.live := rfl
@[simp] theorem putRxFlow_power (s : State) (f : RxFlow) : (putRxFlow s f).power = s.power := rfl
@[simp] theorem putRxFlow_svc (s : State) (f : RxFlow) : (putRxFlow s f).svc = s.svc := rfl
@[simp] theorem putRxFlow_therm (s : State) (f : RxFlow) : (putRxFlow s f).therm = s.therm := rfl
@[simp] theorem putRxFlow_free (s : State) (f : RxFlow) : (putRxFlow s f).free = s.free := rfl
@[simp] theorem putRxFlow_pending (s : State) (f : RxFlow) : (putRxFlow s f).pending = s.pending := rfl

@[simp] theorem putGaffer_fuse (s : State) (e : Nat) (g : Gaffer) : (putGaffer s e g).fuse = s.fuse := rfl
@[simp] theorem putGaffer_boot (s : State) (e : Nat) (g : Gaffer) : (putGaffer s e g).boot = s.boot := rfl
@[simp] theorem putGaffer_clk (s : State) (e : Nat) (g : Gaffer) : (putGaffer s e g).clk = s.clk := rfl
@[simp] theorem putGaffer_mem (s : State) (e : Nat) (g : Gaffer) : (putGaffer s e g).mem = s.mem := rfl
@[simp] theorem putGaffer_guard (s : State) (e : Nat) (g : Gaffer) : (putGaffer s e g).guard = s.guard := rfl
@[simp] theorem putGaffer_wss (s : State) (e : Nat) (g : Gaffer) : (putGaffer s e g).wss = s.wss := rfl
@[simp] theorem putGaffer_fns (s : State) (e : Nat) (g : Gaffer) : (putGaffer s e g).fns = s.fns := rfl
@[simp] theorem putGaffer_mbxPtr (s : State) (e : Nat) (g : Gaffer) : (putGaffer s e g).mbxPtr = s.mbxPtr := rfl
@[simp] theorem putGaffer_evr (s : State) (e : Nat) (g : Gaffer) : (putGaffer s e g).evr = s.evr := rfl
@[simp] theorem putGaffer_fab (s : State) (e : Nat) (g : Gaffer) : (putGaffer s e g).fab = s.fab := rfl
@[simp] theorem putGaffer_marver (s : State) (e : Nat) (g : Gaffer) : (putGaffer s e g).marver = s.marver := rfl
@[simp] theorem putGaffer_indexes (s : State) (e : Nat) (g : Gaffer) : (putGaffer s e g).indexes = s.indexes := rfl
@[simp] theorem putGaffer_cbSets (s : State) (e : Nat) (g : Gaffer) : (putGaffer s e g).cbSets = s.cbSets := rfl
@[simp] theorem putGaffer_nextHandle (s : State) (e : Nat) (g : Gaffer) : (putGaffer s e g).nextHandle = s.nextHandle := rfl
@[simp] theorem putGaffer_sessions (s : State) (e : Nat) (g : Gaffer) : (putGaffer s e g).sessions = s.sessions := rfl
@[simp] theorem putGaffer_requests (s : State) (e : Nat) (g : Gaffer) : (putGaffer s e g).requests = s.requests := rfl
@[simp] theorem putGaffer_tables (s : State) (e : Nat) (g : Gaffer) : (putGaffer s e g).tables = s.tables := rfl
@[simp] theorem putGaffer_poolReads (s : State) (e : Nat) (g : Gaffer) : (putGaffer s e g).poolReads = s.poolReads := rfl
@[simp] theorem putGaffer_move (s : State) (e : Nat) (g : Gaffer) : (putGaffer s e g).move = s.move := rfl
@[simp] theorem putGaffer_flash (s : State) (e : Nat) (g : Gaffer) : (putGaffer s e g).flash = s.flash := rfl
@[simp] theorem putGaffer_rack (s : State) (e : Nat) (g : Gaffer) : (putGaffer s e g).rack = s.rack := rfl
@[simp] theorem putGaffer_live (s : State) (e : Nat) (g : Gaffer) : (putGaffer s e g).live = s.live := rfl
@[simp] theorem putGaffer_power (s : State) (e : Nat) (g : Gaffer) : (putGaffer s e g).power = s.power := rfl
@[simp] theorem putGaffer_svc (s : State) (e : Nat) (g : Gaffer) : (putGaffer s e g).svc = s.svc := rfl
@[simp] theorem putGaffer_therm (s : State) (e : Nat) (g : Gaffer) : (putGaffer s e g).therm = s.therm := rfl
@[simp] theorem putGaffer_free (s : State) (e : Nat) (g : Gaffer) : (putGaffer s e g).free = s.free := rfl
@[simp] theorem putGaffer_pending (s : State) (e : Nat) (g : Gaffer) : (putGaffer s e g).pending = s.pending := rfl

@[simp] theorem putProgram_fuse (s : State) (h : Nat) (p : Program) : (putProgram s h p).fuse = s.fuse := rfl
@[simp] theorem putProgram_boot (s : State) (h : Nat) (p : Program) : (putProgram s h p).boot = s.boot := rfl
@[simp] theorem putProgram_clk (s : State) (h : Nat) (p : Program) : (putProgram s h p).clk = s.clk := rfl
@[simp] theorem putProgram_mem (s : State) (h : Nat) (p : Program) : (putProgram s h p).mem = s.mem := rfl
@[simp] theorem putProgram_guard (s : State) (h : Nat) (p : Program) : (putProgram s h p).guard = s.guard := rfl
@[simp] theorem putProgram_wss (s : State) (h : Nat) (p : Program) : (putProgram s h p).wss = s.wss := rfl
@[simp] theorem putProgram_fns (s : State) (h : Nat) (p : Program) : (putProgram s h p).fns = s.fns := rfl
@[simp] theorem putProgram_mbxPtr (s : State) (h : Nat) (p : Program) : (putProgram s h p).mbxPtr = s.mbxPtr := rfl
@[simp] theorem putProgram_evr (s : State) (h : Nat) (p : Program) : (putProgram s h p).evr = s.evr := rfl
@[simp] theorem putProgram_fab (s : State) (h : Nat) (p : Program) : (putProgram s h p).fab = s.fab := rfl
@[simp] theorem putProgram_marver (s : State) (h : Nat) (p : Program) : (putProgram s h p).marver = s.marver := rfl
@[simp] theorem putProgram_indexes (s : State) (h : Nat) (p : Program) : (putProgram s h p).indexes = s.indexes := rfl
@[simp] theorem putProgram_cbSets (s : State) (h : Nat) (p : Program) : (putProgram s h p).cbSets = s.cbSets := rfl
@[simp] theorem putProgram_nextHandle (s : State) (h : Nat) (p : Program) : (putProgram s h p).nextHandle = s.nextHandle := rfl
@[simp] theorem putProgram_sessions (s : State) (h : Nat) (p : Program) : (putProgram s h p).sessions = s.sessions := rfl
@[simp] theorem putProgram_requests (s : State) (h : Nat) (p : Program) : (putProgram s h p).requests = s.requests := rfl
@[simp] theorem putProgram_tables (s : State) (h : Nat) (p : Program) : (putProgram s h p).tables = s.tables := rfl
@[simp] theorem putProgram_poolReads (s : State) (h : Nat) (p : Program) : (putProgram s h p).poolReads = s.poolReads := rfl
@[simp] theorem putProgram_move (s : State) (h : Nat) (p : Program) : (putProgram s h p).move = s.move := rfl
@[simp] theorem putProgram_flash (s : State) (h : Nat) (p : Program) : (putProgram s h p).flash = s.flash := rfl
@[simp] theorem putProgram_rack (s : State) (h : Nat) (p : Program) : (putProgram s h p).rack = s.rack := rfl
@[simp] theorem putProgram_live (s : State) (h : Nat) (p : Program) : (putProgram s h p).live = s.live := rfl
@[simp] theorem putProgram_power (s : State) (h : Nat) (p : Program) : (putProgram s h p).power = s.power := rfl
@[simp] theorem putProgram_svc (s : State) (h : Nat) (p : Program) : (putProgram s h p).svc = s.svc := rfl
@[simp] theorem putProgram_therm (s : State) (h : Nat) (p : Program) : (putProgram s h p).therm = s.therm := rfl
@[simp] theorem putProgram_free (s : State) (h : Nat) (p : Program) : (putProgram s h p).free = s.free := rfl
@[simp] theorem putProgram_pending (s : State) (h : Nat) (p : Program) : (putProgram s h p).pending = s.pending := rfl

@[simp] theorem putSub_fuse (s : State) (x : SubIn) : (putSub s x).fuse = s.fuse := rfl
@[simp] theorem putSub_boot (s : State) (x : SubIn) : (putSub s x).boot = s.boot := rfl
@[simp] theorem putSub_clk (s : State) (x : SubIn) : (putSub s x).clk = s.clk := rfl
@[simp] theorem putSub_mem (s : State) (x : SubIn) : (putSub s x).mem = s.mem := rfl
@[simp] theorem putSub_guard (s : State) (x : SubIn) : (putSub s x).guard = s.guard := rfl
@[simp] theorem putSub_wss (s : State) (x : SubIn) : (putSub s x).wss = s.wss := rfl
@[simp] theorem putSub_fns (s : State) (x : SubIn) : (putSub s x).fns = s.fns := rfl
@[simp] theorem putSub_mbxPtr (s : State) (x : SubIn) : (putSub s x).mbxPtr = s.mbxPtr := rfl
@[simp] theorem putSub_evr (s : State) (x : SubIn) : (putSub s x).evr = s.evr := rfl
@[simp] theorem putSub_fab (s : State) (x : SubIn) : (putSub s x).fab = s.fab := rfl
@[simp] theorem putSub_marver (s : State) (x : SubIn) : (putSub s x).marver = s.marver := rfl
@[simp] theorem putSub_indexes (s : State) (x : SubIn) : (putSub s x).indexes = s.indexes := rfl
@[simp] theorem putSub_cbSets (s : State) (x : SubIn) : (putSub s x).cbSets = s.cbSets := rfl
@[simp] theorem putSub_nextHandle (s : State) (x : SubIn) : (putSub s x).nextHandle = s.nextHandle := rfl
@[simp] theorem putSub_sessions (s : State) (x : SubIn) : (putSub s x).sessions = s.sessions := rfl
@[simp] theorem putSub_requests (s : State) (x : SubIn) : (putSub s x).requests = s.requests := rfl
@[simp] theorem putSub_tables (s : State) (x : SubIn) : (putSub s x).tables = s.tables := rfl
@[simp] theorem putSub_poolReads (s : State) (x : SubIn) : (putSub s x).poolReads = s.poolReads := rfl
@[simp] theorem putSub_move (s : State) (x : SubIn) : (putSub s x).move = s.move := rfl
@[simp] theorem putSub_flash (s : State) (x : SubIn) : (putSub s x).flash = s.flash := rfl
@[simp] theorem putSub_rack (s : State) (x : SubIn) : (putSub s x).rack = s.rack := rfl
@[simp] theorem putSub_live (s : State) (x : SubIn) : (putSub s x).live = s.live := rfl
@[simp] theorem putSub_power (s : State) (x : SubIn) : (putSub s x).power = s.power := rfl
@[simp] theorem putSub_svc (s : State) (x : SubIn) : (putSub s x).svc = s.svc := rfl
@[simp] theorem putSub_therm (s : State) (x : SubIn) : (putSub s x).therm = s.therm := rfl
@[simp] theorem putSub_free (s : State) (x : SubIn) : (putSub s x).free = s.free := rfl
@[simp] theorem putSub_pending (s : State) (x : SubIn) : (putSub s x).pending = s.pending := rfl

@[simp] theorem putChan_fuse (s : State) (c : Nat) (x : Channel) : (putChan s c x).fuse = s.fuse := rfl
@[simp] theorem putChan_boot (s : State) (c : Nat) (x : Channel) : (putChan s c x).boot = s.boot := rfl
@[simp] theorem putChan_clk (s : State) (c : Nat) (x : Channel) : (putChan s c x).clk = s.clk := rfl
@[simp] theorem putChan_mem (s : State) (c : Nat) (x : Channel) : (putChan s c x).mem = s.mem := rfl
@[simp] theorem putChan_guard (s : State) (c : Nat) (x : Channel) : (putChan s c x).guard = s.guard := rfl
@[simp] theorem putChan_wss (s : State) (c : Nat) (x : Channel) : (putChan s c x).wss = s.wss := rfl
@[simp] theorem putChan_fns (s : State) (c : Nat) (x : Channel) : (putChan s c x).fns = s.fns := rfl
@[simp] theorem putChan_mbxPtr (s : State) (c : Nat) (x : Channel) : (putChan s c x).mbxPtr = s.mbxPtr := rfl
@[simp] theorem putChan_evr (s : State) (c : Nat) (x : Channel) : (putChan s c x).evr = s.evr := rfl
@[simp] theorem putChan_fab (s : State) (c : Nat) (x : Channel) : (putChan s c x).fab = s.fab := rfl
@[simp] theorem putChan_marver (s : State) (c : Nat) (x : Channel) : (putChan s c x).marver = s.marver := rfl
@[simp] theorem putChan_hub (s : State) (c : Nat) (x : Channel) : (putChan s c x).hub = s.hub := rfl
@[simp] theorem putChan_indexes (s : State) (c : Nat) (x : Channel) : (putChan s c x).indexes = s.indexes := rfl
@[simp] theorem putChan_cbSets (s : State) (c : Nat) (x : Channel) : (putChan s c x).cbSets = s.cbSets := rfl
@[simp] theorem putChan_nextHandle (s : State) (c : Nat) (x : Channel) : (putChan s c x).nextHandle = s.nextHandle := rfl
@[simp] theorem putChan_sessions (s : State) (c : Nat) (x : Channel) : (putChan s c x).sessions = s.sessions := rfl
@[simp] theorem putChan_requests (s : State) (c : Nat) (x : Channel) : (putChan s c x).requests = s.requests := rfl
@[simp] theorem putChan_tables (s : State) (c : Nat) (x : Channel) : (putChan s c x).tables = s.tables := rfl
@[simp] theorem putChan_poolReads (s : State) (c : Nat) (x : Channel) : (putChan s c x).poolReads = s.poolReads := rfl
@[simp] theorem putChan_flash (s : State) (c : Nat) (x : Channel) : (putChan s c x).flash = s.flash := rfl
@[simp] theorem putChan_rack (s : State) (c : Nat) (x : Channel) : (putChan s c x).rack = s.rack := rfl
@[simp] theorem putChan_live (s : State) (c : Nat) (x : Channel) : (putChan s c x).live = s.live := rfl
@[simp] theorem putChan_power (s : State) (c : Nat) (x : Channel) : (putChan s c x).power = s.power := rfl
@[simp] theorem putChan_svc (s : State) (c : Nat) (x : Channel) : (putChan s c x).svc = s.svc := rfl
@[simp] theorem putChan_therm (s : State) (c : Nat) (x : Channel) : (putChan s c x).therm = s.therm := rfl
@[simp] theorem putChan_free (s : State) (c : Nat) (x : Channel) : (putChan s c x).free = s.free := rfl
@[simp] theorem putChan_pending (s : State) (c : Nat) (x : Channel) : (putChan s c x).pending = s.pending := rfl

@[simp] theorem putScore_fuse (s : State) (kind idx : Nat) (x : Score) : (putScore s kind idx x).fuse = s.fuse := rfl
@[simp] theorem putScore_boot (s : State) (kind idx : Nat) (x : Score) : (putScore s kind idx x).boot = s.boot := rfl
@[simp] theorem putScore_clk (s : State) (kind idx : Nat) (x : Score) : (putScore s kind idx x).clk = s.clk := rfl
@[simp] theorem putScore_mem (s : State) (kind idx : Nat) (x : Score) : (putScore s kind idx x).mem = s.mem := rfl
@[simp] theorem putScore_guard (s : State) (kind idx : Nat) (x : Score) : (putScore s kind idx x).guard = s.guard := rfl
@[simp] theorem putScore_wss (s : State) (kind idx : Nat) (x : Score) : (putScore s kind idx x).wss = s.wss := rfl
@[simp] theorem putScore_fns (s : State) (kind idx : Nat) (x : Score) : (putScore s kind idx x).fns = s.fns := rfl
@[simp] theorem putScore_mbxPtr (s : State) (kind idx : Nat) (x : Score) : (putScore s kind idx x).mbxPtr = s.mbxPtr := rfl
@[simp] theorem putScore_evr (s : State) (kind idx : Nat) (x : Score) : (putScore s kind idx x).evr = s.evr := rfl
@[simp] theorem putScore_fab (s : State) (kind idx : Nat) (x : Score) : (putScore s kind idx x).fab = s.fab := rfl
@[simp] theorem putScore_marver (s : State) (kind idx : Nat) (x : Score) : (putScore s kind idx x).marver = s.marver := rfl
@[simp] theorem putScore_hub (s : State) (kind idx : Nat) (x : Score) : (putScore s kind idx x).hub = s.hub := rfl
@[simp] theorem putScore_indexes (s : State) (kind idx : Nat) (x : Score) : (putScore s kind idx x).indexes = s.indexes := rfl
@[simp] theorem putScore_cbSets (s : State) (kind idx : Nat) (x : Score) : (putScore s kind idx x).cbSets = s.cbSets := rfl
@[simp] theorem putScore_nextHandle (s : State) (kind idx : Nat) (x : Score) : (putScore s kind idx x).nextHandle = s.nextHandle := rfl
@[simp] theorem putScore_sessions (s : State) (kind idx : Nat) (x : Score) : (putScore s kind idx x).sessions = s.sessions := rfl
@[simp] theorem putScore_requests (s : State) (kind idx : Nat) (x : Score) : (putScore s kind idx x).requests = s.requests := rfl
@[simp] theorem putScore_tables (s : State) (kind idx : Nat) (x : Score) : (putScore s kind idx x).tables = s.tables := rfl
@[simp] theorem putScore_poolReads (s : State) (kind idx : Nat) (x : Score) : (putScore s kind idx x).poolReads = s.poolReads := rfl
@[simp] theorem putScore_move (s : State) (kind idx : Nat) (x : Score) : (putScore s kind idx x).move = s.move := rfl
@[simp] theorem putScore_flash (s : State) (kind idx : Nat) (x : Score) : (putScore s kind idx x).flash = s.flash := rfl
@[simp] theorem putScore_live (s : State) (kind idx : Nat) (x : Score) : (putScore s kind idx x).live = s.live := rfl
@[simp] theorem putScore_power (s : State) (kind idx : Nat) (x : Score) : (putScore s kind idx x).power = s.power := rfl
@[simp] theorem putScore_svc (s : State) (kind idx : Nat) (x : Score) : (putScore s kind idx x).svc = s.svc := rfl
@[simp] theorem putScore_therm (s : State) (kind idx : Nat) (x : Score) : (putScore s kind idx x).therm = s.therm := rfl
@[simp] theorem putScore_free (s : State) (kind idx : Nat) (x : Score) : (putScore s kind idx x).free = s.free := rfl
@[simp] theorem putScore_pending (s : State) (kind idx : Nat) (x : Score) : (putScore s kind idx x).pending = s.pending := rfl

@[simp] theorem putTable_fuse (s : State) (h : Nat) (t : Table) : (putTable s h t).fuse = s.fuse := rfl
@[simp] theorem putTable_boot (s : State) (h : Nat) (t : Table) : (putTable s h t).boot = s.boot := rfl
@[simp] theorem putTable_clk (s : State) (h : Nat) (t : Table) : (putTable s h t).clk = s.clk := rfl
@[simp] theorem putTable_mem (s : State) (h : Nat) (t : Table) : (putTable s h t).mem = s.mem := rfl
@[simp] theorem putTable_guard (s : State) (h : Nat) (t : Table) : (putTable s h t).guard = s.guard := rfl
@[simp] theorem putTable_wss (s : State) (h : Nat) (t : Table) : (putTable s h t).wss = s.wss := rfl
@[simp] theorem putTable_fns (s : State) (h : Nat) (t : Table) : (putTable s h t).fns = s.fns := rfl
@[simp] theorem putTable_mbxPtr (s : State) (h : Nat) (t : Table) : (putTable s h t).mbxPtr = s.mbxPtr := rfl
@[simp] theorem putTable_evr (s : State) (h : Nat) (t : Table) : (putTable s h t).evr = s.evr := rfl
@[simp] theorem putTable_fab (s : State) (h : Nat) (t : Table) : (putTable s h t).fab = s.fab := rfl
@[simp] theorem putTable_marver (s : State) (h : Nat) (t : Table) : (putTable s h t).marver = s.marver := rfl
@[simp] theorem putTable_hub (s : State) (h : Nat) (t : Table) : (putTable s h t).hub = s.hub := rfl
@[simp] theorem putTable_indexes (s : State) (h : Nat) (t : Table) : (putTable s h t).indexes = s.indexes := rfl
@[simp] theorem putTable_cbSets (s : State) (h : Nat) (t : Table) : (putTable s h t).cbSets = s.cbSets := rfl
@[simp] theorem putTable_nextHandle (s : State) (h : Nat) (t : Table) : (putTable s h t).nextHandle = s.nextHandle := rfl
@[simp] theorem putTable_sessions (s : State) (h : Nat) (t : Table) : (putTable s h t).sessions = s.sessions := rfl
@[simp] theorem putTable_requests (s : State) (h : Nat) (t : Table) : (putTable s h t).requests = s.requests := rfl
@[simp] theorem putTable_poolReads (s : State) (h : Nat) (t : Table) : (putTable s h t).poolReads = s.poolReads := rfl
@[simp] theorem putTable_move (s : State) (h : Nat) (t : Table) : (putTable s h t).move = s.move := rfl
@[simp] theorem putTable_flash (s : State) (h : Nat) (t : Table) : (putTable s h t).flash = s.flash := rfl
@[simp] theorem putTable_rack (s : State) (h : Nat) (t : Table) : (putTable s h t).rack = s.rack := rfl
@[simp] theorem putTable_live (s : State) (h : Nat) (t : Table) : (putTable s h t).live = s.live := rfl
@[simp] theorem putTable_power (s : State) (h : Nat) (t : Table) : (putTable s h t).power = s.power := rfl
@[simp] theorem putTable_svc (s : State) (h : Nat) (t : Table) : (putTable s h t).svc = s.svc := rfl
@[simp] theorem putTable_therm (s : State) (h : Nat) (t : Table) : (putTable s h t).therm = s.therm := rfl
@[simp] theorem putTable_free (s : State) (h : Nat) (t : Table) : (putTable s h t).free = s.free := rfl
@[simp] theorem putTable_pending (s : State) (h : Nat) (t : Table) : (putTable s h t).pending = s.pending := rfl

@[simp] theorem putKeys_fuse (s : State) (ws : Nat) (k : KeySet) : (putKeys s ws k).fuse = s.fuse := rfl
@[simp] theorem putKeys_boot (s : State) (ws : Nat) (k : KeySet) : (putKeys s ws k).boot = s.boot := rfl
@[simp] theorem putKeys_clk (s : State) (ws : Nat) (k : KeySet) : (putKeys s ws k).clk = s.clk := rfl
@[simp] theorem putKeys_mem (s : State) (ws : Nat) (k : KeySet) : (putKeys s ws k).mem = s.mem := rfl
@[simp] theorem putKeys_wss (s : State) (ws : Nat) (k : KeySet) : (putKeys s ws k).wss = s.wss := rfl
@[simp] theorem putKeys_fns (s : State) (ws : Nat) (k : KeySet) : (putKeys s ws k).fns = s.fns := rfl
@[simp] theorem putKeys_mbxPtr (s : State) (ws : Nat) (k : KeySet) : (putKeys s ws k).mbxPtr = s.mbxPtr := rfl
@[simp] theorem putKeys_evr (s : State) (ws : Nat) (k : KeySet) : (putKeys s ws k).evr = s.evr := rfl
@[simp] theorem putKeys_fab (s : State) (ws : Nat) (k : KeySet) : (putKeys s ws k).fab = s.fab := rfl
@[simp] theorem putKeys_marver (s : State) (ws : Nat) (k : KeySet) : (putKeys s ws k).marver = s.marver := rfl
@[simp] theorem putKeys_hub (s : State) (ws : Nat) (k : KeySet) : (putKeys s ws k).hub = s.hub := rfl
@[simp] theorem putKeys_indexes (s : State) (ws : Nat) (k : KeySet) : (putKeys s ws k).indexes = s.indexes := rfl
@[simp] theorem putKeys_cbSets (s : State) (ws : Nat) (k : KeySet) : (putKeys s ws k).cbSets = s.cbSets := rfl
@[simp] theorem putKeys_nextHandle (s : State) (ws : Nat) (k : KeySet) : (putKeys s ws k).nextHandle = s.nextHandle := rfl
@[simp] theorem putKeys_sessions (s : State) (ws : Nat) (k : KeySet) : (putKeys s ws k).sessions = s.sessions := rfl
@[simp] theorem putKeys_requests (s : State) (ws : Nat) (k : KeySet) : (putKeys s ws k).requests = s.requests := rfl
@[simp] theorem putKeys_tables (s : State) (ws : Nat) (k : KeySet) : (putKeys s ws k).tables = s.tables := rfl
@[simp] theorem putKeys_poolReads (s : State) (ws : Nat) (k : KeySet) : (putKeys s ws k).poolReads = s.poolReads := rfl
@[simp] theorem putKeys_move (s : State) (ws : Nat) (k : KeySet) : (putKeys s ws k).move = s.move := rfl
@[simp] theorem putKeys_flash (s : State) (ws : Nat) (k : KeySet) : (putKeys s ws k).flash = s.flash := rfl
@[simp] theorem putKeys_rack (s : State) (ws : Nat) (k : KeySet) : (putKeys s ws k).rack = s.rack := rfl
@[simp] theorem putKeys_live (s : State) (ws : Nat) (k : KeySet) : (putKeys s ws k).live = s.live := rfl
@[simp] theorem putKeys_power (s : State) (ws : Nat) (k : KeySet) : (putKeys s ws k).power = s.power := rfl
@[simp] theorem putKeys_svc (s : State) (ws : Nat) (k : KeySet) : (putKeys s ws k).svc = s.svc := rfl
@[simp] theorem putKeys_therm (s : State) (ws : Nat) (k : KeySet) : (putKeys s ws k).therm = s.therm := rfl
@[simp] theorem putKeys_free (s : State) (ws : Nat) (k : KeySet) : (putKeys s ws k).free = s.free := rfl
@[simp] theorem putKeys_pending (s : State) (ws : Nat) (k : KeySet) : (putKeys s ws k).pending = s.pending := rfl

/-! ## Reading back -/

theorem getFn_putFn (s : State) (n m : Nat) (f : Func) : getFn (putFn s n f) m = if n = m then f else getFn s m :=
  Tab.get_insert resetFunc s.fns n m f

theorem getWs_putWs (s : State) (n m : Nat) (w : Ws) : getWs (putWs s n w) m = if n = m then w else getWs s m :=
  Tab.get_insert freeWs s.wss n m w

theorem getUnit_putUnit (s : State) (n m : Nat) (x : MarverUnit) :
    getUnit (putUnit s n x) m = if n = m then x else getUnit s m :=
  Tab.get_insert resetMarverUnit s.marver.units n m x

theorem getScore_putScore (s : State) (kind idx k i : Nat) (x : Score) :
    getScore (putScore s kind idx x) k i = if scoreKey kind idx = scoreKey k i then x else getScore s k i :=
  Tab.get_insert zeroScore s.rack.scores (scoreKey kind idx) (scoreKey k i) x

theorem getD_setAt {α : Type} (d : α) (l : List α) (i j : Nat) (x : α) (h : i < l.length) :
    (setAt l i x).getD j d = if i = j then x else l.getD j d := by
  induction l generalizing i j with
  | nil => simp at h
  | cons a t ih =>
    cases i <;> cases j <;> simp_all [setAt]

theorem getPort_putPort (s : State) (p q : Nat) (x : Port) (h : p < s.fab.ports.length) :
    getPort (putPort s p x) q = if p = q then x else getPort s q :=
  getD_setAt resetPort s.fab.ports p q x h

/-- A table searched by its key after an insertion. -/
theorem find_insert {α : Type} (t : Tab α) (k j : Nat) (v : α) :
    ((Tab.insert t k v).find? (·.1 == j)).map (·.2) = if k = j then some v else (t.find? (·.1 == j)).map (·.2) := by
  induction t with
  | nil => simp only [Tab.insert, List.find?_cons, List.find?_nil]; grind
  | cons p t ih =>
    obtain ⟨a, w⟩ := p
    simp only [Tab.insert]
    grind

theorem getSlot_putSlot (s : State) (n m : Nat) (x : Slot) :
    getSlot (putSlot s n x) m = if n = m then some x else getSlot s m := find_insert s.hub.slots n m x

theorem getBook_putBook (s : State) (n m : Nat) (x : CodebookSet) :
    getBook (putBook s n x) m = if n = m then some x else getBook s m := find_insert s.cbSets n m x

theorem getIndex_putIndex (s : State) (n m : Nat) (x : Index) :
    getIndex (putIndex s n x) m = if n = m then some x else getIndex s m := find_insert s.indexes n m x

theorem getTable_putTable (s : State) (n m : Nat) (x : Table) :
    getTable (putTable s n x) m = if n = m then some x else getTable s m := find_insert s.tables n m x

end Sys2Proof.Laws
end

