-- ==== Sys2Proof/Tests/Slice0.lean ====
section
/-!
SUPPORT. Tests: for every statement with hypotheses a state and operands that meet them, well-formedness refusing each kind of
operand out of its range, and the spec's worked examples.
-/

open Sys2Proof Sys2Proof.Machine Sys2Proof.Safety

namespace Sys2Proof.Tests

-- One theorem at a time: the threads of a whole file of tests at once would not fit.
set_option Elab.async false

/-! ## States and messages to run commands on -/

/-- Bytes of length `n` with the given fields: offset, width, value. -/
def blk (n : Nat) (l : List (Nat × Nat × Nat)) : List Byte :=
  l.foldl (fun b f => b.take f.1 ++ leBytes f.2.1 f.2.2 ++ b.drop (f.1 + f.2.1)) (zeros n)

/-- A request message: an opcode, and its payload. -/
def msg (op : Nat) (d : List Byte) : List Byte :=
  leBytes 2 op ++ zeros 2 ++ leBytes 2 d.length ++ zeros 2 ++ leBytes 8 7 ++ zeros 16 ++ d

def bmc (op : Nat) (d : List Byte) : MsgSrc := .bmc (msg op d)

/-- A device group of this device alone: member 0, primary of shard 0, its lease held. -/
def grp : Group :=
  { mem := { group := 1, epoch := 1, effective := 0, test := false, members := [0], spares := [], domain := [],
             roles := [⟨0, 0xFFFF, 0, 0⟩], gateway := 0, suspect := 0 }
    lease := 1, expiry := 0, expiryLocal := 0, seq := 0, renews := [], lastRenew := 0, peerLost := [], lapsedEpoch := 0,
    releaseSent := false, leaseEpoch := 0, prev := [] }

/-- A flash target of 16 blocks, and a formatted flash group on it. -/
def aTarget : Target := ⟨⟨true, true, true, true, 0, 16384, 64, 16, 1, 3000, true⟩, false, 0, 0⟩

def aFlash (st : Nat) : FlashGroup := { resetGroup with
  state := st, present := true, blocks := 16, unitsPerBlock := 16, goodAtFormat := 16, userBlocks := 8
  fblocks := [(0, ⟨1, false, 0, []⟩)], openBlock := some 0 }

/-- A device in RUN, with a group, and 64 pages of WS0. -/
def up : State := { State.reset with
  boot := { State.reset.boot with stage := .run, straps := 2048 }
  svc := { State.reset.svc with i3cAddr := some 8 }
  mem := { State.reset.mem with layout := ⟨[0], 0, 5, 1⟩ }
  guard := { State.reset.guard with owners := [⟨0, 64, 0, 0⟩], keys := [(0, ⟨[⟨1, []⟩], [], 0⟩)] }
  rack := { State.reset.rack with groups := [grp] }
  flash := { State.reset.flash with
    chans := ⟨0, [(0, aTarget)], 0, 0, ⟨0, 0⟩⟩ :: List.replicate 31 resetChan, groups := aFlash 3 :: List.replicate 7 resetGroup }
  wss := [(0, ⟨1, 1, 0, zeroQuota, [], none⟩), (1, ⟨1, 0, 0, zeroQuota, [], none⟩)]
  fns := [(0, { resetFunc with state := 1 }), (1, { resetFunc with state := 1, ws := 1 })] }

/-- A state with a request in slot 0 of function 0. -/
def ask (s : State) (op : Nat) (d : List Byte) : State :=
  putFn s 0 { getFn s 0 with
    busy := 1, arrival := [0], reqSlots := ((msg op d).zipIdx.filter (·.1 != 0)).map fun p => (p.2, p.1) }

def aTicket : Ticket := { done := false, opcode := 0x202, tag := 7, work := ⟨0x202, 0, [], [1], none⟩ }

/-- An index block: kind, m, dim, nlist. -/
def ixBlock (kind m dim nlist : Nat) : List Byte :=
  blk 128 [(0, 8, 5), (8, 1, kind), (12, 2, dim), (14, 2, m), (16, 4, nlist), (24, 2, 1), (26, 2, 1), (30, 1, 50), (31, 1, 10),
    (48, 8, 1000), (56, 2, 0), (58, 2, 0xFFFF), (60, 4, 1), (64, 4, 0xFFFFFFFF), (28, 1, if kind = 3 then 10 else 0)]

def aCopy : Copy :=
  { shard := 0, frontier := 0, pLast := 0, nextSeq := 1, lists := [], ids := [], ords := [], flashVecs := [],
    snapshots := [⟨1, 0, 0, [], [], []⟩], buckets := [], overflow := [], changes := [], regions := [], freePos := [], ordPages := [],
    noticeAt := 0, live := true }

def anIndex : Index := { bareIndex 0 (ixBlock 1 8 8 1) with primary := some aCopy, state := 2 }

/-- An index of WS0 in the given state. -/
def withIndex0 (st : Nat) : State := { up with indexes := [(0, { anIndex with state := st })] }

def aProgram : Program :=
  { ws := 0, header := [], container := [], loads := 1, closing := false, engines := [0], enginePtr := 0, refs := 0,
    unloadTickets := [], weightsAt := none }

def withProgram : State := { up with hub := { up.hub with programs := [(3, aProgram)] } }

def tbBlock : List Byte :=
  blk 64 [(0, 8, 5), (8, 8, 100), (16, 2, 8), (18, 1, 8), (22, 2, 1), (24, 2, 0), (26, 2, 0xFFFF), (28, 4, 1), (40, 2, 0)]

def aVersion (st : Nat) : Version :=
  { num := 1, state := st, updates := 0, refs := 0, loads := 0, regionsP := [], regionsM := [], poolBase := 0, uPrimary := 0,
    uMirror := 0, announced := 0, history := [], markP := none, markM := none, listPage := none, discard := [] }

/-- A table of WS0 with a version in the given state. -/
def aTable (st : Nat) : Table := { newTable 0 tbBlock with slots := [some (aVersion st), none, none, none] }

def withTable0 (st : Nat) : State := { up with tables := [(3, aTable st)] }

/-- A session geometry of one layer, one head and one device, with codebooks 3; and a session of WS0. -/
def aGeo : List Byte := blk 64 [(0, 2, 1), (2, 1, 1), (3, 1, 1), (4, 2, 64), (8, 4, 3), (12, 4, 64), (16, 1, 1)]

def aBook : CodebookSet := ⟨0, [], 0, 1, 1, 64, 1, false, 0, []⟩

def anImage : Image :=
  { seq := 1, locator := [], tokens := [0], geometry := aGeo, digest := Config.sha384 [], arithRev := 1, blocks := [],
    bodyOk := true, bytes := 0 }

/-- A session of WS0 in the given state. -/
def session0 (st : Nat) : Session :=
  { ws := 0, key := 9, state := st, handle := 4, geometry := aGeo, group := 1, devices := [0], partner := 5, lost := 0, images := [],
    annealSeq := 0, tokens := [0], blocks := [], blockMap := [], journal := [], appends := [], oldKv := [], regions := [],
    freePos := [], freeKv := [], staging := [], mapPage := none, annealPhase := 0, roll := none, ticket := none, destroy := [],
    refs := 0 }

def withSession (x : Session) : State := { up with sessions := [x], cbSets := [(3, aBook)] }

def aReqCopy : ReqCopy :=
  { ident := 7, ws := 0, state := 0, epoch := 1, pool := 0, partner := 1, plan := [], rflags := 0,
    checkpoint := ⟨0, [], []⟩, phases := [], binding := none, running := false, cancel := none, cancelled := false, reexec := 0,
    beatAt := 0, sentAt := 0, resends := 0, handTo := 0xFFFF, handTickets := [], doneEntry := none, entryDevice := 0, userTag := 0,
    alt := false, held := false }

/-- A state that keeps a copy of a durable request, in two pools. -/
def withReq : State := { up with requests := { up.requests with pools := [[0], [5]], poolLive := [true, true], copies := [aReqCopy] } }

/-- A ring of function 0. -/
def aRing : Ring := { absentRing with state := 1, sqEntries := 16, cqEntries := 16, entryBytes := 64, devRing := 0 }

def withRing (g : Ring) : State := { up with fns := [(0, { resetFunc with state := 1, rings := [(0, g)] })] }

/-- A move channel of WS0 in the given state, on ring 0. -/
def aChan (st : Nat) : Channel := ⟨st, 0, 0, 0, 16, ⟨4096, 0⟩, none, [], []⟩

def withChan (st : Nat) : State := { withRing { aRing with channel := some 2 } with move := { up.move with chans := [(2, aChan st)] } }

/-- Port 0 with the given values, and a flash group 0 with the given values. -/
def withPort (x : Port) : State := putPort up 0 x

def withGroup0 (x : FlashGroup) : State := putGroup up 0 x

def aPackage : FwPackage := ⟨true, true, 3, 0, 2, 100⟩

def withStaged : State := { up with live := { up.live with staged := [⟨0, false, some aPackage, [], 0⟩] } }

/-- A device of 16 stacks. -/
def up16 : State := { up with mem := { up.mem with layout := ⟨List.range 16, 0, 5, 1⟩ } }

theorem ok_get {ε α : Type} (e : Except ε α) (h : e.toOption.isSome = true) : e = .ok (e.toOption.get h) := by
  cases e with
  | error x => simp [Except.toOption] at h
  | ok x => rfl

theorem ok_pair {ε α β : Type} (e : Except ε (α × β)) (h : e.toOption.isSome = true) :
    e = .ok ((e.toOption.get h).1, (e.toOption.get h).2) := ok_get e h

/-- A 256-byte ring entry of a kind, and the state with it at the head of ring 0. -/
def entry (k : Nat) (p : List Byte) : List Byte :=
  let e := leBytes 1 k ++ zeros 1 ++ leBytes 2 p.length ++ zeros 12 ++ p
  e ++ zeros (256 - e.length)

def withEntry (s : State) (e : List Byte) : State := { s with
  mem := { s.mem with cells := (e.zipIdx.filter (·.1 != 0)).map fun p => (p.2, p.1) }
  fns := [(0, { resetFunc with state := 1, rings := [(0, { aRing with sqPi := 1, entryBytes := 256 })] })] }

def noHost : HostView := ⟨[], false, false⟩

/-- A table in use, whose current version is 1, with a row-wise optimiser. -/
def aTable1 : Table := { newTable 0 (tbBlock.take 20 ++ [1] ++ tbBlock.drop 21) with
  state := 1, slots := [some (aVersion 3), none, none, none] }

def aSub : SubIn :=
  { ident := 1, src := 9, ws := 0, txn := 4, key := 5, kind := 1, shard := 0, homeSlot := 3, round := 0, bind0 := 0, bind1 := 0,
    group := 1, body := [], slot := none, arrivedAt := 0, threshold := false, vc := 0 }

/-- A marver command of an operation, for unit 0; and the state in which unit 0 has it in context 2. -/
def aCmd (o : MarverOp) : MarverCmd :=
  { op := o, ws := 0, slot := 0, obj := 0, tablePages := 0, scratchPages := 1, places := [], dst := 0, nums := [], rows := [],
    epoch := 0, pred := [], data := [], jack := 0, pass := 0, tau := 0, filtered := false }

def aCtx (o : MarverOp) : MarverCtx := { startCtx (aCmd o) with loaded := 1000000, values := o == .attnValue }

def withCtx (c : MarverCtx) : State :=
  { up with marver := { up.marver with units := [(0, { resetMarverUnit with ctxs := [none, none, some c, none] })] } }

/-- A gaffer job, and an engine with that job at the head of its queue. -/
def aJob (k : JobKind) (d : List Byte) : GafferJob := ⟨k, 0, 0, 0, 0, d⟩

def withJob (j : GafferJob) : State :=
  { withIndex0 2 with hub := { up.hub with gaffers := [(127, { resetGaffer with queue := [j] })] } }

def aSlot (k : Nat) : Slot := claimedSlot .localPool 0 0 0 k 0 0 [] 0 none

/-- A STATE message of a fabric peer, and the state whose inbox holds a message. -/
def aPacket (m : Nat) (d : List Byte) : Packet := ⟨3, false, false, true, 0, 9, 0, m, 0, 4, 0, 0, d, 0, false⟩

def heard (s : State) (p : Packet) : State := { s with fab := { s.fab with inbox := [p] } }

def stateMsg (op ident : Nat) (d : List Byte) : Packet := aPacket 0x40 (blk 16 [(0, 1, op), (8, 8, ident)] ++ d)

def aStub : ReqStub :=
  { ident := 7, ws := 0, fn := 0, ring := 0, eflags := 0, userTag := 0, slot := 0, at_ := 0, lastCheckpoint := 0, probed := false,
    acks := [], phase := 0, epoch := 1, pool := 0, cancelled := false }

/-- The local clock at a count of nanoseconds. -/
def later (s : State) (n : Nat) : State := { s with clk := { s.clk with cycles := 2 * n } }


/-- The block at a stage of its bring-up, and a session and a journal entry for the upkeep of sessions. -/
def inStage (st : Stage) : State := { State.reset with boot := { State.reset.boot with stage := st } }

def rolling : Session := { session0 1 with tokens := [1] }

def aJournalEnt : JournalEnt := ⟨0, 0, 0, 1, zeros 1280, [], false, false⟩

def annealing3 : Session := { session0 2 with annealPhase := 3, ticket := some ⟨0, 1⟩ }

def anAnneal : Activity := ⟨6, 8, true, 4, 3, 0, 9, 0, 0, 0, some ⟨0, 1⟩⟩

def aStream : Stream := ⟨1, 4, 0, 2 ^ 41 + 4, 1, [0, 1, 2, 3, 4, 5, 6, 7], 0⟩

def withStream : State :=
  putGroup { withSession annealing3 with rack := { up.rack with running := [anAnneal] } } 0 { aFlash 3 with streams := [aStream] }

/-- Port 0 in a state of its link; cane engine 0 lit. -/
def portIn (st : Nat) : State := withPort { resetPort with state := st }

def lit (x : Port) : State :=
  let u := withPort x
  { u with
    fab := { u.fab with connPresent := [true, true, true, true], canesAnswered := 15, feedLost := List.replicate 8 false }
    guard := { u.guard with laserFeedEn := 255 } }

/-- A running activity of a code, scope kind, object type, unit and object. -/
def anActivity (code kind obj unit object : Nat) : Activity := ⟨6, code, true, kind, obj, unit, object, 0, 0, 0, none⟩

def running (s : State) (a : Activity) : State := { s with rack := { s.rack with running := [a] } }

/-- A fabric message to this device. -/
def aPacketTo (m : Nat) (d : List Byte) : Packet := ⟨3, false, false, true, 0, 9, 0, m, 0, 4, 0, 0, d, 0, false⟩

/-- A move of 64 bytes from page 0 to page 1. -/
def aMove : MoveJob := ⟨blk 64 [(0, 8, 4096), (16, 4, 64)], 0, 0, 0, [], 0, 0, 0, 0⟩

theorem some_pair {α β : Type} (o : Option (α × β)) (h : o.isSome = true) : o = some ((o.get h).1, (o.get h).2) :=
  (Option.some_get h).symm

/-! ## Witnesses: each case of the statements about completion can be met -/

theorem witness_DeviceCommandsComplete :
    (∃ m : MsgSrc, ∃ s : State,
    Accepted ⟨0x101, .any, true, false, some 0⟩ m s) ∧
    (∃ m : MsgSrc, ∃ s : State,
    Accepted ⟨0x102, .any, true, false, some 0⟩ m s) ∧
    (∃ m : MsgSrc, ∃ s : State,
    Accepted ⟨0x103, .any, true, false, some 0⟩ m s) ∧
    (∃ m : MsgSrc, ∃ s : State,
    Accepted ⟨0x104, .any, true, false, none⟩ m s) ∧
    (∃ m : MsgSrc, ∃ s : State, ∃ k,
    let c := reqCtx m s
    let t := takeRequest s m
    let d := c.data
    Accepted ⟨0x105, .any, true, false, some 8⟩ m s ∧ zeroAt d 4 4 = true ∧ findTicket t ⟨c.owner, fld d 0 4⟩ = some k) ∧
    (∃ m : MsgSrc, ∃ s : State,
    Accepted ⟨0x110, .any, true, false, some 0⟩ m s) ∧
    (∃ m : MsgSrc, ∃ s : State,
    let c := reqCtx m s
    let d := c.data
    Accepted ⟨0x111, .ws0, false, false, some 16⟩ m s ∧ zeroAt d 2 2 = true ∧ zeroAt d 8 8 = true ∧ ((fld d 0 2 = 0 ∨ 1000 ≤ fld
        d 0 2)) ∧ ((fld d 4 4 = 0 ∨ 100 ≤ fld d 4 4))) ∧
    (∃ m : MsgSrc, ∃ s : State,
    let c := reqCtx m s
    let t := takeRequest s m
    let d := c.data
    let f := getFn t (fld d 0 1)
    Accepted ⟨0x120, .ws0, true, true, some 16⟩ m s ∧ zeroAt d 1 1 = true ∧ zeroAt d 4 4 = true ∧ 1 ≤ fld d 0 1 ∧ fld d 2 2 <
        4096 ∧ wsActive t (fld d 2 2) = true ∧ fld d 8 8 ≠ 0 ∧ f.state = 0) ∧
    (∃ m : MsgSrc, ∃ s : State,
    let c := reqCtx m s
    let t := takeRequest s m
    let d := c.data
    let f := getFn t (fld d 0 1)
    Accepted ⟨0x121, .ws0, true, true, some 8⟩ m s ∧ zeroAt d 1 7 = true ∧ fld d 0 1 ≠ 0 ∧ fld d 0 1 ≠ c.owner ∧ f.state = 1) ∧
    (∃ m : MsgSrc, ∃ s : State,
    let c := reqCtx m s
    let d := c.data
    Accepted ⟨0x122, .ws0, true, false, some 8⟩ m s ∧ zeroAt d 1 7 = true) :=
  ⟨⟨bmc 0x101 ([]), up, by decide +kernel⟩,
   ⟨bmc 0x102 ([]), up, by decide +kernel⟩,
   ⟨bmc 0x103 ([]), up, by decide +kernel⟩,
   ⟨bmc 0x104 ([1, 2, 3]), up, by decide +kernel⟩,
   ⟨bmc 0x105 (leBytes 8 1), { up with fns := (256, { resetFunc with tickets := [(1, aTicket)] }) :: up.fns }, aTicket, by
       decide +kernel⟩,
   ⟨bmc 0x110 ([]), up, by decide +kernel⟩,
   ⟨.slot 0 0, ask up 0x111 (blk 16 [(0, 2, 1000), (4, 4, 100)]), by decide +kernel⟩,
   ⟨bmc 0x120 (blk 16 [(0, 1, 2), (2, 2, 1), (8, 8, 9)]), up, by decide +kernel⟩,
   ⟨bmc 0x121 (leBytes 8 1), up, by decide +kernel⟩,
   ⟨bmc 0x122 (leBytes 8 255), up, by decide +kernel⟩⟩

theorem witness_WorkspaceCommandsComplete :
    (∃ m : MsgSrc, ∃ s : State,
    let c := reqCtx m s
    let t := takeRequest s m
    let d := c.data
    let n := fld d 0 2
    Accepted ⟨0x201, .ws0, false, false, some 96⟩ m s ∧ 1 ≤ n ∧ n < 4096 ∧ fld d 2 1 < 2 ∧ fld d 3 1 ≤ 5 ∧ zeroAt d 4 12 = true
        ∧ zeroAt d 80 16 = true ∧ quotaOk (slice d 16 64) = true ∧ (getWs t n).state = 0) ∧
    (∃ m : MsgSrc, ∃ s : State,
    let c := reqCtx m s
    let t := takeRequest s m
    let d := c.data
    let n := fld d 0 2
    Accepted ⟨0x202, .ws0, false, true, some 8⟩ m s ∧ zeroAt d 2 6 = true ∧ 1 ≤ n ∧ n < 4096 ∧ wsActive t n = true) ∧
    (∃ m : MsgSrc, ∃ s : State,
    let c := reqCtx m s
    let t := takeRequest s m
    let d := c.data
    let n := fld d 0 2
    Accepted ⟨0x203, .self, false, false, some 8⟩ m s ∧ ((c.ws = 0 ∨ n = c.ws)) ∧ zeroAt d 2 6 = true ∧ n < 4096 ∧ (getWs t
        n).state ≠ 0) ∧
    (∃ m : MsgSrc, ∃ s : State,
    let c := reqCtx m s
    let t := takeRequest s m
    let d := c.data
    let n := fld d 0 2
    Accepted ⟨0x204, .ws0, false, false, some 80⟩ m s ∧ zeroAt d 2 14 = true ∧ 1 ≤ n ∧ n < 4096 ∧ quotaOk (slice d 16 64) = true
        ∧ wsActive t n = true) ∧
    (∃ m : MsgSrc, ∃ s : State,
    let c := reqCtx m s
    let t := takeRequest s m
    let d := c.data
    let n := fld d 0 2
    Accepted ⟨0x205, .self, false, false, some 8⟩ m s ∧ ((c.ws = 0 ∨ n = c.ws)) ∧ zeroAt d 3 5 = true ∧ n < 4096 ∧ fld d 2 1 ≤ 5
        ∧ wsActive t n = true) ∧
    (∃ m : MsgSrc, ∃ s : State,
    let c := reqCtx m s
    let t := takeRequest s m
    let d := c.data
    let n := fld d 0 2
    Accepted ⟨0x206, .ws0, false, false, some 32⟩ m s ∧ zeroAt d 3 1 = true ∧ zeroAt d 18 14 = true ∧ n < 4096 ∧ fld d 2 1 < 2 ∧
        fld d 16 2 = (if fld d 2 1 = 0 then 169 else 137) ∧ fld d 8 8 < 2 ^ 41 ∧ bufferOk t 0 (fld d 8 8) (fld d 16 2) = true ∧
        wsActive t n = true ∧ genOk (keysOf (keySet t n) (fld d 2 1)) (fld d 4 4) = true) ∧
    (∃ m : MsgSrc, ∃ s : State,
    let c := reqCtx m s
    let t := takeRequest s m
    let d := c.data
    let n := fld d 0 2
    Accepted ⟨0x207, .ws0, false, true, some 8⟩ m s ∧ zeroAt d 3 5 = true ∧ n < 4096 ∧ fld d 2 1 < 2 ∧ wsActive t n = true ∧
        (keysOf (keySet t n) (fld d 2 1)).length = 2) ∧
    (∃ m : MsgSrc, ∃ s : State, ∃ p, ∃ u,
    let c := reqCtx m s
    let t := takeRequest s m
    let d := c.data
    Accepted ⟨0x208, .self, false, false, some 8⟩ m s ∧ zeroAt d 4 4 = true ∧ 1 ≤ fld d 0 4 ∧ fld d 0 4 ≤ 65536 ∧ roomFor t c.ws
        (fld d 0 4) (·.windowPages) = true ∧ (getWs t c.ws).regions.length < 256 ∧ allocWindow t c.ws 0 (fld d 0 4) = some (p,
        u)) ∧
    (∃ m : MsgSrc, ∃ s : State, ∃ r,
    let c := reqCtx m s
    let t := takeRequest s m
    let d := c.data
    Accepted ⟨0x209, .self, false, true, some 8⟩ m s ∧ (getWs t c.ws).regions.find? (·.base == fld d 0 8) = some r ∧ r.closing =
        none ∧ holdsQueue t c.ws r = false) :=
  ⟨⟨.slot 0 0, ask up 0x201 (blk 96 [(0, 2, 4095), (2, 1, 1), (3, 1, 5)]), by decide +kernel⟩,
   ⟨.slot 0 0, ask up 0x202 (leBytes 8 1), by decide +kernel⟩,
   ⟨.slot 0 0, ask up 0x203 (leBytes 8 1), by decide +kernel⟩,
   ⟨.slot 0 0, ask up 0x204 (blk 80 [(0, 2, 1), (16, 4, 57344)]), by decide +kernel⟩,
   ⟨.slot 0 0, ask up 0x205 (blk 8 [(0, 2, 1), (2, 1, 5)]), by decide +kernel⟩,
   ⟨.slot 0 0, ask up 0x206 (blk 32 [(0, 2, 1), (4, 4, 1), (16, 2, 169)]), by decide +kernel⟩,
   ⟨.slot 0 0, ask ({ up with guard := { up.guard with keys := [(0, ⟨[⟨2, []⟩, ⟨1, []⟩], [], 0⟩)] } }) 0x207 (blk 8 []), by
       decide +kernel⟩,
   ⟨.slot 0 0, ask up 0x208 (leBytes 8 1), 64, (takePages (takeRequest (ask up 0x208 (leBytes 8 1)) (.slot 0 0)) 0 0 64 1), by
       decide +kernel⟩,
   ⟨.slot 0 0, ask
       ({ up with wss := [(0, ⟨1, 1, 0, zeroQuota, [⟨0, 1, none⟩], none⟩)], fns := [(0, { resetFunc with state := 1 })] }) 0x209
       (leBytes 8 0), ⟨0, 1, none⟩, by decide +kernel⟩⟩

theorem witness_IndexCommandsComplete :
    (∃ m : MsgSrc, ∃ s : State, ∃ i, ∃ u,
    let c := reqCtx m s
    let t := takeRequest s m
    let d := c.data
    Accepted ⟨0x301, .own, false, true, some 128⟩ m s ∧ indexBlockOk t c.ws d = true ∧ ((fld d 8 1 ≠ 3 ∨ privileged t c.ws =
        true)) ∧ buildIndex t c.ws d = some (i, u)) ∧
    (∃ m : MsgSrc, ∃ s : State, ∃ x,
    let c := reqCtx m s
    let t := takeRequest s m
    let d := c.data
    Accepted ⟨0x302, .own, false, true, some 8⟩ m s ∧ zeroAt d 2 6 = true ∧ getIndex t (fld d 0 2) = some x ∧ x.ws = c.ws) ∧
    (∃ m : MsgSrc, ∃ s : State, ∃ x,
    let c := reqCtx m s
    let t := takeRequest s m
    let d := c.data
    Accepted ⟨0x303, .own, false, false, some 8⟩ m s ∧ zeroAt d 2 6 = true ∧ getIndex t (fld d 0 2) = some x ∧ x.ws = c.ws) ∧
    (∃ m : MsgSrc, ∃ s : State, ∃ x, ∃ f,
    let c := reqCtx m s
    let t := takeRequest s m
    let d := c.data
    Accepted ⟨0x304, .own, false, true, some 32⟩ m s ∧ zeroAt d 15 1 = true ∧ zeroAt d 18 14 = true ∧ vecFmt (fld d 12 1) = some
        f ∧ fld d 13 1 ≤ 64 ∧ fld d 14 1 ≤ 64 ∧ getIndex t (fld d 16 2) = some x ∧ x.ws = c.ws ∧ x.state = 0 ∧ max x.nlist x.k ≤
        fld d 8 4 ∧ fld d 8 4 ≤ 2 ^ 24 ∧ fld d 0 8 % 256 = 0 ∧ fld d 0 8 < 2 ^ 41 ∧ bufferOk t c.ws (fld d 0 8) (fld d 8 4 *
        x.dim * (f.width / 8)) = true) ∧
    (∃ m : MsgSrc, ∃ s : State, ∃ x,
    let c := reqCtx m s
    let t := takeRequest s m
    let d := c.data
    Accepted ⟨0x305, .own, false, true, some 32⟩ m s ∧ zeroAt d 18 14 = true ∧ getIndex t (fld d 16 2) = some x ∧ x.ws = c.ws ∧
        x.state = 0 ∧ fld d 8 8 = x.artefactBytes ∧ fld d 0 8 < 2 ^ 41 ∧ bufferOk t c.ws (fld d 0 8) (fld d 8 8) = true) ∧
    (∃ m : MsgSrc, ∃ s : State, ∃ x,
    let c := reqCtx m s
    let t := takeRequest s m
    let d := c.data
    Accepted ⟨0x306, .own, false, true, some 32⟩ m s ∧ zeroAt d 18 14 = true ∧ getIndex t (fld d 16 2) = some x ∧ x.ws = c.ws ∧
        x.state = 2 ∧ x.kind ≠ 3 ∧ x.artefactBytes ≤ fld d 8 8 ∧ fld d 0 8 < 2 ^ 41 ∧ bufferOk t c.ws (fld d 0 8) (fld d 8 8) =
        true) ∧
    (∃ m : MsgSrc, ∃ s : State, ∃ x, ∃ n, ∃ k,
    let c := reqCtx m s
    let t := takeRequest s m
    let d := c.data
    Accepted ⟨0x307, .own, false, false, some 32⟩ m s ∧ getIndex t (fld d 0 2) = some x ∧ x.ws = c.ws ∧ pickSnapshot t x (fld d
        2 1) (fld d 8 8) = some (n, k) ∧ zeroAt d 3 5 = true ∧ zeroAt d 24 8 = true ∧ fld d 2 1 ≤ 2 ∧ fld d 16 8 % 16 = 0 ∧
        addrSpace (fld d 16 8) = 0 ∧ bufOk t c.ws (fld d 16 8) 10816 = true) ∧
    (∃ m : MsgSrc, ∃ s : State, ∃ x,
    let c := reqCtx m s
    let t := takeRequest s m
    let d := c.data
    let r := journalPins t (fld d 0 2) x (x.pins ++ [fld d 8 8])
    Accepted ⟨0x308, .own, false, false, some 16⟩ m s ∧ getIndex t (fld d 0 2) = some x ∧ x.ws = c.ws ∧ zeroAt d 2 6 = true ∧
        x.state ≠ 3 ∧ net t ≤ fld d 8 8 + 100000000 ∧ fld d 8 8 ≤ net t ∧ x.pins.length < 16 ∧ leaseHeld t x.gid = true ∧ r.1 =
        stOk) ∧
    (∃ m : MsgSrc, ∃ s : State, ∃ x,
    let c := reqCtx m s
    let t := takeRequest s m
    let d := c.data
    let r := journalPins t (fld d 0 2) x (x.pins.erase (fld d 8 8))
    Accepted ⟨0x309, .own, false, false, some 16⟩ m s ∧ getIndex t (fld d 0 2) = some x ∧ x.ws = c.ws ∧ zeroAt d 2 6 = true ∧
        x.pins.contains (fld d 8 8) = true ∧ leaseHeld t x.gid = true ∧ r.1 = stOk) ∧
    (∃ m : MsgSrc, ∃ s : State,
    let c := reqCtx m s
    let t := takeRequest s m
    let d := c.data
    Accepted ⟨0x340, .own, false, true, some 32⟩ m s ∧ zeroAt d 18 14 = true ∧ fld d 0 8 % 256 = 0 ∧ fld d 0 8 < 2 ^ 41 ∧ fld d
        8 8 ≤ 2 ^ 32 ∧ bufferOk t c.ws (fld d 0 8) (fld d 8 8) = true ∧ poisonIn t.mem (fld d 0 8) (fld d 8 8) = false) ∧
    (∃ m : MsgSrc, ∃ s : State, ∃ p,
    let c := reqCtx m s
    let t := takeRequest s m
    let d := c.data
    Accepted ⟨0x341, .own, false, true, some 8⟩ m s ∧ zeroAt d 4 4 = true ∧ getProgram t (fld d 0 4) = some p ∧ p.ws = c.ws ∧
        p.closing = false ∧ ¬1 < p.loads) ∧
    (∃ m : MsgSrc, ∃ s : State, ∃ p,
    let c := reqCtx m s
    let t := takeRequest s m
    let d := c.data
    Accepted ⟨0x342, .own, false, false, some 8⟩ m s ∧ zeroAt d 4 4 = true ∧ getProgram t (fld d 0 4) = some p ∧ p.ws = c.ws) :=
  ⟨⟨.slot 0 0, ask up 0x301 (ixBlock 1 8 8 1), 0, (((buildIndex (takeRequest (ask up 0x301 (ixBlock 1 8 8 1)) (.slot 0 0)) 0
      (ixBlock 1 8 8 1)).map (·.2)).getD up), by decide +kernel⟩,
   ⟨.slot 0 0, ask (withIndex0 2) 0x302 (leBytes 8 0), anIndex, by decide +kernel⟩,
   ⟨.slot 0 0, ask (withIndex0 2) 0x303 (leBytes 8 0), anIndex, by decide +kernel⟩,
   ⟨.slot 0 0, ask (withIndex0 0) 0x304 (blk 32 [(8, 4, 256), (12, 1, 1), (13, 1, 64), (14, 1, 64)]),
       { anIndex with state := 0 }, .e4m3, by decide +kernel⟩,
   ⟨.slot 0 0, ask (withIndex0 0) 0x305 (blk 32 [(8, 8, anIndex.artefactBytes)]), { anIndex with state := 0 }, by
       decide +kernel⟩,
   ⟨.slot 0 0, ask (withIndex0 2) 0x306 (blk 32 [(8, 8, 65536)]), anIndex, by decide +kernel⟩,
   ⟨.slot 0 0, ask (withIndex0 2) 0x307 (blk 32 [(8, 8, 2 ^ 64 - 1)]), anIndex, ⟨1, 0, 0, [], [], []⟩, 1, by decide +kernel⟩,
   ⟨.slot 0 0, ask (withIndex0 2) 0x308 (blk 16 []), anIndex, by decide +kernel⟩,
   ⟨.slot 0 0, ask ({ up with indexes := [(0, { anIndex with pins := [0] })] }) 0x309 (blk 16 [(8, 8, 0)]),
       { anIndex with pins := [0] }, by decide +kernel⟩,
   ⟨.slot 0 0, ask up 0x340 (blk 32 [(8, 8, 65536)]), by decide +kernel⟩,
   ⟨.slot 0 0, ask withProgram 0x341 (leBytes 8 3), aProgram, by decide +kernel⟩,
   ⟨.slot 0 0, ask withProgram 0x342 (leBytes 8 3), aProgram, by decide +kernel⟩⟩

theorem witness_TableCommandsComplete :
    (∃ m : MsgSrc, ∃ s : State,
    let c := reqCtx m s
    let t := takeRequest s m
    let d := c.data
    Accepted ⟨0x401, .own, false, true, some 64⟩ m s ∧ tableBlockOk t (newTable c.ws d) = true ∧ t.tables.length < 256 ∧ roomFor
        t c.ws 1 (·.tables) = true) ∧
    (∃ m : MsgSrc, ∃ s : State, ∃ x,
    let c := reqCtx m s
    let t := takeRequest s m
    let d := c.data
    let h := fld d 0 4
    Accepted ⟨0x402, .own, false, true, some 8⟩ m s ∧ zeroAt d 4 4 = true ∧ getTable t h = some x ∧ x.ws = c.ws) ∧
    (∃ m : MsgSrc, ∃ s : State, ∃ x,
    let c := reqCtx m s
    let t := takeRequest s m
    let d := c.data
    let h := fld d 0 4
    Accepted ⟨0x403, .own, false, false, some 8⟩ m s ∧ zeroAt d 4 4 = true ∧ getTable t h = some x ∧ x.ws = c.ws) ∧
    (∃ m : MsgSrc, ∃ s : State, ∃ x, ∃ v, ∃ u,
    let c := reqCtx m s
    let t := takeRequest s m
    let d := c.data
    let h := fld d 0 4
    Accepted ⟨0x404, .own, false, true, some 16⟩ m s ∧ getTable t h = some x ∧ x.ws = c.ws ∧ x.isPool = false ∧ fld d 4 1 = 0 ∧
        zeroAt d 5 11 = true ∧ x.state ≠ 2 ∧ (x.slots.filterMap id).length ≠ 4 ∧ allocVersion t x = some (v, u)) ∧
    (∃ m : MsgSrc, ∃ s : State, ∃ x, ∃ v,
    let c := reqCtx m s
    let t := takeRequest s m
    let d := c.data
    let h := fld d 0 4
    Accepted ⟨0x405, .own, false, true, some 32⟩ m s ∧ getTable t h = some x ∧ x.ws = c.ws ∧ x.version (fld d 4 4) = some v ∧
        x.isPool = false ∧ tableRangeOk t c x = true ∧ x.state ≠ 2 ∧ v.state = 1 ∧ v.discard = []) ∧
    (∃ m : MsgSrc, ∃ s : State, ∃ x, ∃ v,
    let c := reqCtx m s
    let t := takeRequest s m
    let d := c.data
    let h := fld d 0 4
    Accepted ⟨0x406, .own, false, false, some 8⟩ m s ∧ getTable t h = some x ∧ x.ws = c.ws ∧ x.version (fld d 4 4) = some v ∧
        x.state ≠ 2 ∧ v.state = 1 ∧ v.loads = 0 ∧ v.discard = []) ∧
    (∃ m : MsgSrc, ∃ s : State, ∃ x, ∃ v,
    let c := reqCtx m s
    let t := takeRequest s m
    let d := c.data
    let h := fld d 0 4
    Accepted ⟨0x407, .own, false, false, some 8⟩ m s ∧ getTable t h = some x ∧ x.ws = c.ws ∧ x.version (fld d 4 4) = some v ∧
        x.state ≠ 2 ∧ v.state = 2 ∧ v.discard = []) ∧
    (∃ m : MsgSrc, ∃ s : State, ∃ x, ∃ v,
    let c := reqCtx m s
    let t := takeRequest s m
    let d := c.data
    let h := fld d 0 4
    Accepted ⟨0x408, .own, false, true, some 8⟩ m s ∧ getTable t h = some x ∧ x.ws = c.ws ∧ x.version (fld d 4 4) = some v ∧
        x.state ≠ 2 ∧ ((v.state = 1 ∨ v.state = 2))) ∧
    (∃ m : MsgSrc, ∃ s : State, ∃ x, ∃ v,
    let c := reqCtx m s
    let t := takeRequest s m
    let d := c.data
    let h := fld d 0 4
    Accepted ⟨0x409, .own, false, true, some 32⟩ m s ∧ getTable t h = some x ∧ x.ws = c.ws ∧ x.version (fld d 4 4) = some v ∧
        tableRangeOk t c x = true) :=
  ⟨⟨.slot 0 0, ask up 0x401 (tbBlock), by decide +kernel⟩,
   ⟨.slot 0 0, ask (withTable0 2) 0x402 (leBytes 8 3), (aTable 2), by decide +kernel⟩,
   ⟨.slot 0 0, ask (withTable0 2) 0x403 (leBytes 8 3), (aTable 2), by decide +kernel⟩,
   ⟨.slot 0 0, ask (withTable0 3) 0x404 (blk 16 [(0, 4, 3)]), (aTable 3), ((allocVersion (takeRequest (ask (withTable0 3) 0x404
       (blk 16 [(0, 4, 3)])) (.slot 0 0)) (aTable 3)).get (by decide +kernel)).1, ((allocVersion (takeRequest (ask (withTable0
       3) 0x404 (blk 16 [(0, 4, 3)])) (.slot 0 0)) (aTable 3)).get (by decide +kernel)).2, by decide +kernel⟩,
   ⟨.slot 0 0, ask (withTable0 1) 0x405 (blk 32 [(0, 4, 3), (4, 4, 1), (16, 4, 1)]), (aTable 1), (aVersion 1), by
       decide +kernel⟩,
   ⟨.slot 0 0, ask (withTable0 1) 0x406 (blk 8 [(0, 4, 3), (4, 4, 1)]), (aTable 1), (aVersion 1), by decide +kernel⟩,
   ⟨.slot 0 0, ask (withTable0 2) 0x407 (blk 8 [(0, 4, 3), (4, 4, 1)]), (aTable 2), (aVersion 2), by decide +kernel⟩,
   ⟨.slot 0 0, ask (withTable0 2) 0x408 (blk 8 [(0, 4, 3), (4, 4, 1)]), (aTable 2), (aVersion 2), by decide +kernel⟩,
   ⟨.slot 0 0, ask (withTable0 2) 0x409 (blk 32 [(0, 4, 3), (4, 4, 1), (16, 4, 1)]), (aTable 2), (aVersion 2), by
       decide +kernel⟩⟩

theorem witness_SessionCommandsComplete :
    (∃ m : MsgSrc, ∃ s : State, ∃ x, ∃ u,
    let c := reqCtx m s
    let t := takeRequest s m
    let d := c.data
    Accepted ⟨0x501, .own, false, true, some 128⟩ m s ∧ geoOk (slice d 0 64) = true ∧ zeroAt d 78 50 = true ∧ partnerOk (slice d
        0 64) (fld d 76 2) = true ∧ groupFits t (fld d 72 4) (geoDevices (slice d 0 64)) = true ∧ bookForeign t c.ws (geoBook
        (slice d 0 64)) = false ∧ bookFits t c.ws (geoBook (slice d 0 64)) (slice d 0 64) = true ∧ sessionByKey t c.ws (fld d 64
        8) = none ∧ leaseHeld t (fld d 72 4) = true ∧ sessionRoom t c.ws = true ∧ beginSession t c.ws (fld d 64 8) 0 (fld d 72
        4) (fld d 76 2) (slice d 0 64) (List.replicate (geoLayers (slice d 0 64)) 0) c.ticket = .ok (x, u)) ∧
    (∃ m : MsgSrc, ∃ s : State, ∃ x,
    let c := reqCtx m s
    let t := takeRequest s m
    let d := c.data
    Accepted ⟨0x502, .own, false, true, some 8⟩ m s ∧ zeroAt d 4 4 = true ∧ sessionOf t (fld d 0 4) = some x ∧ x.ws = c.ws ∧
        x.state = 1 ∧ leaseHeld t x.group = true) ∧
    (∃ m : MsgSrc, ∃ s : State, ∃ x,
    let c := reqCtx m s
    let t := takeRequest s m
    let d := c.data
    Accepted ⟨0x503, .own, false, false, some 16⟩ m s ∧ sessionByKey t c.ws (fld d 0 8) = some x) ∧
    (∃ m : MsgSrc, ∃ s : State, ∃ x,
    let c := reqCtx m s
    let t := takeRequest s m
    let d := c.data
    Accepted ⟨0x504, .own, false, true, some 16⟩ m s ∧ fld d 4 1 = 0 ∧ zeroAt d 5 1 = true ∧ zeroAt d 6 4 = true ∧ zeroAt d 10 6
        = true ∧ sessionOf t (fld d 0 4) = some x ∧ x.ws = c.ws ∧ x.state = 1 ∧ leaseHeld t x.group = true ∧ x.lost = 0) ∧
    (∃ m : MsgSrc, ∃ s : State, ∃ x, ∃ i, ∃ b, ∃ z, ∃ u, ∃ z',
    let c := reqCtx m s
    let t := takeRequest s m
    let d := c.data
    let g := geoWithBook i.geometry (fld d 22 4)
    Accepted ⟨0x505, .own, false, true, some 32⟩ m s ∧ zeroAt d 26 6 = true ∧ sessionByKey t c.ws (fld d 0 8) = some x ∧ x.state
        = 3 ∧ imageOf x (fld d 8 8) = some i ∧ groupFits t (fld d 16 4) (geoDevices g) = true ∧ i.arithRev = 1 ∧ partnerOk g
        (fld d 20 2) = true ∧ bookFits t c.ws (fld d 22 4) g = true ∧ getBook t (fld d 22 4) = some b ∧ leaseHeld t (fld d 16 4)
        = true ∧ sessionRoom t c.ws = true ∧ beginSession t c.ws (fld d 0 8) 4 (fld d 16 4) (fld d 20 2) g i.tokens c.ticket =
        .ok z ∧ placeImage c.ws (fld d 0 8) i.blocks z.2 = .ok u ∧ i.bodyOk = true ∧ sessionByKey u c.ws (fld d 0 8) = some z')
        ∧
    (∃ m : MsgSrc, ∃ s : State, ∃ x,
    let c := reqCtx m s
    let t := takeRequest s m
    let d := c.data
    Accepted ⟨0x506, .own, false, true, some 16⟩ m s ∧ sessionByKey t c.ws (fld d 0 8) = some x ∧ x.images.any (·.seq == fld d 8
        8) = true ∧ x.state ≠ 4 ∧ x.state ≠ 3) ∧
    (∃ m : MsgSrc, ∃ s : State, ∃ r,
    let c := reqCtx m s
    let t := takeRequest s m
    let d := c.data
    Accepted ⟨0x510, .own, false, false, some 8⟩ m s ∧ statusRecord t c.ws (fld d 0 8) = some r) ∧
    (∃ m : MsgSrc, ∃ s : State, ∃ dev, ∃ k,
    let c := reqCtx m s
    let t := takeRequest s m
    let d := c.data
    Accepted ⟨0x511, .own, false, true, some 8⟩ m s ∧ knownRunner t c.ws (fld d 0 8) = some dev ∧ reqCopyOf t c.ws (fld d 0 8) =
        some k ∧ k.state ≠ 2) ∧
    (∃ m : MsgSrc, ∃ s : State, ∃ dev, ∃ k,
    let c := reqCtx m s
    let t := takeRequest s m
    let d := c.data
    Accepted ⟨0x512, .own, false, true, some 16⟩ m s ∧ zeroAt d 10 6 = true ∧ fld d 8 2 < t.requests.pools.length ∧
        t.requests.poolLive.getD (fld d 8 2) false = true ∧ knownRunner t c.ws (fld d 0 8) = some dev ∧ reqCopyOf t c.ws (fld d
        0 8) = some k ∧ k.state ≠ 2 ∧ k.pool ≠ fld d 8 2 ∧ k.handTo = 0xFFFF) ∧
    (∃ m : MsgSrc, ∃ s : State,
    let c := reqCtx m s
    let t := takeRequest s m
    let d := c.data
    Accepted ⟨0x520, .own, false, true, some 32⟩ m s ∧ zeroAt d 19 1 = true ∧ zeroAt d 22 10 = true ∧ fld d 0 8 % 256 = 0 ∧ fld
        d 0 8 < 2 ^ 41 ∧ 1 ≤ fld d 16 2 ∧ fld d 16 2 ≤ 128 ∧ 1 ≤ fld d 18 1 ∧ fld d 18 1 ≤ 16 ∧ [64, 128, 256].contains (fld d
        20 2) = true ∧ fld d 8 8 = fld d 16 2 * fld d 18 1 * 512 * fld d 20 2 ∧ bufferOk t c.ws (fld d 0 8) (fld d 8 8) = true ∧
        poisonIn t.mem (fld d 0 8) (fld d 8 8) = false) ∧
    (∃ m : MsgSrc, ∃ s : State, ∃ b,
    let c := reqCtx m s
    let t := takeRequest s m
    let d := c.data
    Accepted ⟨0x521, .own, false, true, some 8⟩ m s ∧ zeroAt d 4 4 = true ∧ getBook t (fld d 0 4) = some b ∧ b.ws = c.ws ∧
        b.closing = false ∧ ¬1 < b.loads) :=
  ⟨⟨.slot 0 0, ask ({ up with cbSets := [(3, aBook)] }) 0x501 (aGeo ++ blk 64 [(0, 8, 9), (8, 4, 1), (12, 2, 5)]),
      ((beginSession (takeRequest (ask ({ up with cbSets := [(3, aBook)] }) 0x501 (aGeo ++ blk 64 [(0, 8, 9), (8, 4, 1), (12, 2,
      5)])) (.slot 0 0)) (reqCtx (.slot 0 0) (ask ({ up with cbSets := [(3, aBook)] }) 0x501 (aGeo ++ blk 64 [(0, 8, 9), (8, 4,
      1), (12, 2, 5)]))).ws (fld (reqCtx (.slot 0 0) (ask ({ up with cbSets := [(3, aBook)] }) 0x501 (aGeo ++ blk 64 [(0, 8, 9),
      (8, 4, 1), (12, 2, 5)]))).data 64 8) 0 (fld (reqCtx (.slot 0 0) (ask ({ up with cbSets := [(3, aBook)] }) 0x501 (aGeo ++
      blk 64 [(0, 8, 9), (8, 4, 1), (12, 2, 5)]))).data 72 4) (fld (reqCtx (.slot 0 0) (ask ({ up with cbSets := [(3, aBook)] })
      0x501 (aGeo ++ blk 64 [(0, 8, 9), (8, 4, 1), (12, 2, 5)]))).data 76 2) (slice (reqCtx (.slot 0 0) (ask
      ({ up with cbSets := [(3, aBook)] }) 0x501 (aGeo ++ blk 64 [(0, 8, 9), (8, 4, 1), (12, 2, 5)]))).data 0 64)
      (List.replicate (geoLayers (slice (reqCtx (.slot 0 0) (ask ({ up with cbSets := [(3, aBook)] }) 0x501 (aGeo ++ blk 64 [(0,
      8, 9), (8, 4, 1), (12, 2, 5)]))).data 0 64)) 0) (reqCtx (.slot 0 0) (ask ({ up with cbSets := [(3, aBook)] }) 0x501 (aGeo
      ++ blk 64 [(0, 8, 9), (8, 4, 1), (12, 2, 5)]))).ticket).toOption.get (by decide +kernel)).1, ((beginSession (takeRequest
      (ask ({ up with cbSets := [(3, aBook)] }) 0x501 (aGeo ++ blk 64 [(0, 8, 9), (8, 4, 1), (12, 2, 5)])) (.slot 0 0)) (reqCtx
      (.slot 0 0) (ask ({ up with cbSets := [(3, aBook)] }) 0x501 (aGeo ++ blk 64 [(0, 8, 9), (8, 4, 1), (12, 2, 5)]))).ws (fld
      (reqCtx (.slot 0 0) (ask ({ up with cbSets := [(3, aBook)] }) 0x501 (aGeo ++ blk 64 [(0, 8, 9), (8, 4, 1), (12, 2,
      5)]))).data 64 8) 0 (fld (reqCtx (.slot 0 0) (ask ({ up with cbSets := [(3, aBook)] }) 0x501 (aGeo ++ blk 64 [(0, 8, 9),
      (8, 4, 1), (12, 2, 5)]))).data 72 4) (fld (reqCtx (.slot 0 0) (ask ({ up with cbSets := [(3, aBook)] }) 0x501 (aGeo ++ blk
      64 [(0, 8, 9), (8, 4, 1), (12, 2, 5)]))).data 76 2) (slice (reqCtx (.slot 0 0) (ask ({ up with cbSets := [(3, aBook)] })
      0x501 (aGeo ++ blk 64 [(0, 8, 9), (8, 4, 1), (12, 2, 5)]))).data 0 64) (List.replicate (geoLayers (slice (reqCtx (.slot 0
      0) (ask ({ up with cbSets := [(3, aBook)] }) 0x501 (aGeo ++ blk 64 [(0, 8, 9), (8, 4, 1), (12, 2, 5)]))).data 0 64)) 0)
      (reqCtx (.slot 0 0) (ask ({ up with cbSets := [(3, aBook)] }) 0x501 (aGeo ++ blk 64 [(0, 8, 9), (8, 4, 1), (12, 2,
      5)]))).ticket).toOption.get (by decide +kernel)).2, by refine ⟨by decide +kernel, by decide +kernel, by decide +kernel, by
      decide +kernel, by decide +kernel, by decide +kernel, by decide +kernel, by decide +kernel, by decide +kernel, by
      decide +kernel, ok_pair _ _⟩⟩,
   ⟨.slot 0 0, ask (withSession (session0 1)) 0x502 (leBytes 8 4), (session0 1), by decide +kernel⟩,
   ⟨.slot 0 0, ask (withSession (session0 1)) 0x503 (leBytes 16 9), (session0 1), by decide +kernel⟩,
   ⟨.slot 0 0, ask (withSession (session0 1)) 0x504 (leBytes 16 4), (session0 1), by decide +kernel⟩,
   ⟨.slot 0 0, ask (withSession { session0 3 with images := [anImage] }) 0x505 (blk 32 [(0, 8, 9), (16, 4, 1), (20, 2, 5), (22,
       4, 3)]), ((sessionByKey (takeRequest (ask (withSession { session0 3 with images := [anImage] }) 0x505 (blk 32 [(0, 8, 9),
       (16, 4, 1), (20, 2, 5), (22, 4, 3)])) (.slot 0 0)) (reqCtx (.slot 0 0) (ask (withSession
       { session0 3 with images := [anImage] }) 0x505 (blk 32 [(0, 8, 9), (16, 4, 1), (20, 2, 5), (22, 4, 3)]))).ws (fld (reqCtx
       (.slot 0 0) (ask (withSession { session0 3 with images := [anImage] }) 0x505 (blk 32 [(0, 8, 9), (16, 4, 1), (20, 2, 5),
       (22, 4, 3)]))).data 0 8)).get (by decide +kernel)), ((imageOf ((sessionByKey (takeRequest (ask (withSession
       { session0 3 with images := [anImage] }) 0x505 (blk 32 [(0, 8, 9), (16, 4, 1), (20, 2, 5), (22, 4, 3)])) (.slot 0 0))
       (reqCtx (.slot 0 0) (ask (withSession { session0 3 with images := [anImage] }) 0x505 (blk 32 [(0, 8, 9), (16, 4, 1), (20,
       2, 5), (22, 4, 3)]))).ws (fld (reqCtx (.slot 0 0) (ask (withSession { session0 3 with images := [anImage] }) 0x505 (blk
       32 [(0, 8, 9), (16, 4, 1), (20, 2, 5), (22, 4, 3)]))).data 0 8)).get (by decide +kernel)) (fld (reqCtx (.slot 0 0) (ask
       (withSession { session0 3 with images := [anImage] }) 0x505 (blk 32 [(0, 8, 9), (16, 4, 1), (20, 2, 5), (22, 4,
       3)]))).data 8 8)).get (by decide +kernel)), aBook, ((beginSession (takeRequest (ask (withSession
       { session0 3 with images := [anImage] }) 0x505 (blk 32 [(0, 8, 9), (16, 4, 1), (20, 2, 5), (22, 4, 3)])) (.slot 0 0))
       (reqCtx (.slot 0 0) (ask (withSession { session0 3 with images := [anImage] }) 0x505 (blk 32 [(0, 8, 9), (16, 4, 1), (20,
       2, 5), (22, 4, 3)]))).ws (fld (reqCtx (.slot 0 0) (ask (withSession { session0 3 with images := [anImage] }) 0x505 (blk
       32 [(0, 8, 9), (16, 4, 1), (20, 2, 5), (22, 4, 3)]))).data 0 8) 4 (fld (reqCtx (.slot 0 0) (ask (withSession
       { session0 3 with images := [anImage] }) 0x505 (blk 32 [(0, 8, 9), (16, 4, 1), (20, 2, 5), (22, 4, 3)]))).data 16 4) (fld
       (reqCtx (.slot 0 0) (ask (withSession { session0 3 with images := [anImage] }) 0x505 (blk 32 [(0, 8, 9), (16, 4, 1), (20,
       2, 5), (22, 4, 3)]))).data 20 2) (geoWithBook ((imageOf ((sessionByKey (takeRequest (ask (withSession
       { session0 3 with images := [anImage] }) 0x505 (blk 32 [(0, 8, 9), (16, 4, 1), (20, 2, 5), (22, 4, 3)])) (.slot 0 0))
       (reqCtx (.slot 0 0) (ask (withSession { session0 3 with images := [anImage] }) 0x505 (blk 32 [(0, 8, 9), (16, 4, 1), (20,
       2, 5), (22, 4, 3)]))).ws (fld (reqCtx (.slot 0 0) (ask (withSession { session0 3 with images := [anImage] }) 0x505 (blk
       32 [(0, 8, 9), (16, 4, 1), (20, 2, 5), (22, 4, 3)]))).data 0 8)).get (by decide +kernel)) (fld (reqCtx (.slot 0 0) (ask
       (withSession { session0 3 with images := [anImage] }) 0x505 (blk 32 [(0, 8, 9), (16, 4, 1), (20, 2, 5), (22, 4,
       3)]))).data 8 8)).get (by decide +kernel)).geometry (fld (reqCtx (.slot 0 0) (ask (withSession
       { session0 3 with images := [anImage] }) 0x505 (blk 32 [(0, 8, 9), (16, 4, 1), (20, 2, 5), (22, 4, 3)]))).data 22 4))
       ((imageOf ((sessionByKey (takeRequest (ask (withSession { session0 3 with images := [anImage] }) 0x505 (blk 32 [(0, 8,
       9), (16, 4, 1), (20, 2, 5), (22, 4, 3)])) (.slot 0 0)) (reqCtx (.slot 0 0) (ask (withSession
       { session0 3 with images := [anImage] }) 0x505 (blk 32 [(0, 8, 9), (16, 4, 1), (20, 2, 5), (22, 4, 3)]))).ws (fld (reqCtx
       (.slot 0 0) (ask (withSession { session0 3 with images := [anImage] }) 0x505 (blk 32 [(0, 8, 9), (16, 4, 1), (20, 2, 5),
       (22, 4, 3)]))).data 0 8)).get (by decide +kernel)) (fld (reqCtx (.slot 0 0) (ask (withSession
       { session0 3 with images := [anImage] }) 0x505 (blk 32 [(0, 8, 9), (16, 4, 1), (20, 2, 5), (22, 4, 3)]))).data 8 8)).get
       (by decide +kernel)).tokens (reqCtx (.slot 0 0) (ask (withSession { session0 3 with images := [anImage] }) 0x505 (blk 32
       [(0, 8, 9), (16, 4, 1), (20, 2, 5), (22, 4, 3)]))).ticket).toOption.get (by decide +kernel)), ((placeImage (reqCtx (.slot
       0 0) (ask (withSession { session0 3 with images := [anImage] }) 0x505 (blk 32 [(0, 8, 9), (16, 4, 1), (20, 2, 5), (22, 4,
       3)]))).ws (fld (reqCtx (.slot 0 0) (ask (withSession { session0 3 with images := [anImage] }) 0x505 (blk 32 [(0, 8, 9),
       (16, 4, 1), (20, 2, 5), (22, 4, 3)]))).data 0 8) ((imageOf ((sessionByKey (takeRequest (ask (withSession
       { session0 3 with images := [anImage] }) 0x505 (blk 32 [(0, 8, 9), (16, 4, 1), (20, 2, 5), (22, 4, 3)])) (.slot 0 0))
       (reqCtx (.slot 0 0) (ask (withSession { session0 3 with images := [anImage] }) 0x505 (blk 32 [(0, 8, 9), (16, 4, 1), (20,
       2, 5), (22, 4, 3)]))).ws (fld (reqCtx (.slot 0 0) (ask (withSession { session0 3 with images := [anImage] }) 0x505 (blk
       32 [(0, 8, 9), (16, 4, 1), (20, 2, 5), (22, 4, 3)]))).data 0 8)).get (by decide +kernel)) (fld (reqCtx (.slot 0 0) (ask
       (withSession { session0 3 with images := [anImage] }) 0x505 (blk 32 [(0, 8, 9), (16, 4, 1), (20, 2, 5), (22, 4,
       3)]))).data 8 8)).get (by decide +kernel)).blocks ((beginSession (takeRequest (ask (withSession
       { session0 3 with images := [anImage] }) 0x505 (blk 32 [(0, 8, 9), (16, 4, 1), (20, 2, 5), (22, 4, 3)])) (.slot 0 0))
       (reqCtx (.slot 0 0) (ask (withSession { session0 3 with images := [anImage] }) 0x505 (blk 32 [(0, 8, 9), (16, 4, 1), (20,
       2, 5), (22, 4, 3)]))).ws (fld (reqCtx (.slot 0 0) (ask (withSession { session0 3 with images := [anImage] }) 0x505 (blk
       32 [(0, 8, 9), (16, 4, 1), (20, 2, 5), (22, 4, 3)]))).data 0 8) 4 (fld (reqCtx (.slot 0 0) (ask (withSession
       { session0 3 with images := [anImage] }) 0x505 (blk 32 [(0, 8, 9), (16, 4, 1), (20, 2, 5), (22, 4, 3)]))).data 16 4) (fld
       (reqCtx (.slot 0 0) (ask (withSession { session0 3 with images := [anImage] }) 0x505 (blk 32 [(0, 8, 9), (16, 4, 1), (20,
       2, 5), (22, 4, 3)]))).data 20 2) (geoWithBook ((imageOf ((sessionByKey (takeRequest (ask (withSession
       { session0 3 with images := [anImage] }) 0x505 (blk 32 [(0, 8, 9), (16, 4, 1), (20, 2, 5), (22, 4, 3)])) (.slot 0 0))
       (reqCtx (.slot 0 0) (ask (withSession { session0 3 with images := [anImage] }) 0x505 (blk 32 [(0, 8, 9), (16, 4, 1), (20,
       2, 5), (22, 4, 3)]))).ws (fld (reqCtx (.slot 0 0) (ask (withSession { session0 3 with images := [anImage] }) 0x505 (blk
       32 [(0, 8, 9), (16, 4, 1), (20, 2, 5), (22, 4, 3)]))).data 0 8)).get (by decide +kernel)) (fld (reqCtx (.slot 0 0) (ask
       (withSession { session0 3 with images := [anImage] }) 0x505 (blk 32 [(0, 8, 9), (16, 4, 1), (20, 2, 5), (22, 4,
       3)]))).data 8 8)).get (by decide +kernel)).geometry (fld (reqCtx (.slot 0 0) (ask (withSession
       { session0 3 with images := [anImage] }) 0x505 (blk 32 [(0, 8, 9), (16, 4, 1), (20, 2, 5), (22, 4, 3)]))).data 22 4))
       ((imageOf ((sessionByKey (takeRequest (ask (withSession { session0 3 with images := [anImage] }) 0x505 (blk 32 [(0, 8,
       9), (16, 4, 1), (20, 2, 5), (22, 4, 3)])) (.slot 0 0)) (reqCtx (.slot 0 0) (ask (withSession
       { session0 3 with images := [anImage] }) 0x505 (blk 32 [(0, 8, 9), (16, 4, 1), (20, 2, 5), (22, 4, 3)]))).ws (fld (reqCtx
       (.slot 0 0) (ask (withSession { session0 3 with images := [anImage] }) 0x505 (blk 32 [(0, 8, 9), (16, 4, 1), (20, 2, 5),
       (22, 4, 3)]))).data 0 8)).get (by decide +kernel)) (fld (reqCtx (.slot 0 0) (ask (withSession
       { session0 3 with images := [anImage] }) 0x505 (blk 32 [(0, 8, 9), (16, 4, 1), (20, 2, 5), (22, 4, 3)]))).data 8 8)).get
       (by decide +kernel)).tokens (reqCtx (.slot 0 0) (ask (withSession { session0 3 with images := [anImage] }) 0x505 (blk 32
       [(0, 8, 9), (16, 4, 1), (20, 2, 5), (22, 4, 3)]))).ticket).toOption.get (by decide +kernel)).2).toOption.get (by
       decide +kernel)), ((sessionByKey ((placeImage (reqCtx (.slot 0 0) (ask (withSession
       { session0 3 with images := [anImage] }) 0x505 (blk 32 [(0, 8, 9), (16, 4, 1), (20, 2, 5), (22, 4, 3)]))).ws (fld (reqCtx
       (.slot 0 0) (ask (withSession { session0 3 with images := [anImage] }) 0x505 (blk 32 [(0, 8, 9), (16, 4, 1), (20, 2, 5),
       (22, 4, 3)]))).data 0 8) ((imageOf ((sessionByKey (takeRequest (ask (withSession { session0 3 with images := [anImage] })
       0x505 (blk 32 [(0, 8, 9), (16, 4, 1), (20, 2, 5), (22, 4, 3)])) (.slot 0 0)) (reqCtx (.slot 0 0) (ask (withSession
       { session0 3 with images := [anImage] }) 0x505 (blk 32 [(0, 8, 9), (16, 4, 1), (20, 2, 5), (22, 4, 3)]))).ws (fld (reqCtx
       (.slot 0 0) (ask (withSession { session0 3 with images := [anImage] }) 0x505 (blk 32 [(0, 8, 9), (16, 4, 1), (20, 2, 5),
       (22, 4, 3)]))).data 0 8)).get (by decide +kernel)) (fld (reqCtx (.slot 0 0) (ask (withSession
       { session0 3 with images := [anImage] }) 0x505 (blk 32 [(0, 8, 9), (16, 4, 1), (20, 2, 5), (22, 4, 3)]))).data 8 8)).get
       (by decide +kernel)).blocks ((beginSession (takeRequest (ask (withSession { session0 3 with images := [anImage] }) 0x505
       (blk 32 [(0, 8, 9), (16, 4, 1), (20, 2, 5), (22, 4, 3)])) (.slot 0 0)) (reqCtx (.slot 0 0) (ask (withSession
       { session0 3 with images := [anImage] }) 0x505 (blk 32 [(0, 8, 9), (16, 4, 1), (20, 2, 5), (22, 4, 3)]))).ws (fld (reqCtx
       (.slot 0 0) (ask (withSession { session0 3 with images := [anImage] }) 0x505 (blk 32 [(0, 8, 9), (16, 4, 1), (20, 2, 5),
       (22, 4, 3)]))).data 0 8) 4 (fld (reqCtx (.slot 0 0) (ask (withSession { session0 3 with images := [anImage] }) 0x505 (blk
       32 [(0, 8, 9), (16, 4, 1), (20, 2, 5), (22, 4, 3)]))).data 16 4) (fld (reqCtx (.slot 0 0) (ask (withSession
       { session0 3 with images := [anImage] }) 0x505 (blk 32 [(0, 8, 9), (16, 4, 1), (20, 2, 5), (22, 4, 3)]))).data 20 2)
       (geoWithBook ((imageOf ((sessionByKey (takeRequest (ask (withSession { session0 3 with images := [anImage] }) 0x505 (blk
       32 [(0, 8, 9), (16, 4, 1), (20, 2, 5), (22, 4, 3)])) (.slot 0 0)) (reqCtx (.slot 0 0) (ask (withSession
       { session0 3 with images := [anImage] }) 0x505 (blk 32 [(0, 8, 9), (16, 4, 1), (20, 2, 5), (22, 4, 3)]))).ws (fld (reqCtx
       (.slot 0 0) (ask (withSession { session0 3 with images := [anImage] }) 0x505 (blk 32 [(0, 8, 9), (16, 4, 1), (20, 2, 5),
       (22, 4, 3)]))).data 0 8)).get (by decide +kernel)) (fld (reqCtx (.slot 0 0) (ask (withSession
       { session0 3 with images := [anImage] }) 0x505 (blk 32 [(0, 8, 9), (16, 4, 1), (20, 2, 5), (22, 4, 3)]))).data 8 8)).get
       (by decide +kernel)).geometry (fld (reqCtx (.slot 0 0) (ask (withSession { session0 3 with images := [anImage] }) 0x505
       (blk 32 [(0, 8, 9), (16, 4, 1), (20, 2, 5), (22, 4, 3)]))).data 22 4)) ((imageOf ((sessionByKey (takeRequest (ask
       (withSession { session0 3 with images := [anImage] }) 0x505 (blk 32 [(0, 8, 9), (16, 4, 1), (20, 2, 5), (22, 4, 3)]))
       (.slot 0 0)) (reqCtx (.slot 0 0) (ask (withSession { session0 3 with images := [anImage] }) 0x505 (blk 32 [(0, 8, 9),
       (16, 4, 1), (20, 2, 5), (22, 4, 3)]))).ws (fld (reqCtx (.slot 0 0) (ask (withSession
       { session0 3 with images := [anImage] }) 0x505 (blk 32 [(0, 8, 9), (16, 4, 1), (20, 2, 5), (22, 4, 3)]))).data 0 8)).get
       (by decide +kernel)) (fld (reqCtx (.slot 0 0) (ask (withSession { session0 3 with images := [anImage] }) 0x505 (blk 32
       [(0, 8, 9), (16, 4, 1), (20, 2, 5), (22, 4, 3)]))).data 8 8)).get (by decide +kernel)).tokens (reqCtx (.slot 0 0) (ask
       (withSession { session0 3 with images := [anImage] }) 0x505 (blk 32 [(0, 8, 9), (16, 4, 1), (20, 2, 5), (22, 4,
       3)]))).ticket).toOption.get (by decide +kernel)).2).toOption.get (by decide +kernel)) (reqCtx (.slot 0 0) (ask
       (withSession { session0 3 with images := [anImage] }) 0x505 (blk 32 [(0, 8, 9), (16, 4, 1), (20, 2, 5), (22, 4, 3)]))).ws
       (fld (reqCtx (.slot 0 0) (ask (withSession { session0 3 with images := [anImage] }) 0x505 (blk 32 [(0, 8, 9), (16, 4, 1),
       (20, 2, 5), (22, 4, 3)]))).data 0 8)).get (by decide +kernel)), by refine ⟨by decide +kernel, by decide +kernel,
       (Option.some_get _).symm, by decide +kernel, (Option.some_get _).symm, by decide +kernel, by decide +kernel, by
       decide +kernel, by decide +kernel, by decide +kernel, by decide +kernel, by decide +kernel, ok_get _ _, ok_get _ _, by
       decide +kernel, (Option.some_get _).symm⟩⟩,
   ⟨.slot 0 0, ask (withSession { session0 1 with images := [anImage] }) 0x506 (leBytes 8 9 ++ leBytes 8 1), ((sessionByKey
       (takeRequest (ask (withSession { session0 1 with images := [anImage] }) 0x506 (leBytes 8 9 ++ leBytes 8 1)) (.slot 0 0))
       (reqCtx (.slot 0 0) (ask (withSession { session0 1 with images := [anImage] }) 0x506 (leBytes 8 9 ++ leBytes 8 1))).ws
       (fld (reqCtx (.slot 0 0) (ask (withSession { session0 1 with images := [anImage] }) 0x506 (leBytes 8 9 ++ leBytes 8
       1))).data 0 8)).get (by decide +kernel)), by refine ⟨by decide +kernel, (Option.some_get _).symm, by decide +kernel, by
       decide +kernel, by decide +kernel⟩⟩,
   ⟨.slot 0 0, ask withReq 0x510 (leBytes 8 7), ((statusRecord (takeRequest (ask withReq 0x510 (leBytes 8 7)) (.slot 0 0)) 0
       7).get (by decide +kernel)), by decide +kernel⟩,
   ⟨.slot 0 0, ask withReq 0x511 (leBytes 8 7), 0, aReqCopy, by decide +kernel⟩,
   ⟨.slot 0 0, ask withReq 0x512 (blk 16 [(0, 8, 7), (8, 2, 1)]), 0, aReqCopy, by decide +kernel⟩,
   ⟨.slot 0 0, ask up 0x520 (blk 32 [(8, 8, 32768), (16, 2, 1), (18, 1, 1), (20, 2, 64)]), by decide +kernel⟩,
   ⟨.slot 0 0, ask (withSession (session0 1)) 0x521 (leBytes 8 3), aBook, by decide +kernel⟩⟩

theorem witness_RingCommandsComplete :
    (∃ m : MsgSrc, ∃ s : State, ∃ dev,
    let c := reqCtx m s
    let t := takeRequest s m
    let d := c.data
    Accepted ⟨0x601, .own, false, false, some 64⟩ m s ∧ zeroAt d 28 36 = true ∧ fld d 24 1 ≤ 2 ∧ ringSize (fld d 16 4) = true ∧
        ringSize (fld d 20 4) = true ∧ ((fld d 26 2 < 256 ∨ fld d 26 2 = 0xFFFF)) ∧ fld d 25 1 < 256 ∧ (getRing (getFn t
        c.owner) (fld d 25 1)).state = 0 ∧ sqOk t c.ws (fld d 0 8) (fld d 16 4 * (64 * 2 ^ fld d 24 1)) = true ∧ cqOk t c.ws
        (fld d 8 8) (fld d 20 4) = true ∧ roomFor t c.ws 1 (·.rings) = true ∧ freeDevRing t = some dev) ∧
    (∃ m : MsgSrc, ∃ s : State,
    let c := reqCtx m s
    let t := takeRequest s m
    let d := c.data
    let n := fld d 0 1
    let g := getRing (getFn t c.owner) n
    Accepted ⟨0x602, .own, false, true, some 8⟩ m s ∧ zeroAt d 1 7 = true ∧ g.state ≠ 0 ∧ g.channel = none) ∧
    (∃ m : MsgSrc, ∃ s : State,
    let c := reqCtx m s
    let t := takeRequest s m
    let d := c.data
    let n := fld d 0 1
    let g := getRing (getFn t c.owner) n
    Accepted ⟨0x603, .own, false, false, some 8⟩ m s ∧ zeroAt d 1 7 = true ∧ g.state ≠ 0) ∧
    (∃ m : MsgSrc, ∃ s : State, ∃ dev, ∃ ch,
    let c := reqCtx m s
    let t := takeRequest s m
    let d := c.data
    Accepted ⟨0x610, .own, false, false, some 32⟩ m s ∧ zeroAt d 25 1 = true ∧ zeroAt d 28 4 = true ∧ ringSize (fld d 16 4) =
        true ∧ ringSize (fld d 20 4) = true ∧ ((fld d 26 2 < 256 ∨ fld d 26 2 = 0xFFFF)) ∧ fld d 24 1 < 256 ∧ (getRing (getFn t
        c.owner) (fld d 24 1)).state = 0 ∧ sqOk t c.ws (fld d 0 8) (fld d 16 4 * 64) = true ∧ cqOk t c.ws (fld d 8 8) (fld d 20
        4) = true ∧ roomFor t c.ws 1 (·.rings) = true ∧ freeDevRing t = some dev ∧ roomFor t c.ws 1 (·.moveChannels) = true ∧
        closedChan t = some ch) ∧
    (∃ m : MsgSrc, ∃ s : State,
    let c := reqCtx m s
    let t := takeRequest s m
    let d := c.data
    let n := fld d 0 1
    let x := getChan t n
    Accepted ⟨0x611, .own, false, true, some 8⟩ m s ∧ zeroAt d 1 7 = true ∧ n < 64 ∧ x.state ≠ 0 ∧ x.ws = c.ws) ∧
    (∃ m : MsgSrc, ∃ s : State,
    let c := reqCtx m s
    let t := takeRequest s m
    let d := c.data
    let n := fld d 0 1
    let x := getChan t n
    Accepted ⟨0x612, .own, false, true, some 8⟩ m s ∧ zeroAt d 1 7 = true ∧ n < 64 ∧ ((x.state = 1 ∨ x.state = 2)) ∧ x.ws =
        c.ws) ∧
    (∃ m : MsgSrc, ∃ s : State,
    let c := reqCtx m s
    let t := takeRequest s m
    let d := c.data
    let n := fld d 0 1
    let x := getChan t n
    Accepted ⟨0x613, .own, false, false, some 8⟩ m s ∧ zeroAt d 1 7 = true ∧ n < 64 ∧ ((x.state = 2 ∨ x.state = 3)) ∧ x.ws =
        c.ws) ∧
    (∃ m : MsgSrc, ∃ s : State,
    let c := reqCtx m s
    let t := takeRequest s m
    let d := c.data
    let n := fld d 0 1
    let x := getChan t n
    Accepted ⟨0x614, .own, false, false, some 8⟩ m s ∧ zeroAt d 1 7 = true ∧ n < 64 ∧ x.state ≠ 0 ∧ x.ws = c.ws) ∧
    (∃ m : MsgSrc, ∃ s : State,
    let c := reqCtx m s
    let t := takeRequest s m
    let d := c.data
    let n := fld d 0 1
    let x := getChan t n
    Accepted ⟨0x615, .ws0, false, false, some 8⟩ m s ∧ zeroAt d 1 1 = true ∧ zeroAt d 4 4 = true ∧ n < 64 ∧ x.state ≠ 0 ∧ 1 ≤
        fld d 2 2 ∧ fld d 2 2 ≤ 256) :=
  ⟨⟨.slot 0 0, ask up 0x601 (blk 64 [(0, 8, 0), (8, 8, 2 ^ 56), (16, 4, 16), (20, 4, 65536), (24, 1, 2), (25, 1, 255), (26, 2,
      255)]), 0, by decide +kernel⟩,
   ⟨.slot 0 0, ask (withRing aRing) 0x602 (leBytes 8 0), by decide +kernel⟩,
   ⟨.slot 0 0, ask (withRing aRing) 0x603 (leBytes 8 0), by decide +kernel⟩,
   ⟨.slot 0 0, ask up 0x610 (blk 32 [(0, 8, 0), (8, 8, 65536), (16, 4, 65536), (20, 4, 16), (24, 1, 255), (26, 2, 0xFFFF)]), 0,
       0, by decide +kernel⟩,
   ⟨.slot 0 0, ask (withChan 1) 0x611 (leBytes 8 2), by decide +kernel⟩,
   ⟨.slot 0 0, ask (withChan 1) 0x612 (leBytes 8 2), by decide +kernel⟩,
   ⟨.slot 0 0, ask (withChan 3) 0x613 (leBytes 8 2), by decide +kernel⟩,
   ⟨.slot 0 0, ask (withChan 1) 0x614 (leBytes 8 2), by decide +kernel⟩,
   ⟨.slot 0 0, ask (withChan 1) 0x615 (blk 8 [(0, 1, 2), (2, 2, 256)]), by decide +kernel⟩⟩

theorem witness_FabricCommandsComplete :
    (∃ m : MsgSrc, ∃ s : State,
    let c := reqCtx m s
    let d := c.data
    let p := fld d 0 1
    Accepted ⟨0x701, .any, true, false, some 8⟩ m s ∧ zeroAt d 1 7 = true ∧ p < 32) ∧
    (∃ m : MsgSrc, ∃ s : State,
    let c := reqCtx m s
    let d := c.data
    let p := fld d 0 1
    Accepted ⟨0x702, .ws0, true, false, some 8⟩ m s ∧ zeroAt d 3 5 = true ∧ p < 32 ∧ fld d 1 1 < 3 ∧ fld d 2 1 ≤ 14) ∧
    (∃ m : MsgSrc, ∃ s : State,
    let c := reqCtx m s
    let t := takeRequest s m
    let d := c.data
    let p := fld d 0 1
    Accepted ⟨0x703, .ws0, true, true, some 8⟩ m s ∧ zeroAt d 1 1 = true ∧ zeroAt d 4 4 = true ∧ p < 32 ∧ (getPort t p).state ≠
        0) ∧
    (∃ m : MsgSrc, ∃ s : State,
    Accepted ⟨0x704, .any, true, false, some 0⟩ m s) ∧
    (∃ m : MsgSrc, ∃ s : State,
    Accepted ⟨0x705, .any, true, false, some 0⟩ m s) ∧
    (∃ m : MsgSrc, ∃ s : State, ∃ g,
    let c := reqCtx m s
    let t := takeRequest s m
    let d := c.data
    Accepted ⟨0x706, .own, false, false, some 8⟩ m s ∧ zeroAt d 4 4 = true ∧ findGroup t (fld d 0 4) = some g ∧ groupHolds t
        g.mem.group c.ws = true) ∧
    (∃ m : MsgSrc, ∃ s : State,
    let c := reqCtx m s
    let d := c.data
    let p := fld d 0 1
    Accepted ⟨0x710, .ws0, true, false, some 8⟩ m s ∧ zeroAt d 1 7 = true ∧ p < 32) ∧
    (∃ m : MsgSrc, ∃ s : State,
    let c := reqCtx m s
    let t := takeRequest s m
    let d := c.data
    let p := fld d 0 1
    Accepted ⟨0x711, .ws0, false, false, some 16⟩ m s ∧ zeroAt d 3 1 = true ∧ zeroAt d 6 2 = true ∧ zeroAt d 12 4 = true ∧
        classValueOk t p (fld d 1 1) (fld d 2 1) (fld d 4 2) (toSigned 32 (fld d 8 4)) = true) ∧
    (∃ m : MsgSrc, ∃ s : State,
    let c := reqCtx m s
    let t := takeRequest s m
    let d := c.data
    let p := fld d 0 1
    Accepted ⟨0x712, .ws0, false, true, some 48⟩ m s ∧ gateLoadOk t d = true ∧ (getPort t p).sched.pendingGates = none) ∧
    (∃ m : MsgSrc, ∃ s : State,
    let c := reqCtx m s
    let d := c.data
    let p := fld d 0 1
    Accepted ⟨0x713, .ws0, true, false, some 8⟩ m s ∧ zeroAt d 5 3 = true ∧ fld d 4 1 < 2 ∧ p < 32 ∧ fld d 1 1 < 8 ∧ ((fld d 2 2
        = 0xFFFF ∨ (fld d 2 2 < 4096 ∧ fld d 1 1 ≠ 7)))) :=
  ⟨⟨bmc 0x701 (leBytes 8 31), up, by decide +kernel⟩,
   ⟨bmc 0x702 (blk 8 [(0, 1, 31), (1, 1, 2), (2, 1, 14)]), up, by decide +kernel⟩,
   ⟨bmc 0x703 (blk 8 [(2, 2, 0xFFFF)]), (withPort { resetPort with state := 4 }), by decide +kernel⟩,
   ⟨bmc 0x704 ([]), up, by decide +kernel⟩,
   ⟨bmc 0x705 ([]), up, by decide +kernel⟩,
   ⟨.slot 0 0, ask (withIndex0 2) 0x706 (leBytes 8 1), grp, by decide +kernel⟩,
   ⟨bmc 0x710 (leBytes 8 31), up, by decide +kernel⟩,
   ⟨.slot 0 0, ask up 0x711 (blk 16 [(0, 1, 1), (1, 1, 0xFF), (2, 1, 7), (8, 4, 256)]), by decide +kernel⟩,
   ⟨.slot 0 0, ask up 0x712 (blk 48 [(0, 1, 31), (8, 8, 100000)]), by decide +kernel⟩,
   ⟨bmc 0x713 (blk 8 [(0, 1, 31), (1, 1, 7), (2, 2, 0xFFFF), (4, 1, 1)]), up, by decide +kernel⟩⟩

theorem witness_MaintenanceCommandsComplete :
    (∃ m : MsgSrc, ∃ s : State,
    let c := reqCtx m s
    let d := c.data
    let k := fld d 0 1
    Accepted ⟨0x801, .any, true, false, some 8⟩ m s ∧ zeroAt d 1 7 = true ∧ k < 32) ∧
    (∃ m : MsgSrc, ∃ s : State,
    let c := reqCtx m s
    let d := c.data
    let k := fld d 0 1
    Accepted ⟨0x802, .any, true, false, some 8⟩ m s ∧ zeroAt d 1 7 = true ∧ k < 8) ∧
    (∃ m : MsgSrc, ∃ s : State,
    let c := reqCtx m s
    let d := c.data
    let k := fld d 0 1
    Accepted ⟨0x803, .ws0, false, false, some 8⟩ m s ∧ k = 1 ∧ zeroAt d 1 3 = true ∧ 100 ≤ fld d 4 4 ∧ fld d 4 4 ≤ 10000) ∧
    (∃ m : MsgSrc, ∃ s : State,
    let c := reqCtx m s
    let t := takeRequest s m
    let d := c.data
    let k := fld d 0 1
    let x := getGroup t k
    Accepted ⟨0x804, .ws0, true, true, some 8⟩ m s ∧ zeroAt d 1 7 = true ∧ k < 8 ∧ ((x.state = 3 ∨ x.state = 4)) ∧ x.offline =
        none ∧ allocatedUnits x ≤ freeElsewhere t k) ∧
    (∃ m : MsgSrc, ∃ s : State,
    let c := reqCtx m s
    let t := takeRequest s m
    let d := c.data
    let k := fld d 0 1
    let x := getGroup t k
    Accepted ⟨0x805, .ws0, true, true, some 8⟩ m s ∧ zeroAt d 1 7 = true ∧ k < 8 ∧ x.offline = none ∧ x.state = 5) ∧
    (∃ m : MsgSrc, ∃ s : State,
    let c := reqCtx m s
    let t := takeRequest s m
    let d := c.data
    let k := fld d 0 1
    let a := newActivity t k true (fld d 1 1) (fld d 2 1) (fld d 4 2) (fld d 8 8) (some c.ticket)
    Accepted ⟨0x901, .ws0, true, true, some 32⟩ m s ∧ zeroAt d 3 1 = true ∧ zeroAt d 6 2 = true ∧ zeroAt d 16 16 = true ∧
        scopeFits t k (fld d 1 1) (fld d 2 1) (fld d 4 2) (fld d 8 8) = true ∧ ((deferred t a = false ∨ queueRoom t true =
        true))) ∧
    (∃ m : MsgSrc, ∃ s : State, ∃ a,
    let c := reqCtx m s
    let t := takeRequest s m
    let d := c.data
    Accepted ⟨0x902, .ws0, true, true, some 8⟩ m s ∧ (t.rack.running ++ t.rack.queued).find? (·.ident == fld d 0 4) = some a ∧
        zeroAt d 4 4 = true ∧ ((a.code ≠ 4 ∨ a.command = true))) ∧
    (∃ m : MsgSrc, ∃ s : State,
    let c := reqCtx m s
    let d := c.data
    Accepted ⟨0x903, .ws0, true, false, some 8⟩ m s ∧ zeroAt d 4 4 = true) ∧
    (∃ m : MsgSrc, ∃ s : State,
    let c := reqCtx m s
    let t := takeRequest s m
    let d := c.data
    let k := fld d 0 1
    Accepted ⟨0x904, .ws0, true, false, some 8⟩ m s ∧ zeroAt d 1 3 = true ∧ componentThere t k (fld d 4 4) = true) ∧
    (∃ m : MsgSrc, ∃ s : State,
    let c := reqCtx m s
    let t := takeRequest s m
    let d := c.data
    let k := fld d 0 1
    Accepted ⟨0x905, .ws0, false, false, some 16⟩ m s ∧ zeroAt d 2 2 = true ∧ zeroAt d 12 4 = true ∧ 1 ≤ k ∧ k ≤ 11 ∧ fld d 1 1
        ≤ 1 ∧ 16 ≤ fld d 4 4 ∧ fld d 4 4 < fld d 8 4 ∧ fld d 8 4 ≤ 2 ^ 31 ∧ ((∀ p ∈ t.rack.scores, p.1 / 2 ^ 20 ≠ k))) :=
  ⟨⟨bmc 0x801 (leBytes 8 31), up, by decide +kernel⟩,
   ⟨bmc 0x802 (leBytes 8 7), up, by decide +kernel⟩,
   ⟨.slot 0 0, ask up 0x803 (blk 8 [(0, 1, 1), (4, 4, 10000)]), by decide +kernel⟩,
   ⟨bmc 0x804 (leBytes 8 0), up, by decide +kernel⟩,
   ⟨bmc 0x805 (leBytes 8 0), (withGroup0 (aFlash 5)), by decide +kernel⟩,
   ⟨bmc 0x901 (blk 32 [(0, 1, 1), (1, 1, 2), (4, 2, 7)]), up, by decide +kernel⟩,
   ⟨bmc 0x902 (leBytes 8 6), { up with rack := { up.rack with running := [⟨6, 1, true, 2, 0, 7, 0, 0, 0, 0, none⟩] } }, ⟨6, 1,
       true, 2, 0, 7, 0, 0, 0, 0, none⟩, by decide +kernel⟩,
   ⟨bmc 0x903 (leBytes 8 6), up, by decide +kernel⟩,
   ⟨bmc 0x904 (blk 8 [(0, 1, 11)]), up, by decide +kernel⟩,
   ⟨.slot 0 0, ask up 0x905 (blk 16 [(0, 1, 11), (1, 1, 1), (4, 4, 16), (8, 4, 2 ^ 31)]), by decide +kernel⟩⟩

theorem witness_ServiceCommandsComplete :
    (∃ m : MsgSrc, ∃ s : State, ∃ p, ∃ u,
    let c := reqCtx m s
    let t := takeRequest s m
    let d := c.data
    let k := fld d 0 1
    let free := fun (a : Activity) => deferred t a = false ∨ queueRoom t true = true
    let a := newActivity t 6 true 0 0 0 0 (some c.ticket)
    let l := stageSource t d
    Accepted ⟨0x910, .ws0, true, true, some 32⟩ m s ∧ zeroAt d 2 6 = true ∧ zeroAt d 20 12 = true ∧ k ≤ 1 ∧ ((fld d 1 1 = 0xFF ∨
        fld d 1 1 ≤ 1)) ∧ fld d 8 8 % 256 = 0 ∧ bufferOk t 0 (fld d 8 8) (fld d 16 4) = true ∧ stageSizeOk t d = true ∧
        stageSlot t d ≠ inUse t k ∧ t.live.handover = none ∧ t.live.ucode = none ∧ free a ∧ allocWindow (dropStaged t k) 0 2
        (cdiv l.length 65536) = some (p, u)) ∧
    (∃ m : MsgSrc, ∃ s : State, ∃ p,
    let c := reqCtx m s
    let t := takeRequest s m
    let d := c.data
    let k := fld d 0 1
    Accepted ⟨0x911, .ws0, true, true, some 8⟩ m s ∧ zeroAt d 1 7 = true ∧ k ≤ 1 ∧ stagedFw t (k == 1) = some p ∧ fld (imgSlotOf
        t.boot.flash t.boot.imgSlot) 12 4 ≤ p.version ∧ (t.rack.running ++ t.rack.queued).any (·.code == 6) = false ∧
        t.live.handover = none ∧ t.live.ucode = none ∧ p.handover = t.live.runningHandover) ∧
    (∃ m : MsgSrc, ∃ s : State, ∃ p,
    let c := reqCtx m s
    let t := takeRequest s m
    let d := c.data
    let k := fld d 0 1
    let free := fun (a : Activity) => deferred t a = false ∨ queueRoom t true = true
    let a := newActivity t 6 true 0 0 0 0 (some c.ticket)
    Accepted ⟨0x912, .ws0, true, true, some 8⟩ m s ∧ zeroAt d 1 7 = true ∧ k ≤ 1 ∧ stagedFw t (k == 1) = some p ∧ fld (imgSlotOf
        t.boot.flash t.boot.imgSlot) 12 4 ≤ p.version ∧ (t.rack.running ++ t.rack.queued).any (·.code == 6) = false ∧
        t.live.handover = none ∧ t.live.ucode = none ∧ free a) ∧
    (∃ m : MsgSrc, ∃ s : State,
    let c := reqCtx m s
    let t := takeRequest s m
    let d := c.data
    let k := fld d 0 1
    let free := fun (a : Activity) => deferred t a = false ∨ queueRoom t true = true
    let a := newActivity t 5 true 3 0 k 0 (some c.ticket)
    Accepted ⟨0x913, .ws0, true, true, some 32⟩ m s ∧ zeroAt d 2 6 = true ∧ zeroAt d 20 12 = true ∧ k ≤ 3 ∧ caneOut t k = false
        ∧ fld d 1 1 = 0 ∧ zeroAt d 8 12 = true ∧ free a) ∧
    (∃ m : MsgSrc, ∃ s : State,
    let c := reqCtx m s
    let t := takeRequest s m
    let d := c.data
    let k := fld d 0 1
    let free := fun (a : Activity) => deferred t a = false ∨ queueRoom t true = true
    let a := newActivity t 7 true 1 0 k 0 (some c.ticket)
    Accepted ⟨0x914, .ws0, true, true, some 8⟩ m s ∧ zeroAt d 1 7 = true ∧ stackThere t k = true ∧ stackOut t k = false ∧
        t.live.stackRetires.any (·.unit == k) = false ∧ 8 < stacksLeft t ∧ pagesOnStack t k ≤ pagesElsewhere t k ∧ free a) ∧
    (∃ m : MsgSrc, ∃ s : State,
    let c := reqCtx m s
    let t := takeRequest s m
    let d := c.data
    let k := fld d 0 1
    let free := fun (a : Activity) => deferred t a = false ∨ queueRoom t true = true
    let a := newActivity t 5 true 3 0 k 0 (some c.ticket)
    Accepted ⟨0x915, .ws0, true, true, some 8⟩ m s ∧ zeroAt d 1 7 = true ∧ k ≤ 3 ∧ caneOut t k = false ∧ caneOut t ((k + 2) % 4)
        = false ∧ t.fab.feedLost.getD (2 * ((k + 2) % 4)) false = false ∧ ((∀ g ∈ t.rack.groups, g.lease = 1 → reachedWithout t
        k g.mem.gateway = true)) ∧ free a) ∧
    (∃ m : MsgSrc, ∃ s : State,
    Accepted ⟨0x916, .ws0, true, true, some 0⟩ m s) ∧
    (∃ m : MsgSrc, ∃ s : State,
    Accepted ⟨0xA01, .any, true, false, some 0⟩ m s) ∧
    (∃ m : MsgSrc, ∃ s : State,
    let c := reqCtx m s
    let t := takeRequest s m
    let d := c.data
    Accepted ⟨0xA02, .ws0, true, true, some 32⟩ m s ∧ zeroAt d 12 4 = true ∧ zeroAt d 24 8 = true ∧ 1 ≤ fld d 8 4 ∧ fld d 8 4 ≤
        65536 ∧ bufOk t c.ws (fld d 16 8) (64 * fld d 8 4) = true ∧ ((c.owner ≠ 256 ∨ addrSpace (fld d 16 8) = 0))) ∧
    (∃ m : MsgSrc, ∃ s : State,
    let c := reqCtx m s
    let d := c.data
    Accepted ⟨0xA03, .ws0, true, true, some 256⟩ m s ∧ zeroAt d 24 8 = true ∧ zeroAt d 129 31 = true) ∧
    (∃ m : MsgSrc, ∃ s : State,
    let c := reqCtx m s
    let d := c.data
    let k := fld d 0 1
    Accepted ⟨0xA04, .ws0, false, false, some 32⟩ m s ∧ k = 2 ∧ zeroAt d 10 2 = true ∧ zeroAt d 24 8 = true) ∧
    (∃ m : MsgSrc, ∃ s : State,
    let c := reqCtx m s
    let d := c.data
    let k := fld d 0 1
    Accepted ⟨0xA04, .ws0, false, false, some 32⟩ m s ∧ k = 1 ∧ zeroAt d 10 2 = true ∧ zeroAt d 24 8 = true ∧ 100 ≤ fld d 4 4 ∧
        fld d 4 4 ≤ 100000 ∧ 64 ≤ fld d 8 2 ∧ fld d 8 2 ≤ 4096) :=
  ⟨⟨bmc 0x910 (blk 32 [(1, 1, 1), (16, 4, 1)]), up, 64, ((allocWindow (dropStaged (takeRequest up (bmc 0x910 [])) 0) 0 2 1).get
      (by decide +kernel)).2, by decide +kernel⟩,
   ⟨bmc 0x911 (leBytes 8 0), withStaged, aPackage, by decide +kernel⟩,
   ⟨bmc 0x912 (leBytes 8 0), withStaged, aPackage, by decide +kernel⟩,
   ⟨bmc 0x913 (leBytes 32 3), up, by decide +kernel⟩,
   ⟨bmc 0x914 (leBytes 8 15), up16, by decide +kernel⟩,
   ⟨bmc 0x915 (leBytes 8 3), up, by decide +kernel⟩,
   ⟨bmc 0x916 ([]), up, by decide +kernel⟩,
   ⟨bmc 0xA01 ([]), up, by decide +kernel⟩,
   ⟨bmc 0xA02 (blk 32 [(8, 4, 1)]), up, by decide +kernel⟩,
   ⟨bmc 0xA03 (zeros 256), up, by decide +kernel⟩,
   ⟨.slot 0 0, ask up 0xA04 (leBytes 32 2), by decide +kernel⟩,
   ⟨.slot 0 0, ask up 0xA04 (blk 32 [(0, 1, 1), (4, 4, 100000), (8, 2, 4096)]), by decide +kernel⟩⟩

theorem witness_TicketEventsComplete :
    (∃ fn, ∃ s,
    fn < 256 ∧ disableReady s fn = true ∧ firmwareRuns s = true) ∧
    (∃ ws, ∃ s,
    firmwareRuns s = true ∧ (getWs s ws).state = 2 ∧ wsQuiet s ws = true) ∧
    (∃ ws, ∃ base, ∃ r, ∃ s,
    firmwareRuns s = true ∧ (getWs s ws).regions.find? (·.base == base) = some r ∧ r.closing.isSome = true ∧ regionBusy s ws r =
        false) ∧
    (∃ m, ∃ s,
    unknownMsg m s = true) ∧
    (∃ t, ∃ o, ∃ k, ∃ st, ∃ r, ∃ u, ∃ s,
    firmwareRuns s = true ∧ findTicket s t = some k ∧ k.done = false ∧ doneQueued s t = false ∧ ticketOutcome s t k o = some
        (st, r, u)) ∧
    (∃ fn, ∃ vec, ∃ s,
    fn < 256 ∧ vec < 256 ∧ timerDue s fn vec = true ∧ (getVec (getFn s fn) vec).mask = true) ∧
    (∃ fn, ∃ vec, ∃ s,
    fn < 256 ∧ vec < 256 ∧ timerDue s fn vec = true ∧ (getVec (getFn s fn) vec).mask = false) :=
  ⟨⟨1, { up with fns := [(0, { resetFunc with state := 1 }), (1, { resetFunc with state := 2 })] }, by decide +kernel⟩,
   ⟨1, { up with wss := [(0, ⟨1, 1, 0, zeroQuota, [], none⟩), (1, ⟨2, 0, 0, zeroQuota, [], some ⟨0, 1⟩⟩)] }, by decide +kernel⟩,
   ⟨0, 0, ⟨0, 1, some ⟨0, 1⟩⟩, { up with wss := [(0, ⟨1, 1, 0, zeroQuota, [⟨0, 1, some ⟨0, 1⟩⟩], none⟩)] }, by decide +kernel⟩,
   ⟨bmc 0xFFF [], up, by decide +kernel⟩,
   ⟨⟨0, 1⟩, ⟨true, []⟩, { aTicket with work := ⟨0x120, 0, [], [], some (stOk, [])⟩ }, stOk, [],
       { up with fns := [(0, { resetFunc with state := 1, tickets := [(1, { aTicket with work := ⟨0x120, 0, [], [], some (stOk, [])⟩ })] })] },
       { up with fns := [(0, { resetFunc with state := 1, tickets := [(1, { aTicket with work := ⟨0x120, 0, [], [], some (stOk, [])⟩ })] })] },
       by decide +kernel⟩,
   ⟨255, 255,
       { up with fns := up.fns ++ [(255, { resetFunc with state := 1, vecs := [(255, ⟨0, 0, true, true, 0, 1, false, 0, 0⟩)] })] },
       by decide +kernel⟩,
   ⟨255, 255,
       { up with fns := up.fns ++ [(255, { resetFunc with state := 1, vecs := [(255, ⟨0, 0, false, true, 0, 1, false, 0, 0⟩)] })] },
       by decide +kernel⟩⟩

theorem witness_WindowWritesComplete :
    (∃ p : RegPkt, ∃ s : State,
    doorbellActs s p = true) ∧
    (∃ p : RegPkt, ∃ s : State,
    respReadyActs s p = true) ∧
    (∃ p : RegPkt, ∃ s : State, ∃ x,
    let f := getFn s p.fn
    let r := (p.offset - 0x1000) / 16
    let g := getRing f r
    sqBellActs s p = true ∧ takesBells s g = true ∧ x = BitVec.ofNat 32 (mergeReg p (0x1000 + 16 * r) g.sqPi.toNat) ∧ sqBellOk g
        x = true) ∧
    (∃ p : RegPkt, ∃ s : State, ∃ x,
    let f := getFn s p.fn
    let r := (p.offset - 0x1000) / 16
    let g := getRing f r
    cqBellActs s p = true ∧ g.state ≠ 0 ∧ x = BitVec.ofNat 32 (mergeReg p (0x1008 + 16 * r) g.cqCi.toNat) ∧ cqBellOk g x = true)
        ∧
    (∃ p : RegPkt, ∃ s : State, ∃ v, ∃ x, ∃ w, ∃ y,
    let f := getFn s p.fn
    vecWriteActs s p = true ∧ v = (p.offset - 0x3000) / 16 ∧ x = getVec f v ∧ w = mergeReg p (0x3000 + 16 * v) (vecCtrl x) ∧ y =
        { x with coalCount := bits w 47 32, coalNs := bits w 31 8, mask := bit w 1, enable := bit w 0 }) ∧
    (∃ p : RegPkt, ∃ s : State, ∃ n,
    cursorWriteActs s p = true ∧ n = mergeReg p 0x400 s.evr.cursor.toNat) ∧
    (∃ p : RegPkt, ∃ s : State,
    writeHeard s p = true ∧ ownRow p = false ∧ p.offset / 8 * 8 = 0x118) ∧
    (∃ p : RegPkt, ∃ s : State,
    writeHeard s p = true ∧ ownRow p = false ∧ p.offset / 8 * 8 ≠ 0x118 ∧ 0x8000 ≤ p.offset ∧ p.offset < 0xC000) ∧
    (∃ p : RegPkt, ∃ s : State, ∃ isWrite,
    let f := getFn s p.fn
    packetHeard s p = true ∧ s.guard.halted = false ∧ widthOk p.offset p.data.length isWrite = false ∧ f.badAt = none) :=
  ⟨⟨⟨0, 0, 0x100, leBytes 8 1⟩, up, by decide +kernel⟩,
   ⟨⟨0, 0, 0x110, leBytes 8 1⟩, up, by decide +kernel⟩,
   ⟨⟨0, 0, 0x1000, leBytes 4 16⟩, withRing aRing, 16, by decide +kernel⟩,
   ⟨⟨0, 0, 0x1008, leBytes 4 16⟩, withRing { aRing with cqPi := 16 }, 16, by decide +kernel⟩,
   ⟨⟨0, 0, 0x3FF0, leBytes 8 1⟩, up, 255, resetVec, 1,
       { resetVec with enable := true, mask := false, coalCount := 0, coalNs := 0 }, by decide +kernel⟩,
   ⟨⟨0, 0, 0x400, leBytes 8 5⟩, up, 5, by decide +kernel⟩,
   ⟨⟨0, 0, 0x118, leBytes 8 0⟩, up, by decide +kernel⟩,
   ⟨⟨0, 0, 0xBFFC, leBytes 4 1⟩, up, by decide +kernel⟩,
   ⟨⟨0, 0, 0x10000, leBytes 4 1⟩, up, false, by decide +kernel⟩⟩

theorem witness_RingEntriesComplete :
    (∃ fn : Nat, ∃ ring : Nat, ∃ h : HostView, ∃ s : State, ∃ e : List Byte, ∃ dev : Nat, ∃ pool : Pool, ∃ slot : Nat, ∃ x :
        Slot, ∃ ix,
    let b : Src := ⟨fn, (getFn s fn).ws, h, none⟩
    let u := claimEntry s fn ring e pool slot
    let p := x.payload
    fn < 256 ∧ ring < 256 ∧ workHead s fn ring = some e ∧ ringGrant s = some (dev, fn, ring) ∧ slotFor s (getFn s fn).ws
        (wantsLatency (fld e 0 1) (entryPayload e)) = some (pool, slot) ∧ getSlot u slot = some x ∧ fld e 0 1 = 1 ∧ queryRefusal
        b u p = none ∧ getIndex u (fld p 0 2) = some ix ∧ withinBudget u = true) ∧
    (∃ fn : Nat, ∃ ring : Nat, ∃ h : HostView, ∃ s : State, ∃ e : List Byte, ∃ dev : Nat, ∃ pool : Pool, ∃ slot : Nat, ∃ x :
        Slot, ∃ ix,
    let b : Src := ⟨fn, (getFn s fn).ws, h, none⟩
    let u := claimEntry s fn ring e pool slot
    let p := x.payload
    fn < 256 ∧ ring < 256 ∧ workHead s fn ring = some e ∧ ringGrant s = some (dev, fn, ring) ∧ slotFor s (getFn s fn).ws
        (wantsLatency (fld e 0 1) (entryPayload e)) = some (pool, slot) ∧ getSlot u slot = some x ∧ fld e 0 1 = 2 ∧
        insertRefusal b u p = none ∧ getIndex u (fld p 0 2) = some ix) ∧
    (∃ fn : Nat, ∃ ring : Nat, ∃ h : HostView, ∃ s : State, ∃ e : List Byte, ∃ dev : Nat, ∃ pool : Pool, ∃ slot : Nat, ∃ x :
        Slot,
    let b : Src := ⟨fn, (getFn s fn).ws, h, none⟩
    let u := claimEntry s fn ring e pool slot
    let p := x.payload
    fn < 256 ∧ ring < 256 ∧ workHead s fn ring = some e ∧ ringGrant s = some (dev, fn, ring) ∧ slotFor s (getFn s fn).ws
        (wantsLatency (fld e 0 1) (entryPayload e)) = some (pool, slot) ∧ getSlot u slot = some x ∧ fld e 0 1 = 3 ∧
        deleteRefusal b u p = none) ∧
    (∃ fn : Nat, ∃ ring : Nat, ∃ h : HostView, ∃ s : State, ∃ e : List Byte, ∃ dev : Nat, ∃ pool : Pool, ∃ slot : Nat, ∃ x :
        Slot, ∃ q, ∃ vec, ∃ kv,
    let b : Src := ⟨fn, (getFn s fn).ws, h, none⟩
    let u := claimEntry s fn ring e pool slot
    let p := x.payload
    fn < 256 ∧ ring < 256 ∧ workHead s fn ring = some e ∧ ringGrant s = some (dev, fn, ring) ∧ slotFor s (getFn s fn).ws
        (wantsLatency (fld e 0 1) (entryPayload e)) = some (pool, slot) ∧ getSlot u slot = some x ∧ fld e 0 1 = 4 ∧ stepRefusal
        b u p = none ∧ sessionOf u (aSession p) = some q ∧ vec = vector32 (aFmt p 0) (geoHeads q.geometry * aRows q.geometry p *
        geoDim q.geometry) (b.read u (fld p 32 8) (queryLen q.geometry p)) ∧ kv = vector32 (aFmt p 1) (2 * geoHeads q.geometry *
        aNew p * geoDim q.geometry) (b.read u (fld p 40 8) (kvLen q.geometry p)) ∧ notFinite32 vec = false ∧ notFinite32 kv =
        false) ∧
    (∃ fn : Nat, ∃ ring : Nat, ∃ h : HostView, ∃ s : State, ∃ e : List Byte, ∃ dev : Nat, ∃ pool : Pool, ∃ slot : Nat, ∃ x :
        Slot, ∃ t, ∃ v, ∃ y,
    let b : Src := ⟨fn, (getFn s fn).ws, h, none⟩
    let u := claimEntry s fn ring e pool slot
    let p := x.payload
    fn < 256 ∧ ring < 256 ∧ workHead s fn ring = some e ∧ ringGrant s = some (dev, fn, ring) ∧ slotFor s (getFn s fn).ws
        (wantsLatency (fld e 0 1) (entryPayload e)) = some (pool, slot) ∧ getSlot u slot = some x ∧ fld e 0 1 = 5 ∧ gatherCheck
        b u p = .ok t ∧ x.bind = [] ∧ t.current = some v ∧ y =
        { x with obj := fld p 0 4, bind := [v.num, v.bindCount], vec := batchVec b u p } ∧ gatherReady (refVersion (putSlot u
        slot y) (fld p 0 4) v.num true) y = true) ∧
    (∃ fn : Nat, ∃ ring : Nat, ∃ h : HostView, ∃ s : State, ∃ e : List Byte, ∃ dev : Nat, ∃ pool : Pool, ∃ slot : Nat, ∃ x :
        Slot, ∃ t, ∃ v, ∃ y,
    let b : Src := ⟨fn, (getFn s fn).ws, h, none⟩
    let u := claimEntry s fn ring e pool slot
    let p := x.payload
    fn < 256 ∧ ring < 256 ∧ workHead s fn ring = some e ∧ ringGrant s = some (dev, fn, ring) ∧ slotFor s (getFn s fn).ws
        (wantsLatency (fld e 0 1) (entryPayload e)) = some (pool, slot) ∧ getSlot u slot = some x ∧ fld e 0 1 = 6 ∧ updateCheck
        b u p = .ok t ∧ x.bind = [] ∧ t.current = some v ∧ y =
        { x with obj := fld p 0 4, bind := [v.num, v.updates], vec := batchVec b u p, pred := b.read u (fld p 32 8) (gradBytes t p) }
        ∧ repeated y v = none ∧ leaseHeld u t.gid = true ∧ seqVerdict t v (fld p 48 8) = .start ∧ phaseHeld y = false) ∧
    (∃ fn : Nat, ∃ ring : Nat, ∃ h : HostView, ∃ s : State, ∃ e : List Byte, ∃ dev : Nat, ∃ pool : Pool, ∃ slot : Nat, ∃ x :
        Slot,
    let b : Src := ⟨fn, (getFn s fn).ws, h, none⟩
    let u := claimEntry s fn ring e pool slot
    let p := x.payload
    fn < 256 ∧ ring < 256 ∧ workHead s fn ring = some e ∧ ringGrant s = some (dev, fn, ring) ∧ slotFor s (getFn s fn).ws
        (wantsLatency (fld e 0 1) (entryPayload e)) = some (pool, slot) ∧ getSlot u slot = some x ∧ fld e 0 1 = 7 ∧ topkFieldsOk
        p = true ∧ b.ok u (fld p 0 8) ((fld p 20 4 - 1) * fld p 28 4 + (topkSpan p 0).2) = true ∧ b.ok u (fld p 8 8) (fld p 32
        4) = true ∧ fld p 20 4 * fld p 24 2 * 8 ≤ fld p 32 4 ∧ (((List.range (fld p 20 4)).map (topkSpan p)).findSome? fun r =>
        b.fail u r.1 r.2) = none) ∧
    (∃ fn : Nat, ∃ ring : Nat, ∃ h : HostView, ∃ s : State, ∃ e : List Byte, ∃ dev : Nat, ∃ pool : Pool, ∃ slot : Nat, ∃ x :
        Slot, ∃ o, ∃ k,
    let b : Src := ⟨fn, (getFn s fn).ws, h, none⟩
    let u := claimEntry s fn ring e pool slot
    let p := x.payload
    fn < 256 ∧ ring < 256 ∧ workHead s fn ring = some e ∧ ringGrant s = some (dev, fn, ring) ∧ slotFor s (getFn s fn).ws
        (wantsLatency (fld e 0 1) (entryPayload e)) = some (pool, slot) ∧ getSlot u slot = some x ∧ fld e 0 1 = 8 ∧
        requestRefusal b u p = none ∧ requestPools u (fld p 0 8) = some (o, k)) ∧
    (∃ fn : Nat, ∃ ring : Nat, ∃ s : State, ∃ e : List Byte, ∃ dev : Nat, ∃ pool : Pool, ∃ slot : Nat, ∃ x : Slot,
    let u := claimEntry s fn ring e pool slot
    fn < 256 ∧ ring < 256 ∧ workHead s fn ring = some e ∧ ringGrant s = some (dev, fn, ring) ∧ slotFor s (getFn s fn).ws
        (wantsLatency (fld e 0 1) (entryPayload e)) = some (pool, slot) ∧ getSlot u slot = some x ∧ fld e 0 1 = 9) ∧
    (∃ fn : Nat, ∃ ring : Nat, ∃ h : HostView, ∃ s : State, ∃ e : List Byte, ∃ dev : Nat, ∃ pool : Pool, ∃ slot : Nat, ∃ x :
        Slot,
    let b : Src := ⟨fn, (getFn s fn).ws, h, none⟩
    let u := claimEntry s fn ring e pool slot
    let p := x.payload
    fn < 256 ∧ ring < 256 ∧ workHead s fn ring = some e ∧ ringGrant s = some (dev, fn, ring) ∧ slotFor s (getFn s fn).ws
        (wantsLatency (fld e 0 1) (entryPayload e)) = some (pool, slot) ∧ getSlot u slot = some x ∧ fld e 0 1 = 10 ∧ hashRefusal
        u b.ws p false true = none ∧ withinBudget u = true) ∧
    (∃ fn : Nat, ∃ ring : Nat, ∃ h : HostView, ∃ s : State, ∃ e : List Byte, ∃ dev : Nat, ∃ pool : Pool, ∃ slot : Nat, ∃ x :
        Slot,
    let b : Src := ⟨fn, (getFn s fn).ws, h, none⟩
    let u := claimEntry s fn ring e pool slot
    let p := x.payload
    fn < 256 ∧ ring < 256 ∧ workHead s fn ring = some e ∧ ringGrant s = some (dev, fn, ring) ∧ slotFor s (getFn s fn).ws
        (wantsLatency (fld e 0 1) (entryPayload e)) = some (pool, slot) ∧ getSlot u slot = some x ∧ fld e 0 1 = 11 ∧ hashRefusal
        u b.ws p true false = none) ∧
    (∃ fn : Nat, ∃ ring : Nat, ∃ h : HostView, ∃ s : State, ∃ e : List Byte, ∃ dev : Nat, ∃ pool : Pool, ∃ slot : Nat, ∃ x :
        Slot,
    let b : Src := ⟨fn, (getFn s fn).ws, h, none⟩
    let u := claimEntry s fn ring e pool slot
    let p := x.payload
    fn < 256 ∧ ring < 256 ∧ workHead s fn ring = some e ∧ ringGrant s = some (dev, fn, ring) ∧ slotFor s (getFn s fn).ws
        (wantsLatency (fld e 0 1) (entryPayload e)) = some (pool, slot) ∧ getSlot u slot = some x ∧ fld e 0 1 = 12 ∧ hashRefusal
        u b.ws p false false = none) :=
  ⟨⟨0, 0, noHost, (withEntry ({ withIndex0 2 with clk := { up.clk with state := 2 } }) (entry 1 (blk 128 [(2, 1, 4), (4, 2, 1),
      (16, 8, 65536), (24, 8, 65536), (32, 4, 16)]))), (entry 1 (blk 128 [(2, 1, 4), (4, 2, 1), (16, 8, 65536), (24, 8, 65536),
      (32, 4, 16)])), 0, .localPool, 0, (claimedSlot .localPool 0 0 0 1 0 0 (blk 128 [(2, 1, 4), (4, 2, 1), (16, 8, 65536), (24,
      8, 65536), (32, 4, 16)]) 0 none), anIndex, by decide +kernel⟩,
   ⟨0, 0, noHost, (withEntry (withIndex0 2) (entry 2 (blk 64 [(2, 1, 4), (8, 8, 5), (16, 8, 65536)]))), (entry 2 (blk 64 [(2, 1,
       4), (8, 8, 5), (16, 8, 65536)])), 0, .localPool, 0, (claimedSlot .localPool 0 0 0 2 0 0 (blk 64 [(2, 1, 4), (8, 8, 5),
       (16, 8, 65536)]) 0 none), anIndex, by decide +kernel⟩,
   ⟨0, 0, noHost, (withEntry (withIndex0 2) (entry 3 (blk 32 [(8, 8, 5)]))), (entry 3 (blk 32 [(8, 8, 5)])), 0, .localPool, 0,
       (claimedSlot .localPool 0 0 0 3 0 0 (blk 32 [(8, 8, 5)]) 0 none), by decide +kernel⟩,
   ⟨0, 0, noHost, (withEntry (withSession (session0 1)) (entry 4 (blk 128 [(0, 4, 4), (6, 1, 1), (8, 1, 4), (9, 1, 4), (10, 1,
       4), (11, 1, 1), (15, 1, 1), (16, 4, 0x3F800000), (32, 8, 65536), (40, 8, 65536), (48, 8, 65536), (64, 4, 256)]))), (entry
       4 (blk 128 [(0, 4, 4), (6, 1, 1), (8, 1, 4), (9, 1, 4), (10, 1, 4), (11, 1, 1), (15, 1, 1), (16, 4, 0x3F800000), (32, 8,
       65536), (40, 8, 65536), (48, 8, 65536), (64, 4, 256)])), 0, .localPool, 0, (claimedSlot .localPool 0 0 0 4 0 0 (blk 128
       [(0, 4, 4), (6, 1, 1), (8, 1, 4), (9, 1, 4), (10, 1, 4), (11, 1, 1), (15, 1, 1), (16, 4, 0x3F800000), (32, 8, 65536),
       (40, 8, 65536), (48, 8, 65536), (64, 4, 256)]) 0 none), (session0 1), (List.replicate 64 0), (List.replicate 128 0), by
       decide +kernel⟩,
   ⟨0, 0, noHost, (withEntry ({ up with tables := [(3, aTable1)] }) (entry 5 (blk 64 [(0, 4, 3), (5, 1, 4), (8, 4, 1), (16, 8,
       65536), (24, 8, 65536), (32, 8, 65536), (40, 4, 32)]))), (entry 5 (blk 64 [(0, 4, 3), (5, 1, 4), (8, 4, 1), (16, 8,
       65536), (24, 8, 65536), (32, 8, 65536), (40, 4, 32)])), 0, .localPool, 0, (claimedSlot .localPool 0 0 0 5 0 0 (blk 64
       [(0, 4, 3), (5, 1, 4), (8, 4, 1), (16, 8, 65536), (24, 8, 65536), (32, 8, 65536), (40, 4, 32)]) 0 none), ((gatherCheck
       ⟨0, (getFn (withEntry ({ up with tables := [(3, aTable1)] }) (entry 5 (blk 64 [(0, 4, 3), (5, 1, 4), (8, 4, 1), (16, 8,
       65536), (24, 8, 65536), (32, 8, 65536), (40, 4, 32)]))) 0).ws, noHost, none⟩ (claimEntry (withEntry
       ({ up with tables := [(3, aTable1)] }) (entry 5 (blk 64 [(0, 4, 3), (5, 1, 4), (8, 4, 1), (16, 8, 65536), (24, 8, 65536),
       (32, 8, 65536), (40, 4, 32)]))) 0 0 (entry 5 (blk 64 [(0, 4, 3), (5, 1, 4), (8, 4, 1), (16, 8, 65536), (24, 8, 65536),
       (32, 8, 65536), (40, 4, 32)])) .localPool 0) (claimedSlot .localPool 0 0 0 5 0 0 (blk 64 [(0, 4, 3), (5, 1, 4), (8, 4,
       1), (16, 8, 65536), (24, 8, 65536), (32, 8, 65536), (40, 4, 32)]) 0 none).payload).toOption.get (by decide +kernel)),
       (aVersion 3),
       { (claimedSlot .localPool 0 0 0 5 0 0 (blk 64 [(0, 4, 3), (5, 1, 4), (8, 4, 1), (16, 8, 65536), (24, 8, 65536), (32, 8, 65536), (40, 4, 32)]) 0 none) with obj := 3, bind := [1, 0], vec := [0, 0] },
       by refine ⟨by decide +kernel, by decide +kernel, by decide +kernel, by decide +kernel, by decide +kernel, by
       decide +kernel, by decide +kernel, ok_get _ _, by decide +kernel, by decide +kernel, by decide +kernel, by
       decide +kernel⟩⟩,
   ⟨0, 0, noHost, (withEntry ({ up with tables := [(3, aTable1)] }) (entry 6 (blk 80 [(0, 4, 3), (5, 1, 4), (8, 4, 1), (16, 8,
       65536), (24, 8, 65536), (32, 8, 65536), (40, 4, 0x3F800000)]))), (entry 6 (blk 80 [(0, 4, 3), (5, 1, 4), (8, 4, 1), (16,
       8, 65536), (24, 8, 65536), (32, 8, 65536), (40, 4, 0x3F800000)])), 0, .localPool, 0, (claimedSlot .localPool 0 0 0 6 0 0
       (blk 80 [(0, 4, 3), (5, 1, 4), (8, 4, 1), (16, 8, 65536), (24, 8, 65536), (32, 8, 65536), (40, 4, 0x3F800000)]) 0 none),
       ((updateCheck ⟨0, (getFn (withEntry ({ up with tables := [(3, aTable1)] }) (entry 6 (blk 80 [(0, 4, 3), (5, 1, 4), (8, 4,
       1), (16, 8, 65536), (24, 8, 65536), (32, 8, 65536), (40, 4, 0x3F800000)]))) 0).ws, noHost, none⟩ (claimEntry (withEntry
       ({ up with tables := [(3, aTable1)] }) (entry 6 (blk 80 [(0, 4, 3), (5, 1, 4), (8, 4, 1), (16, 8, 65536), (24, 8, 65536),
       (32, 8, 65536), (40, 4, 0x3F800000)]))) 0 0 (entry 6 (blk 80 [(0, 4, 3), (5, 1, 4), (8, 4, 1), (16, 8, 65536), (24, 8,
       65536), (32, 8, 65536), (40, 4, 0x3F800000)])) .localPool 0) (claimedSlot .localPool 0 0 0 6 0 0 (blk 80 [(0, 4, 3), (5,
       1, 4), (8, 4, 1), (16, 8, 65536), (24, 8, 65536), (32, 8, 65536), (40, 4, 0x3F800000)]) 0 none).payload).toOption.get (by
       decide +kernel)), (aVersion 3),
       { (claimedSlot .localPool 0 0 0 6 0 0 (blk 80 [(0, 4, 3), (5, 1, 4), (8, 4, 1), (16, 8, 65536), (24, 8, 65536), (32, 8, 65536), (40, 4, 0x3F800000)]) 0 none) with obj := 3, bind := [1, 0], vec := [0, 0], pred := zeros 32 },
       by refine ⟨by decide +kernel, by decide +kernel, by decide +kernel, by decide +kernel, by decide +kernel, by
       decide +kernel, by decide +kernel, ok_get _ _, by decide +kernel, by decide +kernel, by decide +kernel, by
       decide +kernel, by decide +kernel, by decide +kernel, by decide +kernel⟩⟩,
   ⟨0, 0, noHost, (withEntry (up) (entry 7 (blk 64 [(0, 8, 65536), (8, 8, 65536), (16, 4, 1), (20, 4, 1), (24, 2, 1), (26, 1,
       1), (28, 4, 16), (32, 4, 8)]))), (entry 7 (blk 64 [(0, 8, 65536), (8, 8, 65536), (16, 4, 1), (20, 4, 1), (24, 2, 1), (26,
       1, 1), (28, 4, 16), (32, 4, 8)])), 0, .localPool, 0, (claimedSlot .localPool 0 0 0 7 0 0 (blk 64 [(0, 8, 65536), (8, 8,
       65536), (16, 4, 1), (20, 4, 1), (24, 2, 1), (26, 1, 1), (28, 4, 16), (32, 4, 8)]) 0 none), by decide +kernel⟩,
   ⟨0, 0, noHost, (let s := withEntry withReq (entry 8 (blk 64 [(0, 8, 9), (8, 1, 1), (12, 4, 4096), (16, 8, 65536)]));
       { s with mem := { s.mem with cells := s.mem.cells ++ [(65536, 1)] } }), (entry 8 (blk 64 [(0, 8, 9), (8, 1, 1), (12, 4,
       4096), (16, 8, 65536)])), 0, .localPool, 0, (claimedSlot .localPool 0 0 0 8 0 0 (blk 64 [(0, 8, 9), (8, 1, 1), (12, 4,
       4096), (16, 8, 65536)]) 0 none), 1, 0, by decide +kernel⟩,
   ⟨0, 0, (withEntry (up) (entry 9 (zeros 48))), (entry 9 (zeros 48)), 0, .localPool, 0, (claimedSlot .localPool 0 0 0 9 0 0
       (zeros 48) 0 none), by decide +kernel⟩,
   ⟨0, 0, noHost, (withEntry
       ({ up with indexes := [(0, { bareIndex 0 (ixBlock 3 0 0 0) with state := 2 })], clk := { up.clk with state := 2 } })
       (entry 10 (zeros 48))), (entry 10 (zeros 48)), 0, .localPool, 0, (claimedSlot .localPool 0 0 0 10 0 0 (zeros 48) 0 none),
       by decide +kernel⟩,
   ⟨0, 0, noHost, (withEntry
       ({ up with indexes := [(0, { bareIndex 0 (ixBlock 3 0 0 0) with state := 2 })], clk := { up.clk with state := 2 } })
       (entry 11 (zeros 48))), (entry 11 (zeros 48)), 0, .localPool, 0, (claimedSlot .localPool 0 0 0 11 0 0 (zeros 48) 0 none),
       by decide +kernel⟩,
   ⟨0, 0, noHost, (withEntry
       ({ up with indexes := [(0, { bareIndex 0 (ixBlock 3 0 0 0) with state := 2 })], clk := { up.clk with state := 2 } })
       (entry 12 (zeros 48))), (entry 12 (zeros 48)), 0, .localPool, 0, (claimedSlot .localPool 0 0 0 12 0 0 (zeros 48) 0 none),
       by decide +kernel⟩⟩

theorem witness_RingRefusalsComplete :
    (∃ fn, ∃ ring, ∃ s, ∃ e,
    fn < 256 ∧ ring < 256 ∧ workHead s fn ring = some e ∧ entryOk e = false ∧ ringsAdmit s fn = true ∧ cqRoom (getRing (getFn s
        fn) ring) = true) ∧
    (∃ s,
    firmwareRuns s = true ∧ waitingHeads s ≠ [] ∧ s.hub.exhaustedAt = none) :=
  ⟨⟨0, 0, (withEntry up (entry 255 [])), (entry 255 []), by decide +kernel⟩,
   ⟨(let s := withEntry up (entry 3 (zeros 32)); { s with fns := s.fns.map fun f => (f.1, { f.2 with ws := 1 }) }), by
       decide +kernel⟩⟩

theorem witness_SubrequestsComplete :
    (∃ ident : Nat, ∃ s : State, ∃ x : SubIn, ∃ slot : Nat,
    let y : SubIn := { x with slot := some slot }
    let t := putSub (passCore s .remote slot) y
    let here := (∃ i ix mir c, servedCopy t y = some (i, ix, mir, c) ∧ frontierAt t ix c y.bind0 = true)
    getSub s ident = some x ∧ freePoolSlot s .remote = some slot ∧ firmwareRuns s = true ∧ nextSubOf s ident = true ∧ leaseHeld
        s x.group = true ∧ x.kind = 1 ∧ here) ∧
    (∃ ident : Nat, ∃ s : State, ∃ x : SubIn, ∃ slot : Nat,
    let y : SubIn := { x with slot := some slot }
    let t := putSub (passCore s .remote slot) y
    let here := (∃ i ix mir c, servedCopy t y = some (i, ix, mir, c) ∧ frontierAt t ix c y.bind0 = true)
    getSub s ident = some x ∧ freePoolSlot s .remote = some slot ∧ firmwareRuns s = true ∧ nextSubOf s ident = true ∧ leaseHeld
        s x.group = true ∧ x.kind = 2 ∧ here) ∧
    (∃ ident : Nat, ∃ s : State, ∃ x : SubIn, ∃ slot : Nat,
    getSub s ident = some x ∧ freePoolSlot s .remote = some slot ∧ firmwareRuns s = true ∧ nextSubOf s ident = true ∧ leaseHeld
        s x.group = true ∧ x.kind = 3) ∧
    (∃ ident : Nat, ∃ s : State, ∃ x : SubIn, ∃ slot : Nat,
    getSub s ident = some x ∧ freePoolSlot s .remote = some slot ∧ firmwareRuns s = true ∧ nextSubOf s ident = true ∧ leaseHeld
        s x.group = true ∧ x.kind = 4) ∧
    (∃ ident : Nat, ∃ s : State, ∃ x : SubIn, ∃ slot : Nat,
    getSub s ident = some x ∧ freePoolSlot s .remote = some slot ∧ firmwareRuns s = true ∧ nextSubOf s ident = true ∧ leaseHeld
        s x.group = true ∧ x.kind = 5) ∧
    (∃ ident : Nat, ∃ s : State, ∃ x : SubIn, ∃ slot : Nat,
    getSub s ident = some x ∧ freePoolSlot s .remote = some slot ∧ firmwareRuns s = true ∧ nextSubOf s ident = true ∧ leaseHeld
        s x.group = true ∧ x.kind = 6) ∧
    (∃ ident : Nat, ∃ s : State, ∃ x : SubIn, ∃ slot : Nat,
    let y : SubIn := { x with slot := some slot }
    let t := putSub (passCore s .remote slot) y
    let here := (∃ i ix mir c, servedCopy t y = some (i, ix, mir, c) ∧ frontierAt t ix c y.bind0 = true)
    getSub s ident = some x ∧ freePoolSlot s .remote = some slot ∧ firmwareRuns s = true ∧ nextSubOf s ident = true ∧ leaseHeld
        s x.group = true ∧ x.kind = 7 ∧ here) :=
  ⟨⟨1, { withIndex0 2 with hub := { up.hub with subreqs := [{ aSub with kind := 1 }] } }, { aSub with kind := 1 }, 112, by
      refine ⟨by decide +kernel, by decide +kernel, by decide +kernel, by decide +kernel, by decide +kernel, by decide +kernel,
      ⟨0, anIndex, false, aCopy, by decide +kernel, by decide +kernel⟩⟩⟩,
   ⟨1, { withIndex0 2 with hub := { up.hub with subreqs := [{ aSub with kind := 2 }] } }, { aSub with kind := 2 }, 112, by
       refine ⟨by decide +kernel, by decide +kernel, by decide +kernel, by decide +kernel, by decide +kernel, by decide +kernel,
       ⟨0, anIndex, false, aCopy, by decide +kernel, by decide +kernel⟩⟩⟩,
   ⟨1, { withIndex0 2 with hub := { up.hub with subreqs := [{ aSub with kind := 3 }] } }, { aSub with kind := 3 }, 112, by
       decide +kernel⟩,
   ⟨1, { withIndex0 2 with hub := { up.hub with subreqs := [{ aSub with kind := 4 }] } }, { aSub with kind := 4 }, 112, by
       decide +kernel⟩,
   ⟨1, { withIndex0 2 with hub := { up.hub with subreqs := [{ aSub with kind := 5 }] } }, { aSub with kind := 5 }, 112, by
       decide +kernel⟩,
   ⟨1, { withIndex0 2 with hub := { up.hub with subreqs := [{ aSub with kind := 6 }] } }, { aSub with kind := 6 }, 112, by
       decide +kernel⟩,
   ⟨1, { withIndex0 2 with hub := { up.hub with subreqs := [{ aSub with kind := 7 }] } }, { aSub with kind := 7 }, 112, by
       refine ⟨by decide +kernel, by decide +kernel, by decide +kernel, by decide +kernel, by decide +kernel, by decide +kernel,
       ⟨0, anIndex, false, aCopy, by decide +kernel, by decide +kernel⟩⟩⟩⟩

theorem witness_SubrequestEventsComplete :
    (∃ ident, ∃ q, ∃ i, ∃ ix, ∃ mir, ∃ c, ∃ s,
    getSub s ident = some q ∧ firmwareRuns s = true ∧ q.threshold = true ∧ q.kind ≠ 3 ∧ servedCopy s q = some (i, ix, mir, c)) ∧
    (∃ ident, ∃ q, ∃ i, ∃ ix, ∃ mir, ∃ c, ∃ s,
    getSub s ident = some q ∧ firmwareRuns s = true ∧ waitsFrontier q = true ∧ servedCopy s q = some (i, ix, mir, c) ∧
        frontierAt s ix c q.bind0 = true) ∧
    (∃ ident, ∃ q, ∃ s,
    getSub s ident = some q ∧ firmwareRuns s = true ∧ waitsFrontier q = true ∧ elapsed s q.arrivedAt 10000000 = true) ∧
    (∃ slot, ∃ kind, ∃ shard, ∃ r, ∃ x, ∃ o, ∃ s,
    firmwareRuns s = true ∧ getSlot s slot = some x ∧ awaited s x kind shard r = some o) ∧
    (∃ slot, ∃ kind, ∃ shard, ∃ x, ∃ o, ∃ s,
    firmwareRuns s = true ∧ getSlot s slot = some x ∧ (x.subs.find? fun o => o.kind == kind && o.shard == shard && subTimedOut s
        o) = some o) :=
  ⟨⟨1, { aSub with kind := 1, threshold := true, slot := some 112 }, 0, anIndex, false, aCopy,
      { withIndex0 2 with hub := { up.hub with subreqs := [{ aSub with kind := 1, threshold := true, slot := some 112 }] } }, by
      decide +kernel⟩,
   ⟨1, { aSub with kind := 7, slot := some 112 }, 0, anIndex, false, aCopy,
       { withIndex0 2 with hub := { up.hub with subreqs := [{ aSub with kind := 7, slot := some 112 }] } }, by decide +kernel⟩,
   ⟨1, { aSub with kind := 7, slot := some 112 },
       { up with clk := { up.clk with cycles := 20000000 }, hub := { up.hub with subreqs := [{ aSub with kind := 7, slot := some 112 }] } },
       by decide +kernel⟩,
   ⟨0, 1, 0, .fenced, { claimedSlot .localPool 0 0 0 1 0 0 [] 0 none with subs := [⟨1, 0, 0, 5, false, false, 0, 3⟩] }, ⟨1, 0,
       0, 5, false, false, 0, 3⟩, putSlot up 0
       { claimedSlot .localPool 0 0 0 1 0 0 [] 0 none with subs := [⟨1, 0, 0, 5, false, false, 0, 3⟩] }, by decide +kernel⟩,
   ⟨0, 1, 0, { claimedSlot .localPool 0 0 0 1 0 0 [] 0 none with subs := [⟨1, 0, 0, 5, false, false, 0, 3⟩] }, ⟨1, 0, 0, 5,
       false, false, 0, 3⟩, putSlot { up with clk := { up.clk with cycles := 10000000 } } 0
       { claimedSlot .localPool 0 0 0 1 0 0 [] 0 none with subs := [⟨1, 0, 0, 5, false, false, 0, 3⟩] }, by decide +kernel⟩⟩

theorem witness_IndexEventsComplete :
    (∃ c, ∃ s, ∃ idx, ∃ x, ∃ mir, ∃ k,
    firmwareRuns s = true ∧ changeArrived s c = true ∧ indexByKey s c.ws c.key = some (idx, x) ∧ x.placeOf c.shard = some (mir,
        k) ∧ leaseHeld s x.gid = true ∧ c.epoch ≠ 0) ∧
    (∃ c, ∃ s, ∃ idx, ∃ x, ∃ mir, ∃ k,
    firmwareRuns s = true ∧ changeArrived s c = true ∧ indexByKey s c.ws c.key = some (idx, x) ∧ x.placeOf c.shard = some (mir,
        k) ∧ leaseHeld s x.gid = true ∧ c.epoch = 0 ∧ primaryDev s x.gid c.shard = some (fabricDev s) ∧ withinBudget s = true ∧
        k.changes.length < 2 ^ 20) ∧
    (∃ index, ∃ shard, ∃ epoch, ∃ acked, ∃ x, ∃ mir, ∃ c, ∃ ch, ∃ s,
    let d : Change := { ch with mirrorDone := ch.mirrorDone || (acked && ch.needMirror) }
    index < 1024 ∧ firmwareRuns s = true ∧ getIndex s index = some x ∧ x.placeOf shard = some (mir, c) ∧ c.changes.find?
        (·.epoch == epoch) = some ch ∧ changeDone s d = true) ∧
    (∃ index, ∃ x, ∃ s,
    getIndex s index = some x ∧ firmwareRuns s = true ∧ leaseHeld s x.gid = true) ∧
    (∃ src, ∃ s,
    firmwareRuns s = true ∧ src ≠ fabricDev s) ∧
    (∃ index, ∃ x, ∃ s,
    getIndex s index = some x ∧ firmwareRuns s = true ∧ leaseHeld s x.gid = true) ∧
    (∃ index, ∃ mirror, ∃ x, ∃ c, ∃ num, ∃ s,
    index < 1024 ∧ firmwareRuns s = true ∧ getIndex s index = some x ∧ x.role mirror = some c ∧ c.live = true ∧ x.state = 2 ∧
        nextSnap x c (copyFrontier s c (appliesAsMirror s x c)) = some num ∧ sendsSnaps s x c = false) ∧
    (∃ ws, ∃ key, ∃ idx, ∃ x, ∃ s,
    indexByKey s ws key = some (idx, x) ∧ firmwareRuns s = true ∧ leaseHeld s x.gid = true) ∧
    (∃ index, ∃ mirror, ∃ x, ∃ c, ∃ s,
    index < 1024 ∧ firmwareRuns s = true ∧ getIndex s index = some x ∧ x.role mirror = some c ∧ compactAdmits s x c.shard =
        true) :=
  ⟨⟨⟨0, 5, 0, 2, 9, 0, zeros 64, [], 0, 1⟩, withIndex0 2, 0, anIndex, false, aCopy, by decide +kernel⟩,
   ⟨⟨0, 5, 0, 2, 9, 0, zeros 64, [], 0, 0⟩, { withIndex0 2 with clk := { up.clk with state := 2 } }, 0, anIndex, false, aCopy,
       by decide +kernel⟩,
   ⟨0, 0, 1, false,
       { anIndex with primary := some { aCopy with changes := [⟨2, 1, 1, zeros 64, [], 0, 0, 0, 0, true, false, true, false⟩] } },
       false, { aCopy with changes := [⟨2, 1, 1, zeros 64, [], 0, 0, 0, 0, true, false, true, false⟩] }, ⟨2, 1, 1, zeros 64, [],
       0, 0, 0, 0, true, false, true, false⟩,
       { up with indexes := [(0, { anIndex with primary := some { aCopy with changes := [⟨2, 1, 1, zeros 64, [], 0, 0, 0, 0, true, false, true, false⟩] } })], clk := { up.clk with time := 2 ^ 40 } },
       by decide +kernel⟩,
   ⟨0, anIndex, withIndex0 2, by decide +kernel⟩,
   ⟨9, withIndex0 2, by decide +kernel⟩,
   ⟨0, anIndex, withIndex0 2, by decide +kernel⟩,
   ⟨0, false, { anIndex with primary := some { aCopy with snapshots := [] } }, { aCopy with snapshots := [] }, 0,
       { up with indexes := [(0, { anIndex with primary := some { aCopy with snapshots := [] } })], rack := { up.rack with groups := [{ grp with mem := { grp.mem with roles := [⟨3, 0, 0, 0⟩] } }] }, clk := { up.clk with time := 2 ^ 43 } },
       by decide +kernel⟩,
   ⟨0, 5, 0, anIndex, withIndex0 2, by decide +kernel⟩,
   ⟨0, false, anIndex, aCopy, withIndex0 2, by decide +kernel⟩⟩

theorem witness_MarverStepsComplete :
    (∃ unit : Nat, ∃ s : State, ∃ i : Nat, ∃ c : MarverCtx,
    unitThere s unit = true ∧ inRun s = true ∧ stepCtx (getUnit s unit) = some (i, c) ∧ nextOp c = .scan8) ∧
    (∃ unit : Nat, ∃ s : State, ∃ i : Nat, ∃ c : MarverCtx,
    unitThere s unit = true ∧ inRun s = true ∧ stepCtx (getUnit s unit) = some (i, c) ∧ nextOp c = .scan4) ∧
    (∃ unit : Nat, ∃ s : State, ∃ i : Nat, ∃ c : MarverCtx,
    unitThere s unit = true ∧ inRun s = true ∧ stepCtx (getUnit s unit) = some (i, c) ∧ nextOp c = .filter) ∧
    (∃ unit : Nat, ∃ s : State, ∃ i : Nat, ∃ c : MarverCtx,
    unitThere s unit = true ∧ inRun s = true ∧ stepCtx (getUnit s unit) = some (i, c) ∧ nextOp c = .blockScore) ∧
    (∃ unit : Nat, ∃ s : State, ∃ i : Nat, ∃ c : MarverCtx,
    unitThere s unit = true ∧ inRun s = true ∧ stepCtx (getUnit s unit) = some (i, c) ∧ nextOp c = .attnKey) ∧
    (∃ unit : Nat, ∃ s : State, ∃ i : Nat, ∃ c : MarverCtx,
    unitThere s unit = true ∧ inRun s = true ∧ stepCtx (getUnit s unit) = some (i, c) ∧ nextOp c = .attnValue) ∧
    (∃ unit : Nat, ∃ s : State, ∃ i : Nat, ∃ c : MarverCtx,
    unitThere s unit = true ∧ inRun s = true ∧ stepCtx (getUnit s unit) = some (i, c) ∧ nextOp c = .pool) ∧
    (∃ unit : Nat, ∃ s : State, ∃ i : Nat, ∃ c : MarverCtx,
    unitThere s unit = true ∧ inRun s = true ∧ stepCtx (getUnit s unit) = some (i, c) ∧ nextOp c = .gradRmw) ∧
    (∃ unit : Nat, ∃ s : State, ∃ i : Nat, ∃ c : MarverCtx,
    unitThere s unit = true ∧ inRun s = true ∧ stepCtx (getUnit s unit) = some (i, c) ∧ nextOp c = .append) ∧
    (∃ unit : Nat, ∃ s : State, ∃ i : Nat, ∃ c : MarverCtx,
    unitThere s unit = true ∧ inRun s = true ∧ stepCtx (getUnit s unit) = some (i, c) ∧ nextOp c = .mark) ∧
    (∃ unit : Nat, ∃ s : State, ∃ i : Nat, ∃ c : MarverCtx,
    unitThere s unit = true ∧ inRun s = true ∧ stepCtx (getUnit s unit) = some (i, c) ∧ nextOp c = .copy) ∧
    (∃ unit : Nat, ∃ s : State, ∃ i : Nat, ∃ c : MarverCtx,
    unitThere s unit = true ∧ inRun s = true ∧ stepCtx (getUnit s unit) = some (i, c) ∧ nextOp c = .drain) :=
  ⟨⟨0, withCtx { aCtx .scan8 with cmd := { aCmd .scan8 with places := [0] } }, 2,
      { aCtx .scan8 with cmd := { aCmd .scan8 with places := [0] } }, by decide +kernel⟩,
   ⟨0, withCtx { aCtx .scan4 with cmd := { aCmd .scan4 with places := [0] } }, 2,
       { aCtx .scan4 with cmd := { aCmd .scan4 with places := [0] } }, by decide +kernel⟩,
   ⟨0, withCtx (aCtx .filter), 2, (aCtx .filter), by decide +kernel⟩,
   ⟨0, withCtx { aCtx .blockScore with cmd := { aCmd .blockScore with places := [0] } }, 2,
       { aCtx .blockScore with cmd := { aCmd .blockScore with places := [0] } }, by decide +kernel⟩,
   ⟨0, withCtx (aCtx .attnKey), 2, (aCtx .attnKey), by decide +kernel⟩,
   ⟨0, withCtx { aCtx .attnKey with values := true }, 2, { aCtx .attnKey with values := true }, by decide +kernel⟩,
   ⟨0, withCtx (aCtx .pool), 2, (aCtx .pool), by decide +kernel⟩,
   ⟨0, withCtx (aCtx .gradRmw), 2, (aCtx .gradRmw), by decide +kernel⟩,
   ⟨0, withCtx (aCtx .append), 2, (aCtx .append), by decide +kernel⟩,
   ⟨0, withCtx (aCtx .mark), 2, (aCtx .mark), by decide +kernel⟩,
   ⟨0, withCtx (aCtx .copy), 2, (aCtx .copy), by decide +kernel⟩,
   ⟨0, withCtx (aCtx .scan8), 2, (aCtx .scan8), by decide +kernel⟩⟩

theorem witness_MarverEventsComplete :
    (∃ unit, ∃ s, ∃ cmd, ∃ rest, ∃ i,
    unitThere s unit = true ∧ inRun s = true ∧ (getUnit s unit).queue = cmd :: rest ∧ (getUnit s unit).ctxs.findIdx? (·.isNone)
        = some i ∧ pagesHeld (getUnit s unit) MarverCmd.tables + cmd.tables ≤ 16 ∧ pagesHeld (getUnit s unit) MarverCmd.scratch
        + cmd.scratch ≤ 8 ∧ atSwitch s unit = false) ∧
    (∃ unit, ∃ c, ∃ s,
    unitThere s unit = true ∧ inRun s = true ∧ s.guard.halted = false ∧ commandOk unit c = true ∧ (getUnit s unit).queue.length
        < 16) ∧
    (∃ units, ∃ s,
    units.all (unitThere s) = true ∧ inRun s = true ∧ oneTransfer s units = true) ∧
    (∃ unit, ∃ a, ∃ s,
    unitThere s unit = true ∧ inRun s = true ∧ s.rack.running.find? (stackScrub (unit / 1024)) = some a ∧ (patrolAt s
        unit).patrol < unitGranules) ∧
    (∃ unit, ∃ s,
    unitThere s unit = true ∧ inRun s = true ∧ (s.rack.running ++ s.rack.queued).any (stackScrub (unit / 1024)) = false ∧
        (patrolAt s unit).patrol < unitGranules) ∧
    (∃ die, ∃ s,
    unitThere s (die * 64) = true ∧ inRun s = true) ∧
    (∃ unit, ∃ a, ∃ s,
    unitThere s unit = true ∧ inRun s = true ∧ slotOk s unit a = true) ∧
    (∃ bank, ∃ s,
    unitThere s (bank / 4096 * 1024) = true ∧ inRun s = true ∧ refreshDue s bank = true) ∧
    (∃ dpa, ∃ data : List Byte, ∃ a, ∃ s,
    firmwareRuns s = true ∧ dpa % 32 = 0 ∧ data.length = 32 ∧ s.mem.poison.contains (dpa / 32) = true ∧ objectPage s dpa = true
        ∧ (s.rack.running.find? fun b => b.code == 4 && sameScope (granuleRebuild s (dpa / 32)) b) = some a) :=
  ⟨⟨0, { up with marver := { up.marver with units := [(0, { resetMarverUnit with queue := [aCmd .copy] })] } }, (aCmd .copy),
      [], 0, by decide +kernel⟩,
   ⟨0, (aCmd .copy), up, by decide +kernel⟩,
   ⟨[0], withCtx
       { aCtx .scan8 with loaded := 0, cmd := { aCmd .scan8 with data := zeros 2048, nums := [8, 256], tablePages := 1 } }, by
       decide +kernel⟩,
   ⟨0, ⟨6, 1, false, 1, 0, 0, 0, 0, 0, 0, none⟩,
       { up with rack := { up.rack with running := [⟨6, 1, false, 1, 0, 0, 0, 0, 0, 0, none⟩] } }, by decide +kernel⟩,
   ⟨0, up, by decide +kernel⟩,
   ⟨0, up, by decide +kernel⟩,
   ⟨0, ⟨[0], [], []⟩, up, by decide +kernel⟩,
   ⟨4095, up, by decide +kernel⟩,
   ⟨32, zeros 32, { granuleRebuild up 1 with ident := 6 },
       { up with mem := { up.mem with poison := [1] }, guard := { up.guard with owners := [⟨0, 64, 2, 0⟩] }, rack := { up.rack with running := [{ granuleRebuild up 1 with ident := 6 }] } },
       by decide +kernel⟩⟩

theorem witness_GafferJobsComplete :
    (∃ engine : Nat, ∃ s : State,
    engine < 128 ∧ firmwareRuns s = true) ∧
    (∃ engine : Nat, ∃ s : State, ∃ j,
    let fits := fun (j : GafferJob) (k : JobKind) => j.kind = k ∧ j.core ≤ 512 ∧ scoreRetired s 3 engine = false
    engine < 128 ∧ firmwareRuns s = true ∧ fits j .subDistance ∧ vectorJob s j = true) ∧
    (∃ engine : Nat, ∃ s : State, ∃ j,
    let fits := fun (j : GafferJob) (k : JobKind) => j.kind = k ∧ j.core ≤ 512 ∧ scoreRetired s 3 engine = false
    engine < 128 ∧ firmwareRuns s = true ∧ fits j .insertEncode ∧ vectorJob s j = true) ∧
    (∃ engine : Nat, ∃ s : State, ∃ j, ∃ x,
    let g := getGaffer s engine
    let fits := fun (j : GafferJob) (k : JobKind) => j.kind = k ∧ j.core ≤ 512 ∧ scoreRetired s 3 engine = false
    engine < 128 ∧ firmwareRuns s = true ∧ fits j .refine ∧ g.pages.contains 0 = true ∧ getIndex s j.obj = some x ∧ 4 * x.dim ≤
        j.data.length) ∧
    (∃ engine : Nat, ∃ s : State, ∃ j, ∃ p,
    let fits := fun (j : GafferJob) (k : JobKind) => j.kind = k ∧ j.core ≤ 512 ∧ scoreRetired s 3 engine = false
    engine < 128 ∧ firmwareRuns s = true ∧ fits j .model ∧ getProgram s j.obj = some p ∧ p.engines.contains engine = true) ∧
    (∃ engine : Nat, ∃ s : State, ∃ j,
    let fits := fun (j : GafferJob) (k : JobKind) => j.kind = k ∧ j.core ≤ 512 ∧ scoreRetired s 3 engine = false
    engine < 128 ∧ firmwareRuns s = true ∧ fits j .hotRow ∧ j.data.length ≤ 1024 * 4 * j.obj) ∧
    (∃ engine : Nat, ∃ s : State, ∃ j, ∃ x,
    let fits := fun (j : GafferJob) (k : JobKind) => j.kind = k ∧ j.core ≤ 512 ∧ scoreRetired s 3 engine = false
    engine < 128 ∧ firmwareRuns s = true ∧ fits j .training ∧ j.core = 512 ∧ getIndex s j.obj = some x ∧ x.state = 1) ∧
    (∃ engine : Nat, ∃ s : State, ∃ j, ∃ rest, ∃ x,
    let g := getGaffer s engine
    engine < 128 ∧ firmwareRuns s = true ∧ g.queue = j :: rest ∧ getIndex s j.obj = some x ∧ j.kind = .coarse) ∧
    (∃ engine : Nat, ∃ s : State, ∃ j, ∃ rest, ∃ x,
    let g := getGaffer s engine
    engine < 128 ∧ firmwareRuns s = true ∧ g.queue = j :: rest ∧ getIndex s j.obj = some x ∧ j.kind = .subDistance) ∧
    (∃ engine : Nat, ∃ s : State, ∃ j, ∃ rest, ∃ x,
    let g := getGaffer s engine
    engine < 128 ∧ firmwareRuns s = true ∧ g.queue = j :: rest ∧ getIndex s j.obj = some x ∧ j.kind = .insertEncode) ∧
    (∃ engine : Nat, ∃ s : State, ∃ j, ∃ rest, ∃ x,
    let g := getGaffer s engine
    engine < 128 ∧ firmwareRuns s = true ∧ g.queue = j :: rest ∧ getIndex s j.obj = some x ∧ j.kind = .refine) ∧
    (∃ engine : Nat, ∃ s : State, ∃ j, ∃ rest,
    let g := getGaffer s engine
    engine < 128 ∧ firmwareRuns s = true ∧ g.queue = j :: rest ∧ j.kind = .model) ∧
    (∃ engine : Nat, ∃ s : State, ∃ j, ∃ rest,
    let g := getGaffer s engine
    engine < 128 ∧ firmwareRuns s = true ∧ g.queue = j :: rest ∧ j.kind = .hotRow) ∧
    (∃ engine : Nat, ∃ s : State, ∃ j, ∃ rest,
    let g := getGaffer s engine
    engine < 128 ∧ firmwareRuns s = true ∧ g.queue = j :: rest ∧ j.kind = .training) :=
  ⟨⟨127, withIndex0 2, by decide +kernel⟩,
   ⟨127, withIndex0 2, (aJob .subDistance (zeros 32)), by decide +kernel⟩,
   ⟨127, withIndex0 2, (aJob .insertEncode (zeros 32)), by decide +kernel⟩,
   ⟨127, withIndex0 2, (aJob .refine (zeros 32)), anIndex, by decide +kernel⟩,
   ⟨127, { up with hub := { up.hub with programs := [(0, { aProgram with engines := [127] })] } }, (aJob .model ([])),
       { aProgram with engines := [127] }, by decide +kernel⟩,
   ⟨127, withIndex0 2, (aJob .hotRow ([])), by decide +kernel⟩,
   ⟨127, withIndex0 1, { aJob .training [] with core := 512 }, { anIndex with state := 1 }, by decide +kernel⟩,
   ⟨127, withJob (aJob .coarse (zeros 32)), (aJob .coarse (zeros 32)), [], anIndex, by decide +kernel⟩,
   ⟨127, withJob (aJob .subDistance (zeros 32)), (aJob .subDistance (zeros 32)), [], anIndex, by decide +kernel⟩,
   ⟨127, withJob (aJob .insertEncode (zeros 32)), (aJob .insertEncode (zeros 32)), [], anIndex, by decide +kernel⟩,
   ⟨127, withJob (aJob .refine (zeros 32)), (aJob .refine (zeros 32)), [], anIndex, by decide +kernel⟩,
   ⟨127, withJob (aJob .model (zeros 32)), (aJob .model (zeros 32)), [], by decide +kernel⟩,
   ⟨127, withJob (aJob .hotRow (zeros 32)), (aJob .hotRow (zeros 32)), [], by decide +kernel⟩,
   ⟨127, withJob (aJob .training (zeros 32)), (aJob .training (zeros 32)), [], by decide +kernel⟩⟩

theorem witness_HubEventsComplete :
    (∃ engine, ∃ index, ∃ b, ∃ s,
    engine < 128 ∧ (getGaffer s engine).batches.find? (·.index == index) = some b ∧ elapsed s b.openedAt
        s.boot.settings.coarseWindowNs = true) ∧
    (∃ unit, ∃ ctx, ∃ s,
    unit < 64 ∧ ctx < 8 ∧ firmwareRuns s = true ∧ getJack s (8 * unit + ctx) = none ∧ scoreRetired s 5 ((8 * unit + ctx) / 8) =
        false) ∧
    (∃ unit, ∃ ctx, ∃ c, ∃ s,
    unit < 64 ∧ ctx < 8 ∧ firmwareRuns s = true ∧ getJack s (8 * unit + ctx) = some c) ∧
    (∃ core, ∃ i, ∃ x, ∃ s,
    core < 512 ∧ firmwareRuns s = true ∧ schedGrant s core = some i ∧ getSlot s (128 * core + i) = some x) ∧
    (∃ slot, ∃ x, ∃ e, ∃ o, ∃ s,
    firmwareRuns s = true ∧ getSlot s slot = some x ∧ modelOutput s slot = some (e, o) ∧ x.kind = 9 ∧ x.st = .waiting ∧ x.pg 0 =
        1) ∧
    (∃ slot, ∃ x, ∃ e, ∃ s,
    firmwareRuns s = true ∧ getSlot s slot = some x ∧ x.st = .completing ∧ x.done = some e ∧ resultsVisible s slot = true ∧
        x.kind ≠ 8) :=
  ⟨⟨127, 0, ⟨0, [], 0⟩, later
      { up with hub := { up.hub with gaffers := [(127, { resetGaffer with batches := [⟨0, [], 0⟩] })] } } 1000000, by
      decide +kernel⟩,
   ⟨63, 7, up, by decide +kernel⟩,
   ⟨63, 7, ⟨0, 0, [], false, 64, none, [], [], []⟩,
       { up with hub := { up.hub with jacks := [(511, ⟨0, 0, [], false, 64, none, [], [], []⟩)] } }, by decide +kernel⟩,
   ⟨511, 127, { aSlot 9 with st := .ready }, putSlot up 65535 { aSlot 9 with st := .ready }, by decide +kernel⟩,
   ⟨0, { aSlot 9 with st := .waiting, wait := 1, prog := [1] }, 127, (aJob .model [], [], 256), putSlot
       { up with hub := { up.hub with gaffers := [(127, { resetGaffer with outputs := [(aJob .model [], [], 256)] })] } } 0
       { aSlot 9 with st := .waiting, wait := 1, prog := [1] }, by decide +kernel⟩,
   ⟨0, { aSlot 1 with st := .completing, done := some (zeros 64) }, zeros 64, putSlot up 0
       { aSlot 1 with st := .completing, done := some (zeros 64) }, by decide +kernel⟩⟩

theorem witness_SessionEventsComplete :
    (∃ ws : Nat, ∃ key : Nat, ∃ s : State, ∃ x : Session,
    firmwareRuns s = true ∧ annealing s ws key 1 = some x ∧ stepsLeft s x = false ∧ ((deferred s (annealActivity s x) = false ∨
        queueRoom s true = true))) ∧
    (∃ ws : Nat, ∃ key : Nat, ∃ s : State, ∃ x : Session, ∃ a,
    firmwareRuns s = true ∧ annealing s ws key 3 = some x ∧ annealRuns s x = some a ∧ findStream s 4 x.ws (sessionOwner x) =
        none) ∧
    (∃ ws : Nat, ∃ key : Nat, ∃ s : State, ∃ x : Session, ∃ a, ∃ g, ∃ st, ∃ d,
    firmwareRuns s = true ∧ annealing s ws key 3 = some x ∧ annealRuns s x = some a ∧ findStream s 4 x.ws (sessionOwner x) =
        some (g, st) ∧ st.units.isEmpty = false ∧ nextUnits (getGroup s g) st true = some d) ∧
    (∃ ws : Nat, ∃ key : Nat, ∃ s : State, ∃ x : Session,
    firmwareRuns s = true ∧ annealing s ws key 4 = some x ∧ x.roll = none) ∧
    (∃ ws : Nat, ∃ key : Nat, ∃ s : State, ∃ x : Session,
    firmwareRuns s = true ∧ annealing s ws key 5 = some x ∧ x.roll = none) ∧
    (∃ ws : Nat, ∃ key : Nat, ∃ s : State, ∃ x : Session,
    firmwareRuns s = true ∧ annealing s ws key 5 = some x ∧ x.roll.isSome = true ∧ (rollRuns s x).isSome = true) ∧
    (∃ s : State, ∃ slot,
    firmwareRuns s = true ∧ stepWaits s slot = true) ∧
    (∃ ws : Nat, ∃ key : Nat, ∃ s : State, ∃ x : Session,
    firmwareRuns s = true ∧ sessionByKey s ws key = some x ∧ overBudget x = true) ∧
    (∃ ws : Nat, ∃ key : Nat, ∃ s : State, ∃ x : Session, ∃ e, ∃ p,
    firmwareRuns s = true ∧ sessionByKey s ws key = some x ∧ journalPacket s ws key e = some p) ∧
    (∃ ws : Nat, ∃ key : Nat, ∃ s : State, ∃ x : Session, ∃ layer, ∃ head, ∃ block, ∃ e : JournalEnt, ∃ y, ∃ u,
    firmwareRuns s = true ∧ sessionByKey s ws key = some x ∧ rebuildDue s x layer head block = true ∧ writeRebuilt s x
        { e with layer := layer, head := head, block := block } = some (y, u)) :=
  ⟨⟨0, 9, withSession { session0 2 with annealPhase := 1, ticket := some ⟨0, 1⟩ },
      { session0 2 with annealPhase := 1, ticket := some ⟨0, 1⟩ }, by decide +kernel⟩,
   ⟨0, 9, { withSession { session0 2 with annealPhase := 3, ticket := some ⟨0, 1⟩ } with rack := { up.rack with running := [⟨6, 8, true, 4, 3, 0, 9, 0, 0, 0, some ⟨0, 1⟩⟩] } },
       { session0 2 with annealPhase := 3, ticket := some ⟨0, 1⟩ }, ⟨6, 8, true, 4, 3, 0, 9, 0, 0, 0, some ⟨0, 1⟩⟩, by
       decide +kernel⟩,
   ⟨0, 9, withStream, annealing3, anAnneal, 0, aStream, ((nextUnits (getGroup withStream 0) aStream true).get (by
       decide +kernel)), by refine ⟨by decide +kernel, by decide +kernel, by decide +kernel, by decide +kernel, by
       decide +kernel, (Option.some_get _).symm⟩⟩,
   ⟨0, 9, withSession { session0 2 with annealPhase := 4, ticket := some ⟨0, 1⟩ },
       { session0 2 with annealPhase := 4, ticket := some ⟨0, 1⟩ }, by decide +kernel⟩,
   ⟨0, 9, withSession { session0 2 with annealPhase := 5, ticket := some ⟨0, 1⟩ },
       { session0 2 with annealPhase := 5, ticket := some ⟨0, 1⟩ }, by decide +kernel⟩,
   ⟨0, 9, { withSession { session0 2 with annealPhase := 5, roll := some (0, 1) } with rack := { up.rack with running := [⟨6, 4, true, 4, 3, 0, 9, 0, 0, 0, none⟩] } },
       { session0 2 with annealPhase := 5, roll := some (0, 1) }, by decide +kernel⟩,
   ⟨putSlot up 0 { aSlot 4 with obj := 4 }, 0, by decide +kernel⟩,
   ⟨0, 9, withSession
       { session0 1 with geometry := blk 64 [(0, 2, 1), (2, 1, 1), (3, 1, 1), (4, 2, 64), (12, 4, 64), (16, 1, 1), (24, 8, 1)], blocks := [⟨0, 0, 0, 0, some 0, [], false⟩] },
       { session0 1 with geometry := blk 64 [(0, 2, 1), (2, 1, 1), (3, 1, 1), (4, 2, 64), (12, 4, 64), (16, 1, 1), (24, 8, 1)], blocks := [⟨0, 0, 0, 0, some 0, [], false⟩] },
       by decide +kernel⟩,
   ⟨0, 9, heard (withSession (session0 1)) (aPacket 0x40 (blk 24 [(0, 1, 18), (8, 8, 9)] ++ journalEntBytes ⟨0, 0, 0, 1, zeros
       1280, [], false, false⟩)), (session0 1), ⟨0, 0, 0, 1, zeros 1280, [], false, false⟩, (aPacket 0x40 (blk 24 [(0, 1, 18),
       (8, 8, 9)] ++ journalEntBytes ⟨0, 0, 0, 1, zeros 1280, [], false, false⟩)), by decide +kernel⟩,
   ⟨0, 9, withSession rolling, rolling, 0, 0, 0, aJournalEnt, ((writeRebuilt (withSession rolling) rolling
       { aJournalEnt with layer := 0, head := 0, block := 0 }).get (by decide +kernel)).1, ((writeRebuilt (withSession rolling)
       rolling { aJournalEnt with layer := 0, head := 0, block := 0 }).get (by decide +kernel)).2, by refine ⟨by decide +kernel,
       by decide +kernel, by decide +kernel, some_pair _ _⟩⟩⟩

theorem witness_TableEventsComplete :
    (∃ ws, ∃ key, ∃ v, ∃ u, ∃ coord, ∃ h, ∃ t, ∃ s,
    let r := takeCtrl s coord ws 0 key v u
    firmwareRuns s = true ∧ ctrlArrived s coord ws 0 key v u = true ∧ tableByKey r ws key = some (h, t) ∧ leaseHeld r t.gid =
        true) ∧
    (∃ ws, ∃ key, ∃ v, ∃ u, ∃ src, ∃ s,
    firmwareRuns s = true ∧ ctrlArrived s src ws 1 key v u = true) ∧
    (∃ ws, ∃ key, ∃ v, ∃ u, ∃ s,
    firmwareRuns s = true ∧ ctrlArrived s (coordDev s ws key) ws 2 key v u = true) ∧
    (∃ slot, ∃ x, ∃ t, ∃ v, ∃ s,
    firmwareRuns s = true ∧ getSlot s slot = some x ∧ getTable s x.obj = some t ∧ t.version (x.bind.getD 0 0) = some v ∧ x.kind
        = 6 ∧ x.st = .admitted ∧ leaseHeld s t.gid = true ∧ seqVerdict t v (fld x.payload 48 8) = .start ∧ phaseHeld x = false)
        ∧
    (∃ txn, ∃ r, ∃ s,
    s.poolReads.find? (·.txn == txn) = some r ∧ firmwareRuns s = true) ∧
    (∃ txn, ∃ r, ∃ s,
    s.poolReads.find? (·.txn == txn) = some r ∧ firmwareRuns s = true ∧ elapsed s r.sentAt (s.boot.settings.subreqTimeoutUs *
        1000) = true) :=
  ⟨⟨0, 5, 1, 1, 9, 3, (aTable 3), withTable0 3, by decide +kernel⟩,
   ⟨0, 5, 1, 1, 9, withTable0 3, by decide +kernel⟩,
   ⟨0, 5, 1, 1, heard (withTable0 3) { aPacket 0x24 (ctrlBytes 2 5 1 1 []) with src := 0 }, by decide +kernel⟩,
   ⟨0, { aSlot 6 with obj := 3, bind := [1, 0], payload := zeros 80 }, (aTable 3), (aVersion 3), putSlot (withTable0 3) 0
       { aSlot 6 with obj := 3, bind := [1, 0], payload := zeros 80 }, by decide +kernel⟩,
   ⟨4, ⟨0, 0, 4, 0, false⟩, { up with poolReads := [⟨0, 0, 4, 0, false⟩] }, by decide +kernel⟩,
   ⟨4, ⟨0, 0, 4, 0, false⟩, later { up with poolReads := [⟨0, 0, 4, 0, false⟩] } 1000000000, by decide +kernel⟩⟩

theorem witness_RequestEventsComplete :
    (∃ ws : Nat, ∃ ident : Nat, ∃ s : State, ∃ p,
    firmwareRuns s = true ∧ reqPacket s 8 ws ident = some p) ∧
    (∃ ws : Nat, ∃ ident : Nat, ∃ s : State, ∃ c,
    firmwareRuns s = true ∧ reqPacket s 8 ws ident = none ∧ reqCopyOf s ws ident = some c ∧ poolLease s = true ∧ mayDispatch c =
        true) ∧
    (∃ ws : Nat, ∃ ident : Nat, ∃ s : State, ∃ p,
    firmwareRuns s = true ∧ reqPacket s 9 ws ident = some p) ∧
    (∃ ws : Nat, ∃ ident : Nat, ∃ s : State, ∃ c, ∃ p,
    firmwareRuns s = true ∧ copyPacket s 0 c = some p ∧ c.ws = ws ∧ c.ident = ident) ∧
    (∃ ws : Nat, ∃ ident : Nat, ∃ s : State, ∃ p,
    firmwareRuns s = true ∧ reqPacket s 10 ws ident = some p) ∧
    (∃ ws : Nat, ∃ ident : Nat, ∃ s : State, ∃ c, ∃ d,
    firmwareRuns s = true ∧ reqCopyOf s ws ident = some c ∧ poolLease s = true ∧ c.state ≠ 2 ∧ c.doneEntry = none ∧ keeperOf s
        c.partner ident = some d) ∧
    (∃ s : State,
    firmwareRuns s = true ∧ elapsed s s.requests.sweepAt 5000000 = true) ∧
    (∃ ws : Nat, ∃ ident : Nat, ∃ s : State, ∃ epoch, ∃ pool, ∃ p,
    firmwareRuns s = true ∧ reqPacket s 5 ws ident = some p ∧ fld p.payload 16 8 = epoch ∧ fld p.payload 24 2 = pool) ∧
    (∃ s : State, ∃ c, ∃ p,
    firmwareRuns s = true ∧ poolLease s = true ∧ copyPacket s 2 c = some p) ∧
    (∃ ws : Nat, ∃ ident : Nat, ∃ s : State, ∃ epoch, ∃ heldNone, ∃ p, ∃ c,
    firmwareRuns s = true ∧ reqPacket s 3 ws ident = some p ∧ reqCopyOf s ws ident = some c ∧ fld p.payload 16 8 = epoch ∧ fld
        p.payload 32 1 = b2n heldNone ∧ c.state = 1 ∧ epoch = c.epoch + 1) ∧
    (∃ ws : Nat, ∃ ident : Nat, ∃ s : State, ∃ c,
    firmwareRuns s = true ∧ poolLease s = true ∧ reqCopyOf s ws ident = some c ∧ c.state = 1 ∧ elapsed s c.sentAt 2000000 =
        true) ∧
    (∃ ws : Nat, ∃ ident : Nat, ∃ s : State, ∃ w, ∃ i, ∃ entry, ∃ self,
    firmwareRuns s = true ∧ poolLease s = true ∧ (s.requests.claims.find? fun c => c.1 == ws && c.2.1 == ident) = some (w, i,
        entry) ∧ ownPool s = some self) ∧
    (∃ ws : Nat, ∃ ident : Nat, ∃ s : State, ∃ b, ∃ d,
    firmwareRuns s = true ∧ stubOf s ws ident = some b ∧ homeKeeper s ident = some d ∧ elapsed s b.lastCheckpoint 100000000 =
        true ∧ b.probed = false) ∧
    (∃ ws : Nat, ∃ ident : Nat, ∃ s : State, ∃ p, ∃ b,
    firmwareRuns s = true ∧ reqPacket s 7 ws ident = some p ∧ stubOf (takeMsg s p) ws ident = some b) ∧
    (∃ ws : Nat, ∃ ident : Nat, ∃ s : State, ∃ p, ∃ b,
    firmwareRuns s = true ∧ reqPacket s 11 ws ident = some p ∧ stubOf (takeMsg s p) ws ident = some b) :=
  ⟨⟨0, 7, heard withReq (stateMsg 8 7 (zeros 96)), (stateMsg 8 7 (zeros 96)), by decide +kernel⟩,
   ⟨0, 7, { withReq with requests := { withReq.requests with copies := [{ aReqCopy with plan := leBytes 288 9 }] } },
       { aReqCopy with plan := leBytes 288 9 }, by decide +kernel⟩,
   ⟨0, 7, heard withReq (stateMsg 9 7 (zeros 96)), (stateMsg 9 7 (zeros 96)), by decide +kernel⟩,
   ⟨0, 7, heard withReq (aPacket 0x40 (reqBytes 0 0 7 1 0 (copyBytes aReqCopy))), aReqCopy, (aPacket 0x40 (reqBytes 0 0 7 1 0
       (copyBytes aReqCopy))), by decide +kernel⟩,
   ⟨0, 7, heard withReq (stateMsg 10 7 (zeros 96)), (stateMsg 10 7 (zeros 96)), by decide +kernel⟩,
   ⟨0, 7, withReq, aReqCopy, 5, by decide +kernel⟩,
   ⟨later up 5000000, by decide +kernel⟩,
   ⟨0, 7, heard withReq (stateMsg 5 7 (leBytes 8 3 ++ leBytes 8 1)), 3, 1, (stateMsg 5 7 (leBytes 8 3 ++ leBytes 8 1)), by
       decide +kernel⟩,
   ⟨heard withReq (aPacket 0x40 (reqBytes 2 0 7 1 0 (copyBytes aReqCopy))), aReqCopy, (aPacket 0x40 (reqBytes 2 0 7 1 0
       (copyBytes aReqCopy))), by decide +kernel⟩,
   ⟨0, 7, heard ({ withReq with requests := { withReq.requests with copies := [{ aReqCopy with state := 1 }] } }) (stateMsg 3 7
       (leBytes 8 2 ++ zeros 16)), 2, false, (stateMsg 3 7 (leBytes 8 2 ++ zeros 16)), { aReqCopy with state := 1 }, by
       decide +kernel⟩,
   ⟨0, 7, later ({ withReq with requests := { withReq.requests with copies := [{ aReqCopy with state := 1 }] } }) 2000000,
       { aReqCopy with state := 1 }, by decide +kernel⟩,
   ⟨0, 7, { withReq with requests := { withReq.requests with claims := [(0, 7, 0xFFFF)] } }, 0, 7, 0xFFFF, 0, by
       decide +kernel⟩,
   ⟨0, 7, later ({ withReq with requests := { withReq.requests with stubs := [aStub] } }) 100000000, aStub, ((homeKeeper withReq
       7).get (by decide +kernel)), by decide +kernel⟩,
   ⟨0, 7, heard ({ withReq with requests := { withReq.requests with stubs := [aStub] } }) (stateMsg 7 7 (zeros 96)), (stateMsg 7
       7 (zeros 96)), aStub, by decide +kernel⟩,
   ⟨0, 7, heard ({ withReq with requests := { withReq.requests with stubs := [aStub] } }) (stateMsg 11 7 (zeros 96)), (stateMsg
       11 7 (zeros 96)), aStub, by decide +kernel⟩⟩

theorem witness_BringUpComplete :
    (∃ s : State, ∃ vin,
    s.boot.stage = .off ∧ 40000 ≤ vin ∧ s.power.after = 0) ∧
    (∃ s : State,
    s.boot.stage = .power) ∧
    (∃ s : State,
    s.boot.stage = .power) ∧
    (∃ s : State, ∃ mv : List (List Nat), ∃ l,
    mv.length = 6 ∧ (mv.all fun l => l.length == 16) = true ∧ s.boot.stage = .strap ∧ elapsed s s.boot.since 200000 = true ∧
        mv.mapM contactLevel = some l ∧ bits (strapWord l) 9 8 ≠ 3 ∧ bit (strapWord l) 10 = true) ∧
    (∃ s : State,
    s.boot.stage = .strapGuard ∧ elapsed s s.boot.since 100000 = true) ∧
    (∃ s : State,
    s.boot.stage = .bootGuard ∧ elapsed s s.boot.since 100000 = true) ∧
    (∃ s : State,
    s.boot.stage = .boot ∧ bootMode s ≠ 3) ∧
    (∃ s : State,
    s.boot.stage = .boot ∧ bootMode s = 3) ∧
    (∃ s : State,
    s.boot.stage = .stopped ∧ elapsed s s.boot.lastLine 1000000000 = true) ∧
    (∃ s : State, ∃ steps : List Nat,
    steps.length = 16 ∧ (steps.all fun x => decide (x ≤ 5)) = true ∧ s.boot.stage = .discover ∧ s.boot.stacksDone = false) ∧
    (∃ s : State, ∃ chan,
    chan < 32 ∧ mayProbe s chan = true) ∧
    (∃ s : State,
    s.boot.stage = .discover ∧ unmet s = 0) ∧
    (∃ s : State,
    s.boot.stage = .discover ∧ unmet s ≠ 0 ∧ elapsed s s.boot.lastLine 10000000000 = true) ∧
    (∃ s : State, ∃ vin,
    s.boot.stage ≠ .off ∧ s.boot.stage ≠ .run ∧ vin < 38000) ∧
    (∃ s : State, ∃ addr,
    addr < 128 ∧ bit s.boot.straps 11 = true ∧ s.svc.phase = 3 ∧ s.svc.i3cAddr = none) :=
  ⟨⟨State.reset, 48000, by decide +kernel⟩,
   ⟨(inStage .power), by decide +kernel⟩,
   ⟨(inStage .power), by decide +kernel⟩,
   ⟨later (inStage .strap) 200000, (List.replicate 4 (List.replicate 16 900) ++ [List.replicate 16 900, List.replicate 16 500]),
       [0, 0, 0, 0, 0, 1], by decide +kernel⟩,
   ⟨later (inStage .strapGuard) 100000, by decide +kernel⟩,
   ⟨later (inStage .bootGuard) 100000, by decide +kernel⟩,
   ⟨(inStage .boot), by decide +kernel⟩,
   ⟨{ inStage .boot with boot := { (inStage .boot).boot with straps := 192 } }, by decide +kernel⟩,
   ⟨later (inStage .stopped) 1000000000, by decide +kernel⟩,
   ⟨(inStage .discover), (List.replicate 16 5), by decide +kernel⟩,
   ⟨(inStage .discover), 31, by decide +kernel⟩,
   ⟨{ portIn 4 with boot := { up.boot with stage := .discover, stacksDone := true }, fab := { (portIn 4).fab with peers := [(1, [⟨true, 9, 1⟩])] } },
       by decide +kernel⟩,
   ⟨later (inStage .discover) 10000000000, by decide +kernel⟩,
   ⟨(inStage .boot), 37999, by decide +kernel⟩,
   ⟨{ inStage .boot with boot := { (inStage .boot).boot with straps := 2048 }, svc := { State.reset.svc with phase := 3 } },
       127, by decide +kernel⟩⟩

theorem witness_RunEntryState :
    (∃ s : State,
    s.boot.stage = .discover ∧ unmet s = 0) ∧
    (∃ s : State, ∃ g,
    s.boot.stage = .discover ∧ unmet s = 0 ∧ firstGateway s = some g) :=
  ⟨⟨{ portIn 4 with boot := { up.boot with stage := .discover, stacksDone := true }, fab := { (portIn 4).fab with peers := [(1, [⟨true, 9, 1⟩])] } },
      by decide +kernel⟩,
   ⟨{ portIn 4 with boot := { up.boot with stage := .discover, stacksDone := true }, fab := { (portIn 4).fab with peers := [(1, [⟨true, 9, 1⟩])] } },
       9, by decide +kernel⟩⟩

theorem witness_PowerEventsComplete :
    (∃ f : StatusFrame,
    f.crcOk = true) ∧
    (∃ s : State,
    inRun s = true ∧ elapsed s s.power.lastFrame 10000 = true) ∧
    (∃ s : State,
    capEnforced s = true ∧ elapsed s s.power.capAt 8000 = true) ∧
    (∃ s : State,
    dutyMayRise s = true) ∧
    (∃ s : State,
    inRun s = true ∧ 38000 ≤ s.power.vin ∧ s.power.vin < 40000 ∧ s.power.lowSent = false) ∧
    (∃ s : State,
    inRun s = true ∧ 59500 < s.power.vin ∧ s.power.highSent = false) ∧
    (∃ s : State, ∃ cause,
    1 ≤ cause ∧ cause ≤ 4 ∧ s.boot.stage ≠ .off) ∧
    (∃ s : State,
    s.boot.stage = .off ∧ s.power.after = 1) ∧
    (∃ s : State,
    inRun s = true ∧ lossShown s = true) ∧
    (∃ s : State,
    s.power.flushing = true) ∧
    (∃ s : State, ∃ vin,
    s.power.flushing = true ∧ vin < 24000) ∧
    (∃ s : State,
    s.svc.rstIgnored = false ∧ s.power.flushing = false ∧ ((s.svc.phase = 2 ∨ s.svc.phase = 3)) ∧ ((s.boot.stage ≠ .stopped ∨
        s.boot.stopCode = 7))) ∧
    (∃ s : State,
    s.svc.alarm = true ∧ elapsed s s.svc.alarmAt 1000000 = true) :=
  ⟨⟨⟨0, 48000, 1000, 300, true, false, false, false, true, 0, true⟩, by decide +kernel⟩,
   ⟨later up 10000, by decide +kernel⟩,
   ⟨later ({ up with power := { up.power with frames := List.replicate 8 ⟨0, 48000, 1000, 300, true, false, false, false, true, 0, true⟩ } })
       8000, by decide +kernel⟩,
   ⟨later ({ up with power := { up.power with duty := 15, underSince := some 0 } }) 1000000, by decide +kernel⟩,
   ⟨{ up with power := { up.power with vin := 38000 } }, by decide +kernel⟩,
   ⟨{ up with power := { up.power with vin := 59501 } }, by decide +kernel⟩,
   ⟨(inStage .boot), 4, by decide +kernel⟩,
   ⟨{ State.reset with power := { up.power with after := 1 } }, by decide +kernel⟩,
   ⟨{ up with power := { up.power with frames := [⟨0, 48000, 1000, 300, true, false, false, false, true, 1, true⟩] } }, by
       decide +kernel⟩,
   ⟨{ up with power := { up.power with flushing := true } }, by decide +kernel⟩,
   ⟨{ up with power := { up.power with flushing := true } }, 23999, by decide +kernel⟩,
   ⟨{ up with svc := { up.svc with phase := 3 } }, by decide +kernel⟩,
   ⟨later { up with svc := { up.svc with alarm := true } } 1000000, by decide +kernel⟩⟩

theorem witness_ThermalEventsComplete :
    (∃ s : State, ∃ stk : List Int, ∃ cane : List Int, ∃ fh : List Int,
    stk.length = 16 ∧ cane.length = 4 ∧ fh.length = 2 ∧ s.boot.stage ≠ .off) ∧
    (∃ s : State,
    s.boot.stage ≠ .off ∧ elapsed s s.therm.dutyAt 100000 = true) ∧
    (∃ s : State, ∃ kind, ∃ inst,
    s.boot.stage ≠ .off ∧ s.power.flushing = false ∧ tripDue s kind inst = true) ∧
    (∃ s : State,
    inRun s = true ∧ elapsed s s.therm.reportAt 60000000000 = true) :=
  ⟨⟨up, (List.replicate 16 40), (List.replicate 4 40), [40, 40], by decide +kernel⟩,
   ⟨later up 100000, by decide +kernel⟩,
   ⟨later { up with therm := { up.therm with tripSince := [(3, 1, 0)] } } 1000000, 3, 1, by decide +kernel⟩,
   ⟨later up 60000000000, by decide +kernel⟩⟩

theorem witness_PowerOffKeeps : (∃ s : State, ∃ cause : Nat,
    1 ≤ cause ∧ cause ≤ 4 ∧ s.boot.stage ≠ .off) :=
  ⟨up, 1, by decide +kernel⟩

theorem witness_RackEventsComplete :
    (∃ s : State, ∃ m, ∃ pools,
    let u := takePools pools (takeInbox s 0x50 m.gateway)
    firmwareRuns s = true ∧ memWins (findGroup u m.group) m = true ∧ firmwareRuns (takeInbox s 0x50 m.gateway) = true) ∧
    (∃ s : State, ∃ group, ∃ g,
    findGroup s group = some g ∧ firmwareRuns s = true ∧ withinBudget s = true ∧ belongs s g.mem = true) ∧
    (∃ s : State, ∃ group, ∃ epoch, ∃ seq, ∃ g : Group, ∃ sent,
    findGroup s group = some g ∧ firmwareRuns s = true ∧ g.renews.find? (·.1 == seq) = some (seq, sent) ∧ g.mem.epoch ≤ epoch ∧
        g.lease ≠ 2 ∧ ((g.leaseEpoch = 0 ∨ epoch ≤ g.leaseEpoch))) ∧
    (∃ s : State, ∃ group, ∃ g,
    findGroup s group = some g ∧ inRun s = true ∧ leaseOver s g = true) ∧
    (∃ s : State, ∃ group, ∃ g : Group,
    findGroup s group = some g ∧ firmwareRuns s = true ∧ g.lease = 1 ∧ swapDone s g = true) ∧
    (∃ s : State, ∃ obj, ∃ table, ∃ mirror, ∃ gid, ∃ shard, ∃ a, ∃ b : Activity,
    firmwareRuns s = true ∧ rebuildScope s obj table mirror = some (gid, shard, a) ∧ s.rack.running.find? (fun b => b.code == 4
        && sameScope a b) = some b ∧ b.command = false) ∧
    (∃ s : State, ∃ obj, ∃ table, ∃ mirror, ∃ gid, ∃ shard, ∃ a,
    firmwareRuns s = true ∧ rebuildScope s obj table mirror = some (gid, shard, a) ∧ s.rack.running.find? (fun b => b.code == 4
        && sameScope a b) = none ∧ s.rack.queued.any (fun b => b.code == 4 && sameScope a b) = false) ∧
    (∃ s : State,
    inRun s = true ∧ elapsed s s.rack.decayAt 60000000000 = true) ∧
    (∃ s : State, ∃ ident, ∃ a,
    admissible s ident = true ∧ s.rack.queued.find? (·.ident == ident) = some a) ∧
    (∃ s : State, ∃ ident, ∃ finished,
    roundEnds s ident finished = true ∧ inRun s = true) :=
  ⟨⟨up, { grp.mem with epoch := 2 }, none, by decide +kernel⟩,
   ⟨{ up with clk := { up.clk with state := 2 } }, 1, grp, by decide +kernel⟩,
   ⟨{ up with rack := { up.rack with groups := [{ grp with renews := [(5, 0)] }] } }, 1, 1, 5, { grp with renews := [(5, 0)] },
       0, by decide +kernel⟩,
   ⟨up, 1, grp, by decide +kernel⟩,
   ⟨{ up with rack := { up.rack with groups := [{ grp with prev := [0], mem := { grp.mem with effective := 1, members := [5] } }] }, clk := { up.clk with time := 2 ^ 33 } },
       1, { grp with prev := [0], mem := { grp.mem with effective := 1, members := [5] } }, by decide +kernel⟩,
   ⟨running (({ up with indexes := [(0, { anIndex with primary := some { aCopy with live := false } })] }))
       ({ anActivity 4 4 1 0 5 with command := false }), 0, false, false, 1, 0, (newActivity (running
       ({ up with indexes := [(0, { anIndex with primary := some { aCopy with live := false } })] })
       ({ anActivity 4 4 1 0 5 with command := false })) 4 false 4 1 0 5 none), { anActivity 4 4 1 0 5 with command := false },
       by decide +kernel⟩,
   ⟨{ up with indexes := [(0, { anIndex with primary := some { aCopy with live := false } })] }, 0, false, false, 1, 0,
       (newActivity ({ up with indexes := [(0, { anIndex with primary := some { aCopy with live := false } })] }) 4 false 4 1 0
       5 none), by decide +kernel⟩,
   ⟨later up 60000000000, by decide +kernel⟩,
   ⟨{ up with rack := { up.rack with queued := [anActivity 1 1 0 0 7] } }, 6, (anActivity 1 1 0 0 7), by decide +kernel⟩,
   ⟨later (running up (anActivity 1 2 0 0 7)) 10000000000, 6, false, by decide +kernel⟩⟩

theorem witness_LinkEventsComplete :
    (∃ port : Nat, ∃ s : State, ∃ wl,
    let x := getPort s port
    port < 32 ∧ wl < 16 ∧ linksLive s = true ∧ trained s port = true ∧ wlWorks x.rx wl = true) ∧
    (∃ port : Nat, ∃ s : State, ∃ lane, ∃ wl,
    port < 32 ∧ lane < 14 ∧ remapActs s port lane wl = true) ∧
    (∃ port : Nat, ∃ s : State, ∃ rx, ∃ wl,
    port < 32 ∧ wl < 16 ∧ linksLive s = true ∧ trained s port = true ∧ wlDue s port wl rx = true) ∧
    (∃ port : Nat, ∃ s : State,
    let x := getPort s port
    port < 32 ∧ x.state = 3 ∧ elapsed s x.since 50000000 = true) ∧
    (∃ port : Nat, ∃ s : State, ∃ tx, ∃ rx,
    port < 32 ∧ linksLive s = true ∧ portUpActs s port tx rx = true) ∧
    (∃ port : Nat, ∃ s : State,
    let x := getPort s port
    port < 32 ∧ x.state = 2 ∧ x.emission = 1 ∧ caneLit s (caneOf port) = true ∧ ((x.pulses = 0 ∨ elapsed s x.probeAt 1000000000
        = true))) ∧
    (∃ port : Nat, ∃ s : State,
    let x := getPort s port
    port < 32 ∧ linksLive s = true ∧ x.state = 2 ∧ x.emission = 1 ∧ caneLit s (caneOf port) = true ∧ x.lightSince = none) ∧
    (∃ port : Nat, ∃ s : State,
    let x := getPort s port
    port < 32 ∧ ((3 ≤ x.state ∨ x.lightSince.isSome = true))) ∧
    (∃ port : Nat, ∃ s : State,
    port < 32 ∧ linksLive s = true ∧ trained s port = true) ∧
    (∃ port : Nat, ∃ s : State,
    let x := getPort s port
    port < 32 ∧ trained s port = true ∧ x.unacked.any (fun f => elapsed s f.sentAt 10000) = true) ∧
    (∃ port : Nat, ∃ s : State, ∃ msg : List Byte,
    let x := getPort s port
    port < 32 ∧ linksLive s = true ∧ 3 ≤ x.state ∧ 7 ≤ msg.length) ∧
    (∃ port : Nat, ∃ s : State,
    let x := getPort s port
    port < 32 ∧ trained s port = true ∧ elapsed s x.partner.helloAt 30000000 = true) ∧
    (∃ port : Nat, ∃ s : State,
    let x := getPort s port
    port < 32 ∧ linksLive s = true ∧ x.state = 1 ∧ caneLit s (caneOf port) = true ∧ elapsed s x.since 1000000000 = true) ∧
    (∃ port : Nat, ∃ s : State,
    let x := getPort s port
    port < 32 ∧ linksLive s = true ∧ 3 ≤ x.state ∧ elapsed s x.helloSentAt 10000000 = true) :=
  ⟨⟨0, portIn 5, 15, by decide +kernel⟩,
   ⟨0, withPort { resetPort with state := 4, rx := { resetDirection with remaps := [(13, 14)] } }, 13, 14, by decide +kernel⟩,
   ⟨0, withPort { resetPort with state := 4, rx := { resetDirection with wl := [⟨2, 0, 0, none, false⟩] } }, true, 0, by
       decide +kernel⟩,
   ⟨0, later (portIn 3) 50000000, by decide +kernel⟩,
   ⟨0, withPort { resetPort with state := 3, partner := { noPartner with status := 1 } }, (List.replicate 16 true),
       (List.replicate 4 true), by decide +kernel⟩,
   ⟨0, lit { resetPort with state := 2, emission := 1 }, by decide +kernel⟩,
   ⟨0, lit { resetPort with state := 2, emission := 1 }, by decide +kernel⟩,
   ⟨0, withPort { resetPort with lightSince := some 0 }, by decide +kernel⟩,
   ⟨0, portIn 5, by decide +kernel⟩,
   ⟨0, later (withPort { resetPort with state := 4, unacked := [⟨0, [], 0, 0, []⟩] }) 10000, by decide +kernel⟩,
   ⟨0, portIn 3, (zeros 7), by decide +kernel⟩,
   ⟨0, later (portIn 4) 30000000, by decide +kernel⟩,
   ⟨0, later (lit resetPort) 1000000000, by decide +kernel⟩,
   ⟨0, later (portIn 3) 10000000, by decide +kernel⟩⟩

theorem witness_FabricEventsComplete :
    (∃ s : State, ∃ feed,
    feed < 8 ∧ linksLive s = true ∧ feedLit s (feed / 2) (feed % 2) = true) ∧
    (∃ s : State, ∃ cane,
    cane < 4 ∧ contactsSensed s = true ∧ s.fab.connPresent.getD cane false = true) ∧
    (∃ s : State, ∃ cane,
    cane < 4 ∧ contactsSensed s = true ∧ s.fab.connPresent.getD cane true = false ∧ elapsed s (s.fab.connAt.getD cane 0)
        100000000 = true) ∧
    (∃ s : State, ∃ src, ∃ ls : List LinkEntry,
    linksLive s = true ∧ inMesh s src = true ∧ (meshPeers s).contains (src % 64) = true ∧ ls.length = 32) ∧
    (∃ s : State,
    linksLive s = true ∧ ((s.fab.linkChanged.isSome = true ∨ elapsed s s.fab.linkSentAt 10000000 = true))) ∧
    (∃ s : State, ∃ dst, ∃ vc,
    s.fab.flows.contains (findFlow s dst vc) = true ∧ elapsed s (findFlow s dst vc).lastAt 100000 = true) ∧
    (∃ s : State, ∃ port, ∃ p, ∃ rest,
    linksLive s = true ∧ s.fab.arrived = (port, p) :: rest) ∧
    (∃ s : State,
    linksLive s = true) ∧
    (∃ s : State, ∃ dst, ∃ vc, ∃ seq, ∃ h,
    heldOf s dst vc seq = some h ∧ linksLive s = true) ∧
    (∃ s : State, ∃ p,
    let t := takeMsg s p
    let a := bits (fld p.payload 0 8) 40 0
    let d := p.payload.drop 8
    s.boot.stage = .run ∧ p.msg = 0x10 ∧ 8 ≤ p.payload.length ∧ fabricOk t p d.length = true ∧ endsPoisoned t.mem a d.length =
        false) ∧
    (∃ s : State, ∃ p,
    let t := takeMsg s p
    let n := fld p.payload 8 4
    s.boot.stage = .run ∧ p.msg = 0x12 ∧ 12 ≤ p.payload.length ∧ fabricOk t p n = true) :=
  ⟨⟨lit resetPort, 7, by decide +kernel⟩,
   ⟨lit resetPort, 3, by decide +kernel⟩,
   ⟨later { up with fab := { up.fab with connPresent := [false, false, false, false] } } 100000000, 3, by decide +kernel⟩,
   ⟨up, 1, (List.replicate 32 ⟨true, 9, 1⟩), by decide +kernel⟩,
   ⟨later up 10000000, by decide +kernel⟩,
   ⟨later { up with fab := { up.fab with flows := [⟨9, 3, 0, 1, 0⟩] } } 100000, 9, 3, by decide +kernel⟩,
   ⟨{ up with fab := { up.fab with arrived := [(31, (aPacket 0x24 []))] } }, 31, (aPacket 0x24 []), [], by decide +kernel⟩,
   ⟨up, by decide +kernel⟩,
   ⟨later { up with fab := { up.fab with held := [⟨{ aPacket 0x10 [] with dst := 9, flowSeq := 4095 }, 0, 0, false⟩] } } 200000,
       9, 3, 4095, ⟨{ aPacket 0x10 [] with dst := 9, flowSeq := 4095 }, 0, 0, false⟩, by decide +kernel⟩,
   ⟨up, (aPacket 0x10 (leBytes 8 64 ++ zeros 32)), by decide +kernel⟩,
   ⟨up, (aPacket 0x12 (leBytes 8 64 ++ leBytes 4 32)), by decide +kernel⟩⟩

theorem witness_ClockEventsComplete :
    (∃ s : State, ∃ port, ∃ msg : PtpMsg,
    port < 32 ∧ linksLive s = true ∧ ((portUp s port = true ∨ ((getPort s port).state = 3 ∧ msg.kind = 2)))) ∧
    (∃ s : State, ∃ port, ∃ kind,
    port < 32 ∧ kind < 3 ∧ ptpDue s port kind = true) ∧
    (∃ s : State,
    isGrandmaster s = false ∧ s.clk.state = 2 ∧ elapsed s s.clk.lastSync 4000000 = true) ∧
    (∃ s : State,
    isGrandmaster s = false ∧ s.clk.state = 3 ∧ elapsed s s.clk.lastSync 14000000 = true) ∧
    (∃ s : State,
    s.clk.refLost = false ∧ s.boot.stage = .run) ∧
    (∃ s : State,
    s.clk.refLost = false ∧ s.boot.stage ≠ .off ∧ s.boot.stage ≠ .stopped ∧ s.boot.stage ≠ .run) ∧
    (∃ s : State,
    s.clk.refLost = true) ∧
    (∃ s : State,
    s.boot.stage = .run) ∧
    (∃ s : State,
    ppsGone s = true) ∧
    (∃ s : State,
    inRun s = true ∧ withinBudget s = true ∧ s.clk.ppsOutAt < net s / 1000000000 * 1000000000) :=
  ⟨⟨portIn 3, 0, ⟨2, 9, false, 0, 0, 0, 0⟩, by decide +kernel⟩,
   ⟨later (portIn 3) 1000000, 0, 2, by decide +kernel⟩,
   ⟨later { up with clk := { up.clk with state := 2 } } 4000000, by decide +kernel⟩,
   ⟨later { up with clk := { up.clk with state := 3 } } 14000000, by decide +kernel⟩,
   ⟨up, by decide +kernel⟩,
   ⟨(inStage .boot), by decide +kernel⟩,
   ⟨{ up with clk := { up.clk with refLost := true } }, by decide +kernel⟩,
   ⟨up, by decide +kernel⟩,
   ⟨{ up with clk := { up.clk with ppsLocked := true } }, by decide +kernel⟩,
   ⟨{ up with clk := { up.clk with state := 2, time := 2 ^ 63 } }, by decide +kernel⟩⟩

theorem witness_TrafficEventsComplete :
    (∃ s : State, ∃ port,
    port < 32 ∧ canSelect s port = true) ∧
    (∃ s : State, ∃ port, ∃ g,
    port < 32 ∧ (getPort s port).sched.pendingGates = some g ∧ g.takeOver ≤ net s) ∧
    (∃ s : State, ∃ port,
    let x := getPort s port
    port < 32 ∧ x.sched.gates.mode ≠ 0) ∧
    (∃ s : State, ∃ port,
    let x := getPort s port
    port < 32 ∧ elapsed s x.sched.sampledAt (x.sched.sampleUs * 1000) = true) ∧
    (∃ s : State, ∃ chan,
    let x := getChan s chan
    let g := getRing (getFn s x.fn) x.ring
    let d := readBytes s.mem (g.sqDpa + g.sqCi.toNat % g.sqEntries * 64) 64
    chan < 64 ∧ canStart s chan = true ∧ descCheck x.ws d = none) ∧
    (∃ s : State, ∃ r,
    firmwareRuns s = true ∧ busGrant s = some r) ∧
    (∃ s : State, ∃ chan, ∃ off, ∃ j, ∃ b,
    chan < 64 ∧ findBurst s chan off = some (j, b) ∧ inRun s = true) :=
  ⟨⟨portIn 4, 0, by decide +kernel⟩,
   ⟨withPort { resetPort with sched := { resetSched with pendingGates := some ⟨1, [(1000, 127)], 0, 255, 0, none⟩ } }, 0, ⟨1,
       [(1000, 127)], 0, 255, 0, none⟩, by decide +kernel⟩,
   ⟨withPort { resetPort with sched := { resetSched with gates := ⟨1, [(1000, 127)], 0, 255, 0, none⟩ } }, 0, by
       decide +kernel⟩,
   ⟨later up 1000000, 31, by decide +kernel⟩,
   ⟨{ up with mem := { up.mem with cells := [(1, 16), (16, 64)] }, fns := [(0, { resetFunc with state := 1, rings := [(0, { aRing with sqPi := 1, channel := some 2 })] })], move := { up.move with chans := [(2, { aChan 1 with share := 1 })] } },
       2, by decide +kernel⟩,
   ⟨{ up with move := { up.move with ptr := 3, chans := [(2, { aChan 1 with job := some aMove })] } }, 3, by decide +kernel⟩,
   ⟨{ up with move := { up.move with chans := [(2, { aChan 1 with job := some { aMove with bursts := [⟨0, 64, none, 0, none⟩] } })] } },
       2, 0, { aMove with bursts := [⟨0, 64, none, 0, none⟩] }, ⟨0, 64, none, 0, none⟩, by decide +kernel⟩⟩

theorem witness_FlashEventsComplete :
    (∃ s : State, ∃ chan, ∃ target,
    chan < 32 ∧ target < 8 ∧ hasFlashOp s chan target = true) ∧
    (∃ s : State, ∃ group,
    group < 8 ∧ reclaimDue s group = true) ∧
    (∃ s : State, ∃ group,
    group < 8 ∧ wearDue s group = true ∧ s.rack.running.find? (groupActivity 2 group) = none) ∧
    (∃ s : State, ∃ group, ∃ a,
    group < 8 ∧ wearDue s group = true ∧ s.rack.running.find? (groupActivity 2 group) = some a) ∧
    (∃ s : State, ∃ group,
    group < 8 ∧ (((getGroup s group).state = 3 ∨ (getGroup s group).state = 4)) ∧ s.rack.running.any (groupActivity 1 group) =
        false) ∧
    (∃ s : State, ∃ group,
    group < 8 ∧ (((getGroup s group).state = 3 ∨ (getGroup s group).state = 4)) ∧ s.rack.running.any (groupActivity 1 group) =
        true) ∧
    (∃ s : State, ∃ group,
    group < 8 ∧ (((getGroup s group).state = 1 ∨ (getGroup s group).state = 2))) ∧
    (∃ s : State, ∃ group,
    group < 8 ∧ (getGroup s group).state = 0 ∧ ((inRun s = true ∨ s.boot.stage = .discover))) ∧
    (∃ s : State, ∃ group,
    group < 8 ∧ (getGroup s group).state = 5) ∧
    (∃ s : State, ∃ group,
    group < 8 ∧ (getGroup s group).state ≠ 0) ∧
    (∃ s : State, ∃ stream, ∃ fold, ∃ g, ∃ st, ∃ d,
    journalStream s stream = some (g, st) ∧ nextUnits (getGroup s g) st fold = some d) ∧
    (∃ s : State, ∃ setId, ∃ index, ∃ member,
    waitsFor s setId index member = true) ∧
    (∃ s : State, ∃ setId, ∃ index, ∃ member,
    memberLate s setId index member = true) ∧
    (∃ s : State, ∃ setId, ∃ lost,
    s.flash.sets.any (fun r => r.setId == setId && r.members.contains lost) = true) ∧
    (∃ s : State,
    ((inRun s = true ∨ s.boot.stage = .discover))) :=
  ⟨⟨{ up with flash := { up.flash with queue := [⟨0, 31, 7, 0, 0, 0, []⟩], chans := List.replicate 31 resetChan ++ [⟨0, [(7, aTarget)], 0, 0, ⟨0, 0⟩⟩] } },
      31, 7, by decide +kernel⟩,
   ⟨putGroup up 0 { aFlash 3 with reserve := 1000, fblocks := [(0, ⟨1, false, 0, []⟩), (1, ⟨1, false, 2, [5]⟩)] }, 0, by
       decide +kernel⟩,
   ⟨{ up with flash := { up.flash with wearLimit := 0 } }, 0, by decide +kernel⟩,
   ⟨running ({ up with flash := { up.flash with wearLimit := 0 } }) (anActivity 2 2 0 0 0), 0, (anActivity 2 2 0 0 0), by
       decide +kernel⟩,
   ⟨up, 0, by decide +kernel⟩,
   ⟨running up (anActivity 1 2 0 0 0), 0, by decide +kernel⟩,
   ⟨withGroup0 (aFlash 1), 0, by decide +kernel⟩,
   ⟨withGroup0 (aFlash 0), 0, by decide +kernel⟩,
   ⟨withGroup0 (aFlash 5), 0, by decide +kernel⟩,
   ⟨up, 0, by decide +kernel⟩,
   ⟨withStream, 1, true, 0, aStream, ((nextUnits (getGroup withStream 0) aStream true).get (by decide +kernel)), by refine ⟨by
       decide +kernel, (Option.some_get _).symm⟩⟩,
   ⟨{ up with flash := { up.flash with stripes := [⟨5, 0, 0, 0, 0, 1, [], [9], [], 1, [], [0], false⟩] } }, 5, 0, 9, by
       decide +kernel⟩,
   ⟨later { up with flash := { up.flash with stripes := [⟨5, 0, 0, 0, 0, 1, [], [9], [], 1, [], [0], false⟩] } } 1000000000000,
       5, 0, 9, by decide +kernel⟩,
   ⟨{ up with flash := { up.flash with sets := [⟨5, 1, [9], 1, 0, 0, 0, 0, []⟩] } }, 5, 9, by decide +kernel⟩,
   ⟨up, by decide +kernel⟩⟩

theorem witness_RecorderEventsComplete :
    (∃ s : State, ∃ e, ∃ ptr,
    s.evr.intake ≠ [] ∧ intakeChoice s.evr = some (e, ptr)) ∧
    (∃ s : State, ∃ l, ∃ rest,
    s.evr.latches = l :: rest ∧ unarchived s.evr < 65536) ∧
    (∃ s : State, ∃ code, ∃ f,
    dueFold s code = some f) ∧
    (∃ s : State,
    dropDue s = true ∧ s.evr.dTrace + s.evr.dFold + s.evr.dExcl = 0) ∧
    (∃ s : State,
    dropDue s = true ∧ s.evr.dTrace + s.evr.dFold + s.evr.dExcl ≠ 0) ∧
    (∃ s : State,
    0 < unarchived s.evr ∧ ((archiveState s = 1 ∨ archiveState s = 2))) :=
  ⟨⟨{ up with evr := { up.evr with intake := [⟨0x0203, 0, 0, 0, false, 0, 0, 0, 0, 0⟩] } }, ⟨0x0203, 0, 0, 0, false, 0, 0, 0, 0,
      0⟩, 1, by decide +kernel⟩,
   ⟨{ up with evr := { up.evr with latches := [⟨⟨0x0203, 0, 0, 0, false, 0, 0, 0, 0, 0⟩, 1⟩] } }, ⟨⟨0x0203, 0, 0, 0, false, 0,
       0, 0, 0, 0⟩, 1⟩, [], by decide +kernel⟩,
   ⟨{ up with evr := { up.evr with folds := [⟨0x0203, 1, 0, 0, 0, 0, true⟩] } }, 0x0203, ⟨0x0203, 1, 0, 0, 0, 0, true⟩, by
       decide +kernel⟩,
   ⟨later ({ up with evr := { up.evr with dropAt := some 0 } }) 1000000000, by decide +kernel⟩,
   ⟨later ({ up with evr := { up.evr with dropAt := some 0, dFold := 1 } }) 1000000000, by decide +kernel⟩,
   ⟨{ withGroup0 { aFlash 3 with streams := [{ aStream with kind := 2 }] } with evr := { up.evr with archMounted := true, recs := [⟨⟨0x0203, 0, 0, 0, false, 0, 0, 0, 0, 0⟩, 1, 1, 0, false, none, false, false⟩] } },
       by decide +kernel⟩⟩

theorem witness_LiveEventsComplete :
    (∃ s : State, ∃ core, ∃ h,
    core < 512 ∧ firmwareRuns s = true ∧ flipDue s core = true ∧ s.live.handover = some h) ∧
    (∃ s : State, ∃ h,
    firmwareRuns s = true ∧ s.live.handover = some h ∧ h.phase = 2 ∧ h.newCores.length = 512) ∧
    (∃ s : State, ∃ h,
    firmwareRuns s = true ∧ s.live.handover = some h ∧ h.phase = 3 ∧ elapsed s h.flippedAt 100000000 = false) ∧
    (∃ s : State, ∃ h,
    inRun s = true ∧ s.live.handover = some h ∧ h.phase = 3 ∧ elapsed s h.flippedAt 100000000 = true) ∧
    (∃ s : State, ∃ unit,
    s.mem.layout.stackMap.contains (unit / 1024) = true ∧ inRun s = true ∧ switchDue s unit = true) ∧
    (∃ s : State, ∃ page,
    inRun s = true ∧ s.live.stackRetires.any (fun r => actRuns s r.act && (runsOnStack s r.unit).any (·.base == page)) = true) ∧
    (∃ s : State, ∃ group,
    group < 8 ∧ (getGroup s group).offline.isSome = true) ∧
    (∃ s : State,
    firmwareRuns s = true ∧ drainReady s = true ∧ s.live.drained = true) ∧
    (∃ s : State,
    firmwareRuns s = true ∧ drainReady s = true ∧ s.live.drained = false) ∧
    (∃ s : State, ∃ jack, ∃ inst,
    inst < (if jack = true then 64 else 512) ∧ inRun s = true) :=
  ⟨⟨{ up with live := { up.live with handover := some ⟨2, false, ⟨0, 1⟩, 0, []⟩ } }, 511, ⟨2, false, ⟨0, 1⟩, 0, []⟩, by
      decide +kernel⟩,
   ⟨{ up with live := { up.live with handover := some ⟨2, false, ⟨0, 1⟩, 0, List.range 512⟩ } }, ⟨2, false, ⟨0, 1⟩, 0,
       List.range 512⟩, by decide +kernel⟩,
   ⟨{ up with live := { up.live with handover := some ⟨3, false, ⟨0, 1⟩, 0, []⟩ } }, ⟨3, false, ⟨0, 1⟩, 0, []⟩, by
       decide +kernel⟩,
   ⟨later ({ up with live := { up.live with handover := some ⟨3, false, ⟨0, 1⟩, 0, []⟩ } }) 100000000, ⟨3, false, ⟨0, 1⟩, 0,
       []⟩, by decide +kernel⟩,
   ⟨{ running up (anActivity 9 0 0 0 0) with live := { up.live with ucode := some (⟨0, 1⟩, 2, 6) } }, 0, by decide +kernel⟩,
   ⟨{ running up (anActivity 7 0 0 0 0) with guard := { up.guard with owners := [⟨655360, 1, 1, 0⟩] }, live := { up.live with stackRetires := [⟨none, 0, 6⟩] } },
       655360, by decide +kernel⟩,
   ⟨withGroup0 { aFlash 3 with offline := some (3, ⟨0, 1⟩) }, 0, by decide +kernel⟩,
   ⟨{ up with rack := { up.rack with groups := [] }, live := { up.live with draining := true, drained := true, drain := [⟨0, 1⟩] } },
       by decide +kernel⟩,
   ⟨{ up with rack := { up.rack with groups := [] }, live := { up.live with draining := true, drained := false, drain := [⟨0, 1⟩] } },
       by decide +kernel⟩,
   ⟨up, true, 63, by decide +kernel⟩⟩

/-! ## Witnesses: the statements about the block as a whole -/

theorem witness_IdleStepTicks : ∃ s : State, s.pending = [] := ⟨State.reset, rfl⟩

theorem witness_ExecKeepsQueue : ∃ c s t, exec c s = .next t :=
  ⟨.eventIntake, { State.reset with pending := [.eventIntake] }, { State.reset with pending := [.eventIntake] }, rfl⟩

theorem witness_AbsentUnitsFault_there : ∃ c s, unitThereFor c s = true := ⟨.portUp 31 [] [] 0, up, by decide⟩

theorem witness_AbsentUnitsFault_absent : ∃ c s, unitThereFor c s = false := ⟨.portUp 32 [] [] 0, up, by decide⟩

theorem witness_RefusedRequests_header : ∃ i c m s, commandOf i = some (c, m) ∧ servable c m s = true ∧
    headerOk (msgBytes s m) = false :=
  ⟨.devInfo _, _, .bmc (leBytes 2 0x101 ++ [1] ++ zeros 29), up, rfl, by decide +kernel, by decide +kernel⟩

theorem witness_RefusedRequests_issuer : ∃ i c m s, commandOf i = some (c, m) ∧ servable c m s = true ∧
    headerOk (msgBytes s m) = true ∧ issuerOk (takeRequest s m) c (msgOwner m) = false :=
  ⟨.wsInfo _, _, bmc 0x203 [], up, rfl, by decide +kernel, by decide +kernel, by decide +kernel⟩

theorem witness_RefusedRequests_length : ∃ i c m s n, commandOf i = some (c, m) ∧ servable c m s = true ∧
    headerOk (msgBytes s m) = true ∧ issuerOk (takeRequest s m) c (msgOwner m) = true ∧ c.size = some n ∧
    n ≠ fld (msgBytes s m) 4 2 :=
  ⟨.devInfo _, _, bmc 0x101 [1], up, 0, rfl, by decide +kernel, by decide +kernel, by decide +kernel, rfl, by decide +kernel⟩

/-- A state whose workspace 0 is being destroyed. -/
def dying : State := { up with wss := [(0, ⟨2, 1, 0, zeroQuota, [], none⟩)] }

theorem witness_RefusedRequests_destroying : ∃ i c m s, commandOf i = some (c, m) ∧ servable c m s = true ∧
    headerOk (msgBytes s m) = true ∧ issuerOk (takeRequest s m) c (msgOwner m) = true ∧
    (∀ n, c.size = some n → n = fld (msgBytes s m) 4 2) ∧
    (getWs (takeRequest s m) (wsOfOwner (takeRequest s m) (msgOwner m))).state = 2 ∧ c.op ≠ 0x203 :=
  ⟨.devInfo _, _, bmc 0x101 [], dying, rfl, by decide +kernel, by decide +kernel, by decide +kernel,
    fun n h => by cases h; decide +kernel, by decide +kernel, by decide⟩

/-- A request of function 1, whose workspace has no tickets. -/
def noRoom : State := putFn up 1 { getFn (ask up 0x340 (zeros 32)) 0 with ws := 1 }

theorem witness_RefusedRequests_tickets : ∃ i c m s, commandOf i = some (c, m) ∧ servable c m s = true ∧
    headerOk (msgBytes s m) = true ∧ issuerOk (takeRequest s m) c (msgOwner m) = true ∧
    (∀ n, c.size = some n → n = fld (msgBytes s m) 4 2) ∧
    (getWs (takeRequest s m) (wsOfOwner (takeRequest s m) (msgOwner m))).state ≠ 2 ∧ c.async = true ∧
    ticketRoom (takeRequest s m) (wsOfOwner (takeRequest s m) (msgOwner m)) = false :=
  ⟨.programLoad _, _, .slot 1 0, noRoom, rfl, by decide +kernel, by decide +kernel, by decide +kernel,
    fun n h => by cases h; decide +kernel, by decide +kernel, rfl, by decide +kernel⟩

/-- The guard has halted the part. -/
def halted : State := { up with guard := { up.guard with halted := true } }

theorem witness_GuardHalt_rows : ∃ (c : Instr) (s : State), benchRow c = true ∧ s.guard.halted = true := ⟨.drainDone, halted, rfl, rfl⟩

theorem witness_GuardHalt_requests : ∃ (m : MsgSrc) (s : State), s.guard.halted = true ∧ canAccept up m = true :=
  ⟨bmc 0x101 [], halted, rfl, by decide +kernel⟩

theorem witness_GuardHalt_packets : ∃ (q : PQueue) (s : State), s.guard.halted = true ∧ mayLeave s q = true :=
  ⟨⟨7, 0, [⟨aPacket 0x24 [], 0⟩], 0, ⟨0, 0, 0, 0, 0, 0, 0⟩, ⟨0, 0, 0, 0, 0, 0, 0⟩, 0, 0, 0, none⟩, halted, rfl, by decide⟩

theorem witness_StepKeepsMemoryCanonical : ∃ s t : State, MemoryCanonical s ∧ step s = .next t :=
  ⟨{ up with mem := { up.mem with cells := [(1, 16), (16, 64)], poison := [3] } }, _, rfl, rfl⟩

theorem witness_StorelessRowsKeepMemory : ∃ c s t, storingRow c = false ∧ exec c s = .next t :=
  ⟨.coreFault true 63, up, _, rfl, rfl⟩

theorem witness_MemWriteFrame : ∃ (p : Packet) (s : State), let a := bits (fld p.payload 0 8) 40 0; let d := p.payload.drop 8
    s.boot.stage = .run ∧ p.msg = 0x10 ∧ 8 ≤ p.payload.length ∧ MemoryCanonical s ∧ fabricOk (takeMsg s p) p d.length = true ∧
    endsPoisoned s.mem a d.length = false ∧ 0 < d.length :=
  ⟨aPacket 0x10 (leBytes 8 96 ++ List.replicate 32 7), { up with mem := { up.mem with poison := [3] } }, rfl, rfl, by decide, rfl,
    by decide +kernel, by decide +kernel, by decide⟩

theorem witness_PoisonRewriteFrame : ∃ dpa x g : Nat, (x < dpa ∨ dpa + 32 ≤ x) ∧ g ≠ dpa / 32 := ⟨96, 128, 2, by decide⟩

theorem witness_AllocatedPages_window : ∃ (s : State) (ws kind n p : Nat) (t : State), allocWindow s ws kind n = some (p, t) ∧
    p ≤ pageOfDpa s (p * 65536) ∧ pageOfDpa s (p * 65536) < p + n :=
  ⟨up, 1, 0, 64, 64, _, rfl, by decide +kernel⟩

theorem witness_AllocatedPages_marver : ∃ s ws unit n p t, allocMarver s ws unit n = some (p, t) :=
  ⟨up, 1, 0, 4, windowPages up, _, rfl⟩

theorem witness_PagesHaveOneOwner : ∃ (s : State) (ws n p : Nat) (t : State), OwnersApart s.guard.owners ∧ 1 ≤ n ∧
    (∀ r ∈ s.guard.owners, r.base < windowPages s → r.base + r.pages ≤ windowPages s) ∧
    allocWindow s ws 0 n = some (p, t) ∧ (allocMarver s ws 0 n).isSome = true :=
  ⟨up, 1, 64, 64, _, by simp [OwnersApart, up], by decide, by decide +kernel, rfl, by decide +kernel⟩

theorem witness_MarverAddressLayout : ∃ stack die bank off : Nat, stack < 16 ∧ die < 16 ∧ bank < 256 ∧ off < 2 ^ 25 :=
  ⟨15, 15, 255, 2 ^ 25 - 1, by decide⟩

theorem witness_AddressRoundTrip_dpa : ∃ map dpa, MapOk map ∧ dpa < map.length * (0x480000 * 2 ^ 14) :=
  ⟨List.range 16, 16 * (0x480000 * 2 ^ 14) - 1, by simp [MapOk, List.nodup_range], by decide⟩

theorem witness_AddressRoundTrip_ma : ∃ map ma, MapOk map ∧ ma < 2 ^ 41 ∧ maStack ma ∈ map ∧ maOffset ma ≤ 0x11FFFFF :=
  ⟨List.range 16, mkMa 15 15 255 0x11FFFFF, by simp [MapOk, List.nodup_range], by decide +kernel⟩

theorem witness_AddressRoundTrip_stack : ∃ map ma, MapOk map ∧ maStack ma ∉ map :=
  ⟨[0], mkMa 1 0 0 0, by simp [MapOk], by decide +kernel⟩

theorem witness_AddressRoundTrip_offset : ∃ map ma, MapOk map ∧ 0x11FFFFF < maOffset ma :=
  ⟨[0], mkMa 0 0 0 0x1200000, by simp [MapOk], by decide +kernel⟩

theorem witness_InterleaveFormula : ∃ (map : List Nat) (dpa : Nat), map ≠ [] ∧ dpa < map.length * (0x480000 * 2 ^ 14) ∧
    map.length ≤ 16 := ⟨List.range 16, 16 * (0x480000 * 2 ^ 14) - 1, by decide⟩

theorem witness_DistanceKey_nan : ∃ f, f < 2 ^ 32 ∧ isNaN32 f = true := ⟨0xFFFFFFFF, by decide +kernel⟩

theorem witness_DistanceKey_positive : ∃ f, f < 2 ^ 31 ∧ isNaN32 f = false := ⟨0x7F800000, by decide +kernel⟩

theorem witness_DistanceKey_negative : ∃ f, 2 ^ 31 < f ∧ f < 2 ^ 32 ∧ isNaN32 f = false := ⟨0xFF800000, by decide +kernel⟩

theorem witness_DistanceKey_order : ∃ a b, a < 2 ^ 32 ∧ b < 2 ^ 32 ∧ isNaN32 a = false ∧ isNaN32 b = false ∧
    (f32 a).numLt (f32 b) = true := ⟨0xFF800000, 0x7F800000, by decide +kernel⟩

theorem witness_DistanceKey_last : ∃ f n, f < 2 ^ 32 ∧ isNaN32 f = false ∧ isNaN32 n = true := ⟨0x7F800000, 0x7FC00000, by decide +kernel⟩

theorem witness_FieldsReadBack : ∃ (l : List Byte) (n i : Nat), i < n ∧ n ≤ l.length := ⟨[1, 2, 3, 4], 4, 3, by decide⟩

theorem witness_RoundRobinGrant : ∃ (n ptr k : Nat) (want : Nat → Bool), ptr < n ∧ roundRobin n ptr want = some k ∧ k < ptr :=
  ⟨14, 13, 12, fun k => k == 12, by decide⟩

theorem witness_ExactSums_order : ∃ a b : List Val, a.Perm b ∧ a ≠ b :=
  ⟨[Val.one, Val.zero], [Val.zero, Val.one], List.Perm.swap _ _ _, by decide⟩

theorem witness_ExactSums_transport : ∃ a : LAcc, -(2 ^ 159 : Int) ≤ a.val ∧ a.val < 2 ^ 159 :=
  ⟨⟨-(2 ^ 159), true, true, true, true⟩, by decide +kernel⟩

theorem witness_ExactSums_join : ∃ a b : List Val, -(2 ^ 159 : Int) ≤ (LAcc.sum (a ++ b)).val ∧ (LAcc.sum (a ++ b)).val < 2 ^ 159 :=
  ⟨[Val.one], [Val.ofInt (-3), .nan], by decide +kernel⟩

theorem witness_ExactSums_reserved : ∃ l : List Byte, fld l 20 1 / 16 ≠ 0 ∨ fld l 21 3 ≠ 0 := ⟨zeros 20 ++ [16, 0, 0, 0], by decide⟩

theorem witness_LocalBest32 : ∃ (c : MarverCtx) (e : Entry), c.cmd.pass ≠ 1 ∧ c.best.length ≤ 32 ∧ e.ordinal < 2 ^ 64 ∧
    (∀ x ∈ c.best, x.ordinal < 2 ^ 64) ∧
    c.best.Pairwise (fun x y => x.dist < y.dist ∨ x.dist = y.dist ∧ x.ordinal ≤ y.ordinal) ∧ c.best.length = 32 :=
  ⟨{ aCtx .scan8 with best := List.replicate 32 ⟨5, 7, 1⟩ }, ⟨5, 2 ^ 64 - 1, 2⟩, by decide, by decide, by decide, by decide,
    by decide +kernel, by decide⟩

theorem witness_EchoReturnsPayload : ∃ (m : MsgSrc) (s : State), Accepted ⟨0x104, .any, true, false, none⟩ m s :=
  ⟨bmc 0x104 (List.replicate 992 7), up, by decide +kernel, by decide +kernel⟩

theorem witness_BusySlot_busy : ∃ (f : Func) (i : Nat), f.busy.getLsbD i = true := ⟨{ resetFunc with busy := 0x8000 }, 15, by decide⟩

theorem witness_BusySlot_free : ∃ (f : Func) (i : Nat), i < 16 ∧ f.busy.getLsbD i = false := ⟨resetFunc, 15, by decide⟩

/-! ## Well-formedness refuses each kind of operand out of its range -/

theorem refused_messages : ([.devInfo (.slot 256 0), .wsCreate (.slot 0 16), .devEcho (.bmc (zeros 1025)),
    .mbxDoorbell ⟨0, 256, 0x100, []⟩, .registerWrite ⟨0, 0, 2 ^ 20, []⟩, .cqCiWrite ⟨0, 0, 0, zeros 65⟩,
    .coalescingTimer 256 0, .coalescingTimer 0 256, .queryEntry 256 0 noHost, .queryEntry 0 256 noHost,
    .funcDisableDone 256, .wsDestroyProceed 4096, .regionRelease 4096 0, .regionRelease 0 (2 ^ 25)] : List Instr).all
    (fun i => !i.wellFormed) = true := by decide +kernel

theorem refused_engines : ([.coarseBatchClose 128 0, .coarseBatchClose 0 1024, .marverCommandStart 16384 none, .lutLoad [0, 16384],
    .diebusXfer 256 false [], .bankRefresh 65536, .jackPass 64 0 none, .jackPass 0 8 none, .slotSchedule 512, .slotReply 65536,
    .coreFault true 64, .coreFault false 512, .thermalTrip 4 0, .ucodeSwitch 16384] : List Instr).all
    (fun i => !i.wellFormed) = true := by decide +kernel

theorem refused_stages : ([.inputRise 65536, .strapSample [], .strapSample (List.replicate 6 []), .stackDiscovery [5],
    .stackDiscovery (List.replicate 16 6), .flashTargetProbe 32 [], .i3cEntdaa 128, .entryTrip 0, .entryTrip 5,
    .thermalSample 0 [] (List.replicate 4 0) [0, 0], .thermalSample 0 (List.replicate 16 0) [] [0, 0],
    .thermalSample 0 (List.replicate 16 0) (List.replicate 4 0) []] : List Instr).all (fun i => !i.wellFormed) = true := by
  decide +kernel

theorem refused_links : ([.wavelengthFail 32 0, .wavelengthFail 0 16, .remapFrame 0 14 0 0, .remapFrame 0 0 16 0,
    .remapFrame 0 0 0 4096, .laserFeedLost 8, .fibreConnLost 4, .flowIdle 65536 0, .e2eAck 0 8 0 false, .tc7Resend 0 0 (2 ^ 64),
    .ptpSendTimer 0 3, .moveDescriptorStart 64, .moveBurstDone 0 (2 ^ 64) (.ok [])] : List Instr).all
    (fun i => !i.wellFormed) = true := by decide +kernel

theorem refused_flash : ([.flashOperation 32 0 ⟨0, 0, false, false⟩, .flashOperation 0 8 ⟨0, 0, false, false⟩, .reclaim 8,
    .streamMove 0 (2 ^ 64) 0, .streamMove 0 0 (2 ^ 32), .stripeForm (2 ^ 64) false, .stripeUnitDurable (2 ^ 64) 0 0,
    .stripeUnitDurable 0 1024 0, .stripeUnitDurable 0 0 65536, .logSummary 65536] : List Instr).all
    (fun i => !i.wellFormed) = true := by decide +kernel

theorem refused_objects : ([.subreqReply 65536 0 0 .fenced, .subreqReply 0 16 0 .fenced, .subreqReply 0 0 65536 .fenced,
    .scanSubrequest (2 ^ 64), .changeComplete 0 65536 0 false, .changeComplete 0 0 (2 ^ 64) false, .frontierMsg 0 (2 ^ 64) 0 0 0,
    .compact 0 false (2 ^ 32) 0, .poisonRewrite (2 ^ 41) (zeros 32), .poisonRewrite 1 (zeros 32), .poisonRewrite 0 [],
    .kvSpill 4096 0, .kvSpill 0 (2 ^ 64), .announce 0 0 (2 ^ 32) 0 0, .announce 0 0 0 (2 ^ 64) 0, .announce 0 0 0 0 65536,
    .poolReadTimeout (2 ^ 32), .orphanMsg 0 0 (2 ^ 64) 0, .orphanMsg 0 0 0 65536, .renewSend (2 ^ 32), .rebuild (2 ^ 32) false false ⟨0, [], 0, 0, [], [], []⟩]
    : List Instr).all (fun i => !i.wellFormed) = true := by decide +kernel

theorem accepted_bounds : ([.devInfo (.slot 255 15), .coalescingTimer 255 255, .wsDestroyProceed 4095, .coarseBatchClose 127 1023,
    .bankRefresh 65535, .slotSchedule 511, .coreFault true 63, .coreFault false 511] : List Instr).all
    Instr.wellFormed = true := by decide +kernel

/-! ## Table words, and the queue -/

theorem test_no_word_is_a_command : decodeTableWord 0 0 = none ∧ decodeTableWord 32 0xFFFFFFFF = none := ⟨rfl, rfl⟩

theorem test_word_leaves_the_queue : State.reset.withFetchWord 0 0 = State.reset := rfl

/-! ## The spec's worked examples -/

/-- The two examples of the interleave (03_marver_stacks.md). -/
theorem test_interleave_examples : dpaToMa (List.range 16) 0x42A60 = 0x215A000060 ∧ dpaToMa (List.range 12) 0x42A60 = 0xA15A000060 ∧
    dpaToMa (List.range 16) 0xA53C96E1C4 = 0x5332A53CC4 ∧ maToDpa (List.range 16) 0x5332A53CC4 = some 0xA53C96E1C4 := by
  decide +kernel

/-- Halfway to even, and saturation after rounding (R32). -/
theorem test_conversions : convert .e4m3 (.fin false 17 16) = (0x38, 0) ∧ convert .e4m3 (.fin false 450 1) = (0x7E, 0) ∧
    convert .e4m3 (.fin false 470 1) = (0x7E, ARITH_SAT) ∧ convert .int8 (.fin false 1274 10) = (127, 0) ∧
    convert .int8 (.fin false 1275 10) = (127, ARITH_SAT) := by decide +kernel

/-- A bag whose sum in FP32 would depend on the order (02_arithmetic.md). -/
theorem test_bag_example : (LAcc.sum [f32 0x4E800000, f32 0x3F800000, f32 0xCE800000]).read .fp32 = (0x3F800000, 0) ∧
    (LAcc.sum [mxValue .e2m1 0x7C 3 |>.mul (mxValue .e2m1 0x81 4), mxValue .e2m1 0x7C 13 |>.mul (mxValue .e2m1 0x81 1)]).val =
      0xC000000000000000 := by decide +kernel

/-- The gates of the example of P7 (16_traffic_scheduling.md). -/
theorem test_gate_example : gateAt ⟨1, [(10000, 0x40), (90000, 0x7F)], 10 ^ 12, 0xFF, 0, none⟩ (10 ^ 12 + 9999) = (0, 0x40) ∧
    gateAt ⟨1, [(10000, 0x40), (90000, 0x7F)], 10 ^ 12, 0xFF, 0, none⟩ (10 ^ 12 + 10000) = (1, 0x7F) := by decide +kernel

/-- The links of device 213, at row 2 and column 5, to row 2, column 1 and to row 6, column 5 (15_sinazan_fabric.md). -/
theorem test_link_example : linkPorts 21 17 = some (1, 17) ∧ linkPorts 17 21 = some (4, 20) ∧ linkPorts 21 53 = some (13, 29) ∧
    linkPorts 53 21 = some (10, 26) := by decide +kernel

/-- The strap word 0x0E15 (24_service_port.md), from its six levels. -/
theorem test_strap_example : strapWord [1, 1, 1, 0, 2, 3] = 0x0E15 := by decide

theorem witness_BusySlot_row : ∃ (p : RegPkt) (s : State), doorbellActs s p = true :=
  ⟨⟨0, 0, 0x100, [1, 0, 0, 0]⟩, up, by decide +kernel⟩

end Sys2Proof.Tests
end

/-!
Little-endian fields (R7): what the numbers, the bytes and the slices of Machine/Bits.lean make of each other.
-/

namespace Sys2Proof.Proofs

/-! ## Bytes of a number, number of bytes -/

@[simp] theorem length_leBytes (n v : Nat) : (leBytes n v).length = n := by
  induction n generalizing v with
  | zero => rfl
  | succ n ih => simp [leBytes, ih]

theorem leNat_leBytes (n v : Nat) : leNat (leBytes n v) = v % 256 ^ n := by
  induction n generalizing v with
  | zero => simp [leBytes, leNat, Nat.mod_one]
  | succ n ih =>
    have low : (BitVec.ofNat 8 v).toNat = v % 256 := BitVec.toNat_ofNat v 8
    rw [leBytes, leNat, ih, low, Nat.pow_succ', Nat.mod_mul]

theorem leNat_cons_mod (b : Byte) (t : List Byte) : leNat (b :: t) % 256 = b.toNat := by
  have := b.isLt
  rw [leNat]; omega

theorem leNat_cons_div (b : Byte) (t : List Byte) : leNat (b :: t) / 256 = leNat t := by
  have := b.isLt
  rw [leNat]; omega

theorem leBytes_leNat (l : List Byte) : leBytes l.length (leNat l) = l := by
  induction l with
  | nil => rfl
  | cons b t ih =>
    have low : BitVec.ofNat 8 (leNat (b :: t)) = b :=
      BitVec.eq_of_toNat_eq ((BitVec.toNat_ofNat _ 8).trans (leNat_cons_mod b t))
    rw [List.length_cons, leBytes, low, leNat_cons_div, ih]

theorem leNat_drop (l : List Byte) (i : Nat) : leNat (l.drop i) = leNat l / 256 ^ i := by
  induction i generalizing l with
  | zero => simp
  | succ i ih =>
    cases l with
    | nil => simp [leNat]
    | cons b t => rw [List.drop_succ_cons, ih, Nat.pow_succ', ← Nat.div_div_eq_div_mul, leNat_cons_div]

theorem leNat_take_one (l : List Byte) : leNat (l.take 1) = leNat l % 256 := by
  cases l with
  | nil => rfl
  | cons b t => rw [leNat_cons_mod]; simp [leNat]

/-! ## Fields of a structure -/

/-- Within the structure's end a slice is its bytes, with no zeros put after them. -/
theorem slice_eq_take_drop {l : List Byte} {lo n : Nat} (h : lo + n ≤ l.length) : slice l lo n = (l.drop lo).take n := by
  have full : ((l.drop lo).take n).length = n := by rw [List.length_take, List.length_drop]; omega
  simp only [slice, full, Nat.sub_self]
  exact List.append_nil _

theorem slice_append (a m b : List Byte) : slice (a ++ m ++ b) a.length m.length = m := by
  rw [slice_eq_take_drop (by simp), List.append_assoc, List.drop_left, List.take_left]

theorem fld_eq_leNat {l : List Byte} {lo n : Nat} (h : lo + n ≤ l.length) : fld l lo n = leNat ((l.drop lo).take n) :=
  congrArg leNat (slice_eq_take_drop h)

theorem fld_append_leBytes (a b : List Byte) (n v : Nat) : fld (a ++ leBytes n v ++ b) a.length n = v % 256 ^ n := by
  have written : slice (a ++ leBytes n v ++ b) a.length n = leBytes n v := by
    simpa using slice_append a (leBytes n v) b
  rw [fld, written, leNat_leBytes]

theorem leBytes_fld (l : List Byte) : leBytes l.length (fld l 0 l.length) = l := by
  rw [fld_eq_leNat (Nat.le_of_eq (Nat.zero_add _)), List.drop_zero, List.take_length, leBytes_leNat]

/-- A byte read alone is a base-256 digit of a longer field: the bytes below it are divided away, those above it are lost to the
remainder. -/
theorem fld_byte_eq_digit {l : List Byte} {n i : Nat} (hi : i < n) (hn : n ≤ l.length) :
    fld l i 1 = fld l 0 n / 256 ^ i % 256 := by
  have within : ((l.take n).drop i).take 1 = (l.drop i).take 1 := by
    rw [List.drop_take, List.take_take, Nat.min_eq_left (by omega)]
  calc fld l i 1 = leNat ((l.drop i).take 1) := fld_eq_leNat (by omega)
    _ = leNat (((l.take n).drop i).take 1) := by rw [within]
    _ = leNat (l.take n) / 256 ^ i % 256 := by rw [leNat_take_one, leNat_drop]
    _ = fld l 0 n / 256 ^ i % 256 := by rw [fld_eq_leNat (by omega), List.drop_zero]

/-- Settles O55: the three parts are a written field's value, the bytes of a read number, and the digits of a field. -/
theorem fieldsReadBack : Obligations.FieldsReadBack :=
  ⟨fld_append_leBytes, leBytes_fld, fun _ _ _ => fld_byte_eq_digit⟩

end Sys2Proof.Proofs

/-!
Exact sums (R22, R38 to R41): the long accumulator as a sum of its addends, and its transport form.
-/

namespace Sys2Proof.Proofs

/-! ## Two's complement -/

theorem ofSigned_lt (w : Nat) (i : Int) : ofSigned w i < 2 ^ w := by
  have pos : (0 : Int) < 2 ^ w := Int.pow_pos (by decide)
  have below := Int.emod_lt_of_pos i pos
  rw [ofSigned, Int.toNat_lt (Int.emod_nonneg i (Int.ne_of_gt pos))]
  exact_mod_cast below

/-- An integer of `w` bits is read back from its two's-complement form: a negative one stands `2 ^ w` higher there. -/
theorem toSigned_ofSigned {w : Nat} (hw : 0 < w) {i : Int} (lo : -(2 ^ (w - 1) : Int) ≤ i) (hi : i < 2 ^ (w - 1)) :
    toSigned w (ofSigned w i) = i := by
  obtain ⟨k, rfl⟩ : ∃ k, w = k + 1 := ⟨w - 1, by omega⟩
  simp only [toSigned, Nat.mod_eq_of_lt (ofSigned_lt _ i), Nat.add_sub_cancel] at lo hi ⊢
  have half : ((2 ^ k : Nat) : Int) = 2 ^ k := by norm_cast
  have full : (2 : Int) ^ (k + 1) = 2 * 2 ^ k := Int.pow_succ' 2 k
  by_cases neg : i < 0
  · have form : i % 2 ^ (k + 1) = i + 2 ^ (k + 1) := by
      rw [← Int.add_emod_right, Int.emod_eq_of_lt (by omega) (by omega)]
    rw [ofSigned, form]
    split <;> omega
  · have form : i % 2 ^ (k + 1) = i := Int.emod_eq_of_lt (by omega) (by omega)
    rw [ofSigned, form]
    split <;> omega

/-! ## Accumulation -/

/-- Addition of two accumulators over all integers: `LAcc.join` before its reduction to 160 bits. -/
def accAdd (a b : LAcc) : LAcc := ⟨a.val + b.val, a.nan || b.nan, a.pos || b.pos, a.neg || b.neg, a.low || b.low⟩

theorem accAdd_zero (a : LAcc) : accAdd a LAcc.zero = a := by simp [accAdd, LAcc.zero]

theorem accAdd_assoc (a b c : LAcc) : accAdd (accAdd a b) c = accAdd a (accAdd b c) := by
  simp only [accAdd, Int.add_assoc, Bool.or_assoc]

theorem accAdd_comm (a b : LAcc) : accAdd a b = accAdd b a := by
  simp only [accAdd, Int.add_comm, Bool.or_comm]

/-- Where the exact sum fits 160 bits, R41's addition gives it. -/
theorem join_eq_accAdd {a b : LAcc} (lo : -(2 ^ 159 : Int) ≤ (accAdd a b).val) (hi : (accAdd a b).val < 2 ^ 159) :
    LAcc.join a b = accAdd a b := by
  have kept : toSigned 160 (ofSigned 160 (a.val + b.val)) = a.val + b.val := toSigned_ofSigned (by decide) lo hi
  rw [LAcc.join, kept, accAdd]

/-- What an addend brings to a sum is what it alone leaves in the empty sum, whatever was there before (R39). -/
theorem push_eq_accAdd (a : LAcc) (v : Val) : a.push v = accAdd a (LAcc.zero.push v) := by
  cases v with
  | nan => simp [LAcc.push, accAdd, LAcc.zero]
  | inf neg => cases neg <;> simp [LAcc.push, accAdd, LAcc.zero]
  | fin neg num den =>
    by_cases above : 2 ^ 63 * den ≤ num
    · cases neg <;> simp only [LAcc.push, if_pos above] <;> simp [accAdd, LAcc.zero]
    · simp only [LAcc.push, if_neg above]
      simp [accAdd, LAcc.zero]

theorem push_right_comm (a : LAcc) (v w : Val) : (a.push v).push w = (a.push w).push v := by
  rw [push_eq_accAdd (a.push v), push_eq_accAdd a, push_eq_accAdd (a.push w), push_eq_accAdd a w, accAdd_assoc,
    accAdd_comm (LAcc.zero.push v), ← accAdd_assoc]

theorem sum_eq_of_perm {a b : List Val} (h : a.Perm b) : LAcc.sum a = LAcc.sum b :=
  h.foldl_eq' (fun v _ w _ acc => push_right_comm acc v w) LAcc.zero

theorem foldl_push (l : List Val) (a : LAcc) : l.foldl LAcc.push a = accAdd a (LAcc.sum l) := by
  induction l generalizing a with
  | nil => exact (accAdd_zero a).symm
  | cons v t ih => rw [LAcc.sum, List.foldl_cons, List.foldl_cons, ih, ih, ← accAdd_assoc, ← push_eq_accAdd]

theorem sum_append (a b : List Val) : LAcc.sum (a ++ b) = accAdd (LAcc.sum a) (LAcc.sum b) := by
  rw [LAcc.sum, List.foldl_append, foldl_push]; rfl

theorem join_sum {a b : List Val} (lo : -(2 ^ 159 : Int) ≤ (LAcc.sum (a ++ b)).val)
    (hi : (LAcc.sum (a ++ b)).val < 2 ^ 159) : LAcc.join (LAcc.sum a) (LAcc.sum b) = LAcc.sum (a ++ b) := by
  rw [sum_append] at lo hi ⊢
  exact join_eq_accAdd lo hi

/-! ## The transport form -/

theorem leNat_eq_zero_iff (l : List Byte) : leNat l = 0 ↔ l.all (· == 0) = true := by
  induction l with
  | nil => simp [leNat]
  | cons b t ih =>
    have low : b.toNat = 0 ↔ b = 0 := BitVec.toNat_inj (y := 0)
    rw [leNat, List.all_cons, Bool.and_eq_true, ← ih, beq_iff_eq, ← low]
    omega

/-- The check of a Reserved field (R14) is that the field reads 0. -/
theorem zeroAt_iff (l : List Byte) (lo n : Nat) : zeroAt l lo n = true ↔ fld l lo n = 0 := (leNat_eq_zero_iff _).symm

/-- Byte 20 of the transport form: the four flags (Table: Accumulator transport form). -/
def flagByte (a : LAcc) : Nat := b2n a.nan + 2 * b2n a.pos + 4 * b2n a.neg + 8 * b2n a.low

theorem flagByte_lt (a : LAcc) : flagByte a < 16 := by
  have h (b : Bool) : b2n b ≤ 1 := by cases b <;> decide
  have := h a.nan; have := h a.pos; have := h a.neg; have := h a.low
  rw [flagByte]; omega

theorem bits_flagByte (a : LAcc) : bit (flagByte a) 0 = a.nan ∧ bit (flagByte a) 1 = a.pos ∧ bit (flagByte a) 2 = a.neg ∧
    bit (flagByte a) 3 = a.low := by
  have all : ∀ n p m l : Bool, let f := flagByte ⟨0, n, p, m, l⟩
      bit f 0 = n ∧ bit f 1 = p ∧ bit f 2 = m ∧ bit f 3 = l := by decide
  exact all a.nan a.pos a.neg a.low

/-- The transport form is three fields in a row. -/
theorem toBytes_eq (a : LAcc) : a.toBytes = leBytes 20 (ofSigned 160 a.val) ++ leBytes 1 (flagByte a) ++ leBytes 3 0 := rfl

theorem fld_toBytes_val (a : LAcc) : fld a.toBytes 0 20 = ofSigned 160 a.val := by
  have field := fld_append_leBytes [] (leBytes 1 (flagByte a) ++ leBytes 3 0) 20 (ofSigned 160 a.val)
  rw [List.nil_append, ← List.append_assoc, ← toBytes_eq] at field
  exact field.trans (Nat.mod_eq_of_lt (ofSigned_lt 160 a.val))

theorem fld_toBytes_flags (a : LAcc) : fld a.toBytes 20 1 = flagByte a := by
  have field := fld_append_leBytes (leBytes 20 (ofSigned 160 a.val)) (leBytes 3 0) 1 (flagByte a)
  rw [length_leBytes, ← toBytes_eq] at field
  exact field.trans (Nat.mod_eq_of_lt (Nat.lt_trans (flagByte_lt a) (by decide)))

theorem fld_toBytes_reserved (a : LAcc) : fld a.toBytes 21 3 = 0 := by
  have field := fld_append_leBytes (leBytes 20 (ofSigned 160 a.val) ++ leBytes 1 (flagByte a)) [] 3 0
  rw [List.append_nil, ← toBytes_eq, List.length_append, length_leBytes, length_leBytes] at field
  exact field

theorem ofBytes_toBytes {a : LAcc} (lo : -(2 ^ 159 : Int) ≤ a.val) (hi : a.val < 2 ^ 159) :
    LAcc.ofBytes a.toBytes = some a := by
  have reserved : zeroAt a.toBytes 21 3 = true := (zeroAt_iff ..).mpr (fld_toBytes_reserved a)
  have value : toSigned 160 (ofSigned 160 a.val) = a.val := toSigned_ofSigned (by decide) lo hi
  obtain ⟨nan, pos, neg, low⟩ := bits_flagByte a
  simp only [LAcc.ofBytes, fld_toBytes_flags, fld_toBytes_val, flagByte_lt, reserved, and_self, if_true, value, nan, pos, neg,
    low]

theorem ofBytes_eq_none {l : List Byte} (h : fld l 20 1 / 16 ≠ 0 ∨ fld l 21 3 ≠ 0) : LAcc.ofBytes l = none := by
  refine if_neg fun ⟨flags, reserved⟩ => ?_
  have zero := (zeroAt_iff ..).mp reserved
  omega

/-- Settles O57: an accumulation is a fold of a commutative and associative addition, and the transport form holds all of it. -/
theorem exactSumsIgnorePlacement : Obligations.ExactSumsIgnorePlacement :=
  ⟨fun _ _ => sum_eq_of_perm, fun _ => ofBytes_toBytes, fun _ _ => join_sum, fun _ => ofBytes_eq_none⟩

end Sys2Proof.Proofs

/-!
Gaffer jobs (R48, R97, R106, R124, R125, R139, R142, R190): what a row of a kind of job does where it acts. The seven rows differ in
the kind, in the check of a submission and in the job's outcome alone.
-/

namespace Sys2Proof.Proofs

open Sys2Proof.Machine

theorem guarded_present (row : String) {present : Prop} [Decidable present] (h : present) {t u : State} (acts : t = u) :
    guarded row (decide present) t = .next u := by
  rw [guarded, decide_eq_true h, acts]; rfl

section
variable {kind : JobKind} {e : Nat} {s : State} {ok : State → GafferJob → Bool} {put : Nat → GafferJob → State → State}
  {run : State → GafferJob → List Nat × Nat}

/-- A submission in form, to an engine that is not retired, is put where the row puts it (R97). -/
theorem gafferRow_submit (runs : firmwareRuns s = true) (err : Option (Nat × Bool)) {j : GafferJob}
    (fits : j.kind = kind ∧ j.core ≤ 512 ∧ scoreRetired s 3 e = false) (accepted : ok s j = true) :
    gafferRow kind e (some j) err ok put run s = put e j s := by
  obtain ⟨ofKind, ofCore, usable⟩ := fits
  exact if_pos ⟨ofKind, ofCore, accepted, by rw [usable]; rfl, runs⟩

/-- The job at the head of the queue leaves it with its outcome kept, where it is of the row's kind (R97). -/
theorem gafferRow_execute (runs : firmwareRuns s = true) (err : Option (Nat × Bool)) {j : GafferJob} {rest : List GafferJob}
    (head : (getGaffer s e).queue = j :: rest) (ofKind : j.kind = kind) {r : List Nat × Nat} (outcome : run s j = r) :
    gafferRow kind e none err ok put run s =
      wakeModel e (sramError e err (putGaffer s e (keepOutput { getGaffer s e with queue := rest } j r.1 r.2))) := by
  subst outcome
  simp only [gafferRow, runs, runHead, head, ofKind, if_true]

end

theorem overIndex_eq {s : State} {j : GafferJob} {x : Index} (index : getIndex s j.obj = some x)
    (f : Index → List Val → List Nat × Nat) : overIndex f s j = f x (vals32 (jobCodes j.data)) := by
  rw [overIndex, index]

/-- Settles O19: each clause is the one branch of its row's `gafferRow` that its hypotheses choose. -/
theorem gafferJobsComplete : Obligations.GafferJobsComplete := by
  intro engine s present runs g fits ran
  refine ⟨?_, ?_, ?_, ?_, ?_, ?_, ?_, ?_, ?_, ?_, ?_⟩
  · exact fun j err fit ready => guarded_present _ present (gafferRow_submit runs err fit ready)
  · exact fun j err fit ready => guarded_present _ present (gafferRow_submit runs err fit ready)
  · exact fun j err fit ready => guarded_present _ present (gafferRow_submit runs err fit ready)
  · intro j err x fit work index vector
    refine guarded_present _ present (gafferRow_submit runs err fit ?_)
    simp only [index, Option.any_some, decide_eq_true vector, Bool.and_true]
    exact work
  · intro j err p fit program resident
    refine guarded_present _ present (gafferRow_submit runs err fit ?_)
    simp only [program, Option.any_some, resident]
  · exact fun j err fit chunk => guarded_present _ present (gafferRow_submit runs err fit (decide_eq_true chunk))
  · intro j err x fit bench index training
    refine guarded_present _ present (gafferRow_submit runs err fit ?_)
    simp only [bench, index, Option.any_some, training]; rfl
  · intro j rest err x head index v
    refine ⟨fun kind => ?_, fun kind => ?_, fun kind => ?_, fun kind => ?_⟩
    · exact guarded_present _ present (gafferRow_execute runs err head kind (overIndex_eq index _))
    · exact guarded_present _ present (gafferRow_execute runs err head kind (overIndex_eq index _))
    · exact guarded_present _ present (gafferRow_execute runs err head kind (overIndex_eq index _))
    · exact guarded_present _ present (gafferRow_execute runs err head kind (by simp only [index]))
  · exact fun j rest err head kind => guarded_present _ present (gafferRow_execute runs err head kind rfl)
  · exact fun j rest err head kind => guarded_present _ present (gafferRow_execute runs err head kind rfl)
  · exact fun j rest err head kind => guarded_present _ present (gafferRow_execute runs err head kind rfl)

end Sys2Proof.Proofs

/-!
Refined distances (R29, R37): what an FP32 code stands for, by its sign bit and its other 31 bits, and the order of its key. Among
codes of one sign those other bits are in the order of the magnitudes, infinity after all numbers.
-/

namespace Sys2Proof.Proofs

/-! ## FP32 codes -/

/-- The FP32 code of a sign and 31 bits of exponent and mantissa. -/
def code32 (neg : Bool) (m : Nat) : Nat := b2n neg * 2 ^ 31 + m

theorem code32_false (m : Nat) : code32 false m = m := Nat.zero_add m

theorem code32_true (m : Nat) : code32 true m = 2 ^ 31 + m := rfl

theorem exists_code32 {f : Nat} (h : f < 2 ^ 32) : ∃ neg m, m < 2 ^ 31 ∧ f = code32 neg m := by
  by_cases low : f < 2 ^ 31
  · exact ⟨false, f, low, (code32_false f).symm⟩
  · exact ⟨true, f - 2 ^ 31, by omega, by rw [code32_true]; omega⟩

theorem code32_lt {neg : Bool} {m : Nat} (h : m < 2 ^ 31) : code32 neg m < 2 ^ 32 := by
  cases neg
  · rw [code32_false]; omega
  · rw [code32_true]; omega

theorem code32_mod {neg : Bool} {m : Nat} (h : m < 2 ^ 31) : code32 neg m % 2 ^ 31 = m := by
  rw [code32, Nat.mul_add_mod', Nat.mod_eq_of_lt h]

theorem code32_testBit {neg : Bool} {m : Nat} (h : m < 2 ^ 31) : (code32 neg m).testBit 31 = neg := by
  cases neg
  · rw [code32_false, Nat.testBit_lt_two_pow h]
  · rw [code32_true, Nat.testBit_two_pow_add_eq, Nat.testBit_lt_two_pow h]; rfl

theorem f32_code32 {neg : Bool} {m : Nat} (h : m < 2 ^ 31) : f32 (code32 neg m) =
    if m < 0x7F800000 then Fmt.magnitude .fp32 neg m else if m = 0x7F800000 then .inf neg else .nan := by
  have whole : code32 neg m % 2 ^ 32 = code32 neg m := Nat.mod_eq_of_lt (code32_lt h)
  simp only [f32, Fmt.decode, Fmt.width, whole, Nat.reduceSub, code32_mod h, code32_testBit h, Fmt.maxCode, Fmt.infCode]
  simp [Nat.lt_succ_iff]

/-- The magnitude of a finite FP32 code in units of 2^-149, its least positive number (R29). -/
def mag32 (m : Nat) : Nat := (m % 2 ^ 23 + if m < 2 ^ 23 then 0 else 2 ^ 23) * 2 ^ (m / 2 ^ 23 - 1)

theorem dyadic_eq_fin (neg : Bool) (m k : Nat) : ∃ n d, Val.dyadic neg m (-149 + (k : Int)) = .fin neg n d ∧ 0 < d ∧
    n * 2 ^ 149 = m * 2 ^ k * d := by
  refine ⟨_, _, rfl, Nat.two_pow_pos _, ?_⟩
  rw [Nat.mul_assoc, Nat.mul_assoc, ← Nat.pow_add, ← Nat.pow_add]
  congr 2
  omega

theorem magnitude_fp32 (neg : Bool) (m : Nat) : Fmt.magnitude .fp32 neg m =
    if m < 2 ^ 23 then .dyadic neg m (-149) else .dyadic neg (2 ^ 23 + m % 2 ^ 23) (-149 + (m / 2 ^ 23 - 1 : Nat)) := rfl

theorem f32_finite (neg : Bool) {m : Nat} (h : m < 0x7F800000) : ∃ n d, f32 (code32 neg m) = .fin neg n d ∧ 0 < d ∧
    n * 2 ^ 149 = mag32 m * d := by
  rw [f32_code32 (by omega), if_pos h, magnitude_fp32, mag32]
  by_cases subnormal : m < 2 ^ 23
  · have exponent : m / 2 ^ 23 - 1 = 0 := by omega
    rw [if_pos subnormal, if_pos subnormal, Nat.mod_eq_of_lt subnormal, exponent]
    exact dyadic_eq_fin neg m 0
  · rw [if_neg subnormal, if_neg subnormal, Nat.add_comm (m % 2 ^ 23)]
    exact dyadic_eq_fin neg (2 ^ 23 + m % 2 ^ 23) (m / 2 ^ 23 - 1)

theorem f32_inf (neg : Bool) : f32 (code32 neg 0x7F800000) = .inf neg := f32_code32 (by decide)

theorem isNaN32_code32 {neg : Bool} {m : Nat} (h : m < 2 ^ 31) : isNaN32 (code32 neg m) = decide (0x7F800000 < m) := by
  obtain number | rfl | none := Nat.lt_trichotomy m 0x7F800000
  · obtain ⟨n, d, value, -⟩ := f32_finite neg number
    rw [isNaN32, value, decide_eq_false (by omega)]; rfl
  · rw [isNaN32, f32_inf]; rfl
  · rw [isNaN32, f32_code32 h, if_neg (by omega), if_neg (by omega), Val.isNaN, decide_eq_true none]

/-! ## The order of numbers -/

theorem mag32_lt_succ (m : Nat) : mag32 m < mag32 (m + 1) := by
  by_cases carry : m % 2 ^ 23 = 2 ^ 23 - 1
  · have next : mag32 (m + 1) = 2 ^ 23 * 2 ^ (m / 2 ^ 23) := by
      have exponent : (m + 1) / 2 ^ 23 - 1 = m / 2 ^ 23 := by omega
      rw [mag32, exponent, if_neg (by omega)]; congr 1; omega
    rw [next, mag32, carry]
    by_cases subnormal : m < 2 ^ 23
    · rw [if_pos subnormal, Nat.div_eq_of_lt subnormal]; decide
    · obtain ⟨q, exponent⟩ : ∃ q, m / 2 ^ 23 = q + 1 := ⟨m / 2 ^ 23 - 1, by omega⟩
      have := Nat.two_pow_pos q
      rw [if_neg subnormal, exponent, Nat.add_sub_cancel, Nat.pow_succ 2 q]; omega
  · have exponent : (m + 1) / 2 ^ 23 = m / 2 ^ 23 := by omega
    have mantissa : (m + 1) % 2 ^ 23 = m % 2 ^ 23 + 1 := by omega
    have implied : m + 1 < 2 ^ 23 ↔ m < 2 ^ 23 := by omega
    simp only [mag32, exponent, mantissa, implied]
    exact Nat.mul_lt_mul_of_pos_right (by omega) (Nat.two_pow_pos _)

theorem mag32_lt_of_lt {m k : Nat} (h : m < k) : mag32 m < mag32 k := by
  induction h with
  | refl => exact mag32_lt_succ m
  | step _ ih => exact Nat.lt_trans ih (mag32_lt_succ _)

theorem mag32_lt_iff {m k : Nat} : mag32 m < mag32 k ↔ m < k := by
  refine ⟨fun above => ?_, mag32_lt_of_lt⟩
  obtain less | rfl | greater := Nat.lt_trichotomy m k
  · exact less
  · exact absurd above (Nat.lt_irrefl _)
  · exact absurd (mag32_lt_of_lt greater) (Nat.lt_asymm above)

theorem mag32_pos_iff {m : Nat} : 0 < mag32 m ↔ 0 < m := mag32_lt_iff (m := 0)

/-- A sign and a magnitude as an integer. -/
def signed (neg : Bool) (m : Nat) : Int := if neg then -(m : Int) else m

@[simp] theorem signed_false (m : Nat) : signed false m = m := rfl
@[simp] theorem signed_true (m : Nat) : signed true m = -(m : Int) := rfl

theorem signed_mag32_lt_iff {s t : Bool} {m k : Nat} : signed s (mag32 m) < signed t (mag32 k) ↔ signed s m < signed t k := by
  have up := mag32_lt_iff (m := m) (k := k)
  have down := mag32_lt_iff (m := k) (k := m)
  have left := mag32_pos_iff (m := m)
  have right := mag32_pos_iff (m := k)
  cases s <;> cases t <;> simp only [signed_false, signed_true] <;> omega

theorem isZero_fin (neg : Bool) (n d : Nat) : (Val.fin neg n d).isZero = decide (n = 0) := by
  cases n <;> rfl

theorem numerator_eq_zero_iff {n d x u : Nat} (hd : 0 < d) (hu : 0 < u) (hn : n * u = x * d) : n = 0 ↔ x = 0 := by
  have zero : n * u = 0 ↔ x * d = 0 := by rw [hn]
  rw [Nat.mul_eq_zero, Nat.mul_eq_zero] at zero
  omega

/-- Fractions that are `x` and `y` times one unit are in the order of `±x` and `±y`. -/
theorem numLt_fin_iff {s t : Bool} {n d k e x y u : Nat} (hd : 0 < d) (he : 0 < e) (hu : 0 < u) (hn : n * u = x * d)
    (hk : k * u = y * e) : (Val.fin s n d).numLt (.fin t k e) = true ↔ signed s x < signed t y := by
  have crossLeft : n * e * u = x * (d * e) := by rw [Nat.mul_right_comm, hn, Nat.mul_assoc]
  have crossRight : k * d * u = y * (d * e) := by rw [Nat.mul_right_comm, hk, Nat.mul_right_comm, Nat.mul_assoc]
  have unit : 0 < d * e := Nat.mul_pos hd he
  have up : n * e < k * d ↔ x < y := by
    rw [← Nat.mul_lt_mul_right hu, crossLeft, crossRight, Nat.mul_lt_mul_right unit]
  have down : k * d < n * e ↔ y < x := by
    rw [← Nat.mul_lt_mul_right hu, crossLeft, crossRight, Nat.mul_lt_mul_right unit]
  have left : n = 0 ↔ x = 0 := numerator_eq_zero_iff hd hu hn
  have right : k = 0 ↔ y = 0 := numerator_eq_zero_iff he hu hk
  simp only [Val.numLt, isZero_fin, Val.lt]
  cases s <;> cases t <;> simp <;> omega

theorem numLt_fin_inf (s t : Bool) (n d : Nat) : (Val.fin s n d).numLt (.inf t) = !t := by simp [Val.numLt, Val.isZero, Val.lt]

theorem numLt_inf_fin (s t : Bool) (n d : Nat) : (Val.inf s).numLt (.fin t n d) = s := by simp [Val.numLt, Val.isZero, Val.lt]

theorem numLt_inf_inf (s t : Bool) : (Val.inf s).numLt (.inf t) = (s && !t) := by simp [Val.numLt, Val.isZero, Val.lt]

/-- Of two numbers the sign of the larger magnitude decides. -/
theorem signed_lt_iff_of_lt {s t : Bool} {m k : Nat} (h : m < k) :
    (signed s m < signed t k ↔ t = false) ∧ (signed t k < signed s m ↔ t = true) := by
  cases s <;> cases t <;> simp <;> omega

theorem numLt_f32_iff {s t : Bool} {m k : Nat} (hm : m ≤ 0x7F800000) (hk : k ≤ 0x7F800000) :
    (f32 (code32 s m)).numLt (f32 (code32 t k)) = true ↔ signed s m < signed t k := by
  obtain hm | rfl := Nat.lt_or_eq_of_le hm <;> obtain hk | rfl := Nat.lt_or_eq_of_le hk
  · obtain ⟨n, d, left, hd, hn⟩ := f32_finite s hm
    obtain ⟨l, e, right, he, hl⟩ := f32_finite t hk
    rw [left, right, numLt_fin_iff hd he (Nat.two_pow_pos 149) hn hl, signed_mag32_lt_iff]
  · obtain ⟨n, d, left, -, -⟩ := f32_finite s hm
    rw [left, f32_inf, numLt_fin_inf, (signed_lt_iff_of_lt hm).1, Bool.not_eq_true']
  · obtain ⟨l, e, right, -, -⟩ := f32_finite t hk
    rw [right, f32_inf, numLt_inf_fin, (signed_lt_iff_of_lt hk).2]
  · rw [f32_inf, f32_inf, numLt_inf_inf]
    cases s <;> cases t <;> decide

/-! ## Keys -/

theorem distKey_nan {f : Nat} (h : isNaN32 f = true) : distKey f = 0xFFC00000 := by
  rw [distKey, if_pos h]; rfl

theorem distKey_number {f : Nat} (h : f < 2 ^ 32) (number : isNaN32 f = false) (notZero : f ≠ 0x80000000) :
    distKey f = if f.testBit 31 then 0xFFFFFFFF - f else f ||| 0x80000000 := by
  simp only [distKey, number, Bool.false_eq_true, if_false, Nat.mod_eq_of_lt h, notZero]

theorem isNaN32_number {neg : Bool} {m : Nat} (h : m ≤ 0x7F800000) : isNaN32 (code32 neg m) = false := by
  rw [isNaN32_code32 (by omega), decide_eq_false (by omega)]

theorem distKey_positive {m : Nat} (h : m ≤ 0x7F800000) : distKey (code32 false m) = code32 false m ||| 0x80000000 := by
  rw [distKey_number (code32_lt (by omega)) (isNaN32_number h) (by rw [code32_false]; omega), code32_testBit (by omega)]
  rfl

theorem distKey_negative {m : Nat} (pos : 0 < m) (h : m ≤ 0x7F800000) :
    distKey (code32 true m) = 0xFFFFFFFF - code32 true m := by
  rw [distKey_number (code32_lt (by omega)) (isNaN32_number h) (by rw [code32_true]; omega), code32_testBit (by omega)]
  rfl

theorem distKey_negativeZero : distKey (code32 true 0) = distKey 0 := by decide +kernel

/-- Keys are the signed magnitudes moved up past the sign, with no key for a second zero. -/
theorem distKey_eq {neg : Bool} {m : Nat} (h : m ≤ 0x7F800000) :
    (distKey (code32 neg m) : Int) = 2 ^ 31 + signed neg m - if signed neg m < 0 then 1 else 0 := by
  have positive {k : Nat} (hk : k ≤ 0x7F800000) : distKey (code32 false k) = 2 ^ 31 + k := by
    rw [distKey_positive hk, code32_false, Nat.or_comm]
    exact (Nat.two_pow_add_eq_or_of_lt (i := 31) (b := k) (by omega) 1).symm
  cases neg with
  | false => rw [positive h, signed_false, if_neg (by omega)]; omega
  | true =>
    obtain rfl | pos := Nat.eq_zero_or_pos m
    · rw [distKey_negativeZero, ← code32_false 0, positive h]; rfl
    · rw [distKey_negative pos h, code32_true, signed_true, if_pos (by omega)]; omega

theorem distKey_lt_iff {s t : Bool} {m k : Nat} (hm : m ≤ 0x7F800000) (hk : k ≤ 0x7F800000) :
    distKey (code32 s m) < distKey (code32 t k) ↔ signed s m < signed t k := by
  rw [← Int.ofNat_lt, distKey_eq hm, distKey_eq hk]
  split <;> split <;> omega

/-- No number's key is above that of +infinity. -/
theorem distKey_le {neg : Bool} {m : Nat} (h : m ≤ 0x7F800000) : distKey (code32 neg m) ≤ 0xFF800000 := by
  have infinity : distKey (code32 false 0x7F800000) = 0xFF800000 := by decide +kernel
  rw [← Nat.not_lt, ← infinity, distKey_lt_iff (Nat.le_refl _) h, signed_false]
  cases neg <;> simp only [signed_false, signed_true] <;> omega

/-- The FP32 codes that are numbers, infinities among them. -/
theorem exists_number {f : Nat} (h : f < 2 ^ 32) (number : isNaN32 f = false) : ∃ neg m, m ≤ 0x7F800000 ∧ f = code32 neg m := by
  obtain ⟨neg, m, hm, rfl⟩ := exists_code32 h
  rw [isNaN32_code32 hm, decide_eq_false_iff_not] at number
  exact ⟨neg, m, by omega, rfl⟩

/-- Settles O54: the order of numbers and the order of keys are both that of the signed magnitudes. -/
theorem distanceKeyOrder : Obligations.DistanceKeyOrder := by
  refine ⟨by decide +kernel, by decide +kernel, fun f _ => distKey_nan, fun f low number => ?_, distKey_negativeZero,
    fun f negative high number => ?_, fun a b ha hb numberA numberB => ?_, fun f n hf number nan => ?_⟩
  · obtain ⟨neg, m, hm, rfl⟩ := exists_number (by omega) number
    cases neg with
    | false => exact distKey_positive hm
    | true => rw [code32_true] at low; omega
  · obtain ⟨neg, m, hm, rfl⟩ := exists_number high number
    cases neg with
    | false => rw [code32_false] at negative; omega
    | true => exact distKey_negative (by rw [code32_true] at negative; omega) hm
  · obtain ⟨s, m, hm, rfl⟩ := exists_number ha numberA
    obtain ⟨t, k, hk, rfl⟩ := exists_number hb numberB
    rw [numLt_f32_iff hm hk, distKey_lt_iff hm hk]
  · obtain ⟨neg, m, hm, rfl⟩ := exists_number hf number
    rw [distKey_nan nan]
    exact ⟨Nat.lt_of_le_of_lt (distKey_le hm) (by decide), by decide⟩

end Sys2Proof.Proofs

/-!
What a row does where its hardware is there and its condition holds (R2, R58): the two guards of every row's meaning.
-/

namespace Sys2Proof.Proofs

open Sys2Proof.Machine Sys2Proof.Safety

/-! ## Where a row acts -/

theorem when_pos {c : Bool} (due : c = true) (f : State → State) (s : State) : when c f s = f s := if_pos due

theorem guarded_when {there due : Bool} (present : there = true) (holds : due = true) (row : String) (f : State → State) (s : State) :
    guarded row there (when due f s) = .next (f s) := by
  rw [guarded, if_pos present, when_pos holds]

/-! ## Hardware that is there, and hardware that is not -/

/-- A row's outcome where the presence of its hardware is `there`: a next state, or the one fault that says so. -/
def RunsWhere (there : Bool) (o : Host.Outcome State Fault Refusal) : Prop :=
  (there = true → ∃ t, o = .next t) ∧ (there = false → ∃ row, o = .fault (.absentUnit row))

theorem runsWhere_guarded (row : String) (there : Bool) (t : State) : RunsWhere there (guarded row there t) := by
  cases there with
  | true => exact ⟨fun _ => ⟨t, rfl⟩, nofun⟩
  | false => exact ⟨nofun, fun _ => ⟨row, rfl⟩⟩

/-- A row that names no hardware always runs. -/
theorem runsWhere_next (t : State) : RunsWhere true (.next t) := ⟨fun _ => ⟨t, rfl⟩, nofun⟩

/-- Settles O40: a row that names hardware is guarded by its presence, and any other answers a next state on every path. -/
theorem absentUnitsFault : Obligations.AbsentUnitsFault := by
  intro c s
  change RunsWhere (unitThereFor c s) (exec c s)
  cases c
  -- functions, rings and vectors
  case funcDisableDone | coalescingTimer | queryEntry | insertEntry | deleteEntry | attnStep | gatherEntry | updateEntry | topkEntry
      | requestEntry | modelRun | hashGet | hashPut | hashDelete | ringRejection => exact runsWhere_guarded ..
  -- gaffer engines, jack units, punty cores and the directory of indexes
  case coarseBatchClose | coarseScoring | subDistanceTable | insertEncoding | refinement | modelProgramJob | hotRowChunk
      | trainingPass | jackPass | slotSchedule | puntyFlip | coreFault | changeComplete | statsSnapshot | compact =>
    exact runsWhere_guarded ..
  -- marver units, dies and banks of a stack of the layout
  case marverCommandStart | scan8 | scan4 | marverFilter | blockScore | attnKey | attnValue | marverPool | gradRmw | marverAppend
      | marverMark | marverCopy | marverScrub | marverDrain | hostSlot | lutLoad | diebusXfer | bankRefresh | ucodeSwitch =>
    exact runsWhere_guarded ..
  -- ports, their lanes and wavelengths, laser feeds and cane engines
  case wavelengthFail | wavelengthRetrain | remapFrame | portTrainTimeout | portUp | probePulse | probeReturn | lightReceived
      | openFibre | dataFrame | frameReplayTimeout | helloMsg | helloTimeout | helloSendTimer | ptpTime | ptpSendTimer | packetSelect
      | gateTakeOver | gateEntryChange | queueSample | laserFeedLost | fibreConnLost | fibreConnRestored =>
    exact runsWhere_guarded ..
  -- move channels, flash channels and carriers, and what the board reads at its pins
  case moveDescriptorStart | moveBurstDone | flashTargetProbe | flashOperation | reclaim | wearMove | flashPatrol | groupMount
      | carrierPresent | carrierRemoved | streamMove | strapSample | stackDiscovery | i3cEntdaa | entryTrip | thermalSample =>
    exact runsWhere_guarded ..
  -- rows that look up what they name in a table, and do nothing where it is not listed
  case thresholdPass | frontierReached | frontierWaitTimeout | frontierNotice | lowEpochPublish | groupSnapshot | poolResp
      | poolReadTimeout | renewSend | grantMsg | leaseLapse | releaseSend =>
    simp only [exec, execThresholdPass, execFrontierReached, execFrontierWaitTimeout, execFrontierNotice, execLowEpochPublish,
      execGroupSnapshot, execPoolResp, execPoolReadTimeout, execRenewSend, execGrantMsg, execLeaseLapse, execReleaseSend]
    split <;> exact runsWhere_next _
  all_goals exact runsWhere_next _

end Sys2Proof.Proofs

/-!
What rows that store leave alone (R87, R318, R417): a fabric write, and the rewrite of a poisoned granule.
-/

namespace Sys2Proof.Proofs

open Sys2Proof.Machine Sys2Proof.Safety Sys2Proof.Laws

/-! ## A fabric write -/

/-- A write leaves memory as it was, or holds its data: it stores where its access is allowed and its ends are whole (R86, R318). -/
theorem mem_memWrite (s : State) (p : Packet) : (memWrite s p).mem =
    if fabricOk (takeMsg s p) p (p.payload.drop 8).length = true ∧
        endsPoisoned s.mem (bits (fld p.payload 0 8) 40 0) (p.payload.drop 8).length = false
    then store s.mem (bits (fld p.payload 0 8) 40 0) (p.payload.drop 8) else s.mem := by
  simp only [memWrite, mem_takeMsg]
  cases allowed : fabricOk (takeMsg s p) p (p.payload.drop 8).length with
  | false => simp only [Bool.not_false, if_true, Bool.false_eq_true, false_and, if_false, mem_refuseAccess, mem_takeMsg]
  | true =>
    cases whole : endsPoisoned s.mem (bits (fld p.payload 0 8) 40 0) (p.payload.drop 8).length with
    | false => simp only [Bool.not_true, Bool.false_eq_true, if_false, and_self, if_true, mem_sendTxn]
    | true => simp only [Bool.not_true, Bool.false_eq_true, Bool.true_eq_false, and_false, if_false, if_true, mem_sendTxn, mem_takeMsg]

/-- A store clears the poison of the whole granules it writes and of no other (R87). -/
theorem contains_store_poison (m : Mem) (a : Nat) (l : List Byte) (g : Nat) : (store m a l).poison.contains g =
    (m.poison.contains g && !(decide (a ≤ g * 32) && decide (g * 32 + 32 ≤ a + l.length))) := by
  rw [Bool.eq_iff_iff]
  simp only [List.contains_iff_mem, mem_store_poison, Bool.and_eq_true, Bool.not_eq_true', ← Bool.decide_and,
    decide_eq_false_iff_not]

/-- Settles O47: the row's memory is the one before it, or that with the message's data stored. -/
theorem memWriteFrame : Obligations.MemWriteFrame := by
  intro p s a d
  refine ⟨_, rfl, fun x outside => ?_, fun run write long canonical allowed whole => ?_⟩
  · rw [when]
    split
    · rw [mem_memWrite]
      split
      · exact readByte_store_outside s.mem a d x outside
      · rfl
    · rfl
  · have written : (memWrite s p).mem = store s.mem a d := (mem_memWrite s p).trans (if_pos ⟨allowed, whole⟩)
    have acts : (decide (s.boot.stage = .run) && p.msg == 0x10 && decide (8 ≤ p.payload.length)) = true := by
      rw [decide_eq_true run, write, decide_eq_true long]; rfl
    rw [when_pos acts, written]
    exact ⟨fun i hi => readByte_store_inside s.mem a d i canonical hi, contains_store_poison s.mem a d⟩

/-! ## The rewrite of a poisoned granule -/

/-- The rewrite leaves memory as it was, or stores the granule: it does so while its REBUILD activity runs (R87). -/
theorem mem_poisonRewrite (g : Nat) (data : List Byte) (s : State) :
    (poisonRewrite g data s).mem = s.mem ∨ (poisonRewrite g data s).mem = store s.mem (32 * g) data := by
  rw [poisonRewrite]
  split
  · exact .inr (mem_dropActivity ..)
  · split
    · exact .inl rfl
    · exact .inl (mem_submit ..)

/-- Settles O48: what the row may store is the 32 bytes of its granule. -/
theorem poisonRewriteFrame : Obligations.PoisonRewriteFrame := by
  intro dpa data s
  refine ⟨_, rfl, ?_⟩
  rw [when]
  split
  next acts =>
    simp only [Bool.and_eq_true, decide_eq_true_eq] at acts
    obtain ⟨⟨⟨⟨-, aligned⟩, length⟩, -⟩, -⟩ := acts
    obtain same | stored := mem_poisonRewrite (dpa / 32) data s
    · rw [same]; exact ⟨fun _ _ => rfl, fun _ _ => rfl⟩
    · have start : 32 * (dpa / 32) = dpa := Nat.mul_div_cancel' (Nat.dvd_of_mod_eq_zero aligned)
      rw [stored, start]
      refine ⟨fun x outside => readByte_store_outside s.mem dpa data x (length ▸ outside), fun g other => ?_⟩
      have apart : (decide (dpa ≤ g * 32) && decide (g * 32 + 32 ≤ dpa + data.length)) = false := by
        rw [← Bool.decide_and, decide_eq_false_iff_not]; omega
      rw [contains_store_poison, apart, Bool.not_false, Bool.and_true]
  next => exact ⟨fun _ _ => rfl, fun _ _ => rfl⟩

end Sys2Proof.Proofs

/-!
Addresses (R56 to R61): the fields of a marver address, and the interleave with its inverse on the place of a byte.
-/

namespace Sys2Proof.Proofs

open Sys2Proof.Machine Sys2Proof.Safety

/-! ## Fields of a marver address -/

theorem bits_eq_div_mod (n hi lo : Nat) : bits n hi lo = n / 2 ^ lo % 2 ^ (hi + 1 - lo) := by
  rw [bits, Nat.shiftRight_eq_div_pow]

/-- The fields below the stack are read back; of the stack, its 4 bits. -/
theorem fields_mkMa {die bank off : Nat} (stack : Nat) (hd : die < 16) (hb : bank < 256) (ho : off < 2 ^ 25) :
    maStack (mkMa stack die bank off) = stack % 16 ∧ maDie (mkMa stack die bank off) = die ∧
      maBank (mkMa stack die bank off) = bank ∧ maOffset (mkMa stack die bank off) = off := by
  simp only [maStack, maDie, maBank, maOffset, mkMa, bits_eq_div_mod]
  omega

theorem mkMa_fields {ma : Nat} (h : ma < 2 ^ 41) : mkMa (maStack ma) (maDie ma) (maBank ma) (maOffset ma) = ma := by
  simp only [maStack, maDie, maBank, maOffset, mkMa, bits_eq_div_mod]
  omega

theorem maDie_lt_maBank_lt (ma : Nat) : maDie ma < 16 ∧ maBank ma < 256 := by
  simp only [maDie, maBank, bits_eq_div_mod]
  omega

theorem mkMa_lt {stack die bank off : Nat} (hs : stack < 16) (hd : die < 16) (hb : bank < 256) (ho : off < 2 ^ 25) :
    mkMa stack die bank off < 2 ^ 41 := by
  rw [mkMa]; omega

/-- Settles O51: the field functions are the bit ranges of R56, and each reads its own field back. -/
theorem marverAddressLayout : Obligations.MarverAddressLayout := by
  intro stack die bank off hs hd hb ho ma
  obtain ⟨stackField, dieField, bankField, offField⟩ := fields_mkMa stack hd hb ho
  rw [Nat.mod_eq_of_lt hs] at stackField
  exact ⟨mkMa_lt hs hd hb ho, stackField, dieField, bankField, offField, stackField, dieField, bankField, offField⟩

/-! ## The folds and the rotation of R60 -/

theorem fold4_lt (l : Nat) : fold4 l < 16 := by
  have part (hi lo : Nat) (h : hi + 1 - lo ≤ 4) : bits l hi lo < 2 ^ 4 :=
    Nat.lt_of_lt_of_le (Nat.mod_lt _ (Nat.two_pow_pos _)) (Nat.pow_le_pow_right (by decide) h)
  exact Nat.xor_lt_two_pow (Nat.xor_lt_two_pow (Nat.xor_lt_two_pow (Nat.xor_lt_two_pow (Nat.xor_lt_two_pow
    (part 3 0 (by decide)) (part 7 4 (by decide))) (part 11 8 (by decide))) (part 15 12 (by decide))) (part 19 16 (by decide)))
    (part 22 20 (by decide))

theorem fold6_lt (l : Nat) : fold6 l < 64 := by
  have part (hi lo : Nat) (h : hi + 1 - lo ≤ 6) : bits l hi lo < 2 ^ 6 :=
    Nat.lt_of_lt_of_le (Nat.mod_lt _ (Nat.two_pow_pos _)) (Nat.pow_le_pow_right (by decide) h)
  exact Nat.xor_lt_two_pow (Nat.xor_lt_two_pow (Nat.xor_lt_two_pow (part 5 0 (by decide)) (part 11 6 (by decide)))
    (part 17 12 (by decide))) (part 22 18 (by decide))

theorem xor_fold6_lt {c : Nat} (h : c < 64) (l : Nat) : c ^^^ fold6 l < 64 := Nat.xor_lt_two_pow (n := 6) h (fold6_lt l)

theorem xor_fold6_twice (c l : Nat) : c ^^^ fold6 l ^^^ fold6 l = c := by
  rw [Nat.xor_assoc, Nat.xor_self, Nat.xor_zero]

/-- A rotation of `n` places by `f`, the way back first. -/
theorem rotate_back_forth {n f a : Nat} (h : f ≤ n * 16) (ha : a < n) : ((a + (n * 16 - f)) % n + f) % n = a := by
  have whole : a + (n * 16 - f) + f = a + n * 16 := by omega
  rw [Nat.mod_add_mod, whole, Nat.add_mul_mod_self_left, Nat.mod_eq_of_lt ha]

/-- A rotation of `n` places by `f`, the way forth first. -/
theorem rotate_forth_back {n f a : Nat} (h : f ≤ n * 16) (ha : a < n) : ((a + f) % n + (n * 16 - f)) % n = a := by
  have whole : a + f + (n * 16 - f) = a + n * 16 := by omega
  rw [Nat.mod_add_mod, whole, Nat.add_mul_mod_self_left, Nat.mod_eq_of_lt ha]

/-! ## The place of a byte -/

/-- The DPA of byte `b` of line `c` of piece `r` of row `l`, with `n` stacks in the interleave: R60's division of a DPA undone. -/
def dpaAt (n l r c b : Nat) : Nat := (l * n + r) * 2 ^ 14 + c * 256 + b

/-- The marver address of byte `b` of row `l` in pseudo-channel `pc` of a stack (R60). -/
def maAt (stack l pc b : Nat) : Nat := mkMa stack (l % 64 / 4) (4 * pc + l % 64 % 4) (l / 64 * 256 + b)

theorem exists_dpaAt {n dpa : Nat} (h : dpa < n * (0x480000 * 2 ^ 14)) :
    ∃ l r c b, l < 0x480000 ∧ r < n ∧ c < 64 ∧ b < 256 ∧ dpa = dpaAt n l r c b := by
  have pos : 0 < n := by
    refine Nat.pos_of_ne_zero fun zero => ?_
    rw [zero] at h; omega
  refine ⟨dpa / 2 ^ 14 / n, dpa / 2 ^ 14 % n, dpa / 256 % 64, dpa % 256, ?_, Nat.mod_lt _ pos, by omega, by omega, ?_⟩
  · exact Nat.div_lt_of_lt_mul (by omega)
  · rw [dpaAt, Nat.div_add_mod']; omega

theorem dpaAt_lt {n l r c b : Nat} (hl : l < 0x480000) (hr : r < n) (hc : c < 64) (hb : b < 256) :
    dpaAt n l r c b < n * (0x480000 * 2 ^ 14) := by
  have rows : l * n + r < 0x480000 * n := by
    calc l * n + r < (l + 1) * n := by rw [Nat.succ_mul]; omega
      _ ≤ 0x480000 * n := Nat.mul_le_mul_right n hl
  rw [dpaAt]; omega

theorem dpaToMa_dpaAt {map : List Nat} {l r c b : Nat} (hr : r < map.length) (hc : c < 64) (hb : b < 256) :
    dpaToMa map (dpaAt map.length l r c b) = maAt (map.getD ((r + fold4 l) % map.length) 0) l (c ^^^ fold6 l) b := by
  have count : max 1 map.length = map.length := by omega
  have piece : dpaAt map.length l r c b / 256 / 64 = l * map.length + r := by rw [dpaAt]; omega
  have line : dpaAt map.length l r c b / 256 % 64 = c := by rw [dpaAt]; omega
  have byte : dpaAt map.length l r c b % 256 = b := by rw [dpaAt]; omega
  have row : (l * map.length + r) / map.length = l := by
    rw [Nat.mul_comm, Nat.mul_add_div (by omega), Nat.div_eq_of_lt hr, Nat.add_zero]
  have rest : (l * map.length + r) % map.length = r := by rw [Nat.mul_add_mod_self_right, Nat.mod_eq_of_lt hr]
  simp only [dpaToMa, maAt, count, piece, line, byte, row, rest]

/-- The fields of a place's marver address. -/
theorem fields_maAt {l pc b : Nat} (stack : Nat) (hl : l < 0x480000) (hpc : pc < 64) (hb : b < 256) :
    maStack (maAt stack l pc b) = stack % 16 ∧ maDie (maAt stack l pc b) = l % 64 / 4 ∧
      maBank (maAt stack l pc b) = 4 * pc + l % 64 % 4 ∧ maOffset (maAt stack l pc b) = l / 64 * 256 + b :=
  fields_mkMa stack (by omega) (by omega) (by omega)

/-- A marver address of an offset within the bank is that of a place. -/
theorem exists_maAt {ma : Nat} (h : ma < 2 ^ 41) (within : maOffset ma ≤ 0x11FFFFF) :
    ∃ l pc b, l < 0x480000 ∧ pc < 64 ∧ b < 256 ∧ ma = maAt (maStack ma) l pc b := by
  obtain ⟨hd, hb⟩ := maDie_lt_maBank_lt ma
  refine ⟨maOffset ma / 256 * 64 + (maDie ma * 4 + maBank ma % 4), maBank ma / 4, maOffset ma % 256, by omega, by omega, by omega, ?_⟩
  have same : maAt (maStack ma) (maOffset ma / 256 * 64 + (maDie ma * 4 + maBank ma % 4)) (maBank ma / 4) (maOffset ma % 256) =
      mkMa (maStack ma) (maDie ma) (maBank ma) (maOffset ma) := by
    rw [maAt]; congr 1 <;> omega
  rw [same, mkMa_fields h]

/-! ## The interleave and its inverse -/

/-- The stack at a place of the layout. -/
theorem getD_of_lt {map : List Nat} {i : Nat} (hi : i < map.length) : map.getD i 0 = map[i] := by
  rw [List.getD_eq_getElem?_getD, List.getElem?_eq_getElem hi, Option.getD_some]

/-- The place that a stack has in the layout. -/
theorem findIdx?_maStack {map : List Nat} (ok : MapOk map) {i : Nat} (hi : i < map.length) {ma : Nat} (stack : maStack ma = map[i]) :
    map.findIdx? (· == maStack ma) = some i := by
  obtain ⟨-, distinct, -⟩ := ok
  rw [List.findIdx?_eq_some_iff_getElem]
  refine ⟨hi, beq_iff_eq.mpr stack.symm, fun j hj => ?_⟩
  rw [stack, Bool.not_eq_true, beq_eq_false_iff_ne]
  exact List.pairwise_iff_getElem.mp distinct j i (Nat.lt_trans hj hi) hi hj

theorem maToDpa_maAt {map : List Nat} (ok : MapOk map) {i l pc b : Nat} (hi : i < map.length) (hl : l < 0x480000) (hpc : pc < 64)
    (hb : b < 256) : maToDpa map (maAt map[i] l pc b) =
      some (dpaAt map.length l ((i + (map.length * 16 - fold4 l)) % map.length) (pc ^^^ fold6 l) b) := by
  obtain ⟨stack, die, bank, off⟩ := fields_maAt map[i] hl hpc hb
  have ⟨_, _, inRange⟩ := ok
  rw [Nat.mod_eq_of_lt (inRange _ (List.getElem_mem hi))] at stack
  have row : (l / 64 * 256 + b) / 256 * 64 + (l % 64 / 4 * 4 + (4 * pc + l % 64 % 4) % 4) = l := by omega
  have channel : (4 * pc + l % 64 % 4) / 4 = pc := by omega
  have byte : (l / 64 * 256 + b) % 256 = b := by omega
  have within : l / 64 * 256 + b ≤ 0x11FFFFF := by omega
  simp only [maToDpa, findIdx?_maStack ok hi stack, die, bank, off, row, channel, byte, within, if_true, dpaAt]

theorem maToDpa_eq_none {map : List Nat} {ma : Nat} (h : maStack ma ∉ map ∨ 0x11FFFFF < maOffset ma) : maToDpa map ma = none := by
  rw [maToDpa]
  split
  · rfl
  · next i found =>
    refine if_neg fun within => ?_
    obtain ⟨hi, stack, -⟩ := List.findIdx?_eq_some_iff_getElem.mp found
    have listed : maStack ma ∈ map := beq_iff_eq.mp stack ▸ List.getElem_mem hi
    exact h.elim (· listed) (by omega)

theorem maToDpa_dpaToMa {map : List Nat} (ok : MapOk map) {dpa : Nat} (h : dpa < map.length * (0x480000 * 2 ^ 14)) :
    maToDpa map (dpaToMa map dpa) = some dpa := by
  obtain ⟨l, r, c, b, hl, hr, hc, hb, rfl⟩ := exists_dpaAt h
  have hi : (r + fold4 l) % map.length < map.length := Nat.mod_lt _ (by omega)
  have := fold4_lt l
  rw [dpaToMa_dpaAt hr hc hb, getD_of_lt hi, maToDpa_maAt ok hi hl (xor_fold6_lt hc l) hb,
    rotate_forth_back (by omega) hr, xor_fold6_twice]

theorem dpaToMa_maToDpa {map : List Nat} (ok : MapOk map) {ma : Nat} (h : ma < 2 ^ 41) (listed : maStack ma ∈ map)
    (within : maOffset ma ≤ 0x11FFFFF) :
    ∃ dpa, maToDpa map ma = some dpa ∧ dpa < map.length * (0x480000 * 2 ^ 14) ∧ dpaToMa map dpa = ma := by
  obtain ⟨l, pc, b, hl, hpc, hb, place⟩ := exists_maAt h within
  obtain ⟨i, hi, stack⟩ := List.getElem_of_mem listed
  rw [← stack] at place
  have hr : (i + (map.length * 16 - fold4 l)) % map.length < map.length := Nat.mod_lt _ (by omega)
  have hc := xor_fold6_lt hpc l
  have := fold4_lt l
  refine ⟨_, place ▸ maToDpa_maAt ok hi hl hpc hb, dpaAt_lt hl hr hc hb, ?_⟩
  rw [dpaToMa_dpaAt hr hc hb, rotate_back_forth (by omega) hi, xor_fold6_twice, getD_of_lt hi, ← place]

/-- Settles O52: both directions turn on the rotation and the fold of a row being undone, since the row itself is kept. -/
theorem addressRoundTrip : Obligations.AddressRoundTrip := fun _ ok =>
  ⟨fun _ => maToDpa_dpaToMa ok, fun _ => dpaToMa_maToDpa ok, fun _ => maToDpa_eq_none⟩

/-- Settles O53: R60's bit ranges are the quotients and remainders that the interleave takes, and its fields are read back. -/
theorem interleaveFormula : Obligations.InterleaveFormula := by
  intro map dpa filled valid n u c q r l ell pc j
  have pos : 0 < n := List.length_pos_iff.mpr filled
  have below : dpa < n * (0x480000 * 2 ^ 14) := valid
  have rows : l < 0x480000 := Nat.div_lt_of_lt_mul (by simp only [q, u, bits_eq_div_mod]; omega)
  refine ⟨rows, fun few => ?_, rfl, rfl, fun few => ?_⟩
  · rw [bits_eq_div_mod]; omega
  · have count : max 1 map.length = n := Nat.max_eq_right pos
    have piece : q = dpa / 256 / 64 := by simp only [q, u, bits_eq_div_mod]; omega
    have line : c = dpa / 256 % 64 := by simp only [c, u, bits_eq_div_mod]; omega
    have hi : ell < map.length := Nat.mod_lt _ pos
    have address : dpaToMa map dpa = maAt map[ell] l pc (dpa % 256) := by
      rw [← getD_of_lt hi]
      simp only [dpaToMa, maAt, count, ← piece, ← line, ell, pc, r, l]
    obtain ⟨stack, die, bank, off⟩ :=
      fields_maAt map[ell] rows (xor_fold6_lt (c := c) (by omega) l) (Nat.mod_lt dpa (by decide : 0 < 256))
    rw [address]
    refine ⟨hi, stack, die.trans ?_, bank.trans ?_, off.trans ?_⟩
    · simp only [j, bits_eq_div_mod]; omega
    · simp only [j, bits_eq_div_mod]; omega
    · simp only [bits_eq_div_mod]; omega

end Sys2Proof.Proofs

/-!
A scan's local best-32 (R71): what the stable order of a key keeps, and the 32 least of it.
-/

namespace Sys2Proof.Proofs

open Sys2Proof.Machine

/-! ## The stable order of a key -/

section
variable {α : Type} (key : α → Nat)

theorem perm_insertOn (a : α) (l : List α) : (insertOn key a l).Perm (a :: l) := by
  induction l with
  | nil => exact .refl _
  | cons b t ih =>
    rw [insertOn]
    split
    · exact .refl _
    · exact (ih.cons b).trans (.swap a b t)

theorem pairwise_insertOn (a : α) {l : List α} (h : l.Pairwise fun x y => key x ≤ key y) :
    (insertOn key a l).Pairwise fun x y => key x ≤ key y := by
  induction l with
  | nil => exact List.pairwise_singleton _ a
  | cons b t ih =>
    obtain ⟨least, rest⟩ := List.pairwise_cons.mp h
    rw [insertOn]
    split
    next lt =>
      refine List.pairwise_cons.mpr ⟨fun x hx => ?_, h⟩
      obtain rfl | hx := List.mem_cons.mp hx
      · exact Nat.le_of_lt lt
      · exact Nat.le_trans (Nat.le_of_lt lt) (least x hx)
    next ge =>
      refine List.pairwise_cons.mpr ⟨fun x hx => ?_, ih rest⟩
      obtain rfl | hx := List.mem_cons.mp ((perm_insertOn key a t).mem_iff.mp hx)
      · exact Nat.not_lt.mp ge
      · exact least x hx

/-- Insertions one after another keep what was there and add what comes. -/
theorem perm_foldl_insertOn (l r : List α) : (l.foldl (fun r a => insertOn key a r) r).Perm (l ++ r) := by
  induction l generalizing r with
  | nil => exact .refl r
  | cons a t ih => exact (ih (insertOn key a r)).trans (((perm_insertOn key a r).append_left t).trans List.perm_middle)

theorem pairwise_foldl_insertOn (l : List α) {r : List α} (h : r.Pairwise fun x y => key x ≤ key y) :
    (l.foldl (fun r a => insertOn key a r) r).Pairwise fun x y => key x ≤ key y := by
  induction l generalizing r with
  | nil => exact h
  | cons a t ih => exact ih (pairwise_insertOn key a h)

theorem perm_sortOn (l : List α) : (sortOn key l).Perm l :=
  (perm_foldl_insertOn key l []).trans (.of_eq (List.append_nil l))

theorem pairwise_sortOn (l : List α) : (sortOn key l).Pairwise fun x y => key x ≤ key y := pairwise_foldl_insertOn key l .nil

end

/-! ## The 32 least -/

/-- What the first elements of an ordered list leave out stands behind all of them. -/
theorem rel_of_mem_take {α : Type} {R : α → α → Prop} {l : List α} (ordered : l.Pairwise R) {n : Nat} {x y : α} (hy : y ∈ l.take n)
    (hx : x ∈ l) (lost : x ∉ l.take n) : R y x := by
  rw [← List.take_append_drop n l, List.pairwise_append] at ordered
  rw [← List.take_append_drop n l, List.mem_append] at hx
  obtain ⟨-, -, across⟩ := ordered
  exact across y hy x (hx.resolve_left lost)

/-- The key of an entry orders by distance, and then by ordinal (R199). -/
theorem entryKey_le_iff {x y : Entry} (hx : x.ordinal < 2 ^ 64) (hy : y.ordinal < 2 ^ 64) :
    entryKey x ≤ entryKey y ↔ x.dist < y.dist ∨ x.dist = y.dist ∧ x.ordinal ≤ y.ordinal := by
  rw [entryKey, entryKey]; omega

/-- Outside a threshold pass the candidate joins the list, of which the 32 least stay (R71). -/
theorem best_retain {c : MarverCtx} (pass : c.cmd.pass ≠ 1) (e : Entry) :
    (retain c e).best = (sortOn entryKey (c.best ++ [e])).take 32 := by
  simp only [retain, if_neg pass]
  split
  next whole => exact (List.take_of_length_le (List.getElem?_eq_none_iff.mp whole)).symm
  next => split <;> rfl

theorem passed_retain {c : MarverCtx} (pass : c.cmd.pass ≠ 1) (e : Entry) : (retain c e).passed = satAdd 32 c.passed 1 := by
  simp only [retain, if_neg pass]
  split
  next => rfl
  next => split <;> rfl

/-- Settles O58: the list kept is the front of the sorted candidates, so what is not kept stands behind all of it. -/
theorem localBest32 : Obligations.LocalBest32 := by
  intro c e pass _ he hbest _ b
  have kept : b = (sortOn entryKey (c.best ++ [e])).take 32 := best_retain pass e
  have perm := perm_sortOn entryKey (c.best ++ [e])
  have candidate (x : Entry) : x ∈ sortOn entryKey (c.best ++ [e]) ↔ x ∈ c.best ∨ x = e := by
    rw [perm.mem_iff, List.mem_append, List.mem_singleton]
  have ordinal {x : Entry} (hx : x ∈ sortOn entryKey (c.best ++ [e])) : x.ordinal < 2 ^ 64 :=
    ((candidate x).mp hx).elim (hbest x) (· ▸ he)
  have sorted : (sortOn entryKey (c.best ++ [e])).Pairwise
      fun x y => x.dist < y.dist ∨ x.dist = y.dist ∧ x.ordinal ≤ y.ordinal :=
    (pairwise_sortOn entryKey _).imp_of_mem fun hx hy => (entryKey_le_iff (ordinal hx) (ordinal hy)).mp
  rw [kept]
  refine ⟨?_, sorted.sublist (List.take_sublist ..), fun x hx => (candidate x).mp (List.mem_of_mem_take hx),
    fun x hx lost y hy => ?_, passed_retain pass e⟩
  · rw [List.length_take, perm.length_eq, List.length_append, List.length_singleton]
  · exact rel_of_mem_take sorted hy ((candidate x).mpr hx) lost

end Sys2Proof.Proofs

/-!
Sub-requests (R74, R172, R191): the later steps of one that this device serves, and what a home slot does with a reply or with the
lack of one.
-/

namespace Sys2Proof.Proofs

open Sys2Proof.Machine

theorem whenReached_reached {s : State} {q : SubIn} {i : Nat} {ix : Index} {mir : Bool} {c : Copy}
    (copy : servedCopy s q = some (i, ix, mir, c)) (reached : frontierAt s ix c q.bind0 = true) (serve : State → SubIn → State) :
    whenReached serve s q = serve s q := by
  simp only [whenReached, copy, reached, if_true]

theorem takeSlotReply_awaited {s : State} {slot kind shard : Nat} {r : Reply} {x : Slot} {o : SubOut}
    (held : getSlot s slot = some x) (waits : awaited s x kind shard r = some o) :
    takeSlotReply slot kind shard r s = giveReply slot x o r (takeReply s o) := by
  simp only [takeSlotReply, held, waits]

theorem timeoutSub_due {s : State} {slot kind shard : Nat} {x : Slot} {o : SubOut} (held : getSlot s slot = some x)
    (due : (x.subs.find? fun o => o.kind == kind && o.shard == shard && subTimedOut s o) = some o) :
    timeoutSub slot kind shard s = abandonSub slot x o s := by
  simp only [timeoutSub, held, due]

/-- Settles O15: each row looks up the sub-request or the slot that it names, and acts on it under its condition. -/
theorem subrequestEventsComplete : Obligations.SubrequestEventsComplete := by
  refine ⟨?_, ?_, ?_, ?_, ?_⟩
  · intro ident q i ix mir c s found runs threshold scan _
    have due : (firmwareRuns s && q.threshold) = true := by rw [runs, threshold]; rfl
    simp only [exec, execThresholdPass, found, when_pos due, if_neg scan]
  · intro ident q i ix mir c s found runs waits copy reached
    have due : (firmwareRuns s && waitsFrontier q) = true := by rw [runs, waits]; rfl
    simp only [exec, execFrontierReached, found, when_pos due, whenReached_reached copy reached]
  · intro ident q s found runs waits late
    have due : (firmwareRuns s && waitsFrontier q && elapsed s q.arrivedAt 10000000) = true := by rw [runs, waits, late]; rfl
    simp only [exec, execFrontierWaitTimeout, found, when_pos due]
  · intro slot kind shard r x o s runs held waits
    simp only [exec, execSubreqReply, when_pos runs, takeSlotReply_awaited held waits]
  · intro slot kind shard x o s runs held due
    simp only [exec, execSubreqTimeout, when_pos runs, timeoutSub_due held due]

end Sys2Proof.Proofs

/-!
Marver units (R66, R68, R73, R78, R79, R87 to R89, R147, R148, R244): the step of the context that the round robin grants, the start
of commands, and what else the unit's banks are given to.
-/

namespace Sys2Proof.Proofs

open Sys2Proof.Machine

/-! ## Steps -/

section
variable {op : MarverOp} {unit i : Nat} {c : MarverCtx} {s : State}

/-- The granted context takes the row's step where that is its next operation (R66). -/
theorem unitStep_granted (granted : stepCtx (getUnit s unit) = some (i, c)) (next : nextOp c = op)
    (step : Nat → MarverCtx → State → MarverCtx × State) (errs : List MemErr) : unitStep op step unit errs s =
      endStep unit i (step unit c (meetErrs s unit errs)).1 (step unit c (meetErrs s unit errs)).2 := by
  simp only [unitStep, granted, next, if_true]

theorem marverRow_granted (present : unitThere s unit = true) (runs : inRun s = true)
    (granted : stepCtx (getUnit s unit) = some (i, c)) (name : String) (step : Nat → MarverCtx → State → MarverCtx × State)
    (errs : List MemErr) (next : nextOp c = op) : marverRow name op step unit errs s =
      .next (endStep unit i (step unit c (meetErrs s unit errs)).1 (step unit c (meetErrs s unit errs)).2) := by
  rw [marverRow, guarded_when present runs, unitStep_granted granted next]

end

/-- Settles O17: the twelve rows are one, for twelve operations and their steps. -/
theorem marverStepsComplete : Obligations.MarverStepsComplete := by
  intro unit errs s i c present runs granted t after
  have row (name : String) (op : MarverOp) (step : Nat → MarverCtx → State → MarverCtx × State) :
      nextOp c = op → marverRow name op step unit errs s = after (step unit c t) :=
    marverRow_granted present runs granted name step errs
  exact ⟨row _ _ _, row _ _ _, row _ _ _, row _ _ _, row _ _ _, row _ _ _, row _ _ _, row _ _ _, row _ _ _, row _ _ _, row _ _ _,
    row _ _ _⟩

/-! ## Commands -/

/-- The head of a queue starts where a context and its pages are free and the unit is not at its microcode switch (R66, R536). -/
theorem startHead_starts {unit i : Nat} {s : State} {cmd : MarverCmd} {rest : List MarverCmd}
    (head : (getUnit s unit).queue = cmd :: rest) (free : (getUnit s unit).ctxs.findIdx? (·.isNone) = some i)
    (tables : pagesHeld (getUnit s unit) MarverCmd.tables + cmd.tables ≤ 16)
    (scratch : pagesHeld (getUnit s unit) MarverCmd.scratch + cmd.scratch ≤ 8) (unswitched : atSwitch s unit = false) :
    startHead unit s = putUnit s unit
      { getUnit s unit with queue := rest, ctxs := setAt (getUnit s unit).ctxs i (some (startCtx cmd)) } := by
  simp only [startHead, head, free, tables, scratch, unswitched, decide_true, Bool.not_false, Bool.and_true, if_true]

theorem queueCommand_taken {unit : Nat} {c : MarverCmd} {s : State} (ok : commandOk unit c = true)
    (room : (getUnit s unit).queue.length < 16) : queueCommand unit c s =
      putUnit s unit { getUnit s unit with queue := (getUnit s unit).queue ++ [c] } := if_pos ⟨ok, room⟩

/-! ## Scrubs and rewrites -/

theorem find?_running_eq_none {s : State} {p : Activity → Bool} (unasked : (s.rack.running ++ s.rack.queued).any p = false) :
    s.rack.running.find? p = none := by
  rw [List.any_append, Bool.or_eq_false_iff] at unasked
  obtain ⟨idle, -⟩ := unasked
  exact List.find?_eq_none.mpr (List.any_eq_false.mp idle)

theorem poisonRewrite_running {s : State} {g : Nat} {a : Activity}
    (running : (s.rack.running.find? fun b => b.code == 4 && sameScope (granuleRebuild s g) b) = some a) (data : List Byte) :
    poisonRewrite g data s = dropActivity { s with mem := store s.mem (32 * g) data } a.ident := by
  simp only [poisonRewrite, running]

/-- Settles O18: each row's condition is the conjunction of the clause's hypotheses, and its effect the one named. -/
theorem marverEventsComplete : Obligations.MarverEventsComplete := by
  refine ⟨?_, ?_, ?_, ?_, ?_, ?_, ?_, ?_, ?_⟩
  · intro unit s cmd rest i present runs head free tables scratch unswitched
    exact (guarded_when present runs _ _ s).trans (congrArg _ (startHead_starts head free tables scratch unswitched))
  · intro unit c s present runs unhalted ok room
    have firmware : firmwareRuns s = true := by rw [firmwareRuns, runs, unhalted]; rfl
    refine (guarded_when present runs _ _ s).trans ?_
    simp only [firmware, if_true, queueCommand_taken ok room]
  · intro units s present runs transfer
    exact guarded_when present (by rw [runs, transfer]; rfl) ..
  · intro unit errs a s present runs running _
    refine (guarded_when present runs _ _ s).trans ?_
    simp only [running]
  · intro unit errs s present runs unasked unfinished
    refine (guarded_when present runs _ _ s).trans ?_
    simp only [find?_running_eq_none unasked, unasked, decide_eq_false (Nat.not_le.mpr unfinished), Bool.or_false,
      Bool.false_eq_true, if_false]
  · exact fun die base errs s present runs => guarded_when present runs ..
  · exact fun unit a s present runs ok => guarded_when present (by rw [runs, ok]; rfl) ..
  · exact fun bank s present runs due => guarded_when present (by rw [runs, due]; rfl) ..
  · intro dpa data a s runs aligned length poisoned object running
    have due : (firmwareRuns s && decide (dpa % 32 = 0) && decide (data.length = 32) && s.mem.poison.contains (dpa / 32) &&
        objectPage s dpa) = true := by
      rw [runs, decide_eq_true aligned, decide_eq_true length, poisoned, object]; rfl
    rw [exec, execPoisonRewrite, when_pos due, poisonRewrite_running running]

end Sys2Proof.Proofs

/-!
The round-robin arbiter (R122): its grant is a search of the requesters in the order of their distance from the pointer.
-/

namespace Sys2Proof.Proofs

theorem roundRobin_eq_map_find? (n ptr : Nat) (want : Nat → Bool) :
    roundRobin n ptr want = ((List.range n).find? fun d => want ((ptr + d) % n)).map fun d => (ptr + d) % n := by
  rw [roundRobin, List.find?_map]; rfl

theorem roundRobin_eq_some_iff (n ptr : Nat) (want : Nat → Bool) (k : Nat) : roundRobin n ptr want = some k ↔
    ∃ d, d < n ∧ k = (ptr + d) % n ∧ want k = true ∧ ∀ e, e < d → want ((ptr + e) % n) = false := by
  simp only [roundRobin_eq_map_find?, Option.map_eq_some_iff, List.find?_range_eq_some, List.mem_range, Bool.not_eq_true']
  constructor
  · rintro ⟨d, ⟨asks, near, first⟩, rfl⟩
    exact ⟨d, near, rfl, asks, first⟩
  · rintro ⟨d, near, rfl, asks, first⟩
    exact ⟨d, ⟨asks, near, first⟩, rfl⟩

/-- The distances below `n` reach every requester. -/
theorem exists_distance {n ptr k : Nat} (hp : ptr < n) (hk : k < n) : ∃ d, d < n ∧ (ptr + d) % n = k := by
  refine ⟨(k + (n - ptr)) % n, Nat.mod_lt _ (by omega), ?_⟩
  have around : ptr + (k + (n - ptr)) = k + n := by omega
  rw [Nat.add_mod_mod, around, Nat.add_mod_right, Nat.mod_eq_of_lt hk]

theorem roundRobin_eq_none_iff {n ptr : Nat} (hp : ptr < n) (want : Nat → Bool) :
    roundRobin n ptr want = none ↔ ∀ k, k < n → want k = false := by
  simp only [roundRobin_eq_map_find?, Option.map_eq_none_iff, List.find?_range_eq_none, Bool.not_eq_true']
  constructor
  · intro idle k hk
    obtain ⟨d, near, rfl⟩ := exists_distance hp hk
    exact idle d near
  · exact fun idle d _ => idle _ (Nat.mod_lt _ (by omega))

/-- Settles O56: the search finds the least distance that asks, and its distances reach every requester. -/
theorem roundRobinGrant : Obligations.RoundRobinGrant := fun n ptr want hp =>
  ⟨roundRobin_eq_some_iff n ptr want, roundRobin_eq_none_iff hp want⟩

end Sys2Proof.Proofs

/-!
Ring entries (R106, R118, R163, R175, R176, R219, R235, R267, R271, R292, R348, R352): the twelve rows claim a ring's head alike, and
each kind begins the work of the slot that it was given in a way of its own.
-/

namespace Sys2Proof.Proofs

open Sys2Proof.Machine

/-! ## Admission -/

theorem both_present {p q : Prop} [Decidable p] [Decidable q] (hp : p) (hq : q) : (decide p && decide q) = true := by
  rw [decide_eq_true hp, decide_eq_true hq]; rfl

/-- The granted ring's head, of the row's kind and with a slot to take, is claimed and started (R118, R122). -/
theorem admitRow_granted {kind fn ring dev slot : Nat} {h : HostView} {s : State} {e : List Byte} {pool : Pool}
    (fnThere : fn < 256) (ringThere : ring < 256) (head : workHead s fn ring = some e)
    (granted : ringGrant s = some (dev, fn, ring))
    (free : slotFor s (getFn s fn).ws (wantsLatency (fld e 0 1) (entryPayload e)) = some (pool, slot)) (ofKind : fld e 0 1 = kind)
    (row : String) (start : Src → Nat → State → State) : admitRow row kind fn ring h start s =
      .next (start ⟨fn, (getFn s fn).ws, h, none⟩ slot (claimEntry s fn ring e pool slot)) := by
  subst ofKind
  simp only [admitRow, guarded, both_present fnThere ringThere, admitAs, head, granted, free, and_self, if_true]

theorem startHashChange_accepted {put : Bool} {b : Src} {n : Nat} {s : State} {x : Slot} (held : getSlot s n = some x)
    (ok : hashRefusal s b.ws x.payload put false = none) :
    startHashChange put b n s = startChange (fld x.payload 0 2) [] n s := by
  simp only [startHashChange, held, ok]

/-- Settles O12: the head is admitted as every kind is, and the clause's hypotheses choose the branch of its kind's start. -/
theorem ringEntriesComplete : Obligations.RingEntriesComplete := by
  intro fn ring h s e dev pool slot x fnThere ringThere head granted free b u p held
  have admitted (row : String) {kind : Nat} (ofKind : fld e 0 1 = kind) (start : Src → Nat → State → State) {t : State}
      (started : start b slot u = t) : admitRow row kind fn ring h start s = .next t :=
    started ▸ admitRow_granted fnThere ringThere head granted free ofKind row start
  refine ⟨?_, ?_, ?_, ?_, ?_, ?_, ?_, ?_, ?_, ?_, ?_, ?_⟩
  · intro ix kind ok index timed
    refine admitted _ kind _ ?_
    simp only [startQuery, held, p, ok, index, timed, if_true]
  · intro ix kind ok index
    refine admitted _ kind _ ?_
    simp only [startInsert, held, p, ok, index]
  · intro kind ok
    refine admitted _ kind _ ?_
    simp only [startDelete, held, p, ok]
  · intro q vec kv kind ok session queries keys finite finiteKv
    refine admitted _ kind _ ?_
    simp only [startStep, held, p, ok, session, ← queries, ← keys, finite, finiteKv, Bool.false_eq_true, or_self, if_false]
  · intro t v y kind ok unbound current bound ready
    refine admitted _ kind _ ?_
    simp only [startGather, held, p, ok, unbound, List.isEmpty_nil, if_true, current, ← bound, ready]
  · intro t v y kind ok unbound current bound unseen leased next free
    refine admitted _ kind _ ?_
    simp only [startUpdate, held, p, ok, unbound, List.isEmpty_nil, if_true, current, ← bound, unseen, leased, Bool.not_true,
      Bool.false_eq_true, if_false, next, free]
  · intro kind fields source target fits readable
    refine admitted _ kind _ ?_
    simp only [startTopk, held, p, fields, source, target, decide_eq_true fits, Bool.and_self, Bool.not_true, Bool.false_eq_true,
      if_false, readable]
  · intro o k kind ok pools c stub
    refine admitted _ kind _ ?_
    simp only [startRequest, held, p, ok, pools]; rfl
  · intro kind
    refine admitted _ kind _ ?_
    simp only [startModel, held, p]
    cases modelRefusal b u x.payload <;> rfl
  · intro kind ok timed
    refine admitted _ kind _ ?_
    simp only [startHashGet, held, p, ok, timed, if_true]
  · exact fun kind ok => admitted _ kind _ (startHashChange_accepted held ok)
  · exact fun kind ok => admitted _ kind _ (startHashChange_accepted held ok)

/-! ## Refusals -/

/-- Settles O13: both rows act under the clause's hypotheses, on a malformed head and at the start of a wait. -/
theorem ringRefusalsComplete : Obligations.RingRefusalsComplete := by
  refine ⟨?_, ?_⟩
  · intro fn ring s e fnThere ringThere head malformed admits room g
    simp only [exec, execRingRejection, guarded, both_present fnThere ringThere, rejectHead, head, malformed, admits, room, Bool.not_false,
      Bool.and_self, if_true, g]
  · intro s runs waiting first
    have heads : (waitingHeads s).isEmpty = false := List.isEmpty_eq_false_iff.mpr waiting
    simp only [exec, execSlotsExhausted, when_pos runs, slotsExhausted, heads, first, Bool.false_eq_true, if_false, if_true]

end Sys2Proof.Proofs

/-!
Index and program commands (R101, R102, R105, R134, R137, R138, R141, R173, R620, R621): what the body of each command answers where
its checks hold.
-/

namespace Sys2Proof.Proofs

open Sys2Proof.Machine Sys2Proof.Safety Sys2Proof.Laws

/-! ## Answers -/

section
variable {cmd : Cmd} {m : MsgSrc} {s t : State} {body : Ctx → State → Answer × State} {st : Nat}

theorem serve_issues {w : Work} (accepted : Accepted cmd m s) (answer : body (reqCtx m s) (takeRequest s m) = (.issue st w, t)) :
    serve cmd m body s = .next (issued m s st w t) := by
  rw [serve_accepted body accepted, answer, give_issue]

theorem serve_replies {r : List Byte} (accepted : Accepted cmd m s)
    (answer : body (reqCtx m s) (takeRequest s m) = (.reply st r, t)) : serve cmd m body s = .next (answered m s st r t) := by
  rw [serve_accepted body accepted, answer, give_reply]

end

/-- A body whose checks all hold runs. -/
theorem checked_holds {l : List (Bool × Nat)} (hold : l.all (·.1) = true) (run : Answer × State) (s : State) :
    checked l run s = run := checked_ok l run s (checks_none l (List.all_eq_true.mp hold))

theorem withIndex_own {c : Ctx} {s : State} {idx : Nat} {x : Index} (found : getIndex s idx = some x) (own : x.ws = c.ws)
    (f : Index → Answer × State) : withIndex c s idx f = f x := by
  simp only [withIndex, found, own, ne_eq, not_true_eq_false, if_false]

/-- Settles O3: each command's body answers so where its checks hold, and the clause's hypotheses are those checks. -/
theorem indexCommandsComplete : Obligations.IndexCommandsComplete := by
  intro m s c t d
  have data : c.data = d := rfl
  refine ⟨?_, ?_, ?_, ?_, ?_, ?_, ?_, ?_, ?_, ?_, ?_, ?_⟩
  · intro i u accepted block entitled built
    refine serve_issues accepted (show indexCreate c t = _ from ?_)
    simp only [indexCreate, data, built]
    refine checked_holds ?_ _ _
    have right : (fld d 8 1 != 3 || privileged t c.ws) = true := by rw [Bool.or_eq_true, bne_iff_ne]; exact entitled
    simp only [List.all_cons, List.all_nil, block, right, Bool.and_self]
  · intro x accepted reserved found own
    refine serve_issues accepted (show indexDrop c t = _ from ?_)
    simp only [indexDrop, data, reserved, Bool.not_true, Bool.false_eq_true, if_false, withIndex_own found own]
  · intro x accepted reserved found own
    refine serve_replies accepted (show indexInfo c t = _ from ?_)
    simp only [indexInfo, data, reserved, Bool.not_true, Bool.false_eq_true, if_false, withIndex_own found own]
  · intro x f accepted reserved reservedTail format coarse fine found own created enough few aligned address buffer
    refine serve_issues accepted (show indexTrain c t = _ from ?_)
    simp only [indexTrain, data, withIndex_own found own]
    refine checked_holds ?_ _ _
    simp only [List.all_cons, List.all_nil, reserved, reservedTail, format, Option.isSome_some, Option.map_some, Option.getD_some,
      coarse, fine, enough, few, aligned, address, buffer, created, decide_true, beq_self_eq_true, Bool.and_self]
  · intro x accepted reserved found own created size address buffer
    refine serve_issues accepted (show indexImport c t = _ from ?_)
    simp only [indexImport, data, withIndex_own found own]
    refine checked_holds ?_ _ _
    simp only [List.all_cons, List.all_nil, reserved, ← size, address, buffer, created, decide_true, beq_self_eq_true, Bool.and_self]
  · intro x accepted reserved found own ready kind size address buffer
    refine serve_issues accepted (show indexExport c t = _ from ?_)
    simp only [indexExport, data, withIndex_own found own]
    refine checked_holds ?_ _ _
    simp only [List.all_cons, List.all_nil, reserved, size, address, buffer, bne_iff_ne.mpr kind, ready, decide_true,
      beq_self_eq_true, Bool.and_self]
  · intro x n k accepted found own picked reserved reservedTail view aligned space buffer
    refine serve_replies accepted (show indexStats c t = _ from ?_)
    simp only [indexStats, data, withIndex_own found own, picked]
    refine checked_holds ?_ _ _
    simp only [List.all_cons, List.all_nil, reserved, reservedTail, view, aligned, space, buffer, decide_true, beq_self_eq_true,
      Bool.and_self]
  · intro x accepted found own reserved live recent past few leased r journaled
    refine serve_replies accepted (show indexPin c t = _ from ?_)
    simp only [indexPin, data, withIndex_own found own]
    refine checked_holds ?_ _ _
    simp only [r] at journaled
    simp only [List.all_cons, List.all_nil, reserved, bne_iff_ne.mpr live, recent, past, few, leased, journaled, decide_true,
      beq_self_eq_true, Bool.and_self]
  · intro x accepted found own reserved pinned leased r journaled
    refine serve_replies accepted (show indexUnpin c t = _ from ?_)
    simp only [indexUnpin, data, withIndex_own found own, pinned]
    refine (checked_holds ?_ _ _).trans ?_
    · simp only [List.all_cons, List.all_nil, reserved, leased, Bool.and_self]
    · rw [if_pos journaled]
  · intro accepted reserved aligned address size buffer whole
    refine serve_issues accepted (show programLoad c t = _ from ?_)
    simp only [programLoad, data]
    refine checked_holds ?_ _ _
    simp only [List.all_cons, List.all_nil, reserved, aligned, address, size, buffer, whole, decide_true, beq_self_eq_true,
      Bool.not_false, Bool.and_self]
  · intro p accepted reserved found own loaded last
    refine serve_issues accepted (show programUnload c t = _ from ?_)
    simp only [programUnload, data, reserved, found, own, ne_eq, not_true_eq_false, if_false, loaded, Bool.false_eq_true, last]
  · intro p accepted reserved found own
    refine serve_replies accepted (show programInfo c t = _ from ?_)
    simp only [programInfo, data, reserved, found, own, ne_eq, not_true_eq_false, if_false]

end Sys2Proof.Proofs

/-!
Jack contexts (R202 to R204): a bind, and the arbiter pointer that it moves.
-/

namespace Sys2Proof.Proofs

open Sys2Proof.Machine

/-- A bind of a free context of a jack unit that is not retired sets the context, and moves the unit's allocation pointer past the core
that it was bound for (R203, R204). -/
theorem exec_jackPass_bind {unit ctx : Nat} {s : State} (unitThere : unit < 64) (ctxThere : ctx < 8) (runs : firmwareRuns s = true)
    (free : getJack s (8 * unit + ctx) = none) (usable : scoreRetired s 5 ((8 * unit + ctx) / 8) = false) (b : JackCtx) :
    exec (.jackPass unit ctx (some b)) s = .next { s with hub := { s.hub with
      jacks := Tab.insert s.hub.jacks (8 * unit + ctx) { b with keep := [], kept := [], out := [], floor := none }
      jackAlloc := Tab.set 0 s.hub.jackAlloc ((8 * unit + ctx) / 8) ((b.core + 1) % 512) } } := by
  refine (guarded_when (both_present unitThere ctxThere) runs _ _ s).trans ?_
  simp only [bindJack, free, usable, Option.isSome_none, Bool.false_eq_true, or_self, if_false]

/-- A device in RUN, otherwise as at reset. -/
def inRunAtReset : State := { State.reset with boot := { State.reset.boot with stage := .run } }

/-- A context for core 0 with no input. -/
def emptyJack : JackCtx :=
  { core := 0, slot := 0, input := [], dedup := false, depth := 0, floor := none, keep := [], kept := [], out := [] }

/-- Refutes O20: its clause on a bind leaves the allocation pointer of R204 where it was, and the row moves it: on a device in RUN and
otherwise at reset, the bind of context 0 for core 0 leaves the pointer of jack unit 0 at core 1. -/
theorem not_hubEventsComplete : ¬ Obligations.HubEventsComplete := by
  intro ⟨_, bind, _⟩
  have runs : firmwareRuns inRunAtReset = true := by decide
  have free : getJack inRunAtReset (8 * 0 + 0) = none := by decide
  have usable : scoreRetired inRunAtReset 5 ((8 * 0 + 0) / 8) = false := by decide
  have claimed := bind 0 0 emptyJack inRunAtReset (by decide) (by decide) runs free usable
  rw [exec_jackPass_bind (by decide) (by decide) runs free usable] at claimed
  have pointer : Tab.set 0 inRunAtReset.hub.jackAlloc 0 1 = inRunAtReset.hub.jackAlloc :=
    congrArg (fun u : State => u.hub.jackAlloc) (Host.Outcome.next.inj claimed)
  exact absurd pointer (by decide)

end Sys2Proof.Proofs

/-!
Indexes between their copies (R157, R169 to R171, R180, R181, R184): a change at its copies and its end, frontiers, low epochs,
snapshots and compaction.
-/

namespace Sys2Proof.Proofs

open Sys2Proof.Machine

/-- A row that waits on firmware and on one condition more acts where both hold. -/
theorem when_running {s : State} {b : Bool} (runs : firmwareRuns s = true) (holds : b = true) (f : State → State) :
    when (firmwareRuns s && b) f s = f s := when_pos (by rw [runs, holds]; rfl) f s

/-! ## Changes -/

/-- The tag of the CHANGE message of an operand: 0 for a change that comes with no message. -/
def changeTxn (s : State) (m : ChangeMsg) : Nat := ((changePacket s m).map (·.txn)).getD 0

/-- The state once the CHANGE message of an operand has been taken. -/
def changeTaken (s : State) (m : ChangeMsg) : State :=
  match changePacket s m with
  | some p => takeMsg s p
  | none => s

section
variable {s : State} {m : ChangeMsg} {idx : Nat} {x : Index} {mir : Bool} {c : Copy}

theorem exec_changeMsg (runs : firmwareRuns s = true) (arrived : changeArrived s m = true) :
    exec (.changeMsg m) s = .next (receiveChange m s) := by
  simp only [exec, execChangeMsg, when_running runs arrived]

/-- A copy held under the lease takes a change that has its epoch (R26, R177). -/
theorem receiveChange_numbered (index : indexByKey s m.ws m.key = some (idx, x)) (place : x.placeOf m.shard = some (mir, c))
    (leased : leaseHeld s x.gid = true) (numbered : m.epoch ≠ 0) :
    receiveChange m s = takeChange (changeTaken s m) idx x mir c m (changeTxn s m) := by
  simp only [receiveChange, index, place, leased, Bool.not_true, Bool.false_eq_true, if_false, if_pos numbered]
  rfl

/-- The primary holder, within its time budget and with room for the change, gives it its epoch (R169, R556). -/
theorem receiveChange_unnumbered (index : indexByKey s m.ws m.key = some (idx, x)) (place : x.placeOf m.shard = some (mir, c))
    (leased : leaseHeld s x.gid = true) (unnumbered : m.epoch = 0) (primary : primaryDev s x.gid m.shard = some (fabricDev s))
    (timed : withinBudget s = true) (room : c.changes.length < 2 ^ 20) :
    receiveChange m s = assignChange (changeTaken s m) idx x mir c m (changeTxn s m) := by
  have holder : (primaryDev s x.gid m.shard != some (fabricDev s)) = false := by rw [primary, bne_self_eq_false]
  have takes : (!withinBudget s || decide (2 ^ 20 ≤ c.changes.length)) = false := by
    rw [timed, decide_eq_false (Nat.not_le.mpr room)]; rfl
  simp only [receiveChange, index, place, leased, unnumbered, holder, takes, Bool.not_true, Bool.false_eq_true, ne_eq,
    not_true_eq_false, if_false]
  rfl

/-- A change that is done leaves its copy and is answered (R171). -/
theorem completeChange_done {index shard epoch : Nat} {acked : Bool} {ch : Change} (held : getIndex s index = some x)
    (place : x.placeOf shard = some (mir, c)) (pending : c.changes.find? (·.epoch == epoch) = some ch)
    (done : changeDone s { ch with mirrorDone := ch.mirrorDone || (acked && ch.needMirror) } = true) :
    completeChange index shard epoch acked s =
      answerChange (putCopy s index mir { c with changes := c.changes.filter (·.epoch != epoch) }) ch.src x.ws ch.homeSlot ch.txn stOk
        ch.epoch ch.ordinal ch.marked := by
  simp only [completeChange, held, place, pending, Option.bind_some, Option.map_some, done, if_true]

end

/-! ## Snapshots and compaction -/

section
variable {s : State} {index : Nat} {mirror : Bool} {x : Index} {c : Copy}

/-- A live copy of an index in service completes its next snapshot and keeps it, where another holder sends it (R157, R184). -/
theorem takeSnap_kept {num : Nat} (held : getIndex s index = some x) (role : x.role mirror = some c) (live : c.live = true)
    (serves : x.state = 2) (next : nextSnap x c (copyFrontier s c (appliesAsMirror s x c)) = some num)
    (unsent : sendsSnaps s x c = false) :
    takeSnap index mirror s =
      putCopy s index mirror { c with snapshots := keepSnaps s index x (c.snapshots ++ [takeSnapshot s x c num]) } := by
  simp only [takeSnap, held, role, live, serves, next, unsent, Option.bind_some, Option.map_some, beq_self_eq_true, Bool.and_self,
    Bool.false_eq_true, if_true, if_false]

/-- A copy that the lehr scheduler admits is compacted by its kind (R181). -/
theorem compactRow_admitted {list seq : Nat} (held : getIndex s index = some x) (role : x.role mirror = some c)
    (admits : compactAdmits s x c.shard = true) :
    compactRow index mirror list seq s =
      if x.kind = 3 then compactBucket x c list seq s else compactChunk index mirror x c list seq s := by
  simp only [compactRow, held, role, admits, Option.bind_some, Option.map_some, Bool.not_true, Bool.false_eq_true, if_false]

end

/-- Settles O16: each row looks up the index and the copy that it names, and acts on them under its condition. -/
theorem indexEventsComplete : Obligations.IndexEventsComplete := by
  refine ⟨?_, ?_, ?_, ?_, ?_, ?_, ?_, ?_⟩
  · intro c s idx x mir k runs arrived index place leased
    have acts := exec_changeMsg runs arrived
    refine ⟨fun numbered => ?_, fun unnumbered primary timed room => ?_⟩
    · exact acts.trans (congrArg _ (receiveChange_numbered index place leased numbered))
    · exact acts.trans (congrArg _ (receiveChange_unnumbered index place leased unnumbered primary timed room))
  · intro index shard epoch acked x mir c ch s present runs held place pending d done
    refine (guarded_when (decide_eq_true present) runs _ _ s).trans (congrArg _ ?_)
    exact completeChange_done (ch := ch) held place pending done
  · intro index x s held runs leased
    simp only [exec, execFrontierNotice, held, when_running runs leased]
  · intro ws key shard frontier src s runs foreign
    simp only [exec, execFrontierMsg, when_running runs (bne_iff_ne.mpr foreign)]
  · intro index x s held runs leased
    simp only [exec, execLowEpochPublish, held, when_running runs leased]
  · intro index mirror x c num s present runs held role live serves next unsent
    refine (guarded_when (decide_eq_true present) runs _ _ s).trans (congrArg _ ?_)
    exact takeSnap_kept held role live serves next unsent
  · intro ws key shard sn idx x s index runs leased
    simp only [exec, execGroupSnapshot, index, when_running runs leased]
  · intro index mirror list seq x c s present runs held role admits
    refine (guarded_when (decide_eq_true present) runs _ _ s).trans (congrArg _ ?_)
    exact compactRow_admitted held role admits

end Sys2Proof.Proofs

/-!
The admission of sub-requests (R119, R183, R190, R245, R249, R269, R274, R352, R501): the seven rows admit alike, each its own kind.
-/

namespace Sys2Proof.Proofs

open Sys2Proof.Machine

/-- The next sub-request to be admitted takes the free REMOTE slot and is served by the row of its kind, where its group's lease is
held (R119, R501). -/
theorem admitSub_leased {s : State} {ident slot kind : Nat} {x : SubIn} (found : getSub s ident = some x)
    (free : freePoolSlot s .remote = some slot) (runs : firmwareRuns s = true) (next : nextSubOf s ident = true)
    (leased : leaseHeld s x.group = true) (same : x.kind = kind) (serve : State → SubIn → State) :
    admitSub kind ident serve s = serve (putSub (passCore s .remote slot) { x with slot := some slot }) { x with slot := some slot } := by
  have admitted : (firmwareRuns s && x.kind == kind && nextSubOf s ident) = true := by
    rw [runs, next, beq_iff_eq.mpr same]; rfl
  simp only [admitSub, found, free, admitted, leased, if_true]

/-- Settles O14: the seven rows are one admission; those over an index then find their copy's frontier reached. -/
theorem subrequestsComplete : Obligations.SubrequestsComplete := by
  intro ident s x slot found free runs next leased y t here
  have admits (kind : Nat) (serve : State → SubIn → State) (same : x.kind = kind) :
      Host.Outcome.next (φ := Fault) (ρ := Refusal) (admitSub kind ident serve s) = .next (serve t y) :=
    congrArg _ (admitSub_leased found free runs next leased same serve)
  have admitsIndexed (kind : Nat) (serve : State → SubIn → State) (same : x.kind = kind) (reached : here) :
      Host.Outcome.next (φ := Fault) (ρ := Refusal) (admitSub kind ident (whenReached serve) s) = .next (serve t y) := by
    obtain ⟨_, _, _, _, copy, frontier⟩ := reached
    exact (admits kind _ same).trans (congrArg _ (whenReached_reached copy frontier serve))
  exact ⟨admitsIndexed 1 serveScan, admitsIndexed 2 serveRefine, admits 3 serveScore, admits 4 servePartial, admits 5 serveGather,
    admits 6 serveUpdate, admitsIndexed 7 serveHash⟩

end Sys2Proof.Proofs

/-!
Session, durable-request and codebook commands (R225, R279, R280, R286, R289, R295, R300, R303, R623): what the body of each command
answers where its checks hold.
-/

namespace Sys2Proof.Proofs

open Sys2Proof.Machine Sys2Proof.Safety Sys2Proof.Laws

/-- A resume with a codebook set of another digest is refused (R289). -/
theorem sessionResume_wrongBook {c : Ctx} {s : State} {x : Session} {i : Image} {b : CodebookSet}
    (reserved : zeroAt c.data 26 6 = true) (found : sessionByKey s c.ws (fld c.data 0 8) = some x) (annealed : x.state = 3)
    (image : imageOf x (fld c.data 8 8) = some i) (book : getBook s (fld c.data 22 4) = some b)
    (digest : Config.sha384 b.bytes ≠ i.digest) : sessionResume c s = refuse stBadParam s := by
  have other : (Config.sha384 b.bytes == i.digest) = false := beq_eq_false_iff_ne.mpr digest
  simp only [sessionResume, reserved, found, annealed, image, book, other, ne_eq, not_true_eq_false, if_false, checked, checks,
    Bool.and_false, Bool.false_eq_true, ite_self]

/-- Settles O5: each command's body answers so where its checks hold, and the clause's hypotheses are those checks. -/
theorem sessionCommandsComplete : Obligations.SessionCommandsComplete := by
  intro m s c t d
  have data : c.data = d := rfl
  refine ⟨?_, ?_, ?_, ?_, ?_, ?_, ?_, ?_, ?_, ?_, ?_⟩
  · intro x u accepted geometry reserved partner fits own bound unused leased room begun
    refine serve_issues accepted (show sessionCreate c t = _ from ?_)
    simp only [sessionCreate, data, begun]
    refine checked_holds ?_ _ _
    simp only [List.all_cons, List.all_nil, geometry, reserved, partner, fits, own, bound, unused, leased, room, Bool.not_false,
      Bool.and_self]
  · intro x accepted reserved found own active leased
    refine serve_issues accepted (show sessionDestroy c t = _ from ?_)
    simp only [sessionDestroy, data, reserved, found]
    refine checked_holds ?_ _ _
    simp only [List.all_cons, List.all_nil, own, active, leased, beq_self_eq_true, Bool.and_self]
  · intro x accepted found
    refine serve_replies accepted (show sessionInfo c t = _ from ?_)
    simp only [sessionInfo, data, found]
  · intro x accepted unflagged reserved noMember reservedTail found own active leased whole
    refine serve_issues accepted (show sessionAnneal c t = _ from ?_)
    have noRoll : bit 0 0 = false := rfl
    simp only [sessionAnneal, data, found, unflagged, noRoll, whole, Nat.lt_irrefl, Bool.false_eq_true, if_false]
    refine checked_holds ?_ _ _
    simp only [List.all_cons, List.all_nil, reserved, reservedTail, noMember, own, active, leased, beq_self_eq_true, Nat.zero_lt_two,
      decide_true, Bool.not_false, Bool.true_or, Bool.or_true, Bool.and_self]
  · rintro x i b ⟨y, v⟩ u z accepted reserved found annealed image g fits rev partner bound book leased room begun placed body resumed
    have geometry : geoWithBook i.geometry (fld d 22 4) = g := rfl
    split
    next digest =>
      refine serve_issues accepted (show sessionResume c t = _ from ?_)
      simp only [sessionResume, data, reserved, found, annealed, image, geometry, begun, placed, body, resumed, ne_eq,
        not_true_eq_false, if_false, if_true]
      refine checked_holds ?_ _ _
      simp only [List.all_cons, List.all_nil, fits, rev, partner, bound, book, digest, leased, room, beq_self_eq_true, Bool.and_self]
    next digest => exact serve_replies accepted (sessionResume_wrongBook reserved found annealed image book digest)
  · intro x accepted found listed resting kept
    refine serve_issues accepted (show imageDelete c t = _ from ?_)
    simp only [imageDelete, data, found, kept, false_and, if_false]
    refine checked_holds ?_ _ _
    simp only [List.all_cons, List.all_nil, listed, bne_iff_ne.mpr resting, Bool.and_self]
  · intro r accepted record
    have shown : statusRecord (takeRequest s m) (reqCtx m s).ws (fld (reqCtx m s).data 0 8) = some r := record
    exact serve_replies (t := takeRequest s m) accepted (by simp only [shown])
  · intro dev k accepted runner copy owned
    refine serve_issues accepted (show reqCancel c t = _ from ?_)
    simp only [reqCancel, data, runner, copy, owned, if_false]
  · intro dev k accepted reserved listed live runner copy owned other free
    refine serve_issues accepted (show reqHandoff c t = _ from ?_)
    simp only [reqHandoff, data, reserved, decide_eq_true listed, live, runner, copy, owned, other, free, ne_eq, not_true_eq_false,
      or_self, Bool.not_true, Bool.or_self, Bool.false_eq_true, if_false]
  · intro accepted reserved reservedTail aligned address layers fewLayers heads fewHeads dim size buffer whole r
    refine serve_issues accepted (show attnCbLoad c t = _ from ?_)
    simp only [attnCbLoad, data]
    refine checked_holds ?_ _ _
    simp only [List.all_cons, List.all_nil, reserved, reservedTail, aligned, address, layers, fewLayers, heads, fewHeads, dim, ← size,
      buffer, whole, decide_true, beq_self_eq_true, Bool.not_false, Bool.and_self]
  · intro b accepted reserved found own unclosed last
    refine serve_issues accepted (show attnCbUnload c t = _ from ?_)
    simp only [attnCbUnload, data, reserved, found, own, unclosed, last, ne_eq, not_true_eq_false, Bool.false_eq_true, if_false]

end Sys2Proof.Proofs

/-!
The upkeep of sessions (R230, R238, R284 to R286, R288, R291): what a row does to the session that it names, in the phase of its anneal.
-/

namespace Sys2Proof.Proofs

open Sys2Proof.Machine

section
variable {s : State} {ws key : Nat} {x : Session}

/-! ## Annealing -/

/-- The fold ends where the session has no journal stream here (R286). -/
theorem annealStripe_folded {a : Activity} (phase : annealing s ws key 3 = some x) (running : annealRuns s x = some a)
    (folded : findStream s 4 x.ws (sessionOwner x) = none) :
    annealStripe ws key s = dropActivity (putSession s { x with
      annealPhase := 4, journal := x.journal.map fun e => { e with striped := true } }) a.ident := by
  simp only [annealStripe, phase, running, folded]

/-- A journal stream with units left forms its next stripe (R286, R483). -/
theorem annealStripe_forms {a : Activity} {g : Nat} {st : Stream} {d : List (List Byte)} (phase : annealing s ws key 3 = some x)
    (running : annealRuns s x = some a) (stream : findStream s 4 x.ws (sessionOwner x) = some (g, st))
    (left : st.units.isEmpty = false) (formed : nextUnits (getGroup s g) st true = some d) :
    annealStripe ws key s = formStripe g st d s := by
  simp only [annealStripe, phase, running, stream, left, formed, Bool.false_eq_true, if_false]

/-- Without a roll the manifest's image joins the session's (R288). -/
theorem annealManifest_unrolled (phase : annealing s ws key 4 = some x) (unrolled : x.roll = none) (locator : List Byte) :
    annealManifest ws key locator s = putSession s { x with
      annealPhase := 5, annealSeq := x.annealSeq + 1, images := x.images ++ [newImage s x locator] } := by
  simp only [annealManifest, phase, unrolled]

/-! ## Journals and blocks -/

theorem partnerWrite_waiting {e : JournalEnt} {p : Packet} (found : sessionByKey s ws key = some x)
    (waiting : journalPacket s ws key e = some p) :
    partnerWrite ws key e s = ackAppend (takeMsg (journalEnt s x { e with own := false, striped := false }).2 p)
      (fld p.payload 16 2) ws p.txn (journalEnt s x { e with own := false, striped := false }).1 := by
  simp only [partnerWrite, found, waiting]

theorem rebuildBlock_written {layer head block : Nat} {e : JournalEnt} {y : Session} {u : State}
    (found : sessionByKey s ws key = some x)
    (written : writeRebuilt s x { e with layer := layer, head := head, block := block } = some (y, u)) :
    rebuildBlock ws key layer head block (some e) s = reserveAttn (putSession u y) x.handle := by
  simp only [rebuildBlock, found, written]

end

/-- Settles O21: each row looks up the session that it names, in the phase of its anneal, and acts on it under its condition. -/
theorem sessionEventsComplete : Obligations.SessionEventsComplete := by
  intro ws key s x runs
  refine ⟨?_, ?_, ?_, ?_, ?_, ?_, ?_, ?_, ?_, ?_⟩
  · intro phase quiet room
    have admits : (!deferred s (annealActivity s x) || queueRoom s true) = true := by
      rw [Bool.or_eq_true, Bool.not_eq_true']; exact room
    simp only [exec, execAnnealFlush, phase, quiet, admits, Bool.not_false, Bool.and_self, when_running runs, annealFlush]
  · intro a phase running folded
    rw [exec, execAnnealStripe, when_pos runs, annealStripe_folded phase running folded]
  · intro a g st d phase running stream left formed
    rw [exec, execAnnealStripe, when_pos runs, annealStripe_forms phase running stream left formed]
  · intro locator phase unrolled
    have due : (annealing s ws key 4).isSome = true := Option.isSome_of_eq_some phase
    rw [exec, execAnnealManifest, when_running runs due, annealManifest_unrolled phase unrolled]
  · intro phase unrolled
    simp only [exec, execAnnealRelease, phase, unrolled, Option.isNone_none, when_running runs, annealRelease]
  · intro ok phase rolling rebuilding
    simp only [exec, execSessionRoll, phase, rolling, rebuilding, Bool.and_self, when_running runs]
  · intro slot waits
    rw [exec, execAttnPositionRelease, when_running runs waits]
  · intro found spills
    simp only [exec, execKvSpill, found, spills, when_running runs]
  · intro e p found waiting
    have held : (sessionByKey s ws key).isSome = true := Option.isSome_of_eq_some found
    rw [exec, execSessionJournalWrite, when_running runs held, partnerWrite_waiting found waiting]
  · intro layer head block e y u found due written
    simp only [exec, execBlockRebuild, found, due, when_running runs, rebuildBlock_written found written]

end Sys2Proof.Proofs

/-!
Table commands (R256, R257, R263 to R265, R622): what the body of each command answers where its checks hold.
-/

namespace Sys2Proof.Proofs

open Sys2Proof.Machine Sys2Proof.Safety Sys2Proof.Laws

section
variable {c : Ctx} {s : State} {t : Table} {x : Version}

theorem withTable_own {h : Nat} (found : getTable s h = some t) (own : t.ws = c.ws) (f : Table → Answer × State) :
    withTable c s h f = f t := by
  simp only [withTable, found, own, ne_eq, not_true_eq_false, if_false]

/-- A short command runs on a live version of a table of the issuer's that is not DROPPING (R255). -/
theorem withVersion_live (found : getTable s (fld c.data 0 4) = some t) (own : t.ws = c.ws)
    (version : t.version (fld c.data 4 4) = some x) (kept : t.state ≠ 2) (f : Nat → Table → Version → Answer × State) :
    withVersion c s f = f (fld c.data 0 4) t x := by
  simp only [withVersion, withTable_own found own, version, kept, if_false]

/-- A version opened without COPY is empty, so its ticket is done once its regions are allocated (R263). -/
theorem stageRegions_opened {h : Nat} {u : State} (uncopied : fld c.data 4 1 = 0) (reserved : zeroAt c.data 5 11 = true)
    (kept : t.state ≠ 2) (room : (t.slots.filterMap id).length ≠ 4) (allocated : allocVersion s t = some (x, u)) :
    stageRegions c s h t = (.issue stPending (doneWork c [h, x.num] stOk (leBytes 4 x.num ++ zeros 4)), putTable u h (t.addVersion x)) := by
  have noCopy : bit 0 0 = false := rfl
  simp only [stageRegions, uncopied, noCopy, allocated]
  refine checked_holds ?_ _ _
  simp only [List.all_cons, List.all_nil, reserved, bne_iff_ne.mpr kept, bne_iff_ne.mpr room, Nat.zero_lt_two, decide_true,
    Bool.not_false, Bool.true_or, Bool.and_self]

end

/-- Settles O4: each command's body answers so where its checks hold, and the clause's hypotheses are those checks. -/
theorem tableCommandsComplete : Obligations.TableCommandsComplete := by
  intro m s c t d h
  have data : c.data = d := rfl
  have handle : fld d 0 4 = h := rfl
  refine ⟨?_, ?_, ?_, ?_, ?_, ?_, ?_, ?_, ?_⟩
  · intro accepted block few room
    refine serve_issues accepted (show tableCreate c t = _ from ?_)
    refine checked_holds ?_ _ _
    simp only [List.all_cons, List.all_nil, data, block, few, room, decide_true, Bool.and_self]
  · intro x accepted reserved found own
    refine serve_issues accepted (show tableDrop c t = _ from ?_)
    simp only [tableDrop, data, handle, reserved, Bool.not_true, Bool.false_eq_true, if_false, withTable_own found own]
  · intro x accepted reserved found own
    refine serve_replies accepted (show tableInfo c t = _ from ?_)
    simp only [tableInfo, data, handle, reserved, Bool.not_true, Bool.false_eq_true, if_false, withTable_own found own]
  · intro x v u accepted found own stored uncopied reserved kept room allocated
    refine serve_issues accepted (show tableStage c t = _ from ?_)
    simp only [tableStage, data, handle, withTable_own found own, stored, Bool.false_eq_true, if_false]
    exact stageRegions_opened uncopied reserved kept room allocated
  · intro x v accepted found own version stored range kept loading undiscarded r
    refine serve_issues accepted (show tableLoad c t = _ from ?_)
    simp only [tableLoad, data, handle, withTable_own found own, version]
    refine checked_holds ?_ _ _
    simp only [List.all_cons, List.all_nil, stored, range, bne_iff_ne.mpr kept, loading, undiscarded, List.isEmpty_nil,
      beq_self_eq_true, Bool.not_false, Bool.and_self]
  · intro x v accepted found own version kept loading idle undiscarded
    refine serve_replies accepted (show tableSeal c t = _ from ?_)
    rw [tableSeal, withVersion_live found own version kept, if_pos ⟨loading, idle, undiscarded⟩]
  · intro x v accepted found own version kept sealed undiscarded
    refine serve_replies accepted (show tableSwitch c t = _ from ?_)
    rw [tableSwitch, withVersion_live found own version kept, if_pos ⟨sealed, undiscarded⟩]
  · intro x v accepted found own version kept parison
    refine serve_issues accepted (show tableDiscard c t = _ from ?_)
    rw [tableDiscard, withVersion_live found own version kept, if_pos parison]
  · intro x v accepted found own version range
    refine serve_issues accepted (show tableExport c t = _ from ?_)
    simp only [tableExport, data, handle, withTable_own found own, version]
    refine checked_holds ?_ _ _
    simp only [List.all_cons, List.all_nil, range, Bool.and_self]

end Sys2Proof.Proofs

/-!
The passes of an update over its devices and the reads of a pool (R273, R274, R278): what each row does to the table and the slot
that it names.
-/

namespace Sys2Proof.Proofs

open Sys2Proof.Machine

section
variable {s : State} {t : Table}

/-- Under the lease a device that hears ANNOUNCE binds the announced count and owes DRAINED for it (R274). -/
theorem takeAnnounce_leased {ws key v u coord h : Nat} (named : tableByKey (takeCtrl s coord ws 0 key v u) ws key = some (h, t))
    (leased : leaseHeld (takeCtrl s coord ws 0 key v u) t.gid = true) :
    takeAnnounce ws key v u coord s = settleDrains (putTable (takeCtrl s coord ws 0 key v u) h
      { t.modVersion v (fun x => { x with announced := u }) with drainsDue := t.drainsDue ++ [(v, u, coord)] }) h := by
  simp only [takeAnnounce, named, leased, Bool.not_true, Bool.false_eq_true, if_false]

/-- A waiting update whose turn has come begins at the version's count, where no phase holds it (R273). -/
theorem releaseUpdate_starts {slot : Nat} {x : Slot} {v : Version} (found : getSlot s slot = some x)
    (table : getTable s x.obj = some t) (version : t.version (x.bind.getD 0 0) = some v) (update : x.kind = 6)
    (admitted : x.st = .admitted) (leased : leaseHeld s t.gid = true) (turn : seqVerdict t v (fld x.payload 48 8) = .start)
    (unheld : phaseHeld x = false) :
    releaseUpdate slot s = beginUpdate slot (putSlot s slot { x with bind := [v.num, v.updates] }) := by
  simp only [releaseUpdate, found, table, version, update, admitted, leased, turn, unheld, Option.bind_some, Option.map_some, and_self,
    Bool.not_true, Bool.false_eq_true, if_true, if_false]

end

/-- Settles O22: each row acts once its message has come, on the version, the update or the read that it names. -/
theorem tableEventsComplete : Obligations.TableEventsComplete := by
  refine ⟨?_, ?_, ?_, ?_, ?_, ?_⟩
  · intro ws key v u coord h t s runs arrived r named leased
    rw [exec, execAnnounce, when_running runs arrived, takeAnnounce_leased named leased]
  · intro ws key v u src s runs arrived
    have heard : (ctrlArrived s src ws 1 key v u || ctrlArrived s src ws 3 key v u) = true := Bool.or_eq_true_iff.mpr (.inl arrived)
    rw [exec, execDrained, when_running runs heard]
  · intro ws key v u s runs arrived
    rw [exec, execCommitted, when_running runs arrived]
  · intro slot x t v s runs found table version update admitted leased turn unheld
    rw [exec, execUpdateSeqRelease, when_pos runs,
      releaseUpdate_starts found table version update admitted leased turn unheld]
  · intro txn tagOk rec r s outstanding runs
    simp only [exec, execPoolResp, outstanding, when_pos runs]
  · intro txn r s outstanding runs late
    simp only [exec, execPoolReadTimeout, outstanding, when_running runs late]

end Sys2Proof.Proofs

/-!
Durable requests between their owner, their keepers and their home (R294, R295, R299 to R303): what a phase, a beat, a probe and an
ending do to the request that they name.
-/

namespace Sys2Proof.Proofs

open Sys2Proof.Machine

section
variable {s : State} {ws ident : Nat}

/-! ## Phases -/

/-- A device that hears PHASE starts it, whatever copy it keeps of the request (R294). -/
theorem dispatchPhase_arrived {p : Packet} (arrived : reqPacket s 8 ws ident = some p) (h : HostView) :
    dispatchPhase ws ident h s = startPhase p h s := by
  simp only [dispatchPhase, arrived]

/-- A runner under its lease sends the next phase of a copy that is due one (R294). -/
theorem dispatchPhase_sends {c : ReqCopy} (quiet : reqPacket s 8 ws ident = none) (copy : reqCopyOf s ws ident = some c)
    (leased : poolLease s = true) (due : mayDispatch c = true) (h : HostView) : dispatchPhase ws ident h s = sendPhase s c := by
  simp only [dispatchPhase, quiet, copy, leased, due, Bool.not_true, Bool.false_eq_true, if_false, if_true]

/-! ## Beats, probes and endings -/

/-- The owner beats at the partner pool's keeper until the request is done (R299). -/
theorem sendBeat_owned {c : ReqCopy} {d : Nat} (copy : reqCopyOf s ws ident = some c) (leased : poolLease s = true)
    (owned : c.state ≠ 2) (unfinished : c.doneEntry = none) (keeper : keeperOf s c.partner ident = some d) :
    sendBeat ws ident s = sendReq (putReqCopy s { c with beatAt := ns s }) d 1 ws ident c.epoch c.pool [] := by
  simp only [sendBeat, copy, leased, owned, unfinished, keeper, ne_eq, not_false_eq_true, and_self, if_true]

/-- The entry device probes once for a request that has been silent for 100 ms (R302). -/
theorem sendProbe_silent {b : ReqStub} {d : Nat} (stub : stubOf s ws ident = some b) (keeper : homeKeeper s ident = some d)
    (silent : elapsed s b.lastCheckpoint 100000000 = true) (unprobed : b.probed = false) :
    sendProbe ws ident s =
      sendReq (modStub s ws ident fun x => { x with probed := true }) d 6 ws ident b.epoch b.pool [] := by
  simp only [sendProbe, stub, keeper, silent, unprobed, Bool.not_false, and_self, if_true]

/-- A request ends in the slot and under the tag that its entry device keeps for it (R303). -/
theorem endRequest_stub {b : ReqStub} (stub : stubOf s ws ident = some b) (e : List Byte) :
    endRequest ws ident e s = completeSlot s b.slot (leBytes 8 b.userTag ++ e.drop 8) (fld e 13 1) [] := by
  simp only [endRequest, stub]

end

/-- Settles O23: each row finds the message, the copy, the claim or the stub that it names and acts on it under its condition. -/
theorem requestEventsComplete : Obligations.RequestEventsComplete := by
  intro ws ident s runs
  refine ⟨?_, ?_, ?_, ?_, ?_, ?_, ?_, ?_, ?_, ?_, ?_, ?_, ?_, ?_, ?_⟩
  · intro h p arrived
    rw [exec, execPhaseDispatch, when_pos runs, dispatchPhase_arrived arrived]
  · intro h c quiet copy leased due
    rw [exec, execPhaseDispatch, when_pos runs, dispatchPhase_sends quiet copy leased due]
  · intro p accepted arrived
    simp only [exec, execBindingRecord, arrived, Option.isSome_some, when_running runs]
  · intro accepted c p arrived sameWs sameIdent
    simp only [exec, execCheckpoint, when_pos runs, arrived, sameWs, sameIdent, and_self, if_true]
  · intro accepted p arrived
    simp only [exec, execCheckpoint, when_pos runs, arrived]
  · intro c d copy leased owned unfinished keeper
    rw [exec, execOwnerBeat, when_pos runs, sendBeat_owned copy leased owned unfinished keeper]
  · intro due
    rw [exec, execOrphanSweep, when_running runs due]
  · intro epoch pool p arrived sameEpoch samePool
    simp only [exec, execOrphanMsg, when_pos runs, arrived, sameEpoch, samePool, and_self, if_true]
  · intro c p leased arrived
    simp only [exec, execHandoff, when_pos leased, arrived]
  · intro epoch heldNone p c arrived copy sameEpoch sameHeld handing next
    simp only [exec, execHandoffAck, when_pos runs, arrived, copy, sameEpoch, sameHeld, handing, next, and_self, if_true]
  · intro c leased copy handing late
    simp only [exec, execHandoffResend, when_pos leased, copy, handing, late, and_self, if_true]
  · intro copies w i entry self leased claim own
    simp only [exec, execClaimMsg, when_pos leased, claim, own]
  · intro b d stub keeper silent unprobed
    rw [exec, execProbeMsg, when_pos runs, sendProbe_silent stub keeper silent unprobed]
  · intro p b arrived stub
    simp only [exec, execStateLost, when_pos runs, arrived, endRequest_stub stub]
  · intro p b arrived stub
    simp only [exec, execRequestCompletion, when_pos runs, arrived, endRequest_stub stub]

end Sys2Proof.Proofs

/-!
Workspace commands (R307, R309, R310, R312, R315, R316, R319, R322, R624): what the body of each command answers where its checks hold.
-/

namespace Sys2Proof.Proofs

open Sys2Proof.Machine Sys2Proof.Safety Sys2Proof.Laws

/-! ## A body's checks, one at a time -/

/-- A check that holds leaves the outcome to those behind it. -/
theorem checked_cons {ok : Bool} (holds : ok = true) (st : Nat) (l : List (Bool × Nat)) (run : Answer × State) (s : State) :
    checked ((ok, st) :: l) run s = checked l run s := by
  simp only [checked, checks, holds, if_true]

/-- The first check that fails gives the status, and nothing is executed (R619). -/
theorem checked_fails {ok : Bool} (fails : ok = false) (st : Nat) (l : List (Bool × Nat)) (run : Answer × State) (s : State) :
    checked ((ok, st) :: l) run s = refuse st s := by
  simp only [checked, checks, fails, Bool.false_eq_true, if_false]

/-! ## Keys and buffers -/

/-- Where a key command's operands, its workspace and its generation pass, two checks are left, both on what its blob holds: that it
unwraps, and that a FLASH key's halves differ (R319, R322). -/
theorem wsKeyLoad_loadable (c : Ctx) (s : State) : let d := c.data; let n := fld d 0 2; let kind := fld d 2 1
    let held := keysOf (keySet s n) kind; let blob := unwrapBlob s (fld d 8 8) (fld d 16 2); let key := blob.getD []
    zeroAt d 3 1 = true → zeroAt d 18 14 = true → n < 4096 → kind < 2 → fld d 16 2 = (if kind = 0 then 169 else 137) →
    fld d 8 8 < 2 ^ 41 → bufferOk s 0 (fld d 8 8) (fld d 16 2) = true → wsActive s n = true → genOk held (fld d 4 4) = true →
    wsKeyLoad c s = checked [(blob.isSome, stNoAuth), (kind == 1 || key.take 32 != (key.drop 32).take 32, stBadParam)]
      (.reply stOk [], putKeys s n (setKeys (keySet s n) kind (⟨fld d 4 4, key⟩ :: held))) s := by
  intro d n kind held blob key reserved reservedTail small kindOk size address buffer active gen
  refine (checked_cons ?_ ..).trans ((checked_cons active ..).trans (checked_cons gen ..))
  change (zeroAt d 3 1 && zeroAt d 18 14 && decide (n < 4096) && decide (kind < 2) &&
    fld d 16 2 == (if kind = 0 then 169 else 137) && decide (fld d 8 8 < 2 ^ 41) && bufferOk s 0 (fld d 8 8) (fld d 16 2)) = true
  simp only [reserved, reservedTail, small, kindOk, ← size, address, buffer, decide_true, beq_self_eq_true, Bool.and_self]

/-- Settles O2: each command's body answers so where its checks hold, and the clause's hypotheses are those checks. -/
theorem workspaceCommandsComplete : Obligations.WorkspaceCommandsComplete := by
  intro m s c t d n
  have data : c.data = d := rfl
  have number : fld d 0 2 = n := rfl
  refine ⟨?_, ?_, ?_, ?_, ?_, ?_, ?_, ?_, ?_⟩
  · intro accepted positive small flags cls reserved reservedTail quota unused
    refine serve_replies accepted (show wsCreate c t = _ from ?_)
    refine checked_holds ?_ _ _
    simp only [List.all_cons, List.all_nil, data, number, positive, small, flags, cls, reserved, reservedTail, quota, unused,
      decide_true, beq_self_eq_true, Bool.and_self]
  · intro accepted reserved positive small active
    refine serve_issues accepted (show wsDestroy c t = _ from ?_)
    refine checked_holds ?_ _ _
    simp only [List.all_cons, List.all_nil, data, number, reserved, positive, small, active, decide_true, Bool.and_self]
  · intro accepted own reserved small used
    refine serve_replies accepted (show wsInfo c t = _ from ?_)
    refine checked_holds ?_ _ _
    have issuer : (c.ws == 0 || n == c.ws) = true := by rw [Bool.or_eq_true, beq_iff_eq, beq_iff_eq]; exact own
    simp only [List.all_cons, List.all_nil, data, number, issuer, reserved, small, bne_iff_ne.mpr used, decide_true, Bool.and_self]
  · intro accepted reserved positive small quota active
    refine serve_replies accepted (show wsSetQuota c t = _ from ?_)
    refine checked_holds ?_ _ _
    simp only [List.all_cons, List.all_nil, data, number, reserved, positive, small, quota, active, decide_true, Bool.and_self]
  · intro accepted own reserved small cls active
    refine serve_replies accepted (show wsSettings c t = _ from ?_)
    refine checked_holds ?_ _ _
    have issuer : (c.ws == 0 || n == c.ws) = true := by rw [Bool.or_eq_true, beq_iff_eq, beq_iff_eq]; exact own
    simp only [List.all_cons, List.all_nil, data, number, issuer, reserved, small, cls, active, decide_true, Bool.and_self]
  · intro accepted reserved reservedTail small kind size address buffer active gen
    have body := wsKeyLoad_loadable c t reserved reservedTail small kind size address buffer active gen
    cases blob : unwrapBlob t (fld d 8 8) (fld d 16 2) with
    | none => exact serve_replies accepted (body.trans (checked_fails (by rw [blob]; rfl) ..))
    | some l =>
      have key : (unwrapBlob t (fld d 8 8) (fld d 16 2)).getD [] = l := by rw [blob, Option.getD_some]
      have good : (fld d 2 1 == 1 || l.take 32 != (l.drop 32).take 32) = true ↔
          fld d 2 1 = 1 ∨ l.take 32 ≠ (l.drop 32).take 32 := by rw [Bool.or_eq_true, beq_iff_eq, bne_iff_ne]
      have unwrapped := body.trans (checked_cons (Option.isSome_of_eq_some blob) ..)
      simp only [data, number, key] at unwrapped
      by_cases differ : fld d 2 1 = 1 ∨ l.take 32 ≠ (l.drop 32).take 32
      · simp only [if_pos differ]
        exact serve_replies accepted (unwrapped.trans (checked_cons (good.mpr differ) ..))
      · simp only [if_neg differ]
        exact serve_replies accepted (unwrapped.trans (checked_fails (Bool.eq_false_iff.mpr (mt good.mp differ)) ..))
  · intro accepted reserved small kind active two
    refine serve_issues accepted (show wsKeyRetire c t = _ from ?_)
    refine checked_holds ?_ _ _
    simp only [List.all_cons, List.all_nil, data, number, reserved, small, kind, active, two, decide_true, beq_self_eq_true,
      Bool.and_self]
  · intro p u accepted reserved positive few room listed allocated
    refine serve_replies accepted (show regionAlloc c t = _ from ?_)
    simp only [regionAlloc, data, allocated]
    refine checked_holds ?_ _ _
    simp only [List.all_cons, List.all_nil, reserved, positive, few, room, listed, decide_true, Bool.and_self]
  · intro r accepted found unclosed free
    refine serve_issues accepted (show regionFree c t = _ from ?_)
    simp only [regionFree, data, found]
    refine checked_holds ?_ _ _
    simp only [List.all_cons, List.all_nil, unclosed, free, Option.isNone_none, Bool.not_false, Bool.and_self]

end Sys2Proof.Proofs

/-!
Tickets and coalescing timers (R310, R316, R342, R354, R355, R357): what each row does once its work can end.
-/

namespace Sys2Proof.Proofs

open Sys2Proof.Machine

/-- A ticket that is neither done nor about to be is finished with its work's outcome (R342). -/
theorem ticketDone_outcome {s u : State} {t : TicketRef} {o : DoneInput} {k : Ticket} {st : Nat} {r : List Byte}
    (found : findTicket s t = some k) (unfinished : k.done = false) (unqueued : doneQueued s t = false)
    (outcome : ticketOutcome s t k o = some (st, r, u)) : ticketDone t o s = finishTicket u t st r := by
  simp only [ticketDone, found, unfinished, unqueued, outcome, Bool.or_self, Bool.false_eq_true, if_false]

/-- Settles O10: each row finds the function, workspace, buffer, ticket or vector that it names, and acts under its condition. -/
theorem ticketEventsComplete : Obligations.TicketEventsComplete := by
  refine ⟨?_, ?_, ?_, ?_, ?_, ?_, ?_⟩
  · intro fn s fnThere ready runs
    exact guarded_when (decide_eq_true fnThere) (by rw [ready, runs]; rfl) ..
  · intro ws s runs destroying quiet
    have due : (firmwareRuns s && (getWs s ws).state == 2 && wsQuiet s ws) = true := by rw [runs, destroying, quiet]; rfl
    rw [exec, execWsDestroyProceed, when_pos due]
  · intro ws base r s runs found closing idle
    have due : (firmwareRuns s && r.closing.isSome && !regionBusy s ws r) = true := by rw [runs, closing, idle]; rfl
    simp only [exec, execRegionRelease, found, when_pos due]
  · intro m s unknown
    rw [exec, execUnknownOpcode, when_pos unknown, answerUnknown]
  · intro t o k st r u s runs found unfinished unqueued outcome
    rw [exec, execTicketDone, when_pos runs, ticketDone_outcome found unfinished unqueued outcome]
  · intro fn vec s fnThere vecThere due masked
    refine (guarded_when (both_present fnThere vecThere) due _ _ s).trans ?_
    simp only [interruptDue, masked, if_true]
  · intro fn vec s fnThere vecThere due unmasked
    refine (guarded_when (both_present fnThere vecThere) due _ _ s).trans ?_
    simp only [interruptDue, unmasked, Bool.false_eq_true, if_false]

end Sys2Proof.Proofs

/-!
The two ends of service: the entry to RUN (R304, R330, R395), and power that goes without a flush (R323, R384, R526, R566).
-/

namespace Sys2Proof.Proofs

open Sys2Proof.Machine Sys2Proof.Safety Sys2Proof.Laws

/-! ## Entry to RUN -/

theorem exec_runEntry {s : State} (discovering : s.boot.stage = .discover) (met : unmet s = 0) :
    exec .runEntry s = .next (runEntry s) := by
  have due : (decide (s.boot.stage = .discover) && unmet s == 0) = true := by rw [met, discovering]; rfl
  rw [exec, execRunEntry, when_pos due]

/-- RUN is entered with WS0 ACTIVE and privileged (R304). -/
theorem getWs_runEntry (s : State) : getWs (runEntry s) 0 = { freeWs with state := 1, wflags := 1 } :=
  (Tab.get_insert freeWs s.wss 0 0 _).trans (if_pos rfl)

/-- RUN is entered with function 0 ENABLED for WS0 at the gateway that answered first (R330, R395; log entry 83). -/
theorem getFn_runEntry (s : State) :
    getFn (runEntry s) 0 = { resetFunc with state := 1, ws := 0, gateway := (firstGateway s).getD 0 } :=
  (Tab.get_insert resetFunc s.fns 0 0 _).trans (if_pos rfl)

/-- EV_RUN is the last event raised in the entry (R395). -/
theorem lastEvent_runEntry (s : State) : (runEntry s).evr.intake.getLast?.map (·.code) = some 0x0103 := by
  simp only [runEntry, emitDev, emitFull, List.getLast?_concat, Option.map_some]

/-- Settles O25: the entry writes the boot record, the lock, WS0, function 0 and RUN_OK, and raises its event. -/
theorem runEntryState : Obligations.RunEntryState := by
  intro s discovering met
  have ws := getWs_runEntry s
  have fn := getFn_runEntry s
  refine ⟨runEntry s, exec_runEntry discovering met, rfl, rfl, rfl, lastEvent_runEntry s, congrArg (·.state) ws, congrArg (·.wflags) ws,
    congrArg (·.state) fn, congrArg (·.ws) fn, fun g first => ?_, ⟨fun _ => rfl, fun _ => rfl⟩, rfl, rfl⟩
  rw [fn, first, Option.getD_some]

/-! ## Power that goes without a flush -/

/-- A write that power cut is settled in the flash alone, by a free value (R466, R467; log entry 3). -/
theorem revertUnit_eq (s : State) (b : Nat × Nat × Option MapUnit) :
    ∃ (flash : Flash) (free : Nat), revertUnit s b = { s with flash := flash, free := free } := by
  simp only [revertUnit, drawFree]
  split
  · exact ⟨s.flash, _, rfl⟩
  · split <;> exact ⟨_, _, rfl⟩

/-- So are all the writes that power cut. -/
theorem loseBuffers_eq (s : State) : ∃ (flash : Flash) (free : Nat), loseBuffers s = { s with flash := flash, free := free } := by
  have cut (l : List (Nat × Nat × Option MapUnit)) (s : State) :
      ∃ (flash : Flash) (free : Nat), l.foldl revertUnit s = { s with flash := flash, free := free } := by
    induction l generalizing s with
    | nil => exact ⟨s.flash, s.free, rfl⟩
    | cons b l ih =>
      obtain ⟨flash, free, one⟩ := revertUnit_eq s b
      obtain ⟨flash', free', rest⟩ := ih (revertUnit s b)
      exact ⟨flash', free', rest.trans (by rw [one])⟩
  exact cut s.flash.buffered s

/-- Settles O28: what the rails leave of the state before them is of fields that the lost writes do not touch (log entries 1 and 97). -/
theorem powerOffKeeps : Obligations.PowerOffKeeps := by
  intro s cause least greatest powered
  refine ⟨_, guarded_when (both_present least greatest) (decide_eq_true powered) .., ?_⟩
  obtain ⟨flash, free, lost⟩ := loseBuffers_eq { s with power := { s.power with trip := cause, lastTrip := cause } }
  rw [lost]
  exact ⟨rfl, rfl, rfl, rfl, rfl, rfl, rfl, fun _ => rfl, rfl, rfl, rfl, rfl, rfl, rfl⟩

/-! ## Reset -/

/-- Settles O43: every field is the one that `State.reset` gives, and a function that is not listed is DISABLED (log entry 1). -/
theorem resetState : Obligations.ResetState :=
  ⟨rfl, rfl, rfl, rfl, rfl, rfl, rfl, rfl, rfl, rfl, rfl, rfl, rfl, rfl, rfl, fun _ => ⟨rfl, rfl, rfl, rfl, rfl, rfl⟩⟩

/-- Settles O45: memory that lists nothing is canonical (log entry 1). -/
theorem resetMemoryCanonical : Obligations.ResetMemoryCanonical := wf_reset

end Sys2Proof.Proofs

/-!
Pages given to a workspace (R315, R317, R318): cleared, and owned once.
-/

namespace Sys2Proof.Proofs

open Sys2Proof.Machine Sys2Proof.Safety Sys2Proof.Laws

/-! ## What an allocation comes to -/

/-- A buffer of the window is the first fit below the guard reserve (R314, R315). -/
theorem allocWindow_eq_some {s t : State} {ws kind n p : Nat} (allocated : allocWindow s ws kind n = some (p, t)) :
    firstFit s.guard.owners 0 (windowPages s - 1024) n = some p ∧ t = takePages s ws kind p n := by
  rw [allocWindow] at allocated
  split at allocated
  next q fit =>
    obtain ⟨rfl, rfl⟩ := Prod.mk.inj (Option.some.inj allocated)
    exact ⟨fit, rfl⟩
  next => nomatch allocated

/-- A marver region is the first fit, among the runs beyond the window, in some bank of its unit (R62). -/
theorem allocMarver_eq_some {s t : State} {ws unit n p : Nat} (allocated : allocMarver s ws unit n = some (p, t)) :
    (∃ lo hi, windowPages s ≤ lo ∧
      firstFit (s.guard.owners.filter fun r => decide (windowPages s ≤ r.base)) lo hi n = some p) ∧
    t = takePages s ws 1 p n := by
  simp only [allocMarver] at allocated
  split at allocated
  next q rest tries =>
    obtain ⟨rfl, rfl⟩ := Prod.mk.inj (Option.some.inj allocated)
    obtain ⟨b, _, fit⟩ := List.mem_filterMap.mp (tries ▸ List.mem_cons_self (a := q))
    exact ⟨⟨_, _, Nat.le_add_right _ _, fit⟩, rfl⟩
  next => nomatch allocated

/-! ## Cleared pages -/

/-- Entries that are taken out by their address leave the others' values alone. -/
theorem get_filter_kept {α : Type} (d : α) (t : Tab α) {keep : Nat → Bool} {a : Nat} (kept : keep a = true) :
    Tab.get d (t.filter fun c => keep c.1) a = Tab.get d t a := by
  induction t with
  | nil => rfl
  | cons c t ih =>
    obtain ⟨b, v⟩ := c
    rw [List.filter_cons]
    split
    next => simp only [Tab.get, ih]
    next dropped =>
      have other : b ≠ a := fun same => dropped (same ▸ kept)
      rw [ih, Tab.get, if_neg other]

/-- A byte outside the pages cleared is as it was (R317). -/
theorem readByte_clearPages_outside {s : State} {base pages dpa : Nat}
    (outside : ¬(base ≤ pageOfDpa s dpa ∧ pageOfDpa s dpa < base + pages)) :
    readByte (clearPages s base pages).mem dpa = readByte s.mem dpa :=
  get_filter_kept 0 s.mem.cells
    (keep := fun a => !(decide (base ≤ pageOfDpa s a) && decide (pageOfDpa s a < base + pages)))
    (by rw [Bool.not_eq_true', ← Bool.decide_and]; exact decide_eq_false outside)

/-- Poison is left in the granules outside the pages cleared alone (R317). -/
theorem contains_clearPages_poison (s : State) (base pages g : Nat) : (clearPages s base pages).mem.poison.contains g =
    (s.mem.poison.contains g && !decide (base ≤ pageOfDpa s (g * 32) ∧ pageOfDpa s (g * 32) < base + pages)) := by
  rw [Bool.eq_iff_iff, Bool.and_eq_true, List.contains_iff_mem, List.contains_iff_mem, Bool.decide_and]
  exact List.mem_filter

/-- Settles O49: either allocation takes its pages, and clears them and no others. -/
theorem allocatedPagesRead0 : Obligations.AllocatedPagesRead0 := by
  intro s t ws kind unit n p allocated
  have taken : t.mem = (clearPages s p n).mem := by
    rcases allocated with window | marver
    · rw [(allocWindow_eq_some window).2]; rfl
    · rw [(allocMarver_eq_some marver).2]; rfl
  rw [taken]
  refine ⟨fun dpa low high => readByte_clearPages s p n dpa ⟨low, high⟩, fun dpa outside => readByte_clearPages_outside outside,
    fun g low high => ?_, fun g outside => ?_⟩
  · rw [contains_clearPages_poison, decide_eq_true ⟨low, high⟩, Bool.not_true, Bool.and_false]
  · rw [contains_clearPages_poison, decide_eq_false outside, Bool.not_false, Bool.and_true]

/-! ## Owners -/

/-- A page that lies in no run has no owner. -/
theorem ownerOf_eq_none {s : State} {q : Nat} (free : ∀ r ∈ s.guard.owners, ¬(r.base ≤ q ∧ q < r.base + r.pages)) :
    ownerOf s q = none := by
  refine List.find?_eq_none.mpr fun r listed => ?_
  rw [← Bool.decide_and, decide_eq_true_eq]
  exact free r listed

/-- Where the runs are apart, a page's owner is the run that it lies in. -/
theorem ownerOf_eq_some_iff {s : State} (apart : OwnersApart s.guard.owners) (q : Nat) (r : OwnRun) :
    ownerOf s q = some r ↔ r ∈ s.guard.owners ∧ r.base ≤ q ∧ q < r.base + r.pages := find_apart _ apart r q

/-- Pages that touch no run, given to a workspace, are owned by it alone, and every other page keeps its owner (R318). -/
theorem takePages_owners {s : State} {p n : Nat} (apart : OwnersApart s.guard.owners) (nonempty : 1 ≤ n)
    (clear : ∀ r ∈ s.guard.owners, r.base + r.pages ≤ p ∨ p + n ≤ r.base) (ws kind : Nat) :
    OwnersApart (takePages s ws kind p n).guard.owners ∧
    (∀ i, i < n → ownerOf s (p + i) = none ∧ ownerOf (takePages s ws kind p n) (p + i) = some ⟨p, n, kind, ws⟩) ∧
    ∀ q, q < p ∨ p + n ≤ q → ownerOf (takePages s ws kind p n) q = ownerOf s q := by
  have apart' : OwnersApart (takePages s ws kind p n).guard.owners := insertRun_apart _ _ apart nonempty clear
  have listed (r : OwnRun) : r ∈ (takePages s ws kind p n).guard.owners ↔ r = ⟨p, n, kind, ws⟩ ∨ r ∈ s.guard.owners :=
    insertRun_mem _ _ _
  refine ⟨apart', fun i within => ⟨ownerOf_eq_none fun r held => ?_, ?_⟩, fun q outside => Option.ext fun r => ?_⟩
  · have := clear r held; omega
  · rw [ownerOf_eq_some_iff apart', listed]
    exact ⟨.inl rfl, Nat.le_add_right p i, Nat.add_lt_add_left within p⟩
  · rw [ownerOf_eq_some_iff apart', ownerOf_eq_some_iff apart, listed]
    constructor
    · rintro ⟨rfl | held, low, high⟩
      · exact absurd (show p ≤ q ∧ q < p + n from ⟨low, high⟩) (by omega)
      · exact ⟨held, low, high⟩
    · exact fun ⟨held, within⟩ => ⟨.inr held, within⟩

/-- Settles O50: a first fit touches no run of its list, and a run below the window's end touches no region beyond it. -/
theorem pagesHaveOneOwner : Obligations.PagesHaveOneOwner := by
  intro s t ws kind n p apart nonempty
  refine ⟨fun allocated => ?_, fun unit within allocated => ?_, apart.filter _⟩
  · obtain ⟨fit, rfl⟩ := allocWindow_eq_some allocated
    obtain ⟨_, below, clear⟩ := firstFit_spec _ _ _ _ _ apart fit
    exact ⟨below, takePages_owners apart nonempty clear ws kind⟩
  · obtain ⟨⟨lo, hi, beyond, fit⟩, rfl⟩ := allocMarver_eq_some allocated
    obtain ⟨low, _, clear⟩ := firstFit_spec _ _ _ _ _ (apart.filter _) fit
    refine ⟨Nat.le_trans beyond low, takePages_owners apart nonempty (fun r held => ?_) ws 1⟩
    by_cases region : windowPages s ≤ r.base
    · exact clear r (List.mem_filter.mpr ⟨held, decide_eq_true region⟩)
    · exact .inl (Nat.le_trans (within r held (Nat.lt_of_not_le region)) (Nat.le_trans beyond low))

end Sys2Proof.Proofs

/-!
A guard halt (R328): what waits on firmware stands still, and only TC7 leaves.
-/

namespace Sys2Proof.Proofs

open Sys2Proof.Machine Sys2Proof.Safety Sys2Proof.Laws

/-! ## What a halt stops -/

section
variable {s : State}

theorem firmwareRuns_halted (halted : s.guard.halted = true) : firmwareRuns s = false := by
  rw [firmwareRuns, halted, Bool.not_true, Bool.and_false]

theorem canAccept_halted (halted : s.guard.halted = true) (m : MsgSrc) : canAccept s m = false := by
  simp only [canAccept, halted, Bool.not_true, Bool.false_and]

/-- No command of the management queues is served. -/
theorem serve_halted (halted : s.guard.halted = true) (c : Cmd) (m : MsgSrc) (body : Ctx → State → Answer × State) :
    serve c m body s = .next s :=
  serve_idle body (by simp only [servable, canAccept_halted halted m, Bool.false_and])

/-- No ring is granted, since no head is admitted (R118). -/
theorem ringGrant_halted (halted : s.guard.halted = true) : ringGrant s = none := by
  have refused (fn : Nat) : ringsAdmit s fn = false := by simp only [ringsAdmit, firmwareRuns_halted halted, Bool.false_and]
  have unadmitted (fn r : Nat) : headAdmits s fn r = false := by
    rw [headAdmits]
    split
    · simp only [refused, Bool.and_false, Bool.false_and]
    · rfl
  have none_waits : ((workRings s).filter fun x => headAdmits s x.2.1 x.2.2) = [] :=
    List.filter_eq_nil_iff.mpr fun x _ => Bool.eq_false_iff.mp (unadmitted x.2.1 x.2.2)
  rw [ringGrant, none_waits, List.foldl_nil]

theorem admitAs_halted (halted : s.guard.halted = true) (kind fn r : Nat) (h : HostView) (start : Src → Nat → State → State) :
    admitAs kind fn r h start s = s := by
  rw [admitAs, ringGrant_halted halted]
  cases workHead s fn r <;> rfl

theorem rejectHead_halted (halted : s.guard.halted = true) (fn r : Nat) : rejectHead fn r s = s := by
  have refused : ringsAdmit s fn = false := by simp only [ringsAdmit, firmwareRuns_halted halted, Bool.false_and]
  simp only [rejectHead, refused, Bool.and_false, Bool.false_and, Bool.false_eq_true, if_false]
  split <;> rfl

theorem admitSub_halted (halted : s.guard.halted = true) (kind ident : Nat) (serve : State → SubIn → State) :
    admitSub kind ident serve s = s := by
  simp only [admitSub, firmwareRuns_halted halted, Bool.false_and, Bool.false_eq_true, if_false]
  split <;> rfl

theorem gafferRow_halted (halted : s.guard.halted = true) (kind : JobKind) (e : Nat) (j : Option GafferJob) (err : Option (Nat × Bool))
    (ok : State → GafferJob → Bool) (put : Nat → GafferJob → State → State) (run : State → GafferJob → List Nat × Nat) :
    gafferRow kind e j err ok put run s = s := by
  simp only [gafferRow, firmwareRuns_halted halted, Bool.false_eq_true, and_false, if_false]
  split <;> rfl

theorem poolLease_halted (halted : s.guard.halted = true) : poolLease s = false := by
  simp only [poolLease, firmwareRuns_halted halted, Bool.false_and]

/-! ## Rows that change nothing -/

/-- A row's outcome that leaves the state as it is, or that says its hardware is not there. -/
def Idle (s : State) (o : Host.Outcome State Fault Refusal) : Prop := o = .next s ∨ ∃ row, o = .fault (.absentUnit row)

theorem idle_guarded {t : State} (same : t = s) (row : String) (there : Bool) : Idle s (guarded row there t) := by
  subst same
  cases there with
  | true => exact .inl rfl
  | false => exact .inr ⟨row, rfl⟩

/-- A row does nothing where its condition does not hold. -/
theorem idle_when {due : Bool} (idle : due = false) (f : State → State) : Idle s (.next (when due f s)) :=
  .inl (by rw [idle]; rfl)

/-- Nor does a row that names hardware. -/
theorem idle_guarded_when {due : Bool} (idle : due = false) (row : String) (there : Bool) (f : State → State) :
    Idle s (guarded row there (when due f s)) := idle_guarded (by rw [idle]; rfl) row there

end

/-- Every row of the bench core or a punty core waits on firmware, or on a message or a ring's head that is taken only while it runs
(R328). -/
theorem benchRow_idle {c : Instr} {s : State} (bench : benchRow c = true) (halted : s.guard.halted = true) : Idle s (exec c s) := by
  have stopped := firmwareRuns_halted halted
  cases c
  -- commands of the management queues
  case devInfo | devLayout | devIdentity | devEcho | ticketInfo | guardInfo | guardSet | funcEnable | funcDisable | funcInfo
      | wsCreate | wsDestroy | wsInfo | wsSetQuota | wsSettings | wsKeyLoad | wsKeyRetire | regionAlloc | regionFree
      | indexCreate | indexDrop | indexInfo | indexTrain | indexImport | indexExport | indexStats | indexPin | indexUnpin
      | programLoad | programUnload | programInfo | tableCreate | tableDrop | tableInfo | tableStage | tableLoad | tableSeal
      | tableSwitch | tableDiscard | tableExport | sessionCreate | sessionDestroy | sessionInfo | sessionAnneal | sessionResume
      | imageDelete | reqStatus | reqCancel | reqHandoff | attnCbLoad | attnCbUnload | ringCreate | ringDestroy | ringInfo
      | moveOpen | moveClose | movePause | moveResume | moveInfo | moveRate | fabPortInfo | fabPortSet | fabRetrain | fabPeers
      | timeInfo | groupInfo | schedInfo | schedClassSet | schedGateLoad | schedSample | flashInfo | flashHealth | flashSet
      | flashCarrierOffline | flashCarrierOnline | maintStart | maintCancel | maintStatus | healthInfo | healthSet | fwStage
      | fwActivate | ucodeLoad | opticsRecal | stackRetire | caneRetire | devDrain | evrInfo | evrArchiveRead | evrClear
      | evrClassSet => exact .inl (serve_halted halted ..)
  case unknownOpcode m => exact idle_when (by simp only [unknownMsg, canAccept_halted halted m, Bool.false_and]) _
  case windowBadAccess => exact idle_when (by simp only [halted, Bool.not_true, Bool.and_false, Bool.false_and]) _
  -- ring entries, sub-requests and engine jobs
  case queryEntry | insertEntry | deleteEntry | attnStep | gatherEntry | updateEntry | topkEntry | requestEntry | modelRun | hashGet
      | hashPut | hashDelete => exact idle_guarded (admitAs_halted halted ..) ..
  case ringRejection => exact idle_guarded (rejectHead_halted halted ..) ..
  case scanSubrequest | refineSubrequest | attnScoreSubrequest | attnPartialSubrequest | gatherSubrequest | updateSubrequest
      | hashGetSubrequest => exact .inl (congrArg _ (admitSub_halted halted ..))
  case coarseScoring | subDistanceTable | insertEncoding | refinement | modelProgramJob | hotRowChunk | trainingPass =>
    exact idle_guarded (gafferRow_halted halted ..) ..
  -- rows that wait on firmware
  case ticketDone | slotsExhausted | annealStripe | subreqReply | subreqTimeout | slotReply | slotRelease | updateSeqRelease
      | phaseDispatch | checkpoint | ownerBeat | orphanMsg | handoffAck | probeMsg | stateLost | requestCompletion | rebuild
      | moveBurstIssue => exact idle_when stopped _
  case changeComplete | statsSnapshot | compact | jackPass | slotSchedule => exact idle_guarded_when stopped ..
  -- rows that wait on firmware and on a condition of their own
  case wsDestroyProceed | annealFlush | annealManifest | annealRelease | sessionRoll | changeMsg | frontierMsg | poisonRewrite
      | attnPositionRelease | kvSpill | sessionJournalWrite | blockRebuild | announce | drained | committed | bindingRecord
      | orphanSweep | benchFlip | fwConfirm | drainDone => exact idle_when (by simp only [stopped, Bool.false_and]) _
  case funcDisableDone => exact idle_guarded_when (by rw [stopped, Bool.and_false]) ..
  case puntyFlip => exact idle_guarded_when (by rw [stopped, Bool.false_and]) ..
  -- rows that wait on the lease of the device's pool
  case handoff | handoffResend | claimMsg => exact idle_when (poolLease_halted halted) _
  -- rows that look up what they name in a table first
  case regionRelease | thresholdPass | frontierReached | frontierWaitTimeout | frontierNotice | lowEpochPublish | groupSnapshot
      | poolReadTimeout | renewSend | grantMsg | releaseSend =>
    simp only [exec, execRegionRelease, execThresholdPass, execFrontierReached, execFrontierWaitTimeout, execFrontierNotice,
      execLowEpochPublish, execGroupSnapshot, execPoolReadTimeout, execRenewSend, execGrantMsg, execReleaseSend, stopped,
      Bool.false_and, when, Bool.false_eq_true, if_false]
    split <;> exact .inl rfl
  -- the rest are the work of neither
  all_goals exact absurd bench Bool.false_ne_true

/-! ## Packets -/

/-- In a halt a queue's packets leave from TC7 up alone (R328). -/
theorem mayLeave_halted_iff {s : State} (halted : s.guard.halted = true) (q : PQueue) :
    mayLeave s q = true ↔ 7 ≤ q.cls ∧ q.pkts ≠ [] := by
  rw [mayLeave, halted, Bool.not_true, Bool.false_or, Bool.and_eq_true, Bool.not_eq_true', List.isEmpty_eq_false_iff,
    decide_eq_true_eq, and_comm]

/-- Settles O42: the rows, the requests and the packets that a halt stops, and what the halt itself sets (R593; log entry 50). -/
theorem guardHaltStopsFirmware : Obligations.GuardHaltStopsFirmware :=
  ⟨fun _ _ => benchRow_idle, fun m _ halted => canAccept_halted halted m, fun q _ halted => mayLeave_halted_iff halted q,
    fun _ => ⟨rfl, rfl, rfl, rfl, rfl, rfl, rfl⟩⟩

end Sys2Proof.Proofs

/-!
What every step keeps: the queue of waiting commands, memory where a row stores nothing, and the canonical form of memory. A row's own
lemma says so for the row; here the rows are put together, one arm for each, as in the dispatch.
-/

namespace Sys2Proof.Proofs

open Sys2Proof.Machine Sys2Proof.Safety Sys2Proof.Laws

/-! ## Steps -/

theorem step_nil {s : State} (idle : s.pending = []) : step s = .next (tick s) := by rw [step, idle]

theorem step_cons {s : State} {c : Instr} {rest : List Instr} (waits : s.pending = c :: rest) :
    step s = exec c { s with pending := rest } := by rw [step, waits]

/-- Settles O37: the front of the queue is the command that was put there. -/
theorem stepRunsFrontCommand : Obligations.StepRunsFrontCommand := fun _ _ _ => step_cons rfl

/-- Settles O38: the idle step is a tick. -/
theorem idleStepTicks : Obligations.IdleStepTicks := fun _ idle => step_nil idle

/-! ## Rows -/

/-- What an outcome keeps of the state before it: the queue, memory's canonical form, and memory itself where the row stores nothing. -/
def Keeps (storing : Bool) (s : State) (o : Host.Outcome State Fault Refusal) : Prop :=
  ∀ t, o = .next t → t.pending = s.pending ∧ (MemoryCanonical s → MemoryCanonical t) ∧ (storing = false → t.mem = s.mem)

section
variable {s : State} {o : Host.Outcome State Fault Refusal} (queue : ∀ t, o = .next t → t.pending = s.pending)
include queue

theorem keeps_of_same (same : ∀ t, o = .next t → t.mem = s.mem) : Keeps false s o := fun t ran =>
  ⟨queue t ran, fun canonical => by rw [MemoryCanonical, same t ran]; exact canonical, fun _ => same t ran⟩

theorem keeps_of_canonical (keeps : MemoryCanonical s → ∀ t, o = .next t → MemoryCanonical t) : Keeps true s o := fun t ran =>
  ⟨queue t ran, fun canonical => keeps canonical t ran, Bool.noConfusion⟩

end

/-- Each row keeps these by its own lemmas. -/
theorem exec_keeps : ∀ (c : Instr) (s : State), Keeps (storingRow c) s (exec c s)
  | .devInfo m, s => keeps_of_same (queue_execDevInfo m s) (mem_execDevInfo m s)
  | .devLayout m, s => keeps_of_same (queue_execDevLayout m s) (mem_execDevLayout m s)
  | .devIdentity m, s => keeps_of_same (queue_execDevIdentity m s) (mem_execDevIdentity m s)
  | .devEcho m, s => keeps_of_same (queue_execDevEcho m s) (mem_execDevEcho m s)
  | .ticketInfo m, s => keeps_of_same (queue_execTicketInfo m s) (mem_execTicketInfo m s)
  | .guardInfo m, s => keeps_of_same (queue_execGuardInfo m s) (mem_execGuardInfo m s)
  | .guardSet m, s => keeps_of_same (queue_execGuardSet m s) (mem_execGuardSet m s)
  | .funcEnable m, s => keeps_of_same (queue_execFuncEnable m s) (mem_execFuncEnable m s)
  | .funcDisable m, s => keeps_of_canonical (queue_execFuncDisable m s) (wf_execFuncDisable m s)
  | .funcInfo m, s => keeps_of_same (queue_execFuncInfo m s) (mem_execFuncInfo m s)
  | .funcDisableDone fn, s => keeps_of_same (queue_execFuncDisableDone fn s) (mem_execFuncDisableDone fn s)
  | .wsCreate m, s => keeps_of_same (queue_execWsCreate m s) (mem_execWsCreate m s)
  | .wsDestroy m, s => keeps_of_same (queue_execWsDestroy m s) (mem_execWsDestroy m s)
  | .wsDestroyProceed ws, s => keeps_of_canonical (queue_execWsDestroyProceed ws s) (wf_execWsDestroyProceed ws s)
  | .wsInfo m, s => keeps_of_same (queue_execWsInfo m s) (mem_execWsInfo m s)
  | .wsSetQuota m, s => keeps_of_same (queue_execWsSetQuota m s) (mem_execWsSetQuota m s)
  | .wsSettings m, s => keeps_of_same (queue_execWsSettings m s) (mem_execWsSettings m s)
  | .wsKeyLoad m, s => keeps_of_same (queue_execWsKeyLoad m s) (mem_execWsKeyLoad m s)
  | .wsKeyRetire m, s => keeps_of_same (queue_execWsKeyRetire m s) (mem_execWsKeyRetire m s)
  | .regionAlloc m, s => keeps_of_canonical (queue_execRegionAlloc m s) (wf_execRegionAlloc m s)
  | .regionFree m, s => keeps_of_same (queue_execRegionFree m s) (mem_execRegionFree m s)
  | .regionRelease ws base, s => keeps_of_canonical (queue_execRegionRelease ws base s) (wf_execRegionRelease ws base s)
  | .indexCreate m, s => keeps_of_canonical (queue_execIndexCreate m s) (wf_execIndexCreate m s)
  | .indexDrop m, s => keeps_of_same (queue_execIndexDrop m s) (mem_execIndexDrop m s)
  | .indexInfo m, s => keeps_of_same (queue_execIndexInfo m s) (mem_execIndexInfo m s)
  | .indexTrain m, s => keeps_of_same (queue_execIndexTrain m s) (mem_execIndexTrain m s)
  | .indexImport m, s => keeps_of_same (queue_execIndexImport m s) (mem_execIndexImport m s)
  | .indexExport m, s => keeps_of_same (queue_execIndexExport m s) (mem_execIndexExport m s)
  | .indexStats m, s => keeps_of_canonical (queue_execIndexStats m s) (wf_execIndexStats m s)
  | .indexPin m, s => keeps_of_same (queue_execIndexPin m s) (mem_execIndexPin m s)
  | .indexUnpin m, s => keeps_of_same (queue_execIndexUnpin m s) (mem_execIndexUnpin m s)
  | .programLoad m, s => keeps_of_canonical (queue_execProgramLoad m s) (wf_execProgramLoad m s)
  | .programUnload m, s => keeps_of_same (queue_execProgramUnload m s) (mem_execProgramUnload m s)
  | .programInfo m, s => keeps_of_same (queue_execProgramInfo m s) (mem_execProgramInfo m s)
  | .tableCreate m, s => keeps_of_same (queue_execTableCreate m s) (mem_execTableCreate m s)
  | .tableDrop m, s => keeps_of_same (queue_execTableDrop m s) (mem_execTableDrop m s)
  | .tableInfo m, s => keeps_of_same (queue_execTableInfo m s) (mem_execTableInfo m s)
  | .tableStage m, s => keeps_of_canonical (queue_execTableStage m s) (wf_execTableStage m s)
  | .tableLoad m, s => keeps_of_canonical (queue_execTableLoad m s) (wf_execTableLoad m s)
  | .tableSeal m, s => keeps_of_same (queue_execTableSeal m s) (mem_execTableSeal m s)
  | .tableSwitch m, s => keeps_of_same (queue_execTableSwitch m s) (mem_execTableSwitch m s)
  | .tableDiscard m, s => keeps_of_same (queue_execTableDiscard m s) (mem_execTableDiscard m s)
  | .tableExport m, s => keeps_of_same (queue_execTableExport m s) (mem_execTableExport m s)
  | .sessionCreate m, s => keeps_of_canonical (queue_execSessionCreate m s) (wf_execSessionCreate m s)
  | .sessionDestroy m, s => keeps_of_same (queue_execSessionDestroy m s) (mem_execSessionDestroy m s)
  | .sessionInfo m, s => keeps_of_same (queue_execSessionInfo m s) (mem_execSessionInfo m s)
  | .sessionAnneal m, s => keeps_of_same (queue_execSessionAnneal m s) (mem_execSessionAnneal m s)
  | .annealFlush ws key, s => keeps_of_same (queue_execAnnealFlush ws key s) (mem_execAnnealFlush ws key s)
  | .annealStripe ws key, s => keeps_of_same (queue_execAnnealStripe ws key s) (mem_execAnnealStripe ws key s)
  | .annealManifest ws key locator, s => keeps_of_same (queue_execAnnealManifest ws key locator s) (mem_execAnnealManifest ws key locator s)
  | .annealRelease ws key, s => keeps_of_same (queue_execAnnealRelease ws key s) (mem_execAnnealRelease ws key s)
  | .sessionRoll ws key ok, s => keeps_of_same (queue_execSessionRoll ws key ok s) (mem_execSessionRoll ws key ok s)
  | .sessionResume m, s => keeps_of_canonical (queue_execSessionResume m s) (wf_execSessionResume m s)
  | .imageDelete m, s => keeps_of_same (queue_execImageDelete m s) (mem_execImageDelete m s)
  | .reqStatus m, s => keeps_of_same (queue_execReqStatus m s) (mem_execReqStatus m s)
  | .reqCancel m, s => keeps_of_same (queue_execReqCancel m s) (mem_execReqCancel m s)
  | .reqHandoff m, s => keeps_of_same (queue_execReqHandoff m s) (mem_execReqHandoff m s)
  | .attnCbLoad m, s => keeps_of_canonical (queue_execAttnCbLoad m s) (wf_execAttnCbLoad m s)
  | .attnCbUnload m, s => keeps_of_same (queue_execAttnCbUnload m s) (mem_execAttnCbUnload m s)
  | .ringCreate m, s => keeps_of_same (queue_execRingCreate m s) (mem_execRingCreate m s)
  | .ringDestroy m, s => keeps_of_same (queue_execRingDestroy m s) (mem_execRingDestroy m s)
  | .ringInfo m, s => keeps_of_same (queue_execRingInfo m s) (mem_execRingInfo m s)
  | .moveOpen m, s => keeps_of_same (queue_execMoveOpen m s) (mem_execMoveOpen m s)
  | .moveClose m, s => keeps_of_same (queue_execMoveClose m s) (mem_execMoveClose m s)
  | .movePause m, s => keeps_of_same (queue_execMovePause m s) (mem_execMovePause m s)
  | .moveResume m, s => keeps_of_same (queue_execMoveResume m s) (mem_execMoveResume m s)
  | .moveInfo m, s => keeps_of_same (queue_execMoveInfo m s) (mem_execMoveInfo m s)
  | .moveRate m, s => keeps_of_same (queue_execMoveRate m s) (mem_execMoveRate m s)
  | .fabPortInfo m, s => keeps_of_same (queue_execFabPortInfo m s) (mem_execFabPortInfo m s)
  | .fabPortSet m, s => keeps_of_same (queue_execFabPortSet m s) (mem_execFabPortSet m s)
  | .fabRetrain m, s => keeps_of_same (queue_execFabRetrain m s) (mem_execFabRetrain m s)
  | .fabPeers m, s => keeps_of_same (queue_execFabPeers m s) (mem_execFabPeers m s)
  | .timeInfo m, s => keeps_of_same (queue_execTimeInfo m s) (mem_execTimeInfo m s)
  | .groupInfo m, s => keeps_of_same (queue_execGroupInfo m s) (mem_execGroupInfo m s)
  | .schedInfo m, s => keeps_of_same (queue_execSchedInfo m s) (mem_execSchedInfo m s)
  | .schedClassSet m, s => keeps_of_same (queue_execSchedClassSet m s) (mem_execSchedClassSet m s)
  | .schedGateLoad m, s => keeps_of_same (queue_execSchedGateLoad m s) (mem_execSchedGateLoad m s)
  | .schedSample m, s => keeps_of_same (queue_execSchedSample m s) (mem_execSchedSample m s)
  | .flashInfo m, s => keeps_of_same (queue_execFlashInfo m s) (mem_execFlashInfo m s)
  | .flashHealth m, s => keeps_of_same (queue_execFlashHealth m s) (mem_execFlashHealth m s)
  | .flashSet m, s => keeps_of_same (queue_execFlashSet m s) (mem_execFlashSet m s)
  | .flashCarrierOffline m, s => keeps_of_same (queue_execFlashCarrierOffline m s) (mem_execFlashCarrierOffline m s)
  | .flashCarrierOnline m, s => keeps_of_same (queue_execFlashCarrierOnline m s) (mem_execFlashCarrierOnline m s)
  | .maintStart m, s => keeps_of_same (queue_execMaintStart m s) (mem_execMaintStart m s)
  | .maintCancel m, s => keeps_of_same (queue_execMaintCancel m s) (mem_execMaintCancel m s)
  | .maintStatus m, s => keeps_of_same (queue_execMaintStatus m s) (mem_execMaintStatus m s)
  | .healthInfo m, s => keeps_of_same (queue_execHealthInfo m s) (mem_execHealthInfo m s)
  | .healthSet m, s => keeps_of_same (queue_execHealthSet m s) (mem_execHealthSet m s)
  | .fwStage m, s => keeps_of_canonical (queue_execFwStage m s) (wf_execFwStage m s)
  | .fwActivate m, s => keeps_of_same (queue_execFwActivate m s) (mem_execFwActivate m s)
  | .ucodeLoad m, s => keeps_of_same (queue_execUcodeLoad m s) (mem_execUcodeLoad m s)
  | .opticsRecal m, s => keeps_of_same (queue_execOpticsRecal m s) (mem_execOpticsRecal m s)
  | .stackRetire m, s => keeps_of_same (queue_execStackRetire m s) (mem_execStackRetire m s)
  | .caneRetire m, s => keeps_of_same (queue_execCaneRetire m s) (mem_execCaneRetire m s)
  | .devDrain m, s => keeps_of_same (queue_execDevDrain m s) (mem_execDevDrain m s)
  | .evrInfo m, s => keeps_of_same (queue_execEvrInfo m s) (mem_execEvrInfo m s)
  | .evrArchiveRead m, s => keeps_of_canonical (queue_execEvrArchiveRead m s) (wf_execEvrArchiveRead m s)
  | .evrClear m, s => keeps_of_same (queue_execEvrClear m s) (mem_execEvrClear m s)
  | .evrClassSet m, s => keeps_of_same (queue_execEvrClassSet m s) (mem_execEvrClassSet m s)
  | .unknownOpcode m, s => keeps_of_same (queue_execUnknownOpcode m s) (mem_execUnknownOpcode m s)
  | .ticketDone t o, s => keeps_of_canonical (queue_execTicketDone t o s) (wf_execTicketDone t o s)
  | .mbxDoorbell p, s => keeps_of_same (queue_execMbxDoorbell p s) (mem_execMbxDoorbell p s)
  | .mbxRespReady p, s => keeps_of_same (queue_execMbxRespReady p s) (mem_execMbxRespReady p s)
  | .sqPiDoorbell p, s => keeps_of_same (queue_execSqPiDoorbell p s) (mem_execSqPiDoorbell p s)
  | .cqCiWrite p, s => keeps_of_same (queue_execCqCiWrite p s) (mem_execCqCiWrite p s)
  | .interruptVectorWrite p, s => keeps_of_same (queue_execInterruptVectorWrite p s) (mem_execInterruptVectorWrite p s)
  | .evwCursorWrite p, s => keeps_of_same (queue_execEvwCursorWrite p s) (mem_execEvwCursorWrite p s)
  | .registerWrite p, s => keeps_of_same (queue_execRegisterWrite p s) (mem_execRegisterWrite p s)
  | .windowBadAccess p isWrite, s => keeps_of_same (queue_execWindowBadAccess p isWrite s) (mem_execWindowBadAccess p isWrite s)
  | .coalescingTimer fn vec, s => keeps_of_same (queue_execCoalescingTimer fn vec s) (mem_execCoalescingTimer fn vec s)
  | .queryEntry fn ring h, s => keeps_of_same (queue_execQueryEntry fn ring h s) (mem_execQueryEntry fn ring h s)
  | .insertEntry fn ring h, s => keeps_of_same (queue_execInsertEntry fn ring h s) (mem_execInsertEntry fn ring h s)
  | .deleteEntry fn ring h, s => keeps_of_same (queue_execDeleteEntry fn ring h s) (mem_execDeleteEntry fn ring h s)
  | .attnStep fn ring h, s => keeps_of_canonical (queue_execAttnStep fn ring h s) (wf_execAttnStep fn ring h s)
  | .gatherEntry fn ring h, s => keeps_of_same (queue_execGatherEntry fn ring h s) (mem_execGatherEntry fn ring h s)
  | .updateEntry fn ring h, s => keeps_of_same (queue_execUpdateEntry fn ring h s) (mem_execUpdateEntry fn ring h s)
  | .topkEntry fn ring h, s => keeps_of_same (queue_execTopkEntry fn ring h s) (mem_execTopkEntry fn ring h s)
  | .requestEntry fn ring h, s => keeps_of_same (queue_execRequestEntry fn ring h s) (mem_execRequestEntry fn ring h s)
  | .modelRun fn ring h, s => keeps_of_same (queue_execModelRun fn ring h s) (mem_execModelRun fn ring h s)
  | .hashGet fn ring h, s => keeps_of_same (queue_execHashGet fn ring h s) (mem_execHashGet fn ring h s)
  | .hashPut fn ring h, s => keeps_of_same (queue_execHashPut fn ring h s) (mem_execHashPut fn ring h s)
  | .hashDelete fn ring h, s => keeps_of_same (queue_execHashDelete fn ring h s) (mem_execHashDelete fn ring h s)
  | .ringRejection fn ring, s => keeps_of_canonical (queue_execRingRejection fn ring s) (wf_execRingRejection fn ring s)
  | .slotsExhausted, s => keeps_of_same (queue_execSlotsExhausted s) (mem_execSlotsExhausted s)
  | .scanSubrequest ident, s => keeps_of_same (queue_execScanSubrequest ident s) (mem_execScanSubrequest ident s)
  | .thresholdPass ident, s => keeps_of_same (queue_execThresholdPass ident s) (mem_execThresholdPass ident s)
  | .refineSubrequest ident, s => keeps_of_same (queue_execRefineSubrequest ident s) (mem_execRefineSubrequest ident s)
  | .attnScoreSubrequest ident, s => keeps_of_same (queue_execAttnScoreSubrequest ident s) (mem_execAttnScoreSubrequest ident s)
  | .attnPartialSubrequest ident, s => keeps_of_canonical (queue_execAttnPartialSubrequest ident s) (wf_execAttnPartialSubrequest ident s)
  | .gatherSubrequest ident, s => keeps_of_same (queue_execGatherSubrequest ident s) (mem_execGatherSubrequest ident s)
  | .updateSubrequest ident, s => keeps_of_canonical (queue_execUpdateSubrequest ident s) (wf_execUpdateSubrequest ident s)
  | .hashGetSubrequest ident, s => keeps_of_same (queue_execHashGetSubrequest ident s) (mem_execHashGetSubrequest ident s)
  | .frontierReached ident, s => keeps_of_same (queue_execFrontierReached ident s) (mem_execFrontierReached ident s)
  | .frontierWaitTimeout ident, s => keeps_of_same (queue_execFrontierWaitTimeout ident s) (mem_execFrontierWaitTimeout ident s)
  | .subreqReply slot kind shard r, s => keeps_of_canonical (queue_execSubreqReply slot kind shard r s)
      (wf_execSubreqReply slot kind shard r s)
  | .subreqTimeout slot kind shard, s => keeps_of_canonical (queue_execSubreqTimeout slot kind shard s)
      (wf_execSubreqTimeout slot kind shard s)
  | .coarseBatchClose engine index, s => keeps_of_same (queue_execCoarseBatchClose engine index s) (mem_execCoarseBatchClose engine index s)
  | .changeMsg c, s => keeps_of_canonical (queue_execChangeMsg c s) (wf_execChangeMsg c s)
  | .changeComplete index shard epoch acked, s => keeps_of_same (queue_execChangeComplete index shard epoch acked s)
      (mem_execChangeComplete index shard epoch acked s)
  | .frontierNotice index, s => keeps_of_same (queue_execFrontierNotice index s) (mem_execFrontierNotice index s)
  | .frontierMsg ws key shard frontier src, s => keeps_of_same (queue_execFrontierMsg ws key shard frontier src s)
      (mem_execFrontierMsg ws key shard frontier src s)
  | .lowEpochPublish index, s => keeps_of_same (queue_execLowEpochPublish index s) (mem_execLowEpochPublish index s)
  | .statsSnapshot index mirror, s => keeps_of_same (queue_execStatsSnapshot index mirror s) (mem_execStatsSnapshot index mirror s)
  | .groupSnapshot ws key shard sn, s => keeps_of_same (queue_execGroupSnapshot ws key shard sn s) (mem_execGroupSnapshot ws key shard sn s)
  | .compact index mirror list seq, s => keeps_of_canonical (queue_execCompact index mirror list seq s)
      (wf_execCompact index mirror list seq s)
  | .marverCommandStart unit c, s => keeps_of_same (queue_execMarverCommandStart unit c s) (mem_execMarverCommandStart unit c s)
  | .lutLoad units, s => keeps_of_canonical (queue_execLutLoad units s) (wf_execLutLoad units s)
  | .scan8 unit errs, s => keeps_of_canonical (queue_execScan8 unit errs s) (wf_execScan8 unit errs s)
  | .scan4 unit errs, s => keeps_of_canonical (queue_execScan4 unit errs s) (wf_execScan4 unit errs s)
  | .marverFilter unit errs, s => keeps_of_canonical (queue_execMarverFilter unit errs s) (wf_execMarverFilter unit errs s)
  | .blockScore unit errs, s => keeps_of_canonical (queue_execBlockScore unit errs s) (wf_execBlockScore unit errs s)
  | .attnKey unit errs, s => keeps_of_canonical (queue_execAttnKey unit errs s) (wf_execAttnKey unit errs s)
  | .attnValue unit errs, s => keeps_of_canonical (queue_execAttnValue unit errs s) (wf_execAttnValue unit errs s)
  | .marverPool unit errs, s => keeps_of_canonical (queue_execMarverPool unit errs s) (wf_execMarverPool unit errs s)
  | .gradRmw unit errs, s => keeps_of_canonical (queue_execGradRmw unit errs s) (wf_execGradRmw unit errs s)
  | .marverAppend unit errs, s => keeps_of_canonical (queue_execMarverAppend unit errs s) (wf_execMarverAppend unit errs s)
  | .marverMark unit errs, s => keeps_of_canonical (queue_execMarverMark unit errs s) (wf_execMarverMark unit errs s)
  | .marverCopy unit errs, s => keeps_of_canonical (queue_execMarverCopy unit errs s) (wf_execMarverCopy unit errs s)
  | .marverScrub unit errs, s => keeps_of_canonical (queue_execMarverScrub unit errs s) (wf_execMarverScrub unit errs s)
  | .marverDrain unit errs, s => keeps_of_canonical (queue_execMarverDrain unit errs s) (wf_execMarverDrain unit errs s)
  | .diebusXfer die base errs, s => keeps_of_canonical (queue_execDiebusXfer die base errs s) (wf_execDiebusXfer die base errs s)
  | .hostSlot unit a, s => keeps_of_canonical (queue_execHostSlot unit a s) (wf_execHostSlot unit a s)
  | .bankRefresh bank, s => keeps_of_same (queue_execBankRefresh bank s) (mem_execBankRefresh bank s)
  | .poisonRewrite dpa data, s => keeps_of_canonical (queue_execPoisonRewrite dpa data s) (wf_execPoisonRewrite dpa data s)
  | .coarseScoring engine j err, s => keeps_of_same (queue_execCoarseScoring engine j err s) (mem_execCoarseScoring engine j err s)
  | .subDistanceTable engine j err, s => keeps_of_same (queue_execSubDistanceTable engine j err s) (mem_execSubDistanceTable engine j err s)
  | .insertEncoding engine j err, s => keeps_of_same (queue_execInsertEncoding engine j err s) (mem_execInsertEncoding engine j err s)
  | .refinement engine j err, s => keeps_of_same (queue_execRefinement engine j err s) (mem_execRefinement engine j err s)
  | .modelProgramJob engine j err, s => keeps_of_same (queue_execModelProgramJob engine j err s) (mem_execModelProgramJob engine j err s)
  | .hotRowChunk engine j err, s => keeps_of_same (queue_execHotRowChunk engine j err s) (mem_execHotRowChunk engine j err s)
  | .trainingPass engine j err, s => keeps_of_same (queue_execTrainingPass engine j err s) (mem_execTrainingPass engine j err s)
  | .jackPass unit ctx bind, s => keeps_of_same (queue_execJackPass unit ctx bind s) (mem_execJackPass unit ctx bind s)
  | .slotSchedule core, s => keeps_of_canonical (queue_execSlotSchedule core s) (wf_execSlotSchedule core s)
  | .slotReply slot, s => keeps_of_same (queue_execSlotReply slot s) (mem_execSlotReply slot s)
  | .slotRelease slot, s => keeps_of_canonical (queue_execSlotRelease slot s) (wf_execSlotRelease slot s)
  | .attnPositionRelease slot, s => keeps_of_canonical (queue_execAttnPositionRelease slot s) (wf_execAttnPositionRelease slot s)
  | .kvSpill ws key, s => keeps_of_canonical (queue_execKvSpill ws key s) (wf_execKvSpill ws key s)
  | .sessionJournalWrite ws key e, s => keeps_of_same (queue_execSessionJournalWrite ws key e s) (mem_execSessionJournalWrite ws key e s)
  | .blockRebuild ws key layer head block src, s => keeps_of_canonical (queue_execBlockRebuild ws key layer head block src s)
      (wf_execBlockRebuild ws key layer head block src s)
  | .announce ws key v u coord, s => keeps_of_same (queue_execAnnounce ws key v u coord s) (mem_execAnnounce ws key v u coord s)
  | .drained ws key v u src, s => keeps_of_same (queue_execDrained ws key v u src s) (mem_execDrained ws key v u src s)
  | .committed ws key v u, s => keeps_of_same (queue_execCommitted ws key v u s) (mem_execCommitted ws key v u s)
  | .updateSeqRelease slot, s => keeps_of_same (queue_execUpdateSeqRelease slot s) (mem_execUpdateSeqRelease slot s)
  | .poolResp txn tagOk rec, s => keeps_of_same (queue_execPoolResp txn tagOk rec s) (mem_execPoolResp txn tagOk rec s)
  | .poolReadTimeout txn, s => keeps_of_same (queue_execPoolReadTimeout txn s) (mem_execPoolReadTimeout txn s)
  | .phaseDispatch ws ident h, s => keeps_of_canonical (queue_execPhaseDispatch ws ident h s) (wf_execPhaseDispatch ws ident h s)
  | .bindingRecord ws ident accepted, s => keeps_of_same (queue_execBindingRecord ws ident accepted s)
      (mem_execBindingRecord ws ident accepted s)
  | .checkpoint ws ident accepted c, s => keeps_of_same (queue_execCheckpoint ws ident accepted c s)
      (mem_execCheckpoint ws ident accepted c s)
  | .ownerBeat ws ident, s => keeps_of_same (queue_execOwnerBeat ws ident s) (mem_execOwnerBeat ws ident s)
  | .orphanSweep, s => keeps_of_same (queue_execOrphanSweep s) (mem_execOrphanSweep s)
  | .orphanMsg ws ident epoch pool, s => keeps_of_same (queue_execOrphanMsg ws ident epoch pool s) (mem_execOrphanMsg ws ident epoch pool s)
  | .handoff c, s => keeps_of_same (queue_execHandoff c s) (mem_execHandoff c s)
  | .handoffAck ws ident epoch heldNone, s => keeps_of_same (queue_execHandoffAck ws ident epoch heldNone s)
      (mem_execHandoffAck ws ident epoch heldNone s)
  | .handoffResend ws ident, s => keeps_of_same (queue_execHandoffResend ws ident s) (mem_execHandoffResend ws ident s)
  | .claimMsg ws ident copies, s => keeps_of_same (queue_execClaimMsg ws ident copies s) (mem_execClaimMsg ws ident copies s)
  | .probeMsg ws ident, s => keeps_of_same (queue_execProbeMsg ws ident s) (mem_execProbeMsg ws ident s)
  | .stateLost ws ident, s => keeps_of_same (queue_execStateLost ws ident s) (mem_execStateLost ws ident s)
  | .requestCompletion ws ident, s => keeps_of_same (queue_execRequestCompletion ws ident s) (mem_execRequestCompletion ws ident s)
  | .inputRise vin, s => keeps_of_same (queue_execInputRise vin s) (mem_execInputRise vin s)
  | .railsTimeout railsOk, s => keeps_of_same (queue_execRailsTimeout railsOk s) (mem_execRailsTimeout railsOk s)
  | .powerOnResetRelease, s => keeps_of_same (queue_execPowerOnResetRelease s) (mem_execPowerOnResetRelease s)
  | .strapSample mv, s => keeps_of_same (queue_execStrapSample mv s) (mem_execStrapSample mv s)
  | .guardIntervalEnd, s => keeps_of_same (queue_execGuardIntervalEnd s) (mem_execGuardIntervalEnd s)
  | .bootLoad flash, s => keeps_of_canonical (queue_execBootLoad flash s) (wf_execBootLoad flash s)
  | .recoveryLoad pkg, s => keeps_of_canonical (queue_execRecoveryLoad pkg s) (wf_execRecoveryLoad pkg s)
  | .stopLine, s => keeps_of_same (queue_execStopLine s) (mem_execStopLine s)
  | .stackDiscovery steps, s => keeps_of_canonical (queue_execStackDiscovery steps s) (wf_execStackDiscovery steps s)
  | .flashTargetProbe chan probes, s => keeps_of_same (queue_execFlashTargetProbe chan probes s) (mem_execFlashTargetProbe chan probes s)
  | .runEntry, s => keeps_of_same (queue_execRunEntry s) (mem_execRunEntry s)
  | .startWait, s => keeps_of_same (queue_execStartWait s) (mem_execStartWait s)
  | .inputDropBeforeRun vin, s => keeps_of_canonical (queue_execInputDropBeforeRun vin s) (wf_execInputDropBeforeRun vin s)
  | .i3cEntdaa addr, s => keeps_of_same (queue_execI3cEntdaa addr s) (mem_execI3cEntdaa addr s)
  | .membership m pools, s => keeps_of_canonical (queue_execMembership m pools s) (wf_execMembership m pools s)
  | .renewSend group, s => keeps_of_same (queue_execRenewSend group s) (mem_execRenewSend group s)
  | .grantMsg group epoch expiry seq, s => keeps_of_same (queue_execGrantMsg group epoch expiry seq s)
      (mem_execGrantMsg group epoch expiry seq s)
  | .leaseLapse group, s => keeps_of_same (queue_execLeaseLapse group s) (mem_execLeaseLapse group s)
  | .releaseSend group, s => keeps_of_same (queue_execReleaseSend group s) (mem_execReleaseSend group s)
  | .rebuild obj table mirror source, s => keeps_of_canonical (queue_execRebuild obj table mirror source s)
      (wf_execRebuild obj table mirror source s)
  | .scoreDecay, s => keeps_of_same (queue_execScoreDecay s) (mem_execScoreDecay s)
  | .lehrAdmit ident, s => keeps_of_same (queue_execLehrAdmit ident s) (mem_execLehrAdmit ident s)
  | .lehrRoundEnd ident finished, s => keeps_of_same (queue_execLehrRoundEnd ident finished s) (mem_execLehrRoundEnd ident finished s)
  | .wavelengthFail port wl, s => keeps_of_same (queue_execWavelengthFail port wl s) (mem_execWavelengthFail port wl s)
  | .remapFrame port lane wl first, s => keeps_of_same (queue_execRemapFrame port lane wl first s) (mem_execRemapFrame port lane wl first s)
  | .wavelengthRetrain port rx wl pass, s => keeps_of_same (queue_execWavelengthRetrain port rx wl pass s)
      (mem_execWavelengthRetrain port rx wl pass s)
  | .portTrainTimeout port, s => keeps_of_same (queue_execPortTrainTimeout port s) (mem_execPortTrainTimeout port s)
  | .portUp port txPass rxPass delay, s => keeps_of_same (queue_execPortUp port txPass rxPass delay s)
      (mem_execPortUp port txPass rxPass delay s)
  | .probePulse port, s => keeps_of_same (queue_execProbePulse port s) (mem_execProbePulse port s)
  | .lightReceived port, s => keeps_of_same (queue_execLightReceived port s) (mem_execLightReceived port s)
  | .openFibre port, s => keeps_of_same (queue_execOpenFibre port s) (mem_execOpenFibre port s)
  | .laserFeedLost feed, s => keeps_of_same (queue_execLaserFeedLost feed s) (mem_execLaserFeedLost feed s)
  | .fibreConnLost cane, s => keeps_of_same (queue_execFibreConnLost cane s) (mem_execFibreConnLost cane s)
  | .fibreConnRestored cane, s => keeps_of_same (queue_execFibreConnRestored cane s) (mem_execFibreConnRestored cane s)
  | .dataFrame port corrected uncorrectable f, s => keeps_of_same (queue_execDataFrame port corrected uncorrectable f s)
      (mem_execDataFrame port corrected uncorrectable f s)
  | .frameReplayTimeout port, s => keeps_of_same (queue_execFrameReplayTimeout port s) (mem_execFrameReplayTimeout port s)
  | .helloMsg port msg, s => keeps_of_same (queue_execHelloMsg port msg s) (mem_execHelloMsg port msg s)
  | .helloTimeout port, s => keeps_of_same (queue_execHelloTimeout port s) (mem_execHelloTimeout port s)
  | .linkState src ls, s => keeps_of_same (queue_execLinkState src ls s) (mem_execLinkState src ls s)
  | .linkStateTimer, s => keeps_of_same (queue_execLinkStateTimer s) (mem_execLinkStateTimer s)
  | .flowIdle dst vc, s => keeps_of_same (queue_execFlowIdle dst vc s) (mem_execFlowIdle dst vc s)
  | .packetReceive, s => keeps_of_canonical (queue_execPacketReceive s) (wf_execPacketReceive s)
  | .e2eAck src vc seq nak, s => keeps_of_same (queue_execE2eAck src vc seq nak s) (mem_execE2eAck src vc seq nak s)
  | .tc7Resend dst vc seq, s => keeps_of_same (queue_execTc7Resend dst vc seq s) (mem_execTc7Resend dst vc seq s)
  | .memWrite p, s => keeps_of_canonical (queue_execMemWrite p s) (wf_execMemWrite p s)
  | .memRead p, s => keeps_of_same (queue_execMemRead p s) (mem_execMemRead p s)
  | .ptpTime port msg, s => keeps_of_same (queue_execPtpTime port msg s) (mem_execPtpTime port msg s)
  | .holdover, s => keeps_of_same (queue_execHoldover s) (mem_execHoldover s)
  | .refLost, s => keeps_of_same (queue_execRefLost s) (mem_execRefLost s)
  | .refRestored, s => keeps_of_same (queue_execRefRestored s) (mem_execRefRestored s)
  | .ppsPulse, s => keeps_of_same (queue_execPpsPulse s) (mem_execPpsPulse s)
  | .ppsLost, s => keeps_of_same (queue_execPpsLost s) (mem_execPpsLost s)
  | .ppsOutputEdge, s => keeps_of_same (queue_execPpsOutputEdge s) (mem_execPpsOutputEdge s)
  | .packetSelect port, s => keeps_of_same (queue_execPacketSelect port s) (mem_execPacketSelect port s)
  | .gateTakeOver port, s => keeps_of_same (queue_execGateTakeOver port s) (mem_execGateTakeOver port s)
  | .gateEntryChange port, s => keeps_of_same (queue_execGateEntryChange port s) (mem_execGateEntryChange port s)
  | .queueSample port, s => keeps_of_same (queue_execQueueSample port s) (mem_execQueueSample port s)
  | .moveDescriptorStart chan, s => keeps_of_canonical (queue_execMoveDescriptorStart chan s) (wf_execMoveDescriptorStart chan s)
  | .moveBurstIssue, s => keeps_of_canonical (queue_execMoveBurstIssue s) (wf_execMoveBurstIssue s)
  | .moveBurstDone chan off h, s => keeps_of_canonical (queue_execMoveBurstDone chan off h s) (wf_execMoveBurstDone chan off h s)
  | .flashOperation chan target o, s => keeps_of_same (queue_execFlashOperation chan target o s) (mem_execFlashOperation chan target o s)
  | .reclaim group, s => keeps_of_same (queue_execReclaim group s) (mem_execReclaim group s)
  | .wearMove group, s => keeps_of_same (queue_execWearMove group s) (mem_execWearMove group s)
  | .flashPatrol group, s => keeps_of_same (queue_execFlashPatrol group s) (mem_execFlashPatrol group s)
  | .groupMount group src, s => keeps_of_same (queue_execGroupMount group src s) (mem_execGroupMount group src s)
  | .carrierPresent group probes, s => keeps_of_same (queue_execCarrierPresent group probes s) (mem_execCarrierPresent group probes s)
  | .carrierRemoved group, s => keeps_of_same (queue_execCarrierRemoved group s) (mem_execCarrierRemoved group s)
  | .stripeForm stream fold, s => keeps_of_same (queue_execStripeForm stream fold s) (mem_execStripeForm stream fold s)
  | .stripeUnitDurable setId index member, s => keeps_of_same (queue_execStripeUnitDurable setId index member s)
      (mem_execStripeUnitDurable setId index member s)
  | .stripeMemberTimeout setId index member, s => keeps_of_same (queue_execStripeMemberTimeout setId index member s)
      (mem_execStripeMemberTimeout setId index member s)
  | .stripeSetRebuild setId lost units, s => keeps_of_same (queue_execStripeSetRebuild setId lost units s)
      (mem_execStripeSetRebuild setId lost units s)
  | .flashTempRead temps, s => keeps_of_same (queue_execFlashTempRead temps s) (mem_execFlashTempRead temps s)
  | .eventIntake, s => keeps_of_canonical (queue_execEventIntake s) (wf_execEventIntake s)
  | .alarmLatchWrite, s => keeps_of_canonical (queue_execAlarmLatchWrite s) (wf_execAlarmLatchWrite s)
  | .logSummary code, s => keeps_of_canonical (queue_execLogSummary code s) (wf_execLogSummary code s)
  | .dropSummary, s => keeps_of_canonical (queue_execDropSummary s) (wf_execDropSummary s)
  | .archiveWrite, s => keeps_of_same (queue_execArchiveWrite s) (mem_execArchiveWrite s)
  | .statusFrame f, s => keeps_of_same (queue_execStatusFrame f s) (mem_execStatusFrame f s)
  | .statusLinkLost, s => keeps_of_same (queue_execStatusLinkLost s) (mem_execStatusLinkLost s)
  | .powerCapCompare, s => keeps_of_same (queue_execPowerCapCompare s) (mem_execPowerCapCompare s)
  | .powerDutyRise, s => keeps_of_same (queue_execPowerDutyRise s) (mem_execPowerDutyRise s)
  | .inputLow, s => keeps_of_same (queue_execInputLow s) (mem_execInputLow s)
  | .inputHigh, s => keeps_of_same (queue_execInputHigh s) (mem_execInputHigh s)
  | .entryTrip cause, s => keeps_of_canonical (queue_execEntryTrip cause s) (wf_execEntryTrip cause s)
  | .tripRestart, s => keeps_of_same (queue_execTripRestart s) (mem_execTripRestart s)
  | .powerLoss, s => keeps_of_same (queue_execPowerLoss s) (mem_execPowerLoss s)
  | .flushDone, s => keeps_of_canonical (queue_execFlushDone s) (wf_execFlushDone s)
  | .railCollapse vin, s => keeps_of_canonical (queue_execRailCollapse vin s) (wf_execRailCollapse vin s)
  | .resetRequest, s => keeps_of_canonical (queue_execResetRequest s) (wf_execResetRequest s)
  | .alarmNRelease, s => keeps_of_same (queue_execAlarmNRelease s) (mem_execAlarmNRelease s)
  | .thermalSample hub stk cane fh, s => keeps_of_same (queue_execThermalSample hub stk cane fh s) (mem_execThermalSample hub stk cane fh s)
  | .thermalDutyStep, s => keeps_of_same (queue_execThermalDutyStep s) (mem_execThermalDutyStep s)
  | .thermalTrip kind inst, s => keeps_of_canonical (queue_execThermalTrip kind inst s) (wf_execThermalTrip kind inst s)
  | .thermalReport, s => keeps_of_same (queue_execThermalReport s) (mem_execThermalReport s)
  | .puntyFlip core, s => keeps_of_same (queue_execPuntyFlip core s) (mem_execPuntyFlip core s)
  | .benchFlip, s => keeps_of_same (queue_execBenchFlip s) (mem_execBenchFlip s)
  | .fwConfirm, s => keeps_of_same (queue_execFwConfirm s) (mem_execFwConfirm s)
  | .fwActivateReverted, s => keeps_of_same (queue_execFwActivateReverted s) (mem_execFwActivateReverted s)
  | .ucodeSwitch unit, s => keeps_of_canonical (queue_execUcodeSwitch unit s) (wf_execUcodeSwitch unit s)
  | .regionMigrate page, s => keeps_of_canonical (queue_execRegionMigrate page s) (wf_execRegionMigrate page s)
  | .streamMove group stream unit, s => keeps_of_same (queue_execStreamMove group stream unit s) (mem_execStreamMove group stream unit s)
  | .drainDone, s => keeps_of_same (queue_execDrainDone s) (mem_execDrainDone s)
  | .probeReturn port, s => keeps_of_same (queue_execProbeReturn port s) (mem_execProbeReturn port s)
  | .helloSendTimer port, s => keeps_of_same (queue_execHelloSendTimer port s) (mem_execHelloSendTimer port s)
  | .ptpSendTimer port kind, s => keeps_of_same (queue_execPtpSendTimer port kind s) (mem_execPtpSendTimer port kind s)
  | .coreFault jack inst, s => keeps_of_same (queue_execCoreFault jack inst s) (mem_execCoreFault jack inst s)

/-- Settles O39: no row touches the queue. -/
theorem execKeepsQueue : Obligations.ExecKeepsQueue := fun c s t ran => (exec_keeps c s t ran).left

/-- Settles O46: memory is the same data, so it reads alike. -/
theorem storelessRowsKeepMemory : Obligations.StorelessRowsKeepMemory := by
  intro c s t storeless ran
  obtain ⟨-, -, same⟩ := exec_keeps c s t ran
  rw [SameMemory, same storeless]
  exact ⟨fun _ => rfl, fun _ => rfl⟩

/-- Settles O44: an idle step touches the clock alone, and any other is a row's. -/
theorem stepKeepsMemoryCanonical : Obligations.StepKeepsMemoryCanonical := by
  intro s t canonical stepped
  cases waits : s.pending with
  | nil =>
    rw [step_nil waits] at stepped
    exact Host.Outcome.next.inj stepped ▸ canonical
  | cons c rest =>
    rw [step_cons waits] at stepped
    obtain ⟨-, keeps, -⟩ := exec_keeps c _ t stepped
    exact keeps canonical

end Sys2Proof.Proofs

/-!
Requests of the bench core (R341, R361, R369, R619): the checks that stand before a command's own, what a request that fails one is
answered, and DEV_ECHO.
-/

namespace Sys2Proof.Proofs

open Sys2Proof.Machine Sys2Proof.Safety Sys2Proof.Laws

/-! ## Checks of a request -/

section
variable {s : State} {c : Cmd} {owner : Nat} {msg : List Byte}

theorem preCheck_header (bad : headerOk msg = false) : preCheck s c owner msg = some stBadParam := by
  simp only [preCheck, bad, Bool.not_false, if_true]

theorem sizeCheck_passes (size : ∀ n, c.size = some n → n = fld msg 4 2) :
    (c.size.isSome && c.size != some (fld msg 4 2)) = false := by
  cases fixed : c.size with
  | none => rfl
  | some n => rw [size n fixed, bne_self_eq_false, Bool.and_false]

variable (header : headerOk msg = true)
include header

theorem preCheck_issuer (other : issuerOk s c owner = false) : preCheck s c owner msg = some stNoAuth := by
  simp only [preCheck, header, other, Bool.not_true, Bool.not_false, Bool.false_eq_true, if_true, if_false]

variable (issuer : issuerOk s c owner = true)
include issuer

theorem preCheck_size {n : Nat} (fixed : c.size = some n) (differs : n ≠ fld msg 4 2) :
    preCheck s c owner msg = some stBadParam := by
  have other : (some n != some (fld msg 4 2)) = true := bne_iff_ne.mpr (mt Option.some.inj differs)
  simp only [preCheck, header, issuer, fixed, other, Option.isSome_some, Bool.and_self, Bool.not_true, Bool.false_eq_true, if_true,
    if_false]

variable (size : ∀ n, c.size = some n → n = fld msg 4 2)
include size

theorem preCheck_destroying (destroying : (getWs s (wsOfOwner s owner)).state = 2) (op : c.op ≠ 0x203) :
    preCheck s c owner msg = some stBadParam := by
  simp only [preCheck, header, issuer, sizeCheck_passes size, destroying, bne_iff_ne.mpr op, beq_self_eq_true,
    Bool.and_self, Bool.not_true, Bool.false_eq_true, if_true, if_false]

theorem preCheck_ticket (ws : (getWs s (wsOfOwner s owner)).state ≠ 2 ∨ c.op = 0x203) (async : c.async = true)
    (full : ticketRoom s (wsOfOwner s owner) = false) : preCheck s c owner msg = some stQuota := by
  have serves : ((getWs s (wsOfOwner s owner)).state == 2 && c.op != 0x203) = false := by
    rw [Bool.and_eq_false_iff, beq_eq_false_iff_ne, bne_eq_false_iff_eq]; exact ws
  simp only [preCheck, header, issuer, sizeCheck_passes size, serves, async, full, Bool.and_self, Bool.not_true,
    Bool.not_false, Bool.false_eq_true, if_true, if_false]

end

/-! ## Commands -/

theorem exists_serve_of_eq {c c' : Cmd} {m m' : MsgSrc} {row : State → Host.Outcome State Fault Refusal}
    {body : Ctx → State → Answer × State} (command : some (c', m') = some (c, m)) (served : ∀ s, row s = serve c' m' body s) :
    ∃ body : Ctx → State → Answer × State, ∀ s, row s = serve c m body s := by
  obtain ⟨rfl, rfl⟩ := Prod.mk.inj (Option.some.inj command)
  exact ⟨body, served⟩

/-- A row of the management queues is the command that it names, served with a body of its own (R618, R619). -/
theorem exec_eq_serve {i : Instr} {c : Cmd} {m : MsgSrc} (command : commandOf i = some (c, m)) :
    ∃ body : Ctx → State → Answer × State, ∀ s, exec i s = serve c m body s := by
  cases i
  case devInfo | devLayout | devIdentity | devEcho | ticketInfo | guardInfo | guardSet | funcEnable | funcDisable | funcInfo | wsCreate
      | wsDestroy | wsInfo | wsSetQuota | wsSettings | wsKeyLoad | wsKeyRetire | regionAlloc | regionFree | indexCreate | indexDrop
      | indexInfo | indexTrain | indexImport | indexExport | indexStats | indexPin | indexUnpin | programLoad | programUnload
      | programInfo | tableCreate | tableDrop | tableInfo | tableStage | tableLoad | tableSeal | tableSwitch | tableDiscard
      | tableExport | sessionCreate | sessionDestroy | sessionInfo | sessionAnneal | sessionResume | imageDelete | reqStatus | reqCancel
      | reqHandoff | attnCbLoad | attnCbUnload | ringCreate | ringDestroy | ringInfo | moveOpen | moveClose | movePause | moveResume
      | moveInfo | moveRate | fabPortInfo | fabPortSet | fabRetrain | fabPeers | timeInfo | groupInfo | schedInfo | schedClassSet
      | schedGateLoad | schedSample | flashInfo | flashHealth | flashSet | flashCarrierOffline | flashCarrierOnline | maintStart
      | maintCancel | maintStatus | healthInfo | healthSet | fwStage | fwActivate | ucodeLoad | opticsRecal | stackRetire | caneRetire
      | devDrain | evrInfo | evrArchiveRead | evrClear | evrClassSet =>
    exact exists_serve_of_eq command fun _ => rfl
  all_goals exact nomatch command

/-- Settles O41: each of the checks, where those before it pass and it fails, gives its own status to the answer. -/
theorem refusedRequestsChangeNothing : Obligations.RefusedRequestsChangeNothing := by
  intro i c m s st command servable msg t fails
  obtain ⟨body, served⟩ := exec_eq_serve command
  rw [served]
  refine serve_refused body servable ?_
  obtain ⟨bad, rfl⟩ | ⟨header, other, rfl⟩ | ⟨header, issuer, ⟨n, fixed, differs⟩, rfl⟩ |
    ⟨header, issuer, size, destroying, op, rfl⟩ | ⟨header, issuer, size, ws, async, full, rfl⟩ := fails
  · exact preCheck_header bad
  · exact preCheck_issuer header other
  · exact preCheck_size header issuer fixed differs
  · exact preCheck_destroying header issuer size destroying op
  · exact preCheck_ticket header issuer size ws async full

theorem op_of_servable {c : Cmd} {m : MsgSrc} {s : State} (servable : servable c m s = true) : fld (msgBytes s m) 0 2 = c.op := by
  simp only [Machine.servable, Bool.and_eq_true, beq_iff_eq] at servable
  obtain ⟨⟨-, op⟩, -⟩ := servable
  exact op

/-- Settles O59: the body answers with the payload, under the opcode that the request has. -/
theorem echoReturnsPayload : Obligations.EchoReturnsPayload := by
  intro m s accepted msg
  have op : fld msg 0 2 = 0x104 := op_of_servable accepted.left
  exact (serve_accepted _ accepted).trans (by rw [← op]; rfl)

end Sys2Proof.Proofs

/-!
The window of a function (R331, R334, R337, R339, R345, R350, R355, R529): doorbells, ring counters, vectors, the recorder's cursor and
the other registers.
-/

namespace Sys2Proof.Proofs

open Sys2Proof.Machine

/-- A row's outcome where its condition holds, by what its action comes to. -/
theorem next_when {due : Bool} {f : State → State} {s t : State} (holds : due = true) (acts : f s = t) :
    Host.Outcome.next (φ := Fault) (ρ := Refusal) (when due f s) = .next t := by
  rw [when_pos holds, acts]

/-- So too the outcome of a row that names hardware, where that is there. -/
theorem guarded_next {there due : Bool} {f : State → State} {s t : State} {row : String} (present : there = true) (holds : due = true)
    (acts : f s = t) : guarded row there (when due f s) = .next t := by
  rw [guarded_when present holds, acts]

theorem beq_or_beq {n a b : Nat} (h : n = a ∨ n = b) : (n == a || n == b) = true :=
  Bool.or_eq_true_iff.mpr (h.imp beq_iff_eq.mpr beq_iff_eq.mpr)

/-! ## Mailbox doorbells -/

section
variable {f : Func} {i : Nat}

theorem ringSlot_busy (busy : f.busy.getLsbD i = true) : ringSlot f i = { f with badBells := satAdd 32 f.badBells 1 } := if_pos busy

theorem ringSlot_free (free : f.busy.getLsbD i = false) :
    ringSlot f i = { f with busy := f.busy ||| BitVec.ofNat 16 (2 ^ i), arrival := f.arrival ++ [i] } :=
  if_neg (Bool.eq_false_iff.mp free)

/-- The doorbell that acts leaves its slot BUSY. -/
theorem busy_ringSlot (slot : i < 16) (free : f.busy.getLsbD i = false) : (ringSlot f i).busy.getLsbD i = true := by
  rw [ringSlot_free free, BitVec.getLsbD_or, BitVec.getLsbD_ofNat, Nat.testBit_two_pow_self, decide_eq_true slot, Bool.and_true,
    Bool.or_true]

end

/-- Settles O60: a BUSY slot's bit is counted, and a free slot is BUSY once its bit has acted. -/
theorem busySlotDoorbellIgnored : Obligations.BusySlotDoorbellIgnored := by
  refine ⟨fun f i => ringSlot_busy, fun f i slot free => ?_, fun p s acts => next_when acts rfl⟩
  exact ⟨congrArg (·.busy) (ringSlot_free free), congrArg (·.arrival) (ringSlot_free free), congrArg (·.badBells) (ringSlot_free free),
    ringSlot_busy (busy_ringSlot slot free)⟩

/-! ## Registers -/

theorem badAccess_first {p : RegPkt} {s : State} (first : (getFn s p.fn).badAt = none) : badAccess p s = ackWrite (emitFull
    (putFn s p.fn { getFn s p.fn with badAt := some (ns s), badCount := 0 }) 0x0501 0 0 p.fn p.offset p.data.length
      ((getFn s p.fn).badCount + 1) 0) p := by
  simp only [badAccess, first, if_true]

/-- Settles O11: each row acts under its condition, and takes the branch that the clause's hypotheses choose. -/
theorem windowWritesComplete : Obligations.WindowWritesComplete := by
  intro p s f r g
  refine ⟨fun acts => next_when acts rfl, fun acts => next_when acts rfl, ?_, ?_, ?_, ?_, ?_, ?_, ?_⟩
  · rintro x acts takes rfl ok
    have taken : (!takesBells s g) ≠ true := by rw [takes]; exact Bool.false_ne_true
    exact next_when acts (congrArg (ackWrite · p) ((if_neg taken).trans (if_pos ok)))
  · rintro x acts created rfl ok
    exact next_when acts (congrArg (ackWrite · p) ((if_neg created).trans (if_pos ok)))
  · rintro v x w y acts rfl rfl merged rfl
    exact next_when acts (by simp only [vecWrite, Bool.not_eq_true', merged, f])
  · intro n acts value
    exact next_when acts (by rw [cursorWrite, value])
  · intro heard unowned control
    exact next_when (by rw [heard, unowned]; rfl) (congrArg (ackWrite · p) (if_pos control))
  · intro heard unowned other above below
    exact next_when (by rw [heard, unowned]; rfl) (congrArg (ackWrite · p) ((if_neg other).trans (if_pos ⟨above, below⟩)))
  · intro isWrite heard unhalted width first
    exact next_when (by rw [heard, unhalted, width]; rfl) (badAccess_first first)

end Sys2Proof.Proofs

/-!
Device, guard and function commands, and those of rings and move channels (R344, R353, R367 to R373, R447, R457, R458, R625, R627): what
the body of each answers where its checks hold.
-/

namespace Sys2Proof.Proofs

open Sys2Proof.Machine Sys2Proof.Safety Sys2Proof.Laws

/-- A ceiling of GUARD_SET is left as it is, or is no less than its least (R371). -/
theorem zero_or_le {n k : Nat} (h : n = 0 ∨ k ≤ n) : (n == 0 || decide (k ≤ n)) = true :=
  Bool.or_eq_true_iff.mpr (h.imp beq_iff_eq.mpr decide_eq_true)

/-- Settles O1: each command's body answers so where its checks hold, and the clause's hypotheses are those checks (log entry 84). -/
theorem deviceCommandsComplete : Obligations.DeviceCommandsComplete := by
  intro m s c t d f
  have data : c.data = d := rfl
  have function : getFn t (fld d 0 1) = f := rfl
  refine ⟨fun accepted => serve_replies accepted rfl, fun accepted => serve_replies accepted rfl,
    fun accepted => serve_replies accepted rfl, fun accepted => serve_replies accepted rfl, ?_,
    fun accepted => serve_replies accepted rfl, ?_, ?_, ?_, ?_⟩
  · intro k accepted reserved found
    refine serve_replies accepted (show ticketInfo c t = _ from ?_)
    simp only [ticketInfo, data, reserved, found]
  · intro accepted reserved reservedTail power egress
    refine serve_replies accepted (show guardSet c t = _ from ?_)
    refine checked_holds ?_ _ _
    simp only [List.all_cons, List.all_nil, data, reserved, reservedTail, zero_or_le power, zero_or_le egress, Bool.and_self]
  · intro accepted reserved reservedTail positive small active gateway disabled
    refine serve_issues accepted (show funcEnable c t = _ from ?_)
    simp only [funcEnable, data, function, disabled, if_true]
    refine checked_holds ?_ _ _
    simp only [List.all_cons, List.all_nil, reserved, reservedTail, positive, small, active, bne_iff_ne.mpr gateway, decide_true,
      Bool.and_self]
  · intro accepted reserved positive other enabled
    refine serve_issues accepted (show funcDisable c t = _ from ?_)
    simp only [funcDisable, data, function, enabled, if_true]
    refine checked_holds ?_ _ _
    simp only [List.all_cons, List.all_nil, reserved, bne_iff_ne.mpr positive, bne_iff_ne.mpr other, bne_iff_ne.mpr Nat.one_ne_zero,
      Bool.and_self]
  · intro accepted reserved
    refine serve_replies accepted (checked_holds ?_ _ _)
    simp only [List.all_cons, List.all_nil, Bool.and_true]
    exact reserved

/-! ## Rings and move channels -/

/-- The checks of a ring and its queues hold where the ring is ABSENT, its queues are in place and there is room for it (R344, R447). -/
theorem all_ringChecks {s : State} {owner ws sq cq sqN cqN entry ring vec dev : Nat} (sqSize : ringSize sqN = true)
    (cqSize : ringSize cqN = true) (vector : vec < 256 ∨ vec = 0xFFFF) (small : ring < 256)
    (absent : (getRing (getFn s owner) ring).state = 0) (sqAt : sqOk s ws sq (sqN * entry) = true) (cqAt : cqOk s ws cq cqN = true)
    (room : roomFor s ws 1 (·.rings) = true) (free : freeDevRing s = some dev) :
    (ringChecks s owner ws sq cq sqN cqN entry ring vec).all (·.1) = true := by
  have vectorOk : (decide (vec < 256) || vec == 0xFFFF) = true := Bool.or_eq_true_iff.mpr (vector.imp decide_eq_true beq_iff_eq.mpr)
  simp only [ringChecks, List.all_cons, List.all_nil, sqSize, cqSize, vectorOk, small, absent, sqAt, cqAt, room, free, Option.isSome_some,
    decide_true, beq_self_eq_true, Bool.and_self]

/-- The checks of a channel hold where it is open and the issuer's own (R458). -/
theorem all_chanChecks {c : Ctx} {s : State} {zero : Bool} (reserved : zero = true) (small : fld c.data 0 1 < 64)
    (opened : (getChan s (fld c.data 0 1)).state ≠ 0) (own : (getChan s (fld c.data 0 1)).ws = c.ws) :
    (chanChecks c s zero).all (·.1) = true := by
  simp only [chanChecks, List.all_cons, List.all_nil, reserved, small, bne_iff_ne.mpr opened, own, decide_true, beq_self_eq_true,
    Bool.and_self]

/-- Settles O6: each command's body answers so where its checks hold, and the clause's hypotheses are those checks. -/
theorem ringCommandsComplete : Obligations.RingCommandsComplete := by
  intro m s c t d n x g
  have data : c.data = d := rfl
  have number : fld d 0 1 = n := rfl
  have channel : getChan t n = x := rfl
  have ring : getRing (getFn t c.owner) n = g := rfl
  refine ⟨?_, ?_, ?_, ?_, ?_, ?_, ?_, ?_, ?_⟩
  · intro dev accepted reserved entries sqSize cqSize vector small absent sqAt cqAt room free
    refine serve_replies accepted (show ringCreate c t = _ from ?_)
    simp only [ringCreate, data, free, Option.getD_some]
    refine checked_holds ?_ _ _
    rw [List.all_append, all_ringChecks sqSize cqSize vector small absent sqAt cqAt room free]
    simp only [List.all_cons, List.all_nil, reserved, entries, decide_true, Bool.and_self]
  · intro accepted reserved created work
    refine serve_issues accepted (show ringDestroy c t = _ from ?_)
    refine checked_holds ?_ _ _
    simp only [List.all_cons, List.all_nil, data, number, ring, reserved, bne_iff_ne.mpr created, work, beq_self_eq_true, Bool.and_self]
  · intro accepted reserved created
    refine serve_replies accepted (checked_holds ?_ _ _)
    simp only [List.all_cons, List.all_nil, Bool.and_true, Bool.and_eq_true]
    exact ⟨reserved, bne_iff_ne.mpr created⟩
  · intro dev ch accepted reserved reservedTail sqSize cqSize vector small absent sqAt cqAt room free roomChan closed
    refine serve_replies accepted (show moveOpen c t = _ from ?_)
    simp only [moveOpen, data, free, closed, Option.getD_some]
    refine checked_holds ?_ _ _
    rw [List.all_append, List.all_append, all_ringChecks sqSize cqSize vector small absent sqAt cqAt room free]
    simp only [List.all_cons, List.all_nil, reserved, reservedTail, roomChan, Option.isSome_some, Bool.and_self]
  · intro accepted reserved small opened own
    exact serve_issues accepted (checked_holds (all_chanChecks reserved small opened own) _ _)
  · intro accepted reserved small state own
    have opened : x.state ≠ 0 := by omega
    have unclosed : x.state ≠ 4 := by omega
    refine serve_issues accepted (show movePause c t = _ from ?_)
    simp only [movePause, data, number, channel]
    refine (checked_holds ?_ _ _).trans ?_
    · rw [List.all_append, all_chanChecks reserved small opened own]
      simp only [List.all_cons, List.all_nil, bne_iff_ne.mpr unclosed, Bool.and_self]
    · split
      next paused => omega
      next => rfl
  · intro accepted reserved small state own
    have opened : x.state ≠ 0 := by omega
    refine serve_replies accepted (checked_holds ?_ _ _)
    rw [List.all_append, all_chanChecks reserved small opened own]
    simp only [List.all_cons, List.all_nil, Bool.and_true, Bool.true_and]
    exact beq_or_beq state
  · intro accepted reserved small opened own
    exact serve_replies accepted (checked_holds (all_chanChecks reserved small opened own) _ _)
  · intro accepted reserved reservedTail small opened positive few
    refine serve_replies accepted (show moveRate c t = _ from ?_)
    refine checked_holds ?_ _ _
    simp only [List.all_cons, List.all_nil, data, number, channel, reserved, reservedTail, small, bne_iff_ne.mpr opened, positive, few,
      decide_true, Bool.and_self]

end Sys2Proof.Proofs

/-!
Bring-up, power and temperature (R378 to R395, R563 to R573, R575, R582 to R593, R604 to R608): each row acts under its condition.
-/

namespace Sys2Proof.Proofs

open Sys2Proof.Machine

/-- Straps that every contact reads alike, with no reserved value and HOLDUP_OK set, are kept (R379, R381). -/
theorem strapSample_kept {mv : List (List Nat)} {s : State} {l : List Nat} (levels : mv.mapM contactLevel = some l)
    (mode : bits (strapWord l) 9 8 ≠ 3) (holdup : bit (strapWord l) 10 = true) : strapSample mv s =
      { s with boot := { s.boot with straps := strapWord l, stage := .strapGuard, since := ns s }, svc := { s.svc with phase := 4 } } := by
  simp only [strapSample, levels, mode, holdup, Bool.not_true, Bool.false_eq_true, if_false]
  rfl

/-- Settles O24: each row waits on its stage, and its effect is the one named (log entries 94, 96 and 150). -/
theorem bringUpComplete : Obligations.BringUpComplete := by
  intro s
  refine ⟨?_, ?_, ?_, ?_, ?_, ?_, ?_, ?_, ?_, ?_, ?_, ?_, ?_, ?_, ?_⟩
  · intro vin off least fresh
    exact next_when (by rw [off, decide_eq_true least, fresh]; rfl) rfl
  · exact fun ok powered => next_when (decide_eq_true powered) rfl
  · exact fun powered => next_when (decide_eq_true powered) rfl
  · intro mv l contacts samples strap settled levels mode holdup
    exact guarded_next (by rw [contacts, samples]; rfl) (by rw [strap, settled]; rfl) (strapSample_kept levels mode holdup)
  · intro strap past
    exact next_when (by rw [strap, past]; rfl) (if_pos strap)
  · intro boot past
    have unstrapped : s.boot.stage ≠ .strapGuard := by rw [boot]; exact Stage.noConfusion
    exact next_when (by rw [boot, past]; rfl) (if_neg unstrapped)
  · intro flash boot unrecovered
    exact next_when (by rw [boot, bne_iff_ne.mpr unrecovered]; rfl) rfl
  · intro pkg boot recovered
    exact next_when (by rw [boot, recovered]; rfl) rfl
  · intro stopped past
    exact next_when (by rw [stopped, past]; rfl) rfl
  · intro steps sixteen known discover unfinished
    exact guarded_next (by rw [sixteen, known]; rfl) (by rw [discover, unfinished]; rfl) rfl
  · exact fun chan probes present probed => guarded_next (decide_eq_true present) probed rfl
  · exact exec_runEntry
  · intro discover waits past
    exact next_when (by rw [discover, bne_iff_ne.mpr waits, past]; rfl) rfl
  · intro vin on starting low
    exact next_when (by rw [decide_eq_true on, decide_eq_true starting, decide_eq_true low]; rfl) rfl
  · intro addr present strapped phase unnamed
    exact guarded_next (decide_eq_true present) (by rw [strapped, phase, unnamed]; rfl) rfl

/-- Settles O26: each row waits on its condition, and its effect is the one named. -/
theorem powerEventsComplete : Obligations.PowerEventsComplete := by
  intro s
  refine ⟨?_, ?_, ?_, ?_, ?_, ?_, ?_, ?_, ?_, ?_, ?_, ?_, ?_⟩
  · exact fun f whole => next_when whole rfl
  · exact fun runs past => next_when (by rw [runs, past]; rfl) rfl
  · exact fun capped past => next_when (by rw [capped, past]; rfl) rfl
  · exact fun rises => next_when rises rfl
  · intro runs least below unsent
    exact next_when (by rw [runs, decide_eq_true least, decide_eq_true below, unsent]; rfl) rfl
  · intro runs above unsent
    exact next_when (by rw [runs, decide_eq_true above, unsent]; rfl) rfl
  · exact fun cause least greatest on => guarded_next (both_present least greatest) (decide_eq_true on) rfl
  · exact fun off tripped => next_when (by rw [off, tripped]; rfl) rfl
  · exact fun runs lost => next_when (by rw [runs, lost]; rfl) rfl
  · exact fun flushing => next_when flushing rfl
  · exact fun vin flushing low => next_when (by rw [flushing, decide_eq_true low]; rfl) rfl
  · intro heard unflushed phase stopped
    have stoppedOk : (decide (s.boot.stage ≠ .stopped) || s.boot.stopCode == 7) = true :=
      Bool.or_eq_true_iff.mpr (stopped.imp decide_eq_true beq_iff_eq.mpr)
    exact next_when (by rw [heard, unflushed, beq_or_beq phase, stoppedOk]; rfl) rfl
  · exact fun alarm past => next_when (by rw [alarm, past]; rfl) rfl

/-- Settles O27: each row waits on its condition, and its effect is the one named. -/
theorem thermalEventsComplete : Obligations.ThermalEventsComplete := by
  intro s
  refine ⟨?_, ?_, ?_, ?_⟩
  · intro hub stk cane fh sixteen four two on
    exact guarded_next (by rw [sixteen, four, two]; rfl) (decide_eq_true on) rfl
  · exact fun on past => next_when (by rw [decide_eq_true on, past]; rfl) rfl
  · exact fun kind inst on unflushed due => next_when (by rw [decide_eq_true on, unflushed, due]; rfl) rfl
  · exact fun runs past => next_when (by rw [runs, past]; rfl) rfl

/-! ## The event recorder -/

theorem intakeOne_chosen {s : State} {e : Event} {ptr : Nat} (chosen : intakeChoice s.evr = some (e, ptr)) :
    intakeOne s = recordEvent { s with evr := { s.evr with intake := s.evr.intake.erase e, ptr := ptr } } e := by
  simp only [intakeOne, chosen]

theorem writeLatch_cons {s : State} {l : Latch} {rest : List Latch} (first : s.evr.latches = l :: rest) :
    writeLatch s = writeRecord { s with evr := { s.evr with latches := rest } } l.ev l.rep := by
  simp only [writeLatch, first]

theorem summariseCode_due {s : State} {code : Nat} {f : Fold} (due : dueFold s code = some f) :
    summariseCode code s = summarise s f := by
  simp only [summariseCode, due]

/-- Settles O35: each row finds the event, latch, fold or count that it names, and acts under its condition. -/
theorem recorderEventsComplete : Obligations.RecorderEventsComplete := by
  intro s
  refine ⟨?_, ?_, ?_, ?_, ?_, ?_⟩
  · intro e ptr waits chosen
    exact next_when (by rw [List.isEmpty_eq_false_iff.mpr waits]; rfl) (intakeOne_chosen chosen)
  · intro l rest first room
    exact next_when (by rw [first, decide_eq_true room]; rfl) (writeLatch_cons first)
  · exact fun code f due => next_when (Option.isSome_of_eq_some due) (summariseCode_due due)
  · exact fun due none => next_when due (if_pos none)
  · exact fun due some => next_when due (if_neg some)
  · intro unarchived mounted
    exact next_when (by rw [decide_eq_true unarchived, beq_or_beq mounted]; rfl) rfl

/-! ## Clocks -/

/-- Settles O32: each row waits on its condition, and takes the branch of its state. -/
theorem clockEventsComplete : Obligations.ClockEventsComplete := by
  intro s
  refine ⟨?_, ?_, ?_, ?_, ?_, ?_, ?_, ?_, ?_, ?_⟩
  · intro port msg present live up
    have upOk : (portUp s port || ((getPort s port).state == 3 && msg.kind == 2)) = true :=
      Bool.or_eq_true_iff.mpr (up.imp_right fun ⟨training, sync⟩ => by rw [training, sync]; rfl)
    exact guarded_next (decide_eq_true present) (by rw [live, upOk]; rfl) rfl
  · exact fun port kind present known due => guarded_next (both_present present known) due rfl
  · intro slave locked late
    exact next_when (by rw [slave, locked, late]; rfl) (if_pos locked)
  · intro slave held late
    have unlocked : s.clk.state ≠ 2 := by omega
    exact next_when (by rw [slave, held, late]; rfl) (if_neg unlocked)
  · intro unlost run
    exact next_when (by rw [unlost, run]; rfl) (if_pos run)
  · intro unlost on working starting
    exact next_when (by rw [unlost, decide_eq_false on, decide_eq_false working]; rfl) (if_neg starting)
  · exact fun lost => next_when lost rfl
  · exact fun run => next_when (decide_eq_true run) rfl
  · exact fun gone => next_when gone rfl
  · intro runs timed due
    exact next_when (by rw [runs, timed, decide_eq_true due]; rfl) rfl

end Sys2Proof.Proofs

/-!
Ports, feeds and connectors, and the packets and accesses of the fabric (R393, R402 to R417, R597).
-/

namespace Sys2Proof.Proofs

open Sys2Proof.Machine Sys2Proof.Laws

/-! ## Ports -/

theorem lightAt_first {s : State} {port : Nat} (dark : (getPort s port).lightSince = none) : lightAt s port =
    putPort s port { getPort s port with
      lightSince := some (ns s), probeAt := ns s, pulses := (getPort s port).pulses + 1 } := by
  simp only [lightAt, dark]

/-- Settles O30: each row waits on the state of its port, and its effect is the one named. -/
theorem linkEventsComplete : Obligations.LinkEventsComplete := by
  intro port s present x
  have there : decide (port < 32) = true := decide_eq_true present
  refine ⟨?_, ?_, ?_, ?_, ?_, ?_, ?_, ?_, ?_, ?_, ?_, ?_, ?_, ?_⟩
  · intro wl known live up works
    exact guarded_next (both_present present known) (by rw [live, up, works]; rfl) rfl
  · exact fun lane wl first known acts => guarded_next (both_present present known) acts rfl
  · intro rx wl pass known live up due
    exact guarded_next (both_present present known) (by rw [live, up, due]; rfl) rfl
  · exact fun training late => guarded_next there (by rw [decide_eq_true training, late]; rfl) rfl
  · exact fun tx rx delay live acts => guarded_next there (by rw [live, acts]; rfl) rfl
  · intro probing emits lit due
    have dueOk : (x.pulses == 0 || elapsed s x.probeAt 1000000000) = true := Bool.or_eq_true_iff.mpr (due.imp_left beq_iff_eq.mpr)
    exact guarded_next there (by rw [probing, emits, lit, dueOk]; rfl) rfl
  · intro live probing emits lit dark
    exact guarded_next there (by rw [live, probing, emits, lit]; rfl) (lightAt_first dark)
  · intro opened
    exact guarded_next there (Bool.or_eq_true_iff.mpr (opened.imp_left decide_eq_true)) rfl
  · exact fun corrected uncorrectable f live up => guarded_next there (by rw [live, up]; rfl) rfl
  · exact fun up late => guarded_next there (by rw [up, late]; rfl) rfl
  · intro msg live trains whole
    exact guarded_next there (by rw [live, decide_eq_true trains, decide_eq_true whole]; rfl) rfl
  · exact fun up late => guarded_next there (by rw [up, late]; rfl) rfl
  · intro live rests lit due
    exact guarded_next there (by rw [live, rests, lit, due]; rfl) rfl
  · intro live trains due
    exact guarded_next there (by rw [live, decide_eq_true trains, due]; rfl) rfl

/-! ## The fabric -/

theorem receive_cons {s : State} {port : Nat} {p : Packet} {rest : List (Nat × Packet)} (first : s.fab.arrived = (port, p) :: rest) :
    receive s = if p.dst = fabricDev s then receiveHere (freeCells { s with fab := { s.fab with arrived := rest } } port p) port p
      else relay (freeCells { s with fab := { s.fab with arrived := rest } } port p) p := by
  simp only [receive, first]

theorem memWrite_stored {s : State} {p : Packet} (allowed : fabricOk (takeMsg s p) p (p.payload.drop 8).length = true)
    (whole : endsPoisoned (takeMsg s p).mem (bits (fld p.payload 0 8) 40 0) (p.payload.drop 8).length = false) :
    memWrite s p = sendTxn { takeMsg s p with mem := store (takeMsg s p).mem (bits (fld p.payload 0 8) 40 0) (p.payload.drop 8) }
      p.src p.vc p.ws 0x11 p.txn [] := by
  simp only [memWrite, allowed, whole, Bool.not_true, Bool.false_eq_true, if_false]

/-- Settles O31: each row waits on its condition, and takes the branch that the clause's hypotheses choose. -/
theorem fabricEventsComplete : Obligations.FabricEventsComplete := by
  intro s
  refine ⟨?_, ?_, ?_, ?_, ?_, ?_, ?_, ?_, ?_, ?_, ?_⟩
  · exact fun feed present live lit => guarded_next (decide_eq_true present) (by rw [live, lit]; rfl) rfl
  · exact fun cane present sensed seated => guarded_next (decide_eq_true present) (by rw [sensed, seated]; rfl) rfl
  · intro cane present sensed unseated past
    exact guarded_next (decide_eq_true present) (by rw [sensed, unseated, past]; rfl) rfl
  · intro src ls live mesh peer whole
    exact next_when (by rw [live, mesh, peer, whole]; rfl) rfl
  · intro live due
    exact next_when (by rw [live, Bool.or_eq_true_iff.mpr due]; rfl) rfl
  · exact fun dst vc known idle => next_when (by rw [known, idle]; rfl) rfl
  · intro port p rest live first
    exact next_when live (congrArg (fun u => takeRequests (takeSessions (takeLoads u))) (receive_cons first))
  · exact fun src vc seq nak live => next_when live rfl
  · intro dst vc seq h held live
    show execTc7Resend dst vc seq s = _
    simp only [execTc7Resend, held, when_pos live]
  · intro p run write long t a d allowed whole
    exact next_when (by rw [run, write, decide_eq_true long]; rfl) (memWrite_stored allowed whole)
  · intro p run read long t a n allowed
    have refused : (!fabricOk t p n) ≠ true := by rw [allowed]; exact Bool.false_ne_true
    exact next_when (by rw [run, read, decide_eq_true long]; rfl) (if_neg refused)

end Sys2Proof.Proofs

/-!
Egress, move engines, flash, groups, leases and lehr activities (R429 to R455, R463 to R490, R492 to R512, R544, R596).
-/

namespace Sys2Proof.Proofs

open Sys2Proof.Machine

/-! ## Egress and move engines -/

section
variable {s : State}

theorem startDescriptor_accepted {chan : Nat} : let x := getChan s chan; let g := getRing (getFn s x.fn) x.ring;
    let d := readBytes s.mem (g.sqDpa + g.sqCi.toNat % g.sqEntries * 64) 64
    descCheck x.ws d = none → startDescriptor s chan =
      putChan (putRing s x.fn x.ring { g with sqCi := g.sqCi + 1, inFlight := g.inFlight + 1 }) chan
        { x with job := some ⟨d, g.sqCi.toNat, 0, 0, [], 0, 0, 0, ns s⟩ } := by
  intro x g d accepted
  simp only [x, g, d] at accepted
  simp only [startDescriptor, accepted, x, g, d]

theorem moveGrant_granted {r : Nat} (granted : busGrant s = some r) : moveGrant s =
    if r = 0 then grantResult { s with move := { s.move with ptr := (r + 1) % 65 } }
      else grantChannel { s with move := { s.move with ptr := (r + 1) % 65 } } (r - 1) := by
  simp only [moveGrant, granted]

/-- Settles O33: each row waits on its condition, and finds the gate list, the descriptor or the burst that it acts on. -/
theorem trafficEventsComplete : Obligations.TrafficEventsComplete := by
  intro s
  refine ⟨?_, ?_, ?_, ?_, ?_, ?_, ?_⟩
  · exact fun port present selects => guarded_next (decide_eq_true present) selects rfl
  · intro port g present pending due
    exact guarded_next (decide_eq_true present) (by rw [pending]; exact decide_eq_true due) rfl
  · intro port present x e gated
    exact guarded_next (decide_eq_true present) (decide_eq_true gated) rfl
  · intro port present x due
    exact guarded_next (decide_eq_true present) due rfl
  · intro chan present starts x g d accepted
    exact guarded_next (decide_eq_true present) starts (startDescriptor_accepted accepted)
  · exact fun r runs granted => next_when runs (moveGrant_granted granted)
  · intro chan off h j b present found runs
    show execMoveBurstDone chan off h s = _
    simp only [execMoveBurstDone, guarded, decide_eq_true present, found, when_pos runs, if_true]

/-! ## Flash -/

/-- Without a running activity to move blocks for, one is asked for (R474). -/
theorem wearMove_asks {group : Nat} (unasked : s.rack.running.find? (groupActivity 2 group) = none) :
    wearMove group s = requestGroupActivity s 2 group := by
  simp only [wearMove, unasked]

theorem stripeDue_formed {stream g : Nat} {fold : Bool} {st : Stream} {d : List (List Byte)}
    (found : journalStream s stream = some (g, st)) (formed : nextUnits (getGroup s g) st fold = some d) :
    stripeDue s stream fold = true := by
  simp only [stripeDue, found, formed, Option.isSome_some]

theorem stripeForm_formed {stream g : Nat} {fold : Bool} {st : Stream} {d : List (List Byte)}
    (found : journalStream s stream = some (g, st)) (formed : nextUnits (getGroup s g) st fold = some d) :
    stripeForm stream fold s = formStripe g st d s := by
  simp only [stripeForm, found, formed]

end

/-- Settles O34: each row waits on the state of its group, channel or stripe, and its effect is the one named. -/
theorem flashEventsComplete : Obligations.FlashEventsComplete := by
  intro s
  refine ⟨?_, ?_, ?_, ?_, ?_, ?_, ?_, ?_, ?_, ?_, ?_, ?_, ?_, ?_, ?_⟩
  · exact fun chan target o present known due => guarded_next (both_present present known) due rfl
  · exact fun group present due => guarded_next (decide_eq_true present) due rfl
  · exact fun group present due unasked => guarded_next (decide_eq_true present) due (wearMove_asks unasked)
  · exact fun group a present due _ => guarded_next (decide_eq_true present) due rfl
  · intro group present mounted unasked
    have idle : ¬ s.rack.running.any (groupActivity 1 group) = true := Bool.eq_false_iff.mp unasked
    exact guarded_next (decide_eq_true present) (beq_or_beq mounted) (if_neg idle)
  · exact fun group present mounted _ => guarded_next (decide_eq_true present) (beq_or_beq mounted) rfl
  · exact fun group src present probed => guarded_next (decide_eq_true present) (beq_or_beq probed) rfl
  · intro group probes present absent starts
    have live : (inRun s || decide (s.boot.stage = .discover)) = true := Bool.or_eq_true_iff.mpr (starts.imp_right decide_eq_true)
    exact guarded_next (decide_eq_true present) (by rw [absent, live]; rfl) rfl
  · exact fun group present offline => guarded_next (decide_eq_true present) (by rw [offline]; rfl) (if_pos offline)
  · exact fun group present seated => guarded_next (decide_eq_true present) (bne_iff_ne.mpr seated) rfl
  · exact fun stream fold g st d found formed => next_when (stripeDue_formed found formed) (stripeForm_formed found formed)
  · exact fun setId index member waits => next_when waits rfl
  · exact fun setId index member late => next_when late rfl
  · exact fun setId lost units listed => next_when listed rfl
  · exact fun temps starts => next_when (Bool.or_eq_true_iff.mpr (starts.imp_right decide_eq_true)) rfl

/-! ## Groups, leases and the lehr scheduler -/

section
variable {s : State}

theorem takeMembership_wins {m : Membership} {pools : Option (List (List Nat × Bool))}
    (runs : firmwareRuns (takeInbox s 0x50 m.gateway) = true)
    (wins : memWins (findGroup (takePools pools (takeInbox s 0x50 m.gateway)) m.group) m = true) :
    takeMembership m pools s = announceGroup m (takePools pools (takeInbox s 0x50 m.gateway)) := by
  simp only [takeMembership, runs, wins, if_true]

/-- The answer to a RENEW, of no earlier epoch and with no lapse behind it, gives the lease from when it was asked for (R499). -/
theorem takeGrant_renews {g : Group} {epoch expiry seq sent : Nat} (asked : g.renews.find? (·.1 == seq) = some (seq, sent))
    (current : g.mem.epoch ≤ epoch) (unlapsed : g.lease ≠ 2) (same : g.leaseEpoch = 0 ∨ epoch ≤ g.leaseEpoch) :
    takeGrant g epoch expiry seq s = putLease s { g with
      lease := 1, expiry := expiry, expiryLocal := sent + 200000000
      leaseEpoch := epoch, renews := g.renews.filter (·.1 != seq) } := by
  have taken : ¬(epoch < g.mem.epoch ∨ (g.lease = 2 ∧ epoch ≤ g.lapsedEpoch)) := by omega
  have unchanged : ¬(g.leaseEpoch ≠ 0 ∧ g.leaseEpoch < epoch) := by omega
  simp only [takeGrant, asked, if_neg taken, if_neg unchanged, if_neg unlapsed]

section
variable {obj gid shard : Nat} {table mirror : Bool} {src : RebuildSource} {a : Activity}

theorem rebuildCopy_running {b : Activity} (scope : rebuildScope s obj table mirror = some (gid, shard, a))
    (running : (s.rack.running.find? fun b => b.code == 4 && sameScope a b) = some b) (own : b.command = false) :
    rebuildCopy obj table mirror src s = dropActivity (takeSource obj table mirror src gid shard s) b.ident := by
  simp only [rebuildCopy, scope, running, own, Bool.false_eq_true, if_false]

theorem rebuildCopy_asks (scope : rebuildScope s obj table mirror = some (gid, shard, a))
    (idle : (s.rack.running.find? fun b => b.code == 4 && sameScope a b) = none)
    (unasked : (s.rack.queued.any fun b => b.code == 4 && sameScope a b) = false) :
    rebuildCopy obj table mirror src s = submit s a := by
  simp only [rebuildCopy, scope, idle, unasked, Bool.false_eq_true, if_false]

end

theorem lehrAdmit_queued {ident : Nat} {a : Activity} (queued : s.rack.queued.find? (·.ident == ident) = some a) :
    lehrAdmit ident s = recalBegin { dropActivity s ident with rack := { (dropActivity s ident).rack with
      running := (dropActivity s ident).rack.running ++ [{ a with since := net s, roundAt := ns s }] } } ident := by
  simp only [lehrAdmit, queued]

end

/-- Settles O29: each row finds the group, the copy or the activity that it names, and acts under its condition (log entries 127 and
131). -/
theorem rackEventsComplete : Obligations.RackEventsComplete := by
  intro s
  refine ⟨?_, ?_, ?_, ?_, ?_, ?_, ?_, ?_, ?_, ?_⟩
  · intro m pools _ u wins runs
    exact congrArg _ (takeMembership_wins runs wins)
  · intro group g found runs timed member
    show execRenewSend group s = _
    simp only [execRenewSend, found]
    exact next_when (by rw [runs, timed, member]; rfl) rfl
  · intro group epoch expiry seq g sent found runs asked current unlapsed same
    show execGrantMsg group epoch expiry seq s = _
    simp only [execGrantMsg, found]
    exact next_when runs (takeGrant_renews asked current unlapsed same)
  · intro group g found runs past
    show execLeaseLapse group s = _
    simp only [execLeaseLapse, found]
    exact next_when (by rw [runs, past]; rfl) rfl
  · intro group g found runs held swapped
    show execReleaseSend group s = _
    simp only [execReleaseSend, found]
    exact next_when (by rw [runs, held, swapped]; rfl) rfl
  · exact fun obj table mirror src gid shard a b runs scope running own => next_when runs (rebuildCopy_running scope running own)
  · exact fun obj table mirror src gid shard a runs scope idle unasked => next_when runs (rebuildCopy_asks scope idle unasked)
  · exact fun runs past => next_when (by rw [runs, past]; rfl) rfl
  · intro ident a admits queued t
    exact next_when admits (lehrAdmit_queued queued)
  · exact fun ident finished ends runs => next_when (by rw [ends, runs]; rfl) rfl

end Sys2Proof.Proofs

/-!
Fabric, time, group and scheduling commands, and those of flash, maintenance, health, live service and the recorder (R422 to R425, R442
to R445, R489 to R496, R513 to R516, R529 to R545, R560): what the body of each answers where its checks hold.
-/

namespace Sys2Proof.Proofs

open Sys2Proof.Machine Sys2Proof.Safety Sys2Proof.Laws

/-! ## Fabric, time, groups and scheduling -/

/-- Settles O7: each command's body answers so where its checks hold, and the clause's hypotheses are those checks. -/
theorem fabricCommandsComplete : Obligations.FabricCommandsComplete := by
  intro m s c t d p
  have data : c.data = d := rfl
  have port : fld d 0 1 = p := rfl
  refine ⟨?_, ?_, ?_, fun accepted => serve_replies accepted rfl, fun accepted => serve_replies accepted rfl, ?_, ?_, ?_, ?_, ?_⟩
  · intro accepted reserved present
    refine serve_replies accepted (show fabPortInfo c t = _ from checked_holds ?_ _ _)
    simp only [List.all_cons, List.all_nil, data, port, reserved, present, decide_true, Bool.and_self]
  · intro accepted reserved present flags lanes u
    have known : fld d 1 1 < 4 := by omega
    have one : fld d 1 1 ≠ 3 := by omega
    refine serve_replies accepted (show fabPortSet c t = _ from checked_holds ?_ _ _)
    simp only [List.all_cons, List.all_nil, data, port, reserved, present, decide_eq_true known, decide_eq_true one, lanes, decide_true,
      Bool.and_self]
  · intro accepted reserved reservedTail present enabled
    refine serve_issues accepted (show fabRetrain c t = _ from checked_holds ?_ _ _)
    simp only [List.all_cons, List.all_nil, data, port, reserved, reservedTail, present, bne_iff_ne.mpr enabled, decide_true,
      Bool.and_self]
  · intro g accepted reserved found held
    have named : findGroup (takeRequest s m) (fld (reqCtx m s).data 0 4) = some g := found
    refine serve_replies (t := takeRequest s m) accepted ?_
    simp only [named]
    refine checked_holds ?_ _ _
    rw [List.all_cons, List.all_cons, List.all_nil, Bool.and_true]
    exact Bool.and_eq_true_iff.mpr ⟨reserved, held⟩
  · intro accepted reserved present
    refine serve_replies accepted (checked_holds ?_ _ _)
    rw [List.all_cons, List.all_nil, Bool.and_true]
    exact Bool.and_eq_true_iff.mpr ⟨reserved, decide_eq_true present⟩
  · intro accepted reserved reservedMid reservedTail value u
    refine serve_replies accepted (show schedClassSet c t = _ from checked_holds ?_ _ _)
    simp only [List.all_cons, List.all_nil, data, port, reserved, reservedMid, reservedTail, value, Bool.and_self]
  · intro accepted list idle
    refine serve_issues accepted (show schedGateLoad c t = _ from ?_)
    simp only [schedGateLoad, data, port, idle, Option.bind_none]
    refine checked_holds ?_ _ _
    rw [List.all_cons, List.all_nil, list, Bool.and_self]
  · intro accepted reserved flag present cls ws
    have wsOk : (fld d 2 2 == 0xFFFF || (decide (fld d 2 2 < 4096) && fld d 1 1 != 7)) = true := by
      rw [Bool.or_eq_true, Bool.and_eq_true, beq_iff_eq, decide_eq_true_eq, bne_iff_ne]; exact ws
    refine serve_replies accepted (show schedSample c t = _ from checked_holds ?_ _ _)
    simp only [List.all_cons, List.all_nil, data, port, reserved, flag, present, cls, wsOk, decide_true, Bool.and_self]

/-! ## Flash, maintenance and health -/

/-- A lehr start takes a place at once, or waits where the queue has room (R511). -/
theorem start_fits {s : State} {a : Activity} (h : deferred s a = false ∨ queueRoom s true = true) :
    (!deferred s a || queueRoom s true) = true := by
  rw [Bool.or_eq_true, Bool.not_eq_true']; exact h

/-- Where no component of the kind holds a score, none is scored again by a change of its thresholds (R493, R496). -/
theorem scores_of_kind_eq_nil {s : State} {k : Nat} (none : ∀ p ∈ s.rack.scores, p.1 / 2 ^ 20 ≠ k) :
    (s.rack.scores.filter fun p => p.1 / 2 ^ 20 == k) = [] :=
  List.filter_eq_nil_iff.mpr fun p held => by rw [beq_iff_eq]; exact none p held

/-- Settles O8: each command's body answers so where its checks hold, and the clause's hypotheses are those checks. -/
theorem maintenanceCommandsComplete : Obligations.MaintenanceCommandsComplete := by
  intro m s c t d k x
  have data : c.data = d := rfl
  have number : fld d 0 1 = k := rfl
  have group : getGroup t k = x := rfl
  refine ⟨?_, ?_, ?_, ?_, ?_, ?_, ?_, ?_, ?_, ?_⟩
  · intro accepted reserved present
    refine serve_replies accepted (checked_holds ?_ _ _)
    rw [List.all_cons, List.all_cons, List.all_nil, Bool.and_true]
    exact Bool.and_eq_true_iff.mpr ⟨reserved, decide_eq_true present⟩
  · intro accepted reserved present
    refine serve_replies accepted (checked_holds ?_ _ _)
    rw [List.all_cons, List.all_cons, List.all_nil, Bool.and_true]
    exact Bool.and_eq_true_iff.mpr ⟨reserved, decide_eq_true present⟩
  · intro accepted one reserved least greatest
    refine serve_replies accepted (show flashSet c t = _ from checked_holds ?_ _ _)
    simp only [List.all_cons, List.all_nil, data, number, one, reserved, least, greatest, decide_true, beq_self_eq_true, Bool.and_self]
  · intro accepted reserved present mounted idle room
    refine serve_issues accepted (show carrierOffline c t = _ from checked_holds ?_ _ _)
    simp only [List.all_cons, List.all_nil, data, number, group, reserved, present, beq_or_beq mounted, idle, room, Option.isNone_none,
      decide_true, Bool.and_self]
  · intro accepted reserved present idle offline
    refine serve_issues accepted (show carrierOnline c t = _ from ?_)
    simp only [carrierOnline, data, number, group, idle]
    refine checked_holds ?_ _ _
    simp only [List.all_cons, List.all_nil, reserved, present, offline, decide_true, beq_self_eq_true, Bool.or_true, Bool.and_self]
  · intro accepted reserved reservedMid reservedTail scope a fits
    refine serve_issues accepted (show maintStart c t = _ from checked_holds ?_ _ _)
    simp only [List.all_cons, List.all_nil, data, reserved, reservedMid, reservedTail, Bool.and_self, Bool.true_and, Bool.and_true]
    exact Bool.and_eq_true_iff.mpr ⟨scope, start_fits fits⟩
  · intro a accepted found reserved stoppable
    have stops : (a.code != 4 || a.command) = true := Bool.or_eq_true_iff.mpr (stoppable.imp_left bne_iff_ne.mpr)
    refine serve_issues accepted (show maintCancel c t = _ from ?_)
    simp only [maintCancel, data, found]
    refine checked_holds ?_ _ _
    simp only [List.all_cons, List.all_nil, reserved, stops, Bool.and_self]
  · intro accepted reserved
    refine serve_replies accepted (checked_holds ?_ _ _)
    rw [List.all_cons, List.all_nil, Bool.and_true]
    exact reserved
  · intro accepted reserved there
    refine serve_replies accepted (checked_holds ?_ _ _)
    rw [List.all_cons, List.all_nil, Bool.and_true]
    exact Bool.and_eq_true_iff.mpr ⟨reserved, there⟩
  · intro accepted reserved reservedTail least greatest auto watch act most unscored
    have watched : fld d 4 4 ≠ 0 := by omega
    have acted : fld d 8 4 ≠ 0 := by omega
    refine serve_replies accepted (show healthSet c t = _ from ?_)
    simp only [healthSet, data, number, if_neg watched, if_neg acted, scores_of_kind_eq_nil unscored, List.foldl_nil]
    refine checked_holds ?_ _ _
    simp only [List.all_cons, List.all_nil, reserved, reservedTail, least, greatest, auto, watch, act, most, decide_true, Bool.and_self]

/-! ## Live service and the recorder -/

/-- The checks that FW_ACTIVATE and UCODE_LOAD share hold on a staged package that the image allows, with no switch under way (R533). -/
theorem all_activateChecks {c : Ctx} {s : State} {p : FwPackage} (reserved : zeroAt c.data 1 7 = true) (slot : fld c.data 0 1 ≤ 1)
    (staged : stagedFw s (fld c.data 0 1 == 1) = some p) (version : fld (imgSlotOf s.boot.flash s.boot.imgSlot) 12 4 ≤ p.version)
    (idle : (s.rack.running ++ s.rack.queued).any (·.code == 6) = false) (settled : s.live.handover = none)
    (unswitched : s.live.ucode = none) : (activateChecks c s).all (·.1) = true := by
  simp only [activateChecks, List.all_cons, List.all_nil, reserved, slot, staged, version, idle, settled, unswitched, Option.isSome_some,
    Option.isNone_none, decide_true, Bool.not_false, Bool.and_self]

/-- Settles O9: each command's body answers so where its checks hold, and the clause's hypotheses are those checks (log entries 86 and
98). -/
theorem serviceCommandsComplete : Obligations.ServiceCommandsComplete := by
  intro m s c t d k put free
  have data : c.data = d := rfl
  have number : fld d 0 1 = k := rfl
  refine ⟨?_, ?_, ?_, ?_, ?_, ?_, ?_, fun accepted => serve_replies accepted rfl, ?_, ?_, ?_, ?_⟩
  · intro p u accepted reserved reservedTail kind slot aligned buffer size other settled unswitched a fits l room x v
    have form : (zeroAt d 2 6 && zeroAt d 20 12) = true := Bool.and_eq_true_iff.mpr ⟨reserved, reservedTail⟩
    have named : (decide (k ≤ 1) && (fld d 1 1 == 0xFF || decide (fld d 1 1 ≤ 1))) = true :=
      Bool.and_eq_true_iff.mpr ⟨decide_eq_true kind, Bool.or_eq_true_iff.mpr (slot.imp beq_iff_eq.mpr decide_eq_true)⟩
    have source : (fld d 8 8 % 256 == 0 && bufferOk t 0 (fld d 8 8) (fld d 16 4) && stageSizeOk t d) = true := by
      rw [aligned, buffer, size]; rfl
    cases signed : stageSigned t d with
    | false =>
      refine serve_replies accepted (show fwStage c t = _ from ?_)
      exact (checked_cons form ..).trans ((checked_cons named ..).trans ((checked_cons source ..).trans (checked_fails signed ..)))
    | true =>
      cases valid : stageValid t d with
      | false =>
        refine serve_replies accepted (show fwStage c t = _ from ?_)
        exact (checked_cons form ..).trans ((checked_cons named ..).trans ((checked_cons source ..).trans ((checked_cons signed ..).trans
          (checked_fails valid ..))))
      | true =>
        refine serve_issues accepted (show fwStage c t = _ from ?_)
        simp only [l] at room
        simp only [fwStage, data, number, room]
        refine checked_holds ?_ _ _
        simp only [List.all_cons, List.all_nil, form, named, source, signed, valid, bne_iff_ne.mpr other, settled, unswitched,
          Option.isNone_none, Bool.and_self, Bool.true_and, Bool.and_true]
        exact start_fits fits
  · intro p accepted reserved slot staged version idle settled unswitched same
    refine serve_issues accepted (show fwActivate c t = _ from checked_holds ?_ _ _)
    rw [List.all_append, all_activateChecks reserved slot staged version idle settled unswitched]
    simp only [List.all_cons, List.all_nil, data, number, staged, same, beq_self_eq_true, Bool.and_self]
  · intro p accepted reserved slot staged version idle settled unswitched a fits
    refine serve_issues accepted (show ucodeLoad c t = _ from ?_)
    simp only [ucodeLoad, data, number, staged]
    refine checked_holds ?_ _ _
    rw [List.all_append, all_activateChecks reserved slot staged version idle settled unswitched]
    exact (Bool.and_true _).trans (start_fits fits)
  · intro accepted reserved reservedTail cane active measured unloaded a fits
    have noLoad : ((0 : Nat) == 1) = false := rfl
    refine serve_issues accepted (show opticsRecal c t = _ from ?_)
    simp only [opticsRecal, data, number, measured, noLoad]
    refine checked_holds ?_ _ _
    simp only [List.all_cons, List.all_nil, reserved, reservedTail, cane, active, unloaded, Bool.false_eq_true, if_false, Bool.not_false,
      Bool.true_or, Nat.zero_le, decide_true, Bool.and_self, Bool.true_and, Bool.and_true]
    exact start_fits fits
  · intro accepted reserved there active unretiring enough room a fits
    refine serve_issues accepted (show stackRetire c t = _ from checked_holds ?_ _ _)
    simp only [List.all_cons, List.all_nil, data, number, reserved, there, active, unretiring, enough, room, Bool.not_false, decide_true,
      Bool.and_self, Bool.true_and, Bool.and_true]
    exact start_fits fits
  · intro accepted reserved cane active activeOther lit reached a fits
    have reachedOk : ((t.rack.groups.filter (·.lease == 1)).all fun g => reachedWithout t k g.mem.gateway) = true := by
      rw [List.all_eq_true]
      intro g held
      obtain ⟨listed, leased⟩ := List.mem_filter.mp held
      exact reached g listed (beq_iff_eq.mp leased)
    refine serve_issues accepted (show caneRetire c t = _ from checked_holds ?_ _ _)
    simp only [List.all_cons, List.all_nil, data, number, reserved, cane, active, activeOther, lit, reachedOk, Bool.false_and,
      Bool.not_false, decide_true, Bool.and_self, Bool.true_and, Bool.and_true]
    exact start_fits fits
  · exact fun accepted => serve_issues accepted rfl
  · intro accepted reserved reservedTail positive few buffer bmc recs
    have reach : (c.owner != 256 || addrSpace (fld d 16 8) == 0) = true :=
      Bool.or_eq_true_iff.mpr (bmc.imp bne_iff_ne.mpr beq_iff_eq.mpr)
    refine serve_issues accepted (show archiveRead c t = _ from checked_holds ?_ _ _)
    simp only [List.all_cons, List.all_nil, data, reserved, reservedTail, positive, few, buffer, reach, decide_true, Bool.and_self]
  · intro accepted reserved reservedTail n
    by_cases token : tokenCheck t d ≠ 0
    · rw [if_pos token]
      refine serve_replies accepted (show evrClear c t = _ from ?_)
      simp only [evrClear, data, reserved, reservedTail, Bool.and_self, Bool.not_true, Bool.false_eq_true, if_false, if_pos token]
    · rw [if_neg token]
      refine serve_issues accepted (show evrClear c t = _ from ?_)
      simp only [evrClear, data, reserved, reservedTail, Bool.and_self, Bool.not_true, Bool.false_eq_true, if_false, if_neg token, n]
  · intro accepted trace reserved reservedTail u
    obtain ⟨noRate, mask, noForward⟩ : bit 2 0 = false ∧ bit 2 1 = true ∧ bit 2 2 = false := by decide
    refine serve_replies accepted (show classSet c t = _ from ?_)
    simp only [classSet, data, number, trace, noRate, mask, noForward, Bool.false_eq_true, if_false, if_true]
    refine checked_holds ?_ _ _
    simp only [List.all_cons, List.all_nil, reserved, reservedTail, Nat.reduceDiv, beq_self_eq_true, Bool.not_false, Bool.true_or,
      Bool.and_self]
  · intro accepted rate reserved reservedTail slowest fastest least most u
    obtain ⟨rated, noMask, noForward⟩ : bit 1 0 = true ∧ bit 1 1 = false ∧ bit 1 2 = false := by decide
    refine serve_replies accepted (show classSet c t = _ from ?_)
    simp only [classSet, data, number, rate, rated, noMask, noForward, Bool.false_eq_true, if_false, if_true]
    refine checked_holds ?_ _ _
    simp only [List.all_cons, List.all_nil, reserved, reservedTail, slowest, fastest, least, most, Nat.reduceDiv, beq_self_eq_true,
      Bool.not_false, Bool.not_true, Bool.true_or, Bool.false_or, decide_true, Bool.and_self]

end Sys2Proof.Proofs
